-- ==== Sys2Proof/Word.lean ====
section
/-! DEFINITION. The word types of the KQ-240 and the plainest operations over fixed tables: bytes, the two
time counts, the numbered things of 00_scope.md "Numbering", reading and writing one place of a table. -/

namespace Sys2Proof

/-- One byte of a message, a frame or the settings memory. -/
abbrev Byte := BitVec 8
/-- A 16-bit field: terminal sequences, frame handles, gantry values. -/
abbrev Half := BitVec 16
/-- A 32-bit field: radio addresses, generations. -/
abbrev Word := BitVec 32
/-- A reading of the millisecond count or of the second count (R10): 32 bits, wrapping. -/
abbrev Time := BitVec 32

/-- Agent links 0 to 3. -/
abbrev LinkNo := Fin 4
/-- Radio heads 0 to 11. -/
abbrev HeadNo := Fin 12
/-- Beams 0 to 23; beam A of head h is 2h, beam B is 2h + 1. -/
abbrev BeamNo := Fin 24
/-- Quay segments 0 to 63. -/
abbrev SegNo := Fin 64
/-- Registry entries 0 to 255. -/
abbrev EntryNo := Fin 256
/-- Crane numbers 0 to 15. -/
abbrev CraneNo := Fin 16
/-- Rack numbers 0 to 239. -/
abbrev RackNo := Fin 240
/-- Plugs 0 to 23 of a rack. -/
abbrev PlugNo := Fin 24
/-- Yard blocks 0 to 31. -/
abbrev YardNo := Fin 32

/-- The value at place `i` of a table. -/
def look {α : Type} {n : Nat} (t : Vector α n) (i : Fin n) : α := t[i.val]
/-- The table with place `i` replaced. -/
def put {α : Type} {n : Nat} (t : Vector α n) (i : Fin n) (a : α) : Vector α n := t.set i.val a i.isLt
/-- The table with place `i` changed by `f`. -/
def tweak {α : Type} {n : Nat} (t : Vector α n) (i : Fin n) (f : α → α) : Vector α n := put t i (f (look t i))

@[simp] theorem look_put_self {α : Type} {n : Nat} (t : Vector α n) (i : Fin n) (a : α) : look (put t i a) i = a := by
  simp [look, put]

@[simp] theorem look_put_ne {α : Type} {n : Nat} (t : Vector α n) {i j : Fin n} (a : α) (h : j ≠ i) :
    look (put t i a) j = look t j := by
  have h' : i.val ≠ j.val := fun e => h (Fin.ext e.symm)
  simp [look, put, h']

theorem look_put {α : Type} {n : Nat} (t : Vector α n) (i j : Fin n) (a : α) :
    look (put t i a) j = if j = i then a else look t j := by
  by_cases h : j = i
  · subst h; simp
  · simp [h]

theorem look_tweak {α : Type} {n : Nat} (t : Vector α n) (i j : Fin n) (f : α → α) :
    look (tweak t i f) j = if j = i then f (look t i) else look t j := by
  simp [tweak, look_put]

@[simp] theorem look_tweak_self {α : Type} {n : Nat} (t : Vector α n) (i : Fin n) (f : α → α) :
    look (tweak t i f) i = f (look t i) := by simp [tweak]

@[simp] theorem look_tweak_ne {α : Type} {n : Nat} (t : Vector α n) {i j : Fin n} (f : α → α) (h : j ≠ i) :
    look (tweak t i f) j = look t j := by simp [tweak, h]

@[simp] theorem look_replicate {α : Type} {n : Nat} (a : α) (i : Fin n) : look (Vector.replicate n a) i = a := by
  simp [look]

/-- A set of links (holder sets, subscriber sets): for each link, whether it is a member. -/
abbrev LinkSet := Vector Bool 4

/-- The four links in ascending order. -/
def allLinks : List LinkNo := [0, 1, 2, 3]

/-- The members of a link set, ascending. -/
def LinkSet.members (m : LinkSet) : List LinkNo := allLinks.filter (look m)
/-- The empty link set. -/
def LinkSet.none : LinkSet := Vector.replicate 4 false
/-- Whether a link set has no member. -/
def LinkSet.isNone (m : LinkSet) : Bool := (LinkSet.members m).isEmpty
/-- The link set with one member. -/
def LinkSet.only (l : LinkNo) : LinkSet := put LinkSet.none l true

end Sys2Proof
end

