-- ==== Sys2Proof/Config.lean ====
section
/-! DEFINITION. What the manual leaves to the silicon: the identity values that IDENTIFY reports (R12). They
are constants without a body, so nothing can be proved of their values (log 9). -/

namespace Sys2Proof

/-- The vendor code that names Mulcade (R12); the manual gives no value. -/
opaque Config.vendorCode : Half
/-- The family code that names Kelbrig (R12); the manual gives no value. -/
opaque Config.familyCode : Half
/-- The silicon revision number, 1 to 15 (R12); the manual gives no value: revision `Config.revision + 1`. -/
opaque Config.revision : Fin 15

end Sys2Proof
end

