-- ==== Sys2Proof/Syntax.lean ====
section
/-! DEFINITION. The commands of the KQ-240: one constructor for each row of spec/opcode_table.json. A request's
own fields are not operands here: they stand in the body of the message that MESSAGE_RECEIVED took, and the
request's command is its owner taking it (R6, R7; log 3). -/

namespace Sys2Proof

/-- Why a message being received is abandoned (R4). -/
inductive AbandonCause where
  /-- The next byte did not arrive within 5 ms. -/
  | gap
  /-- The body length field exceeds 24,576. -/
  | tooLong
  deriving DecidableEq, Repr

/-- 5 ms without a valid mark on an agent link (R2), and whether a message is being received there, which breaks no run (log 5). -/
structure LineGap where
  link : LinkNo
  receiving : Bool
  deriving DecidableEq, Repr

/-- A frame's identity: its handle together with its accept time (R128). -/
structure FrameId where
  handle : Half
  accept : Time
  deriving DecidableEq, Repr

/-- The commands of the block, one for each row of the table. -/
inductive Instr where
  /-- PIN_RESET (R173): a start from the reset pin. -/
  | pinReset
  /-- SETTINGS_LOAD_END (R173): both copies have been judged. `readA`, `readB`: the copy could be read in full. -/
  | settingsLoadEnd (readA readB : Bool)
  /-- MILLISECOND_TICK (R10). -/
  | millisecondTick
  /-- SECOND_TICK (R10). -/
  | secondTick
  /-- FILL_MARK_RECEIVED (R2): `second` is the mark's second byte. -/
  | fillMarkReceived (link : LinkNo) (second : Byte)
  /-- FILL_MARK_GAP (R2). -/
  | fillMarkGap (gap : LineGap)
  /-- LINK_UP (R2). -/
  | linkUp (link : LinkNo)
  /-- LINK_DOWN (R3): `receiving` says that a message is being received, which holds the silence off (log 5). -/
  | linkDown (link : LinkNo) (receiving : Bool)
  /-- MESSAGE_RECEIVED (R4): the bytes of one complete message, from its start mark on. -/
  | messageReceived (link : LinkNo) (bytes : List Byte)
  /-- MESSAGE_ABANDONED (R4). -/
  | messageAbandoned (link : LinkNo) (cause : AbandonCause)
  /-- MESSAGE_SENT (R8): the last byte of the front message has been sent. -/
  | messageSent (link : LinkNo)
  /-- IDENTIFY (R12), taken by its owner from the link. -/
  | identify (link : LinkNo)
  /-- READ_TIME (R11). -/
  | readTime (link : LinkNo)
  /-- READ_COUNTERS (R13). -/
  | readCounters (link : LinkNo)
  /-- ENROLL (R19, R20). -/
  | enroll (link : LinkNo)
  /-- WITHDRAW (R21). -/
  | withdraw (link : LinkNo)
  /-- DOWNLINK_WITHDRAWAL (R114) of the terminal withdrawn from `entry`. -/
  | downlinkWithdrawal (entry : EntryNo)
  /-- CRANE_WITHDRAWAL (R139). -/
  | craneWithdrawal (entry : EntryNo)
  /-- REEFER_WITHDRAWAL (R155). -/
  | reeferWithdrawal (entry : EntryNo)
  /-- MOVE (R24). -/
  | move (link : LinkNo)
  /-- DELIVER (R26). -/
  | deliver (link : LinkNo)
  /-- SILENCE_EXPIRY (R28) of an entry's silence timer. -/
  | silenceExpiry (entry : EntryNo)
  /-- LIST_UNKNOWN (R30). -/
  | listUnknown (link : LinkNo)
  /-- READ_TERMINAL (R31). -/
  | readTerminal (link : LinkNo)
  /-- GRANT (R36, R37). -/
  | grant (link : LinkNo)
  /-- REVOKE (R39). -/
  | revoke (link : LinkNo)
  /-- READ_ENTRY (R40). -/
  | readEntry (link : LinkNo)
  /-- READ_COVERAGE (R64). -/
  | readCoverage (link : LinkNo)
  /-- MARK_CELL (R62). -/
  | markCell (link : LinkNo)
  /-- UNMARK_CELL (R63). -/
  | unmarkCell (link : LinkNo)
  /-- OPEN (R73). -/
  | openBeam (link : LinkNo)
  /-- RELEASE (R77). -/
  | release (link : LinkNo)
  /-- READ_BEAMS (R87). -/
  | readBeams (link : LinkNo)
  /-- SURVEY (R82). -/
  | survey (link : LinkNo)
  /-- STEER_DONE (R74): `answer` is what came on the head line (R183). -/
  | steerDone (head : HeadNo) (answer : List Byte)
  /-- STEER_REFUSED (R74). -/
  | steerRefused (head : HeadNo) (answer : List Byte)
  /-- RELEASE_ANSWERED (R78). -/
  | releaseAnswered (head : HeadNo) (answer : List Byte)
  /-- SWEEP_RESULT (R81). -/
  | sweepResult (head : HeadNo) (answer : List Byte)
  /-- SWEEP_REFUSED (R81). -/
  | sweepRefused (head : HeadNo) (answer : List Byte)
  /-- PROBE_ANSWERED (R86, R89). -/
  | probeAnswered (head : HeadNo) (answer : List Byte)
  /-- UNMATCHED_ANSWER (R71, R183). -/
  | unmatchedAnswer (head : HeadNo) (answer : List Byte)
  /-- ANSWER_LIMIT_EXPIRY (R72). -/
  | answerLimitExpiry (head : HeadNo)
  /-- PROBE_TIME (R86). -/
  | probeTime (head : HeadNo)
  /-- SWEEP_RETRY_TIME (R81). -/
  | sweepRetryTime (head : HeadNo)
  /-- SURVEY_DUE (R79). -/
  | surveyDue (head : HeadNo)
  /-- SURVEY_OVERDUE (R80). -/
  | surveyOverdue (head : HeadNo)
  /-- WAIT_EXPIRY (R75) of the entry at a place of the steer wait list, 0 the oldest. -/
  | waitExpiry (place : Fin 16)
  /-- PAUSE_REPEAT (R96). -/
  | pauseRepeat
  /-- TAKE (R101). -/
  | take (link : LinkNo)
  /-- SEND (R108). -/
  | send (link : LinkNo)
  /-- PURGE_QUEUE (R113). -/
  | purgeQueue (link : LinkNo)
  /-- DEADLINE_EXPIRY (R111) of a waiting CONTROL frame, named by its identity. -/
  | deadlineExpiry (frame : FrameId)
  /-- FETCH (R115). -/
  | fetch (link : LinkNo)
  /-- DONE (R121). -/
  | done (link : LinkNo)
  /-- CUT (R122). -/
  | cut (link : LinkNo)
  /-- BURST_LIMIT_EXPIRY (R123). -/
  | burstLimitExpiry (beam : BeamNo)
  /-- STALL_EXPIRY (R136). -/
  | stallExpiry (crane : CraneNo)
  /-- SUBSCRIBE (R137). -/
  | subscribe (link : LinkNo)
  /-- READ_CRANE (R138). -/
  | readCrane (link : LinkNo)
  /-- SET_INTEREST (R153). -/
  | setInterest (link : LinkNo)
  /-- READ_RACK (R156). -/
  | readRack (link : LinkNo)
  /-- READ_ALARMS (R170). -/
  | readAlarms (link : LinkNo)
  /-- ACKNOWLEDGE (R168). -/
  | acknowledge (link : LinkNo)
  /-- CLEAR_DOSE (R169). -/
  | clearDose (link : LinkNo)
  /-- TUNE (R174). -/
  | tune (link : LinkNo)
  /-- STORE_SETTINGS (R175). -/
  | storeSettings (link : LinkNo)
  /-- STORE_WRITE_END (R175): `contents` is what the area then holds, `memoryError` that the memory reported one. -/
  | storeWriteEnd (memoryError : Bool) (contents : List Byte)
  /-- STORE_WRITE_TIMEOUT (R175): `contents` is what the area then holds. -/
  | storeWriteTimeout (contents : List Byte)
  /-- RESTART (R176). -/
  | restart (link : LinkNo)
  /-- RESTART_ANSWER (R176). -/
  | restartAnswer
  /-- LINE_FRAMING_FAULT (R2, R4): a framing fault on the line outside a message. -/
  | lineFramingFault (link : LinkNo)
  deriving DecidableEq, Repr

end Sys2Proof
end

