-- ==== Sys2Proof/WellFormed.lean ====
section
/-! DEFINITION. Which commands are well formed: the checks that the operand types do not already make. -/

namespace Sys2Proof

/-- Bytes in one area of the settings memory (R184). -/
def areaSize : Nat := 1024

/-- A fill mark's second byte is 00h or 01h; anything else is a framing fault, not a fill mark (R179). -/
def fillMarkSecondOk (b : Byte) : Bool := b == 0 || b == 1

/-- A message begins with the start mark C3h 5Ah and holds at least a header and a check value (R179). -/
def messageShapeOk (bytes : List Byte) : Bool :=
  bytes.take 2 == [0xC3, 0x5A] && 12 ≤ bytes.length

/-- A command is well formed: a fill mark is one, a message has a message's shape, and what an area of the
settings memory holds after a write is exactly one area's bytes. -/
def Instr.wellFormed : Instr → Bool
  | .fillMarkReceived _ b => fillMarkSecondOk b
  | .messageReceived _ bytes => messageShapeOk bytes
  | .storeWriteEnd _ contents => contents.length == areaSize
  | .storeWriteTimeout contents => contents.length == areaSize
  | .pinReset | .settingsLoadEnd _ _ | .millisecondTick | .secondTick | .fillMarkGap _ | .linkUp _
  | .linkDown _ _ | .messageAbandoned _ _ | .messageSent _ | .identify _ | .readTime _ | .readCounters _
  | .enroll _ | .withdraw _ | .downlinkWithdrawal _ | .craneWithdrawal _ | .reeferWithdrawal _ | .move _
  | .deliver _ | .silenceExpiry _ | .listUnknown _ | .readTerminal _ | .grant _ | .revoke _ | .readEntry _
  | .readCoverage _ | .markCell _ | .unmarkCell _ | .openBeam _ | .release _ | .readBeams _ | .survey _
  | .steerDone _ _ | .steerRefused _ _ | .releaseAnswered _ _ | .sweepResult _ _ | .sweepRefused _ _
  | .probeAnswered _ _ | .unmatchedAnswer _ _ | .answerLimitExpiry _ | .probeTime _ | .sweepRetryTime _
  | .surveyDue _ | .surveyOverdue _ | .waitExpiry _ | .pauseRepeat | .take _ | .send _ | .purgeQueue _
  | .deadlineExpiry _ | .fetch _ | .done _ | .cut _ | .burstLimitExpiry _ | .stallExpiry _ | .subscribe _
  | .readCrane _ | .setInterest _ | .readRack _ | .readAlarms _ | .acknowledge _ | .clearDose _ | .tune _
  | .storeSettings _ | .restart _ | .restartAnswer | .lineFramingFault _ => true

end Sys2Proof
end

