-- ==== Sys2Proof/Decode.lean ====
section
/-! DEFINITION. Decoding words of the opcode table. No row of this hardware's table gives bits, so no word
spells a command (the bytes that agents, terminals and heads send are read by the operations under Machine/). -/

namespace Sys2Proof

/-- The command that a word spells by the table's bits: none, since no row gives any. -/
def decodeTableWord (_nbits _w : Nat) : Option Instr := none

end Sys2Proof
end

