-- ==== Sys2Proof/Machine/State.lean ====
section
/-! DEFINITION. The state of the KQ-240 as plain data: every record, table, queue, counter and flag that the manual gives the
part, unit by unit (INVENTORY.md, "State"), the queue of waiting commands, and the state right after a pin reset. -/

namespace Sys2Proof.Machine

/-! ### Why a step can stop -/

/-- No command of this block faults: the manual names no machine stop, every error is a reply, a counter or a notice. -/
inductive Fault where
  deriving DecidableEq, Repr

/-- Why a command is turned away by the model. -/
inductive Refusal where
  /-- Raised by a refused arm of `exec` only: the command has no meaning yet. Safe. -/
  | notModelled (mnemonic : String)
  deriving DecidableEq, Repr

/-! ### Links (R1, R4 to R9) -/

/-- A subset of TRAFFIC, COMMAND and ADMIN (R1). -/
structure Rights where
  traffic : Bool
  command : Bool
  admin : Bool
  deriving DecidableEq, Repr

/-- The requests, in the order that numbers their codes from 1 (R6, R179). -/
inductive ReqCode where
  | identify | readTime | readCounters | enroll | withdraw | move | readTerminal | listUnknown | grant | revoke
  | readEntry | readCoverage | markCell | unmarkCell | openBeam | release | readBeams | survey | send | purgeQueue
  | fetch | done | cut | deliver | take | subscribe | readCrane | setInterest | readRack | readAlarms | acknowledge
  | clearDose | tune | storeSettings | restart
  deriving DecidableEq, Repr

/-- The units that own requests (R6). -/
inductive Owner where
  | linkUnit | registry | access | coverage | beam | downlink | pool | crane | reefer | settings
  deriving DecidableEq, Repr

/-- The reply status codes, in the order that numbers them from 0 (R7, R179). -/
inductive Status where
  | ok | busy | badRequest | noRight | tokenRange | entryInvalid | entryStale | terminalGone | notAuthorised | readOnly
  | duplicate | tableFull | queueFull | noBuffer | paused | tooLong | noBeam | cellUnusable | headFault | notHolder
  | burstActive | noBurst | surveyPending | wrongState | writeFailed
  deriving DecidableEq, Repr

/-- Which request a reply answers (R7: "matched to its request, not to its tag"). -/
structure ReqRef where
  link : LinkNo
  serial : Nat
  tag : Byte
  deriving DecidableEq, Repr

/-- A request handed to its owner and not yet taken by it (R6, R7). -/
structure Request where
  ref : ReqRef
  code : ReqCode
  body : List Byte
  deriving DecidableEq, Repr

/-! ### Registry (R17 to R29) -/

inductive Kind where
  | crane | rack
  deriving DecidableEq, Repr

inductive TermState where
  | free | enrolled | heard | silent
  deriving DecidableEq, Repr

/-- A withdrawal in hand: which of the units concerned have dealt with it (R22). -/
structure Withdrawal where
  downlinkDone : Bool
  kindDone : Bool
  deriving DecidableEq, Repr

/-- A terminal entry (R17). -/
structure Entry where
  kind : Option Kind
  state : TermState
  addr : Option Word
  seq : Half
  seg : Option SegNo
  /-- The authority set; bit n stands for index n. -/
  auth : BitVec 16
  lastHeard : Option Time
  /-- Where the silence timer of a HEARD entry runs from (R28, R33). -/
  silenceFrom : Time
  crane : Option CraneNo
  rack : Option RackNo
  yard : Option YardNo
  lastReport : Option Byte
  withdrawal : Option Withdrawal
  deriving DecidableEq, Repr

/-- A record of the unknown-source list (R29). -/
structure UnknownRec where
  addr : Word
  first : Time
  last : Time
  count : Nat
  deriving DecidableEq, Repr

/-- What became of an uplink frame of a DELIVER (R26). -/
inductive Disposition where
  | crane | rack | unknown
  deriving DecidableEq, Repr

structure Registry where
  entries : Vector Entry 256
  addrMap : List (Word × EntryNo)
  craneCount : Nat
  rackCount : Nat
  unknowns : List UnknownRec
  counters : Vector Nat 12
  deriving DecidableEq, Repr

/-! ### Access block (R34, R35) -/

inductive ListName where
  | common | own
  deriving DecidableEq, Repr

/-- An access entry (R34). -/
structure AccessEntry where
  valid : Bool
  readOnly : Bool
  priv : Bool
  seq : Byte
  ax : Option (Fin 16)
  terminal : Option EntryNo
  snapshot : Option Half
  deriving DecidableEq, Repr

/-- A token (R35). -/
structure Token where
  list : ListName
  entry : Byte
  seq : Byte
  deriving DecidableEq, Repr

structure Access where
  common : Vector AccessEntry 128
  own : Vector (Vector AccessEntry 128) 4
  counters : Vector Nat 12
  deriving DecidableEq, Repr

/-! ### Coverage block (R50, R51) -/

inductive SegClass where
  | good | weak | dark
  deriving DecidableEq, Repr

inductive CellState where
  | good | weak | retired | marked
  deriving DecidableEq, Repr

structure SegRec where
  cls : SegClass
  serving : Option HeadNo
  deriving DecidableEq, Repr

structure Cell where
  state : CellState
  q : Nat
  recovery : Nat
  sweep : Option Nat
  deriving DecidableEq, Repr

/-- A reach window: its first segment and its length (R51). -/
structure Reach where
  first : Nat
  len : Nat
  deriving DecidableEq, Repr

structure Coverage where
  segs : Vector SegRec 64
  reach : Vector (Option Reach) 12
  cells : Vector (Vector (Option Cell) 64) 12
  /-- Counter group 6: the coverage counters of R65 at 0 to 8, the beam controller's of R90 at 9 to 23. -/
  counters : Vector Nat 24
  deriving DecidableEq, Repr

/-! ### Downlink frames (R106) -/

inductive FrameClass where
  | safety | control | bulk
  deriving DecidableEq, Repr

/-- The originator of a frame: the link and the tag of its SEND. -/
structure Origin where
  link : LinkNo
  tag : Byte
  deriving DecidableEq, Repr

/-- A frame record (R106). Its place is where it stands: in `Downlink.waiting` or in a beam's burst. -/
structure Frame where
  handle : Half
  terminal : EntryNo
  cls : FrameClass
  origin : Option Origin
  accept : Time
  deadline : Option Time
  attempts : Nat
  payload : List Byte
  orphaned : Bool
  deriving DecidableEq, Repr

inductive FrameOutcome where
  | sentOk | sentFailed | notSent
  deriving DecidableEq, Repr

/-- What FRAME_RESULT reports (R110). -/
inductive FrameFate where
  | delivered | expired | excessRetry | withdrawn | purged | linkLost
  deriving DecidableEq, Repr

structure Downlink where
  /-- Every waiting frame; a terminal's queue of one class is its frames of that class, in this order (R107). -/
  waiting : List Frame
  handleCount : Half
  nextBurst : Vector Byte 24
  rotation : Vector EntryNo 24
  counters : Vector Nat 21
  deriving DecidableEq, Repr

/-! ### Heads and beams (R67 to R70) -/

inductive HeadState where
  | offline | ready | fault
  deriving DecidableEq, Repr

inductive SurveyStatus where
  | current | due | overdue
  deriving DecidableEq, Repr

/-- Beam A or beam B of a head. -/
inductive Side where
  | a | b
  deriving DecidableEq, Repr

inductive HeadCmd where
  | steer (side : Side) (seg : SegNo)
  | release (side : Side)
  | sweep
  | probe
  deriving DecidableEq, Repr

structure Outstanding where
  cmd : HeadCmd
  number : Byte
  sentAt : Time
  /-- A warm restart left the command to finish on the line without other effect (R89). -/
  leftToFinish : Bool
  deriving DecidableEq, Repr

structure Head where
  state : HeadState
  survey : SurveyStatus
  reference : Time
  outstanding : Option Outstanding
  queue : List HeadCmd
  nextNumber : Byte
  retryAt : Option Time
  probeAt : Option Time
  restartProbe : Bool
  /-- The bytes of the command sent last on the head line (the model's own view, log 23). -/
  lineOut : List Byte
  deriving DecidableEq, Repr

inductive BeamState where
  | idle | steering | opened | closing | surveying | down
  deriving DecidableEq, Repr

/-- Why a beam is lost (R68, R85). -/
inductive LossReason where
  | retired | marked | survey | headFault
  deriving DecidableEq, Repr

/-- An OPEN request that waits for a steer: the request and its arrival time (R68, R69). -/
structure OpenReq where
  ref : ReqRef
  arrival : Time
  deriving DecidableEq, Repr

/-- An entry of the steer wait list (R69). -/
structure WaitEntry where
  req : OpenReq
  seg : SegNo
  oneShot : Bool
  deriving DecidableEq, Repr

structure Burst where
  number : Byte
  owner : LinkNo
  frames : List Frame
  start : Time
  deriving DecidableEq, Repr

structure Beam where
  state : BeamState
  seg : Option SegNo
  holders : LinkSet
  awaiting : List OpenReq
  oneShot : Bool
  burst : Option Burst
  releaseDeferred : Bool
  closePending : Option LossReason
  deriving DecidableEq, Repr

structure BeamCtl where
  heads : Vector Head 12
  beams : Vector Beam 24
  waitList : List WaitEntry
  deriving DecidableEq, Repr

/-! ### Reefer slots and racks (R142, R143, R153, R164) -/

inductive PlugState where
  | empty | running | defrost | off
  deriving DecidableEq, Repr

inductive Grade where
  | noGrade | watch | warn | alarm
  deriving DecidableEq, Repr

structure Reasons where
  excursion : Bool
  probe : Bool
  dark : Bool
  unitOff : Bool
  silent : Bool
  unitCode : Bool
  doseWarn : Bool
  doseAlarm : Bool
  deriving DecidableEq, Repr

structure ReadingFlags where
  gap : Bool
  substituted : Bool
  saturated : Bool
  setpointClamped : Bool
  deriving DecidableEq, Repr

inductive Health where
  | good | bad
  deriving DecidableEq, Repr

structure Probe where
  health : Health
  invalid : Nat
  valid : Nat
  deriving DecidableEq, Repr

structure Slot where
  occupied : Bool
  plugState : PlugState
  setpoint : Option Int
  supply : Probe
  ret : Probe
  code : Byte
  temp : Option Int
  ePrev : Nat
  dose : Nat
  residue : Nat
  unobserved : Nat
  inBand : Nat
  lastUsable : Option Time
  reasons : Reasons
  grade : Grade
  ack : Grade
  queued : Bool
  displaced : Bool
  flags : ReadingFlags
  deriving DecidableEq, Repr

inductive Silence where
  | notSilent | silent | dark
  deriving DecidableEq, Repr

inductive PollState where
  | noPoll | queued | notQueued
  deriving DecidableEq, Repr

structure RackRec where
  entry : EntryNo
  silence : Silence
  poll : PollState
  accepted : Nat
  lastAcceptance : Option Time
  deriving DecidableEq, Repr

structure AlarmRec where
  rack : RackNo
  plug : PlugNo
  grade : Grade
  dose : Nat
  raisedAt : Time
  released : Bool
  deriving DecidableEq, Repr

inductive InterestMode where
  | noInterest | changes | all
  deriving DecidableEq, Repr

structure Interest where
  /-- The yard-block set; bit n stands for block n. -/
  yards : BitVec 32
  allAlarms : Bool
  mode : InterestMode
  deriving DecidableEq, Repr

structure Reefer where
  racks : Vector (Option RackRec) 240
  slots : Vector (Vector Slot 24) 240
  alarms : List AlarmRec
  interest : Vector Interest 4
  /-- Counter group 10: R158 at 0 to 15, R171 at 16 to 24. -/
  counters : Vector Nat 25
  deriving DecidableEq, Repr

/-! ### Cranes (R128) -/

inductive Condition where
  | enrolled | up | degraded | lost
  deriving DecidableEq, Repr

structure CraneRec where
  entry : EntryNo
  cond : Condition
  subs : LinkSet
  lastTelemetry : Option Time
  lastGantry : Option Half
  truncated : Bool
  positionHeld : Bool
  telemetryCount : Nat
  watch : Option (FrameId × Time)
  reported : List FrameId
  deriving DecidableEq, Repr

structure Cranes where
  records : Vector (Option CraneRec) 16
  counters : Vector Nat 11
  deriving DecidableEq, Repr

/-! ### Deliveries and the pool (R91, R99, R133, R154) -/

/-- A copy of crane telemetry (R133, R182). -/
structure TelemetryCopy where
  crane : CraneNo
  truncated : Bool
  positionHeld : Bool
  seg : Option SegNo
  time : Time
  gantry : Half
  received : Nat
  payload : List Byte
  deriving DecidableEq, Repr

structure DigestEntry where
  plug : PlugNo
  plugState : PlugState
  grade : Grade
  reasons : Reasons
  flags : ReadingFlags
  setpoint : Option Int
  temp : Option Int
  dose : Nat
  deriving DecidableEq, Repr

/-- A rack digest (R154, R182). -/
structure Digest where
  rack : RackNo
  yard : Option YardNo
  seg : Option SegNo
  cls : Option SegClass
  counter : Byte
  second : Time
  entries : List DigestEntry
  deriving DecidableEq, Repr

/-- What a delivery holds: its kind, source, flags and content (R99). -/
inductive Content where
  | telemetry (t : TelemetryCopy)
  | digest (d : Digest)
  deriving DecidableEq, Repr

structure Delivery where
  content : Content
  placed : Time
  dropsBefore : Nat
  deriving DecidableEq, Repr

structure Pool where
  free : Nat
  paused : Bool
  repeatsSent : Nat
  nextRepeat : Option Time
  queues : Vector (List Delivery) 4
  dropped : Vector Nat 4
  counters : Vector Nat 13
  deriving DecidableEq, Repr

/-! ### Settings unit (R172 to R176, R184) -/

inductive Source where
  | image | defaults
  deriving DecidableEq, Repr

inductive Area where
  | a | b
  deriving DecidableEq, Repr

/-- A store in progress (R175): its requester, the area written, the snapshot as bytes, its generation, its start. -/
structure StoreJob where
  ref : ReqRef
  area : Area
  image : List Byte
  generation : Word
  startedAt : Time
  deriving DecidableEq, Repr

/-- The settings memory: a list of address and byte in one canonical form (rising addresses, no zero byte listed). -/
abbrev Memory := List Host.Cell

structure Settings where
  loaded : Bool
  source : Source
  newest : Option (Area × Word)
  /-- The 19 parameters in force, by number (R174). -/
  params : Vector Nat 19
  store : Option StoreJob
  restart : Option ReqRef
  mem : Memory
  /-- The area's last write was cut off by a pin reset (R175 "Interruptions"). -/
  cutOffA : Bool
  cutOffB : Bool
  counters : Vector Nat 11
  deriving DecidableEq, Repr

/-! ### Messages out of the part (R8, R9): replies and notices by their fields -/

structure Identity where
  vendor : Half
  family : Half
  part : Nat
  revision : Nat
  link : LinkNo
  ax : Fin 16
  rights : Rights
  windowSize : Nat
  queueSize : Nat
  replyPlaces : Nat
  source : Source
  deriving DecidableEq, Repr

structure TerminalView where
  number : EntryNo
  entry : Entry
  safety : Nat
  control : Nat
  bulk : Nat
  inFlight : Nat
  deriving DecidableEq, Repr

structure CellView where
  head : HeadNo
  ready : Bool
  cell : Cell
  deriving DecidableEq, Repr

structure SegView where
  seg : SegNo
  cls : SegClass
  serving : Option HeadNo
  cells : List CellView
  deriving DecidableEq, Repr

structure HeadView where
  state : HeadState
  survey : SurveyStatus
  dueAt : Option (Time × Time)
  outstanding : Option (HeadCmd × Byte)
  queued : Nat
  deriving DecidableEq, Repr

structure BeamView where
  state : BeamState
  seg : Option SegNo
  holders : LinkSet
  awaiting : Nat
  oneShot : Bool
  burst : Option (Byte × LinkNo)
  releaseDeferred : Bool
  closePending : Option LossReason
  deriving DecidableEq, Repr

structure WaitView where
  tag : Byte
  seg : SegNo
  oneShot : Bool
  arrival : Time
  deriving DecidableEq, Repr

structure CraneView where
  number : CraneNo
  entry : EntryNo
  cond : Condition
  state : TermState
  seg : Option SegNo
  cls : Option SegClass
  lastHeard : Option Time
  subs : LinkSet
  telemetry : Option (Time × Half × Bool × Bool)
  telemetryCount : Nat
  watch : Option (Half × Time × Bool)
  safety : Nat
  control : Nat
  bulk : Nat
  safetyInFlight : Bool
  deriving DecidableEq, Repr

structure RackView where
  number : RackNo
  entry : EntryNo
  yard : Option YardNo
  seg : Option SegNo
  cls : Option SegClass
  state : TermState
  lastHeard : Option Time
  lastReport : Option Byte
  silence : Silence
  poll : PollState
  accepted : Nat
  lastAcceptance : Option Time
  slots : List (PlugNo × Slot)
  deriving DecidableEq, Repr

/-- A frame as a FETCH reply carries it (R118, R180). -/
structure BurstFrame where
  handle : Half
  addr : Option Word
  cls : FrameClass
  attempts : Nat
  payload : List Byte
  deriving DecidableEq, Repr

/-- What a reply carries beside its status, by the request that it answers. -/
inductive ReplyBody where
  | empty
  | identity (i : Identity)
  | times (ms sec : Time)
  | counters (values : List Nat)
  | enrolled (entry : EntryNo) (seq : Half) (rack : Option RackNo)
  | withdrawn (seq : Half)
  | moved (before : Option SegNo) (after : SegNo)
  | dispositions (ds : List Disposition)
  | unknowns (us : List UnknownRec)
  | terminal (v : TerminalView)
  | granted (token : Token) (snapshot : Half)
  | revoked (seq : Byte)
  | accessEntry (e : AccessEntry) (current : Option Bool)
  | coverage (segs : List SegView)
  | cell (state : CellState)
  | opened (beam : BeamNo) (head : HeadNo) (seg : SegNo)
  | beams (heads : List HeadView) (beams : List BeamView) (waiting : Nat) (own : List WaitView)
  | survey (status : SurveyStatus)
  | taken (ds : List Delivery) (remaining blocks quota : Nat)
  | sent (handle : Half) (cls : FrameClass) (control : Option (Nat × Time))
  | purged (safety control bulk : Nat)
  | burst (number : Byte) (frameLimit byteLimit : Nat) (frames : List BurstFrame)
  | burstEnd (delivered returned dropped : Nat)
  | subscribed (crane : CraneNo) (cond : Condition) (seg : Option SegNo) (on : Bool)
  | crane (v : CraneView)
  | interest (i : Interest)
  | rack (v : RackView)
  | alarms (total first : Nat) (records : List AlarmRec)
  | acknowledged (rack : RackNo) (plug : PlugNo) (grade : Grade) (removed : Bool)
  | doseCleared (dose : Nat) (grade : Grade)
  | tuned (applied raised : List (Fin 19 × Nat))
  | stored (area : Area) (generation : Word)
  deriving DecidableEq, Repr

/-- A reply in an outgoing queue. `serial` is none for the BUSY reply of the refusal place (R5). -/
structure Reply where
  tag : Byte
  serial : Option Nat
  status : Status
  body : ReplyBody
  deriving DecidableEq, Repr

/-- The notices and what each carries (R9 and the raising rules). -/
inductive Notice where
  | deliveryReady (count : Nat)
  | pause (free pauseMark resumeMark number : Nat)
  | resume (free : Nat)
  | beamLost (beam : BeamNo) (seg : Option SegNo) (reason : LossReason)
  | headState (head : HeadNo) (state : HeadState) (survey : SurveyStatus)
  | coverageChanged (seg : SegNo) (before after : SegClass)
  | safetyStall (crane : CraneNo) (seg : Option SegNo)
  | craneState (crane : CraneNo) (before after : Condition) (seg : Option SegNo) (cls : Option SegClass)
  | frameResult (handle : Half) (terminal : EntryNo) (cls : FrameClass) (tag : Byte) (fate : FrameFate) (attempts : Nat)
  | alarmRaised (rack : RackNo) (plug : PlugNo) (grade : Grade) (dose : Nat) (reasons : Reasons)
  | unknownTerminal (addr : Word) (link : LinkNo)
  | restarted (ms sec : Time) (source : Source) (link : LinkNo)
  deriving DecidableEq, Repr

/-- A message of an outgoing queue. A notice's lost-notice field is 0 until its sending begins (R9). -/
inductive Msg where
  | reply (r : Reply)
  | notice (n : Notice) (lost : Nat)
  deriving DecidableEq, Repr

structure Link where
  up : Bool
  ax : Fin 16
  rights : Rights
  /-- The outstanding tags, each with the identity of its request. -/
  window : List (Byte × Nat)
  refusal : Option Byte
  outQ : List Msg
  /-- The front message of the outgoing queue has begun sending. -/
  sending : Bool
  lost : Nat
  counters : Vector Nat 12
  /-- When the present run of fill marks began (R2). -/
  runStart : Option Time
  /-- Where the gap measurement of R2 runs from: the last valid mark, or the last byte of a message on the DOWN link. -/
  lastMark : Time
  /-- Where the silence measurement of R3 runs from. -/
  lastValid : Time
  /-- Bytes are discarded until the next pattern begins (R4). -/
  discarding : Bool
  nextSerial : Nat
  /-- The bytes of the message sent last on the link (the model's own view, log 23). -/
  lineOut : List Byte
  deriving DecidableEq, Repr

structure Clock where
  ms : Time
  sec : Time
  /-- Milliseconds counted since the second count last advanced (R10). -/
  sinceSecond : Nat
  deriving DecidableEq, Repr

/-! ### The whole machine -/

structure State where
  clock : Clock
  links : Vector Link 4
  /-- Requests handed to their owners and not yet taken, in arrival order. -/
  handed : List Request
  registry : Registry
  access : Access
  coverage : Coverage
  beamCtl : BeamCtl
  pool : Pool
  downlink : Downlink
  cranes : Cranes
  reefer : Reefer
  settings : Settings
  /-- The commands that wait, first in, first out. -/
  pending : List Instr
  deriving DecidableEq, Repr

/-! ### The values after a pin reset -/

def Rights.empty : Rights := { traffic := false, command := false, admin := false }

def Link.reset : Link :=
  { up := false, ax := 0, rights := Rights.empty, window := [], refusal := none, outQ := [], sending := false, lost := 0,
    counters := Vector.replicate 12 0, runStart := none, lastMark := 0, lastValid := 0, discarding := false,
    nextSerial := 0, lineOut := [] }

/-- A FREE entry whose terminal sequence is 0 (R17). -/
def Entry.reset : Entry :=
  { kind := none, state := .free, addr := none, seq := 0, seg := none, auth := 0, lastHeard := none, silenceFrom := 0,
    crane := none, rack := none, yard := none, lastReport := none, withdrawal := none }

def Registry.reset : Registry :=
  { entries := Vector.replicate 256 Entry.reset, addrMap := [], craneCount := 0, rackCount := 0, unknowns := [],
    counters := Vector.replicate 12 0 }

def AccessEntry.reset : AccessEntry :=
  { valid := false, readOnly := false, priv := false, seq := 0, ax := none, terminal := none, snapshot := none }

def Access.reset : Access :=
  { common := Vector.replicate 128 AccessEntry.reset,
    own := Vector.replicate 4 (Vector.replicate 128 AccessEntry.reset), counters := Vector.replicate 12 0 }

def Coverage.reset : Coverage :=
  { segs := Vector.replicate 64 { cls := .dark, serving := none }, reach := Vector.replicate 12 none,
    cells := Vector.replicate 12 (Vector.replicate 64 none), counters := Vector.replicate 24 0 }

/-- What R67 leaves open until the settings load ends is absent, clear or 0 (log 7). -/
def Head.reset : Head :=
  { state := .offline, survey := .current, reference := 0, outstanding := none, queue := [], nextNumber := 0,
    retryAt := none, probeAt := none, restartProbe := false, lineOut := [] }

/-- DOWN, and everything else, which R68 gives only at the end of the load, absent or clear (log 7). -/
def Beam.reset : Beam :=
  { state := .down, seg := none, holders := LinkSet.none, awaiting := [], oneShot := false, burst := none,
    releaseDeferred := false, closePending := none }

def BeamCtl.reset : BeamCtl :=
  { heads := Vector.replicate 12 Head.reset, beams := Vector.replicate 24 Beam.reset, waitList := [] }

def Pool.reset : Pool :=
  { free := 4096, paused := false, repeatsSent := 0, nextRepeat := none, queues := Vector.replicate 4 [],
    dropped := Vector.replicate 4 0, counters := Vector.replicate 13 0 }

def Downlink.reset : Downlink :=
  { waiting := [], handleCount := 0, nextBurst := Vector.replicate 24 0, rotation := Vector.replicate 24 255,
    counters := Vector.replicate 21 0 }

def Cranes.reset : Cranes :=
  { records := Vector.replicate 16 none, counters := Vector.replicate 11 0 }

def Reasons.empty : Reasons :=
  { excursion := false, probe := false, dark := false, unitOff := false, silent := false, unitCode := false,
    doseWarn := false, doseAlarm := false }

def ReadingFlags.clear : ReadingFlags :=
  { gap := false, substituted := false, saturated := false, setpointClamped := false }

def Probe.clear : Probe := { health := .good, invalid := 0, valid := 0 }

/-- A clear slot (R143, last column). -/
def Slot.clear : Slot :=
  { occupied := false, plugState := .empty, setpoint := none, supply := Probe.clear, ret := Probe.clear, code := 0,
    temp := none, ePrev := 0, dose := 0, residue := 0, unobserved := 0, inBand := 0, lastUsable := none,
    reasons := Reasons.empty, grade := .noGrade, ack := .noGrade, queued := false, displaced := false,
    flags := ReadingFlags.clear }

def Interest.empty : Interest := { yards := 0, allAlarms := false, mode := .noInterest }

def Reefer.reset : Reefer :=
  { racks := Vector.replicate 240 none, slots := Vector.replicate 240 (Vector.replicate 24 Slot.clear), alarms := [],
    interest := Vector.replicate 4 Interest.empty, counters := Vector.replicate 25 0 }

/-- The defaults of the 19 tunable parameters, by number (R174). -/
def paramDefaults : Vector Nat 19 :=
  #v[10, 100, 10, 50, 100, 300, 20, 512, 1024, 4, 128, 1024, 20, 30, 900, 1800, 300, 1200, 3]

def Settings.reset : Settings :=
  { loaded := false, source := .defaults, newest := none, params := paramDefaults, store := none, restart := none,
    mem := [], cutOffA := false, cutOffB := false, counters := Vector.replicate 11 0 }

/-- The machine right after a pin reset, before the settings load has ended, with no command waiting. -/
def State.reset : State :=
  { clock := { ms := 0, sec := 0, sinceSecond := 0 }, links := Vector.replicate 4 Link.reset, handed := [],
    registry := Registry.reset, access := Access.reset, coverage := Coverage.reset, beamCtl := BeamCtl.reset,
    pool := Pool.reset, downlink := Downlink.reset, cranes := Cranes.reset, reefer := Reefer.reset,
    settings := Settings.reset, pending := [] }

end Sys2Proof.Machine
end

