-- ==== Sys2Proof/Machine/Ops.lean ====
section
/-! DEFINITION. The named operations that every unit shares: time, saturating counters, placing replies and raising notices
(R7 to R9), the pool's admission, marks and deliveries (R91 to R100), the settings memory, taking a handed request (R7). -/

namespace Sys2Proof.Machine

/-! ### Time and counters -/

/-- Time passed since `t`, modulo 2^32 (00_scope.md "Durations and times"). -/
def elapsed (now t : Time) : Nat := (now - t).toNat

/-- A stored future count has been reached: it lies at or behind the present count (log 14). -/
def reached (now t : Time) : Bool := elapsed now t < 2 ^ 31

/-- One more on a 16-bit saturating count (00_scope.md "Counters"). -/
def satInc (n : Nat) : Nat := min (n + 1) 65535

/-- `k` more on one counter of a group. -/
def bumpBy {n : Nat} (v : Vector Nat n) (i : Fin n) (k : Nat) : Vector Nat n := put v i (min (look v i + k) 65535)
/-- One more on one counter of a group. -/
def bump {n : Nat} (v : Vector Nat n) (i : Fin n) : Vector Nat n := bumpBy v i 1

def State.now (s : State) : Time := s.clock.ms
def State.nowSec (s : State) : Time := s.clock.sec

def State.bumpReg (s : State) (k : Fin 12) : State :=
  { s with registry := { s.registry with counters := bump s.registry.counters k } }
def State.bumpAcc (s : State) (k : Fin 12) : State :=
  { s with access := { s.access with counters := bump s.access.counters k } }
def State.bumpCov (s : State) (k : Fin 24) : State :=
  { s with coverage := { s.coverage with counters := bump s.coverage.counters k } }
def State.bumpPool (s : State) (k : Fin 13) : State :=
  { s with pool := { s.pool with counters := bump s.pool.counters k } }
def State.bumpDown (s : State) (k : Fin 21) : State :=
  { s with downlink := { s.downlink with counters := bump s.downlink.counters k } }
def State.bumpDownBy (s : State) (k : Fin 21) (n : Nat) : State :=
  { s with downlink := { s.downlink with counters := bumpBy s.downlink.counters k n } }
def State.bumpCrane (s : State) (k : Fin 11) : State :=
  { s with cranes := { s.cranes with counters := bump s.cranes.counters k } }
def State.bumpReef (s : State) (k : Fin 25) : State :=
  { s with reefer := { s.reefer with counters := bump s.reefer.counters k } }
def State.bumpReefBy (s : State) (k : Fin 25) (n : Nat) : State :=
  { s with reefer := { s.reefer with counters := bumpBy s.reefer.counters k n } }
def State.bumpSet (s : State) (k : Fin 11) : State :=
  { s with settings := { s.settings with counters := bump s.settings.counters k } }

/-! ### Tables of the state -/

def State.link (s : State) (l : LinkNo) : Link := look s.links l
def State.onLink (s : State) (l : LinkNo) (f : Link → Link) : State := { s with links := tweak s.links l f }
def State.entry (s : State) (e : EntryNo) : Entry := look s.registry.entries e
def State.setEntry (s : State) (e : EntryNo) (x : Entry) : State :=
  { s with registry := { s.registry with entries := put s.registry.entries e x } }
def State.head (s : State) (h : HeadNo) : Head := look s.beamCtl.heads h
def State.setHead (s : State) (h : HeadNo) (x : Head) : State :=
  { s with beamCtl := { s.beamCtl with heads := put s.beamCtl.heads h x } }
def State.beam (s : State) (b : BeamNo) : Beam := look s.beamCtl.beams b
def State.setBeam (s : State) (b : BeamNo) (x : Beam) : State :=
  { s with beamCtl := { s.beamCtl with beams := put s.beamCtl.beams b x } }
def State.setWaitList (s : State) (w : List WaitEntry) : State := { s with beamCtl := { s.beamCtl with waitList := w } }
def State.cell (s : State) (h : HeadNo) (g : SegNo) : Option Cell := look (look s.coverage.cells h) g
def State.setCell (s : State) (h : HeadNo) (g : SegNo) (c : Cell) : State :=
  { s with coverage := { s.coverage with cells := tweak s.coverage.cells h (fun r => put r g (some c)) } }
def State.segRec (s : State) (g : SegNo) : SegRec := look s.coverage.segs g
def State.setSegRec (s : State) (g : SegNo) (x : SegRec) : State :=
  { s with coverage := { s.coverage with segs := put s.coverage.segs g x } }
def State.craneRec (s : State) (c : CraneNo) : Option CraneRec := look s.cranes.records c
def State.setCraneRec (s : State) (c : CraneNo) (x : Option CraneRec) : State :=
  { s with cranes := { s.cranes with records := put s.cranes.records c x } }
def State.rackRec (s : State) (r : RackNo) : Option RackRec := look s.reefer.racks r
def State.setRackRec (s : State) (r : RackNo) (x : Option RackRec) : State :=
  { s with reefer := { s.reefer with racks := put s.reefer.racks r x } }
def State.slot (s : State) (r : RackNo) (p : PlugNo) : Slot := look (look s.reefer.slots r) p
def State.setSlot (s : State) (r : RackNo) (p : PlugNo) (x : Slot) : State :=
  { s with reefer := { s.reefer with slots := tweak s.reefer.slots r (fun v => put v p x) } }
def State.setAlarms (s : State) (a : List AlarmRec) : State := { s with reefer := { s.reefer with alarms := a } }

/-- The class of a segment that may be absent. -/
def State.classOf (s : State) (g : Option SegNo) : Option SegClass := g.map (fun x => (s.segRec x).cls)

/-! ### Beams and heads by number -/

/-- The beam of a head on one side: 2h or 2h + 1 (00_scope.md "Beams"). -/
def beamOf (h : HeadNo) : Side → BeamNo
  | .a => ⟨2 * h.val, by omega⟩
  | .b => ⟨2 * h.val + 1, by omega⟩
/-- The head of a beam. -/
def headOf (b : BeamNo) : HeadNo := ⟨b.val / 2, by omega⟩
/-- The side of a beam. -/
def sideOf (b : BeamNo) : Side := if b.val % 2 = 0 then .a else .b
/-- The other beam of the same head. -/
def otherBeam (b : BeamNo) : BeamNo :=
  match sideOf b with
  | .a => beamOf (headOf b) .b
  | .b => beamOf (headOf b) .a

def allHeads : List HeadNo := List.finRange 12
def allBeams : List BeamNo := List.finRange 24
def allSegs : List SegNo := List.finRange 64
def allEntries : List EntryNo := List.finRange 256
def allCranes : List CraneNo := List.finRange 16
def allRacks : List RackNo := List.finRange 240
def allPlugs : List PlugNo := List.finRange 24

/-! ### Parameters in force (R174) -/

def State.param (s : State) (i : Fin 19) : Nat := look s.settings.params i

/-- steer/release answer limit, ms -/
def pSteerLimit : Fin 19 := 0
/-- sweep answer limit, ms -/
def pSweepLimit : Fin 19 := 1
/-- survey period, s -/
def pSurveyPeriod : Fin 19 := 2
/-- steer wait limit, ms -/
def pWaitLimit : Fin 19 := 3
/-- burst limit, ms -/
def pBurstLimit : Fin 19 := 4
/-- crane silence limit, ms -/
def pCraneSilence : Fin 19 := 5
/-- safety stall limit, ms -/
def pStallLimit : Fin 19 := 6
def pPauseMark : Fin 19 := 7
def pResumeMark : Fin 19 := 8
def pPauseRepeats : Fin 19 := 9
def pReserve : Fin 19 := 10
def pQuota : Fin 19 := 11
def pChilledBand : Fin 19 := 12
def pFrozenBand : Fin 19 := 13
/-- max gap, s -/
def pMaxGap : Fin 19 := 14
/-- rack silence limit, s -/
def pRackSilence : Fin 19 := 15
def pDoseWarn : Fin 19 := 16
def pDoseAlarm : Fin 19 := 17
def pInBandClear : Fin 19 := 18

/-! ### Sending on a link (R5, R7, R8, R9) -/

/-- The front message of an UP link begins sending; a notice takes the lost-notice count, which returns to 0 (R9). -/
def Link.beginSend (k : Link) : Link :=
  if k.up && !k.sending then
    match k.outQ with
    | [] => k
    | .reply _ :: _ => { k with sending := true }
    | .notice n _ :: rest => { k with sending := true, outQ := .notice n k.lost :: rest, lost := 0 }
  else k

/-- A message joins the outgoing queue at its back; on an idle line it begins sending at once (R8, log 4). -/
def Link.place (k : Link) (m : Msg) : Link := Link.beginSend { k with outQ := k.outQ ++ [m] }

def Msg.isNotice : Msg → Bool
  | .reply _ => false
  | .notice _ _ => true

/-- Notices in the outgoing queue. -/
def Link.noticeCount (k : Link) : Nat := (k.outQ.filter Msg.isNotice).length

/-- A notice raised at a link: nothing on a DOWN link, placed while fewer than 55 are queued, else lost (R9). -/
def Link.raise (k : Link) (n : Notice) : Link :=
  if !k.up then k
  else if k.noticeCount < 55 then k.place (.notice n 0)
  else { k with lost := satInc k.lost, counters := bump k.counters 8 }

def State.raise (s : State) (l : LinkNo) (n : Notice) : State := s.onLink l (fun k => k.raise n)

/-- A notice raised separately at each link that `p` names, in ascending link number. -/
def State.raiseWhere (s : State) (p : LinkNo → Link → Bool) (n : Notice) : State :=
  allLinks.foldl (fun s l => if p l (s.link l) then s.raise l n else s) s

/-- The request is still in its link's window (R7). -/
def Link.holds (k : Link) (serial : Nat) : Bool := k.window.any (fun w => w.2 == serial)

/-- An owner's reply: placed while its request is outstanding, else discarded and counted (R7). -/
def Link.reply (k : Link) (r : ReqRef) (st : Status) (body : ReplyBody) : Link :=
  if k.holds r.serial then k.place (.reply { tag := r.tag, serial := some r.serial, status := st, body := body })
  else { k with counters := bump k.counters 9 }

def State.reply (s : State) (r : ReqRef) (st : Status) (body : ReplyBody) : State :=
  s.onLink r.link (fun k => k.reply r st body)

/-- A reply that carries its status alone. -/
def State.answer (s : State) (r : ReqRef) (st : Status) : State := s.reply r st .empty

/-! ### Handed requests (R6, R7) -/

/-- The owner that receives each request (R6). -/
def ReqCode.owner : ReqCode → Owner
  | .identify | .readTime | .readCounters => .linkUnit
  | .enroll | .withdraw | .move | .readTerminal | .listUnknown | .deliver => .registry
  | .grant | .revoke | .readEntry => .access
  | .readCoverage | .markCell | .unmarkCell => .coverage
  | .openBeam | .release | .readBeams | .survey => .beam
  | .send | .purgeQueue | .fetch | .done | .cut => .downlink
  | .take => .pool
  | .subscribe | .readCrane => .crane
  | .setInterest | .readRack | .readAlarms | .acknowledge | .clearDose => .reefer
  | .tune | .storeSettings | .restart => .settings

/-- The request that an owner takes next from a link: requests of one link reach one owner in arrival order (R7). -/
def State.nextRequest (s : State) (o : Owner) (l : LinkNo) : Option Request :=
  s.handed.find? (fun r => r.code.owner == o && r.ref.link == l)

/-- The owner takes its next request from the link, if that is one of code `c`; else the command does not occur (log 1). -/
def State.taking (s : State) (c : ReqCode) (l : LinkNo) (f : State → Request → State) : State :=
  match s.nextRequest c.owner l with
  | none => s
  | some r => if r.code = c then f { s with handed := s.handed.erase r } r else s

/-! ### The frame buffer pool (R91 to R100) -/

/-- Blocks that `n` bytes hold: ceil(n / 128). -/
def blocksOf (n : Nat) : Nat := (n + 127) / 128

/-- Blocks of a frame (R106). -/
def Frame.blocks (f : Frame) : Nat := blocksOf f.payload.length

def framesBlocks (fs : List Frame) : Nat := (fs.map Frame.blocks).sum

/-- Bytes of a delivery's content (R99, R182). -/
def Content.length : Content → Nat
  | .telemetry t => 16 + t.payload.length
  | .digest d => 16 + 12 * d.entries.length

def Content.blocks (c : Content) : Nat := blocksOf c.length
def Delivery.blocks (d : Delivery) : Nat := d.content.blocks
def deliveriesBlocks (ds : List Delivery) : Nat := (ds.map Delivery.blocks).sum

def State.setFree (s : State) (n : Nat) : State := { s with pool := { s.pool with free := n } }

/-- The kinds of allocation of R93 that are not delivery copies. -/
inductive AllocKind where
  | safety | control | rackCommand | poll | craneBulk
  deriving DecidableEq, Repr

/-- Whether the pool admits `n` blocks (R93). -/
def Pool.admits (p : Pool) (reserve : Nat) (k : AllocKind) (n : Nat) : Bool :=
  match k with
  | .safety => n ≤ p.free
  | .control | .rackCommand | .poll => reserve + n ≤ p.free
  | .craneBulk => reserve + n ≤ p.free && !p.paused

/-- The pool compares the free count with its marks (R95, R97). -/
def State.judge (s : State) : State :=
  if !s.pool.paused && s.pool.free < s.param pPauseMark then
    let s := { s with pool := { s.pool with
      paused := true, repeatsSent := 0, nextRepeat := some (s.now + 100) } }
    let s := s.raiseWhere (fun _ k => k.rights.command)
      (.pause s.pool.free (s.param pPauseMark) (s.param pResumeMark) 0)
    (s.bumpPool 9).bumpPool 10
  else if s.pool.paused && s.param pResumeMark < s.pool.free then
    let s := { s with pool := { s.pool with paused := false, repeatsSent := 0, nextRepeat := none } }
    let s := s.raiseWhere (fun _ k => k.rights.command) (.resume s.pool.free)
    s.bumpPool 11
  else s

/-- A copy for a link is dropped: its dropped-delivery count and one pool counter go up (R99). -/
def State.dropCopy (s : State) (l : LinkNo) (k : Fin 13) : State :=
  { s with pool := { s.pool with dropped := tweak s.pool.dropped l satInc, counters := bump s.pool.counters k } }

/-- A delivery copy is offered to the pool for a link (R99, R100). -/
def State.offerCopy (s : State) (l : LinkNo) (c : Content) : State :=
  let q := look s.pool.queues l
  if !(s.link l).up then s
  else if s.param pQuota < deliveriesBlocks q + c.blocks then s.dropCopy l 6
  else if s.pool.free < s.param pReserve + c.blocks then s.dropCopy l 7
  else
    let d : Delivery := { content := c, placed := s.now, dropsBefore := look s.pool.dropped l }
    let s := { s with pool := { s.pool with
      free := s.pool.free - c.blocks, queues := put s.pool.queues l (q ++ [d]), dropped := put s.pool.dropped l 0,
      counters := bump s.pool.counters 5 } }
    if q.isEmpty then s.raise l (.deliveryReady 1) else s

/-! ### The settings memory (R184): canonical list of address and byte -/

/-- What an address that is not listed reads as (DESIGN CHOICE, log 8). -/
def unlistedByte : Byte := 0

/-- The settings memory's form: addresses strictly rising, below 2,048, and no entry equal to the unlisted byte. -/
def Memory.wf : Memory → Bool
  | [] => true
  | [c] => c.1 < 2048 && c.2 != unlistedByte
  | c :: d :: rest => c.1 < d.1 && c.1 < 2048 && c.2 != unlistedByte && Memory.wf (d :: rest)

/-- The byte at an address. -/
def Memory.read : Memory → Nat → Byte
  | [], _ => unlistedByte
  | (a, b) :: rest, x => if a = x then b else Memory.read rest x

/-- One byte written; writing the unlisted value removes the entry, an address outside the memory is not stored. -/
def Memory.write : Memory → Nat → Byte → Memory
  | [], x, v => if v = unlistedByte ∨ 2048 ≤ x then [] else [(x, v)]
  | (a, b) :: rest, x, v =>
    if x < a then (if v = unlistedByte ∨ 2048 ≤ x then (a, b) :: rest else (x, v) :: (a, b) :: rest)
    else if x = a then (if v = unlistedByte then rest else (a, v) :: rest)
    else (a, b) :: Memory.write rest x v

/-- A run of bytes written from an address on. -/
def Memory.writeBytes (m : Memory) (x : Nat) : List Byte → Memory
  | [] => m
  | b :: bs => Memory.writeBytes (Memory.write m x b) (x + 1) bs

/-- The first address of an area (R184). -/
def Area.base : Area → Nat
  | .a => 0
  | .b => 1024

/-- The bytes of an area. -/
def Memory.area (m : Memory) (r : Area) : List Byte := (List.range areaSize).map (fun i => Memory.read m (r.base + i))

end Sys2Proof.Machine
end

