-- ==== Sys2Proof/Machine/Operands.lean ====
section
/-! DEFINITION. Every operand form: how the fields of a request are read from its body (R179), the message header and check
value (R179), uplink frames and rack reports (R181), and the answers of the head lines (R183). -/

namespace Sys2Proof.Machine

/-! ### Numbers in bytes, most significant byte first (R178) -/

def be16 (v : Half) : List Byte := [(v >>> 8).setWidth 8, v.setWidth 8]
def be32 (v : Word) : List Byte := [(v >>> 24).setWidth 8, (v >>> 16).setWidth 8, (v >>> 8).setWidth 8, v.setWidth 8]
def half (hi lo : Byte) : Half := hi ++ lo
def word (b3 b2 b1 b0 : Byte) : Word := (b3 ++ b2) ++ (b1 ++ b0)

/-- The cyclic check of R179, one byte further: x^16 + x^12 + x^5 + 1, most significant bit first. -/
def crcBits : Nat → Half → Half
  | 0, c => c
  | n + 1, c => crcBits n (if c.msb then (c <<< 1) ^^^ 0x1021 else c <<< 1)

def crcByte (c : Half) (b : Byte) : Half := crcBits 8 (c ^^^ (b.setWidth 16 <<< 8))

/-- The 16-bit check value over a run of bytes, starting from FFFFh (R179). -/
def checkValue (bs : List Byte) : Half := bs.foldl crcByte 0xFFFF

/-! ### Messages from an agent (R4, R179) -/

/-- A request message that passed the checks of R4: its tag, its code number and its body. -/
structure RawRequest where
  tag : Byte
  code : Half
  body : List Byte
  deriving DecidableEq, Repr

/-- The four checks of R4 on one complete message. -/
def readMessage : List Byte → Option RawRequest
  | 0xC3 :: 0x5A :: kind :: tag :: c1 :: c0 :: n1 :: n0 :: l1 :: l0 :: rest =>
    let n := (half n1 n0).toNat
    let body := rest.take n
    if kind = 1 ∧ n ≤ 24576 ∧ rest.length = n + 2 ∧
        rest.drop n = be16 (checkValue (0xC3 :: 0x5A :: kind :: tag :: c1 :: c0 :: n1 :: n0 :: l1 :: l0 :: body))
    then some { tag := tag, code := half c1 c0, body := body } else none
  | _ => none

/-- The requests in the order that numbers their codes from 1 (R6, R179). -/
def requestCodes : List ReqCode :=
  [.identify, .readTime, .readCounters, .enroll, .withdraw, .move, .readTerminal, .listUnknown, .grant, .revoke,
   .readEntry, .readCoverage, .markCell, .unmarkCell, .openBeam, .release, .readBeams, .survey, .send, .purgeQueue,
   .fetch, .done, .cut, .deliver, .take, .subscribe, .readCrane, .setInterest, .readRack, .readAlarms, .acknowledge,
   .clearDose, .tune, .storeSettings, .restart]

/-- The request that a code names; 0 and codes above the last name none (R179). -/
def requestOfCode (c : Half) : Option ReqCode := if c = 0 then none else requestCodes[c.toNat - 1]?

/-! ### Reading the fields of a body (R179) -/

/-- A reader takes a field from the front of a body, or fails where the body is malformed. -/
abbrev Reader (α : Type) := StateT (List Byte) Option α

namespace Reader

/-- The body that remains. -/
def rest : Reader (List Byte) := get

def fail {α : Type} : Reader α := fun _ => none

/-- Refuse the body unless a condition holds. -/
def require (c : Bool) : Reader Unit := fun bs => if c then some ((), bs) else none

def byte : Reader Byte
  | [] => none
  | b :: bs => some (b, bs)

def num1 : Reader Nat := do return (← byte).toNat
def num16 : Reader Half := do return half (← byte) (← byte)
def num32 : Reader Word := do return word (← byte) (← byte) (← byte) (← byte)

/-- A flag or a presence byte: 0 or 1, anything else is malformed. -/
def flag : Reader Bool := do
  let b ← byte
  require (b == 0 || b == 1)
  return b == 1

/-- A number of one byte below `n`. -/
def fin (n : Nat) : Reader (Fin n) := do
  let b ← byte
  if h : b.toNat < n then return ⟨b.toNat, h⟩ else fail

/-- A named value, numbered from 0 in the order given. -/
def named {α : Type} (vs : List α) : Reader α := do
  match vs[(← byte).toNat]? with
  | some v => return v
  | none => fail

/-- A field that a presence byte precedes. -/
def maybe {α : Type} (p : Reader α) : Reader (Option α) := do
  if ← flag then return some (← p) else return none

/-- A one-byte segment field that 255 leaves absent (R178, log 10). -/
def segOpt : Reader (Option SegNo) := do
  let b ← byte
  if b = 255 then return none
  else if h : b.toNat < 64 then return some ⟨b.toNat, h⟩ else fail

/-- `n` fields one after another. -/
def many {α : Type} (p : Reader α) : Nat → Reader (List α)
  | 0 => pure []
  | n + 1 => do return (← p) :: (← many p n)

/-- A list preceded by its count in one byte. -/
def list {α : Type} (p : Reader α) : Reader (List α) := do many p (← num1)

/-- `n` bytes. -/
def bytes (n : Nat) : Reader (List Byte) := fun bs => if n ≤ bs.length then some (bs.take n, bs.drop n) else none

/-- A payload preceded by its length in two bytes. -/
def payload : Reader (List Byte) := do bytes (← num16).toNat

/-- A token of three bytes (R179); a list byte other than 0 or 1 is unreadable. -/
def token : Reader Token := do return { list := ← named [ListName.common, ListName.own], entry := ← byte, seq := ← byte }

/-- The whole body is read, with nothing left over (R179 "Malformed bodies"). -/
def whole {α : Type} (p : Reader α) (body : List Byte) : Option α :=
  match p body with
  | some (v, []) => some v
  | _ => none

end Reader

open Reader

/-- A body that carries no field. -/
def readNothing (body : List Byte) : Option Unit := whole (pure ()) body

/-- READ COUNTERS: a group and a clear flag that may be absent (R13, log 10). -/
def readCountersBody (body : List Byte) : Option (Nat × Bool) :=
  match body with
  | [g] => some (g.toNat, false)
  | _ => whole (do return (← num1, ← flag)) body

structure EnrollReq where
  kind : Kind
  addr : Word
  auth : BitVec 16
  seg : Option SegNo
  crane : Option CraneNo
  yard : Option YardNo
  deriving DecidableEq, Repr

/-- ENROLL, with the form checks of R19's first step. That the crane number and the yard block, each given for one kind alone, stand
under a presence byte of their own in every body is the model's reading (log 10). -/
def readEnroll (body : List Byte) : Option EnrollReq :=
  whole (do
    let r : EnrollReq := { kind := ← named [Kind.crane, Kind.rack], addr := ← num32, auth := ← num16, seg := ← segOpt,
                           crane := ← maybe (fin 16), yard := ← maybe (fin 32) }
    require (!r.auth.getLsbD 0)
    require (match r.kind with
      | .crane => r.crane.isSome && r.yard.isNone
      | .rack => r.yard.isSome && r.seg.isSome && r.crane.isNone)
    return r) body

def readWithdraw (body : List Byte) : Option (EntryNo × Half) := whole (do return (← fin 256, ← num16)) body
def readMove (body : List Byte) : Option (EntryNo × Half × SegNo) :=
  whole (do return (← fin 256, ← num16, ← fin 64)) body

/-- An uplink frame: its radio address and the bytes the terminal sent (R181). -/
def readUplink : Reader (Word × List Byte) := do return (← num32, ← payload)

/-- DELIVER: 1 to 16 uplink frames (R26). -/
def readDeliver (body : List Byte) : Option (List (Word × List Byte)) :=
  whole (do
    let n ← num1
    require (1 ≤ n && n ≤ 16)
    many readUplink n) body

def readToken (body : List Byte) : Option Token := whole token body

structure GrantReq where
  list : ListName
  terminal : EntryNo
  expected : Option Half
  readOnly : Bool
  priv : Bool
  ax : Option Byte
  deriving DecidableEq, Repr

/-- GRANT (R36, R179). The private flag is read for COMMON only; that its byte must be 0 or 1 in a GRANT to OWN too is the model's
reading (log 10). -/
def readGrant (body : List Byte) : Option GrantReq :=
  whole (do return { list := ← named [ListName.common, ListName.own], terminal := ← fin 256, expected := ← maybe num16,
                     readOnly := ← flag, priv := ← flag, ax := ← maybe byte }) body

/-- READ ENTRY: a list and an entry number (R40). -/
def readReadEntry (body : List Byte) : Option (ListName × Byte) :=
  whole (do return (← named [ListName.common, ListName.own], ← byte)) body

/-- READ COVERAGE: a first segment and a count (R64). -/
def readCoverageBody (body : List Byte) : Option (Nat × Nat) :=
  whole (do
    let f ← num1
    let n ← num1
    require (f < 64 && 1 ≤ n && n ≤ 64 && f + n ≤ 64)
    return (f, n)) body

/-- MARK CELL and UNMARK CELL: a head and a segment (R62). -/
def readCellBody (body : List Byte) : Option (HeadNo × SegNo) := whole (do return (← fin 12, ← fin 64)) body

/-- OPEN: a segment and the one-shot flag (R73). -/
def readOpen (body : List Byte) : Option (SegNo × Bool) := whole (do return (← fin 64, ← flag)) body

def readBeamNo (body : List Byte) : Option BeamNo := whole (fin 24) body
def readHeadNo (body : List Byte) : Option HeadNo := whole (fin 12) body

/-- TAKE: a maximum count, 1 to 16 (R101). -/
def readTake (body : List Byte) : Option Nat :=
  whole (do
    let n ← num1
    require (1 ≤ n && n ≤ 16)
    return n) body

structure SendReq where
  token : Token
  cls : FrameClass
  lifetime : Option Half
  payload : List Byte
  deriving DecidableEq, Repr

/-- SEND, with the form checks of R108's first step. -/
def readSend (body : List Byte) : Option SendReq :=
  whole (do
    let r : SendReq := { token := ← token, cls := ← named [FrameClass.safety, FrameClass.control, FrameClass.bulk],
                         lifetime := ← maybe num16, payload := ← payload }
    require (!r.payload.isEmpty)
    require (r.cls != .control || r.lifetime.isSome)
    return r) body

/-- PURGE QUEUE: a token and a non-empty set of classes, one bit for each (R113, R179). -/
def readPurge (body : List Byte) : Option (Token × Byte) :=
  whole (do
    let t ← token
    let set ← byte
    require (0 < set.toNat && set.toNat < 8)
    return (t, set)) body

/-- FETCH: a beam number, a frame limit and a byte limit; the limits are clamped, not refused (R115). -/
def readFetch (body : List Byte) : Option (BeamNo × Nat × Nat) :=
  whole (do return (← fin 24, ← num1, (← num16).toNat)) body

def readOutcome : Reader FrameOutcome := named [.sentOk, .sentFailed, .notSent]

/-- DONE: a beam, a burst number and an outcome list (R121). -/
def readDone (body : List Byte) : Option (BeamNo × Byte × List FrameOutcome) :=
  whole (do return (← fin 24, ← byte, ← list readOutcome)) body

/-- CUT: a beam, a burst number and 0 to 32 positions with their outcomes, none of them twice (R122). -/
def readCut (body : List Byte) : Option (BeamNo × Byte × List (Nat × FrameOutcome)) :=
  whole (do
    let b ← fin 24
    let n ← byte
    let ps ← list (do return (← num1, ← readOutcome))
    require (ps.length ≤ 32)
    require (decide (ps.map Prod.fst).Nodup)
    return (b, n, ps)) body

/-- SUBSCRIBE: a token and an on/off flag (R137). -/
def readSubscribe (body : List Byte) : Option (Token × Bool) := whole (do return (← token, ← flag)) body

/-- SET INTEREST: the three fields of the record (R153). -/
def readInterest (body : List Byte) : Option Interest :=
  whole (do return { yards := ← num32, allAlarms := ← flag, mode := ← named [.noInterest, .changes, .all] }) body

/-- READ RACK: a token and, under one presence byte, a first plug and a count (R156). -/
def readReadRack (body : List Byte) : Option (Token × Option (Nat × Nat)) :=
  whole (do return (← token, ← maybe (do return (← num1, ← num1)))) body

/-- READ ALARMS: a first position and a count, 1 to 64 (R170). -/
def readReadAlarms (body : List Byte) : Option (Nat × Nat) :=
  whole (do
    let f ← num1
    let n ← num1
    require (1 ≤ n && n ≤ 64)
    return (f, n)) body

/-- ACKNOWLEDGE and CLEAR DOSE: a token and a plug (R168, R169). -/
def readPlugReq (body : List Byte) : Option (Token × PlugNo) := whole (do return (← token, ← fin 24)) body

/-- TUNE: 1 to 19 pairs of parameter number and value (R174), a value of any parameter in 4 bytes (log 10). -/
def readTune (body : List Byte) : Option (List (Fin 19 × Nat)) :=
  whole (do
    let n ← num1
    require (1 ≤ n && n ≤ 19)
    many (do return (← fin 19, (← num32).toNat)) n) body

/-- A reach window lies within R51's limits. -/
def reachOk (r : Reach) : Bool := 1 ≤ r.len && r.len ≤ 16 && r.first + r.len ≤ 64

/-- A rights byte: TRAFFIC, COMMAND, ADMIN from the low bit (R184). -/
def rightsOf (b : Byte) : Rights := { traffic := b.getLsbD 0, command := b.getLsbD 1, admin := b.getLsbD 2 }

/-- One row of a link table in a request (R172, R175). -/
def readLinkRow : Reader (Fin 16 × Rights) := do
  let ax ← fin 16
  let r ← byte
  require (r.toNat < 8)
  return (ax, rightsOf r)

/-- One row of a head table in a request (R172, R175): configured, first segment, reach length; 3 bytes in every row, the last two
unchecked in the row of a head that is not configured (log 10). -/
def readHeadRow : Reader (Option Reach) := do
  let c ← flag
  let f ← num1
  let n ← num1
  if c then
    require (reachOk { first := f, len := n })
    return some { first := f, len := n }
  else return none

/-- STORE SETTINGS: a link table and a head table, each maybe (R175). -/
def readStore (body : List Byte) : Option (Option (List (Fin 16 × Rights)) × Option (List (Option Reach))) :=
  whole (do return (← maybe (many readLinkRow 4), ← maybe (many readHeadRow 12))) body

/-! ### Rack reports (R144, R181) -/

structure Reading where
  plug : PlugNo
  plugState : PlugState
  setpoint : Int
  supply : Option Int
  ret : Option Int
  code : Byte
  deriving DecidableEq, Repr

/-- A temperature field: -32,768 means absent (R178). -/
def tempOf (h : Half) : Option Int := if h = 0x8000 then none else some h.toInt

def readReading : Reader Reading := do
  return { plug := ← fin 24, plugState := ← named [.empty, .running, .defrost, .off], setpoint := (← num16).toInt,
           supply := tempOf (← num16), ret := tempOf (← num16), code := ← byte }

/-- A rack report: its counter and its readings; none where it is malformed (R144, R181). -/
def readReport (frame : List Byte) : Option (Byte × List Reading) :=
  whole (do
    let c ← byte
    let n ← num1
    require (1 ≤ n && n ≤ 24)
    return (c, ← many readReading n)) frame

/-! ### Answers on a head line (R71, R183) -/

inductive AnswerKind where
  | done
  | sweepResult (entries : List (Option Nat))
  | refused
  deriving DecidableEq, Repr

structure Answer where
  number : Byte
  kind : AnswerKind
  deriving DecidableEq, Repr

/-- The modulo-256 sum of the bytes is 0 (R183). -/
def sumOk (bs : List Byte) : Bool := bs.foldl (· + ·) 0 == 0

/-- The measurement entries of a SWEEP_RESULT; bit n of the mask makes entry n none. -/
def sweepEntries (mask : Half) (ms : List Byte) : List (Option Nat) :=
  ms.zipIdx.map (fun p => if mask.getLsbD p.2 then none else some p.1.toNat)

/-- An answer as it came on the head line; none where its check byte, length or kind is wrong (R183). -/
def readAnswer (bs : List Byte) : Option Answer :=
  if !sumOk bs then none else
    match bs with
    | [number, 1, 0, _] => some { number := number, kind := .done }
    | [number, 3, 0, _] => some { number := number, kind := .refused }
    | number :: 2 :: count :: m1 :: m0 :: rest =>
      if count.toNat ≤ 16 ∧ rest.length = count.toNat + 1 then
        some { number := number, kind := .sweepResult (sweepEntries (half m1 m0) (rest.take count.toNat)) }
      else none
    | _ => none

end Sys2Proof.Machine
end

