-- ==== Sys2Proof/Machine/Flags.lean ====
section
/-! DEFINITION. Every computation of a state, class, condition, reason, grade or flag from plain values: the quality arithmetic
and cell transitions (R55 to R60), the serving order (R52), crane conditions (R129), probes (R148, R149), the dose (R159 to
R162), grades (R163) and what the alarm queue does with a derived grade (R165, R166). -/

namespace Sys2Proof.Machine

/-! ### Cells (R55 to R60) -/

/-- The quality after a sample of measurement `m` and weight `k` (R55). -/
def sampleQ (q m k : Nat) : Nat := (q * (k - 1) + m + k / 2) / k

/-- The state of a GOOD or WEAK cell after it wrote a new quality (R59); the others keep theirs. -/
def stateAfter : CellState → Nat → CellState
  | .good, q => if q < 64 then .retired else if q < 128 then .weak else .good
  | .weak, q => if q < 64 then .retired else if q < 160 then .weak else .good
  | .retired, _ => .retired
  | .marked, _ => .marked

/-- A cell is usable when GOOD or WEAK (R51). -/
def CellState.usable : CellState → Bool
  | .good | .weak => true
  | .retired | .marked => false

/-- A usable cell takes a sample (R55, R59). -/
def Cell.sampled (c : Cell) (m k : Nat) : Cell :=
  let q := sampleQ c.q m k
  let st := stateAfter c.state q
  { c with q := q, state := st, recovery := if st = .retired then 0 else c.recovery }

/-- A RETIRED cell takes a sweep measurement (R60). -/
def Cell.recovering (c : Cell) (m : Nat) : Cell :=
  if m < 160 then { c with recovery := 0 }
  else if c.recovery + 1 < 2 then { c with recovery := c.recovery + 1 }
  else { c with state := .good, q := m, recovery := 0 }

/-! ### The serving order of a segment (R52) -/

/-- A head joins a list ordered by quality, highest first, behind every head of its own or a higher quality. -/
def insertByQuality (x : HeadNo × Nat) : List (HeadNo × Nat) → List (HeadNo × Nat)
  | [] => [x]
  | y :: ys => if y.2 < x.2 then x :: y :: ys else y :: insertByQuality x ys

/-- Heads given in ascending number, ordered by quality, equal qualities in ascending head number. -/
def orderByQuality (hs : List (HeadNo × Nat)) : List HeadNo :=
  (hs.foldl (fun acc x => insertByQuality x acc) []).map Prod.fst

/-! ### Crane conditions (R129) -/

/-- The condition that a registry state and the class of the segment give; none for a FREE entry. -/
def conditionOf : TermState → Option SegClass → Option Condition
  | .free, _ => none
  | .enrolled, _ => some .enrolled
  | .heard, some .good => some .up
  | .heard, _ => some .degraded
  | .silent, _ => some .lost

/-! ### Probes and the control temperature (R148, R149) -/

/-- A probe value that lies in -500 to +500 (R148). -/
def validTemp (v : Int) : Bool := -500 ≤ v && v ≤ 500

/-- A probe's record after a reading's value (R148). -/
def Probe.take (p : Probe) : Option Int → Probe
  | none => p
  | some v =>
    if validTemp v then
      let n := min 3 (p.valid + 1)
      { health := if n = 3 then .good else p.health, invalid := 0, valid := n }
    else
      let n := min 2 (p.invalid + 1)
      { health := if n = 2 then .bad else p.health, invalid := n, valid := 0 }

/-- A value that is present and valid. -/
def usableValue (v : Option Int) : Option Int := v.filter validTemp

/-- A slot whose setpoint is below -100 is frozen, else chilled (R147). -/
def frozen (setpoint : Int) : Bool := setpoint < -100

/-- The control temperature of a reading, and whether it came from the substitute (R149). -/
def controlTemp (setpoint : Int) (supply ret : Probe) (supplyV retV : Option Int) : Option (Int × Bool) :=
  let (ctl, ctlV, subV) := if frozen setpoint then (ret, retV, supplyV) else (supply, supplyV, retV)
  match (if ctl.health = .good then usableValue ctlV else none) with
  | some t => some (t, false)
  | none => (usableValue subV).map (fun t => (t, true))

/-! ### The dose (R159 to R162) -/

/-- The excess of a temperature over its band, at most 600 (R159). -/
def excess (chilledBand frozenBand : Nat) (setpoint temp : Int) : Nat :=
  let d := temp - setpoint
  min 600 (if frozen setpoint then (d - frozenBand).toNat else d.natAbs - chilledBand)

/-- Elapsed time and dose of a usable reading of excess `e` (R160, R161). -/
def Slot.addExcess (x : Slot) (now : Time) (maxGap e : Nat) : Slot :=
  match x.lastUsable with
  | none => { x with ePrev := e, lastUsable := some now }
  | some t0 =>
    let t := elapsed now t0
    let beyond := t - maxGap
    let total := x.residue + (x.ePrev + e) * min t maxGap
    let dose := x.dose + total / 120
    { x with
      unobserved := min (x.unobserved + beyond) 4294967295
      dose := min dose 1000000
      residue := if 1000000 ≤ dose then 0 else total % 120
      flags := { x.flags with gap := x.flags.gap || decide (0 < beyond), saturated := x.flags.saturated || decide (1000000 ≤ dose) }
      ePrev := e
      lastUsable := some now }

/-- EXCURSION and the in-band count after a usable reading of excess `e` (R162). -/
def Slot.judgeExcursion (x : Slot) (clearCount e : Nat) : Slot :=
  if 0 < e then { x with inBand := 0, reasons := { x.reasons with excursion := true } }
  else
    let n := min 10 (x.inBand + 1)
    { x with inBand := n, reasons := { x.reasons with excursion := x.reasons.excursion && decide (n < clearCount) } }

/-- DOSE_WARN and DOSE_ALARM from the dose (R162). -/
def Slot.judgeDose (x : Slot) (warn alarm : Nat) : Slot :=
  { x with reasons := { x.reasons with doseWarn := decide (warn ≤ x.dose), doseAlarm := decide (alarm ≤ x.dose) } }

/-! ### Grades (R163) -/

/-- Grades are numbered 0 to 3. -/
def Grade.rank : Grade → Nat
  | .noGrade => 0
  | .watch => 1
  | .warn => 2
  | .alarm => 3

/-- The highest grade among the reasons (R163). -/
def Reasons.grade (r : Reasons) : Grade :=
  if r.doseAlarm then .alarm
  else if r.silent || r.unitCode || r.doseWarn then .warn
  else if r.excursion || r.probe || r.dark || r.unitOff then .watch
  else .noGrade

/-- The grade derived afresh; the acknowledged grade falls with it (R163). -/
def Slot.regraded (x : Slot) : Slot :=
  let g := x.reasons.grade
  { x with grade := g, ack := if g.rank < x.ack.rank then g else x.ack }

/-! ### The alarm queue (R165, R166) -/

/-- What the alarm queue makes of a slot's derived grade. -/
structure Consult where
  alarms : List AlarmRec
  slot : Slot
  raised : Bool := false
  placed : Bool := false
  /-- A record was removed for a higher arrival; the slot that lost it, if its record was not released. -/
  displacement : Option AlarmRec := none
  dropped : Bool := false
  deriving DecidableEq, Repr

def AlarmRec.isOf (a : AlarmRec) (r : RackNo) (p : PlugNo) : Bool := a.rack == r && a.plug == p

/-- The lowest grade rank among the records. -/
def lowestRank (as : List AlarmRec) : Nat := as.foldl (fun m a => min m a.grade.rank) 3

/-- A new record for the slot, placed newest. -/
def Consult.place (as : List AlarmRec) (x : Slot) (r : RackNo) (p : PlugNo) (now : Time) : Consult :=
  { alarms := as ++ [{ rack := r, plug := p, grade := x.grade, dose := x.dose, raisedAt := now, released := false }],
    slot := { x with queued := true, displaced := false }, raised := true, placed := true }

/-- An arrival that finds the queue full (R166). -/
def Consult.full (as : List AlarmRec) (x : Slot) (r : RackNo) (p : PlugNo) (now : Time) : Consult :=
  match as.find? (fun a => a.grade.rank == lowestRank as) with
  | some a =>
    if a.grade.rank < x.grade.rank then
      { Consult.place (as.erase a) x r p now with displacement := some a }
    else { alarms := as, slot := { x with displaced := true }, dropped := true }
  | none => { alarms := as, slot := { x with displaced := true }, dropped := true }

/-- The slot's grade calls for a record: at least WARN and above the acknowledged grade. -/
def Slot.calls (x : Slot) : Bool := 2 ≤ x.grade.rank && x.ack.rank < x.grade.rank

/-- The queue acts on a slot whose grade has just been derived; `reading`: at step 7 of a reading (R165). A record that stays takes
the slot's grade whatever it is, NONE too, which R164's list of a record's grades does not name (log 31). -/
def consult (as : List AlarmRec) (x : Slot) (r : RackNo) (p : PlugNo) (now : Time) (reading : Bool) : Consult :=
  if x.queued then
    let risen := as.any (fun a => a.isOf r p && !a.released && decide (a.grade.rank < x.grade.rank))
    { alarms := as.map (fun a =>
        if a.isOf r p && !a.released then
          { a with grade := x.grade, dose := x.dose, raisedAt := if a.grade.rank < x.grade.rank then now else a.raisedAt }
        else a),
      slot := x, raised := risen }
  else if x.displaced then
    if !reading then { alarms := as, slot := x }
    else if !x.calls then { alarms := as, slot := { x with displaced := false } }
    else if as.length < 256 then Consult.place as x r p now
    else { alarms := as, slot := x }
  else if x.calls then
    let as := as.filter (fun a => !(a.isOf r p && a.released))
    if as.length < 256 then Consult.place as x r p now else Consult.full as x r p now
  else { alarms := as, slot := x }

/-! ### Parameters (R174) -/

/-- The range of each parameter, by number, its lower limit judged against the parameters in force (R174). -/
def paramRange (ps : Vector Nat 19) (i : Fin 19) : Nat × Nat :=
  match i.val with
  | 0 => (2, 50) | 1 => (20, 500) | 2 => (1, 60) | 3 => (5, 500) | 4 => (10, 1000) | 5 => (50, 2000) | 6 => (5, 200)
  | 7 => (64, 2048) | 8 => (look ps pPauseMark + 64, 3072) | 9 => (0, 15) | 10 => (32, 256) | 11 => (64, 2048)
  | 12 => (5, 100) | 13 => (5, 100) | 14 => (60, 3600) | 15 => (300, 7200) | 16 => (10, 100000)
  | 17 => (look ps pDoseWarn + 10, 500000) | _ => (1, 10)

/-- A value clamped to its parameter's range, and whether it was (R174). -/
def clampParam (ps : Vector Nat 19) (i : Fin 19) (v : Nat) : Nat × Bool :=
  let (lo, hi) := paramRange ps i
  if v < lo then (lo, true) else if hi < v then (hi, true) else (v, false)

/-- The dependent parameter of a mark or threshold, and the least value it may now stand at (R174). -/
def dependentOf (ps : Vector Nat 19) (i : Fin 19) : Option (Fin 19 × Nat) :=
  if i = pPauseMark then some (pResumeMark, look ps pPauseMark + 64)
  else if i = pDoseWarn then some (pDoseAlarm, look ps pDoseWarn + 10)
  else none

/-- One pair of a TUNE: the parameters after it, the value applied, whether it was clamped, the dependent parameter raised. -/
def applyPair (ps : Vector Nat 19) (i : Fin 19) (v : Nat) : Vector Nat 19 × Nat × Bool × Option (Fin 19 × Nat) :=
  let (v', clamped) := clampParam ps i v
  let ps' := put ps i v'
  match dependentOf ps' i with
  | some (j, least) => if look ps' j < least then (put ps' j least, v', clamped, some (j, least)) else (ps', v', clamped, none)
  | none => (ps', v', clamped, none)

end Sys2Proof.Machine
end

