-- ==== Sys2Proof/Machine/Layout.lean ====
section
/-! DEFINITION. The byte layouts that the part sends: replies and notices (R179), burst frames and POLLs (R180), deliveries
(R182), head line commands (R183), and the settings image (R184). -/

namespace Sys2Proof.Machine

/-! ### Fields (R178, R179) -/

def out1 (n : Nat) : List Byte := [BitVec.ofNat 8 n]
def out2 (n : Nat) : List Byte := be16 (BitVec.ofNat 16 n)
def out4 (n : Nat) : List Byte := be32 (BitVec.ofNat 32 n)
def outFlag (b : Bool) : List Byte := [if b then 1 else 0]
/-- An optional field, preceded by its presence byte. -/
def outOpt {α : Type} (f : α → List Byte) : Option α → List Byte
  | none => [0]
  | some a => 1 :: f a
/-- A one-byte segment field, 255 where it is absent (R178, log 10). -/
def outSeg : Option SegNo → List Byte
  | none => [255]
  | some g => out1 g.val
/-- A temperature field, -32,768 where it is absent (R178). -/
def outTemp : Option Int → List Byte
  | none => be16 0x8000
  | some t => be16 (BitVec.ofInt 16 t)
/-- A list preceded by its count. -/
def outList {α : Type} (f : α → List Byte) (as : List α) : List Byte := out1 as.length ++ as.flatMap f
/-- A set of named values: the value numbered n in bit n. -/
def outSet (bs : List Bool) : List Byte :=
  [BitVec.ofNat 8 ((bs.zipIdx.map (fun p => if p.1 then 2 ^ p.2 else 0)).sum)]

def Kind.num : Kind → Nat | .crane => 0 | .rack => 1
def TermState.num : TermState → Nat | .free => 0 | .enrolled => 1 | .heard => 2 | .silent => 3
def Disposition.num : Disposition → Nat | .crane => 0 | .rack => 1 | .unknown => 2
def ListName.num : ListName → Nat | .common => 0 | .own => 1
def SegClass.num : SegClass → Nat | .good => 0 | .weak => 1 | .dark => 2
def CellState.num : CellState → Nat | .good => 0 | .weak => 1 | .retired => 2 | .marked => 3
def HeadState.num : HeadState → Nat | .offline => 0 | .ready => 1 | .fault => 2
def SurveyStatus.num : SurveyStatus → Nat | .current => 0 | .due => 1 | .overdue => 2
def BeamState.num : BeamState → Nat
  | .idle => 0 | .steering => 1 | .opened => 2 | .closing => 3 | .surveying => 4 | .down => 5
def LossReason.num : LossReason → Nat | .retired => 0 | .marked => 1 | .survey => 2 | .headFault => 3
def HeadCmd.num : HeadCmd → Nat | .steer _ _ => 0 | .release _ => 1 | .sweep => 2 | .probe => 3
def FrameClass.num : FrameClass → Nat | .safety => 0 | .control => 1 | .bulk => 2
def FrameFate.num : FrameFate → Nat
  | .delivered => 0 | .expired => 1 | .excessRetry => 2 | .withdrawn => 3 | .purged => 4 | .linkLost => 5
def Condition.num : Condition → Nat | .enrolled => 0 | .up => 1 | .degraded => 2 | .lost => 3
def PlugState.num : PlugState → Nat | .empty => 0 | .running => 1 | .defrost => 2 | .off => 3
def Silence.num : Silence → Nat | .notSilent => 0 | .silent => 1 | .dark => 2
def PollState.num : PollState → Nat | .noPoll => 0 | .queued => 1 | .notQueued => 2
def InterestMode.num : InterestMode → Nat | .noInterest => 0 | .changes => 1 | .all => 2
def Health.num : Health → Nat | .good => 0 | .bad => 1
def Source.num : Source → Nat | .image => 0 | .defaults => 1
def Area.num : Area → Nat | .a => 0 | .b => 1
def Side.num : Side → Nat | .a => 0 | .b => 1

/-- The reply status codes, from 0 in the order of the table of R7. -/
def Status.num : Status → Nat
  | .ok => 0 | .busy => 1 | .badRequest => 2 | .noRight => 3 | .tokenRange => 4 | .entryInvalid => 5 | .entryStale => 6
  | .terminalGone => 7 | .notAuthorised => 8 | .readOnly => 9 | .duplicate => 10 | .tableFull => 11 | .queueFull => 12
  | .noBuffer => 13 | .paused => 14 | .tooLong => 15 | .noBeam => 16 | .cellUnusable => 17 | .headFault => 18
  | .notHolder => 19 | .burstActive => 20 | .noBurst => 21 | .surveyPending => 22 | .wrongState => 23 | .writeFailed => 24

def Rights.bytes (r : Rights) : List Byte := outSet [r.traffic, r.command, r.admin]
def LinkSet.bytes (m : LinkSet) : List Byte := outSet m.toList
def Reasons.bytes (r : Reasons) : List Byte :=
  outSet [r.excursion, r.probe, r.dark, r.unitOff, r.silent, r.unitCode, r.doseWarn, r.doseAlarm]
def ReadingFlags.bytes (f : ReadingFlags) : List Byte := outSet [f.gap, f.substituted, f.saturated, f.setpointClamped]
def Token.bytes (t : Token) : List Byte := out1 t.list.num ++ [t.entry, t.seq]

/-! ### Deliveries (R182) -/

def TelemetryCopy.bytes (t : TelemetryCopy) : List Byte :=
  out1 t.crane.val ++ outSet [t.truncated, t.positionHeld] ++ outSeg t.seg ++ [0] ++ be32 t.time ++ be16 t.gantry ++
    out2 t.received ++ out2 t.payload.length ++ [0, 0] ++ t.payload

def DigestEntry.bytes (d : DigestEntry) : List Byte :=
  out1 (d.plug.val + 32 * d.plugState.num) ++
    [BitVec.ofNat 8 d.grade.rank ||| (outSet [false, false, d.flags.gap, d.flags.substituted, d.flags.saturated,
      d.flags.setpointClamped]).headD 0] ++
    d.reasons.bytes ++ [0] ++ outTemp d.setpoint ++ outTemp d.temp ++ out4 d.dose

def Digest.bytes (d : Digest) : List Byte :=
  out1 d.rack.val ++ out1 ((d.yard.map Fin.val).getD 0) ++ outSeg d.seg ++ out1 (d.cls.getD .dark).num ++ [d.counter] ++
    out1 d.entries.length ++ be32 d.second ++ [0, 0, 0, 0, 0, 0] ++ d.entries.flatMap DigestEntry.bytes

def Content.bytes : Content → List Byte
  | .telemetry t => t.bytes
  | .digest d => d.bytes

def Delivery.bytes (d : Delivery) : List Byte :=
  (match d.content with
    | .telemetry t => out1 0 ++ out1 t.crane.val
    | .digest g => out1 1 ++ out1 g.rack.val) ++
  out2 d.dropsBefore ++ be32 d.placed ++ out2 d.content.length ++ d.content.bytes

/-! ### Downlink frames (R180) -/

def BurstFrame.bytes (f : BurstFrame) : List Byte :=
  be16 f.handle ++ be32 (f.addr.getD 0) ++ out1 f.cls.num ++ out1 f.attempts ++ out2 f.payload.length ++ f.payload

/-- The payload of a POLL (R180). -/
def pollPayload (rack : RackNo) (last : Option Byte) (now : Time) : List Byte :=
  [0xB0] ++ out1 rack.val ++ outFlag last.isSome ++ [last.getD 0] ++ be32 now

/-! ### Replies (the rule of each request gives the order of its fields) -/

def Identity.bytes (i : Identity) : List Byte :=
  be16 i.vendor ++ be16 i.family ++ out1 i.part ++ out1 i.revision ++ out1 i.link.val ++ out1 i.ax.val ++ i.rights.bytes ++
    out1 i.windowSize ++ out1 i.queueSize ++ out1 i.replyPlaces ++ out1 i.source.num

def UnknownRec.bytes (u : UnknownRec) : List Byte := be32 u.addr ++ be32 u.first ++ be32 u.last ++ out2 u.count

/-- READ TERMINAL's fields (R31). That the crane number, rack number, yard block and report counter, each given for one kind alone,
stand under a presence byte of their own is the model's reading (log 10). -/
def TerminalView.bytes (v : TerminalView) : List Byte :=
  out1 v.number.val ++ out1 ((v.entry.kind.map Kind.num).getD 0) ++ out1 v.entry.state.num ++ be32 (v.entry.addr.getD 0) ++
    be16 v.entry.seq ++ outSeg v.entry.seg ++ be16 v.entry.auth ++ outOpt be32 v.entry.lastHeard ++
    outOpt (fun c => out1 c.val) v.entry.crane ++ outOpt (fun r => out1 r.val) v.entry.rack ++
    outOpt (fun y => out1 y.val) v.entry.yard ++ outOpt (fun b => [b]) v.entry.lastReport ++
    out1 v.safety ++ out1 v.control ++ out1 v.bulk ++ out1 v.inFlight

def AccessEntry.bytes (e : AccessEntry) : List Byte :=
  outFlag e.valid ++ outFlag e.readOnly ++ outFlag e.priv ++ [e.seq] ++ outOpt (fun a => out1 a.val) e.ax ++
    outOpt (fun t => out1 t.val) e.terminal ++ outOpt be16 e.snapshot

def CellView.bytes (c : CellView) : List Byte :=
  out1 c.head.val ++ outFlag c.ready ++ out1 c.cell.state.num ++ out1 c.cell.q ++ out1 c.cell.recovery ++ outOpt out1 c.cell.sweep

def SegView.bytes (v : SegView) : List Byte :=
  out1 v.seg.val ++ out1 v.cls.num ++ outOpt (fun h => out1 h.val) v.serving ++ outList CellView.bytes v.cells

/-- A head's fields (R87). That its two due counts, present or absent together, stand under a presence byte each is the model's
reading (log 10). -/
def HeadView.bytes (v : HeadView) : List Byte :=
  out1 v.state.num ++ out1 v.survey.num ++ outOpt be32 (v.dueAt.map Prod.fst) ++ outOpt be32 (v.dueAt.map Prod.snd) ++
    outOpt (fun o => out1 o.1.num ++ [o.2]) v.outstanding ++ out1 v.queued

def BeamView.bytes (v : BeamView) : List Byte :=
  out1 v.state.num ++ outSeg v.seg ++ LinkSet.bytes v.holders ++ out1 v.awaiting ++ outFlag v.oneShot ++
    outOpt (fun b => [b.1] ++ out1 b.2.val) v.burst ++ outFlag v.releaseDeferred ++ outOpt (fun r => out1 r.num) v.closePending

def WaitView.bytes (v : WaitView) : List Byte := [v.tag] ++ out1 v.seg.val ++ outFlag v.oneShot ++ be32 v.arrival

/-- R138's fields. The time, gantry value and flags of the last telemetry stand under one presence byte, the two flags as one set
byte; whether the watched frame is in the stall-reported set stands under the watch's presence byte; and the class of the segment,
of which the rule says nothing where the segment is absent, stands under a presence byte (log 10). -/
def CraneView.bytes (v : CraneView) : List Byte :=
  out1 v.number.val ++ out1 v.entry.val ++ out1 v.cond.num ++ out1 v.state.num ++ outSeg v.seg ++
    outOpt (fun c => out1 c.num) v.cls ++ outOpt be32 v.lastHeard ++ LinkSet.bytes v.subs ++
    outOpt (fun t => be32 t.1 ++ be16 t.2.1 ++ outSet [t.2.2.1, t.2.2.2]) v.telemetry ++ out2 v.telemetryCount ++
    outOpt (fun w => be16 w.1 ++ be32 w.2.1 ++ outFlag w.2.2) v.watch ++
    out1 v.safety ++ out1 v.control ++ out1 v.bulk ++ outFlag v.safetyInFlight

def Probe.bytes (p : Probe) : List Byte := out1 p.health.num ++ out1 p.invalid ++ out1 p.valid

/-- A slot's fields in the order of R143, the flags of the latest reading as one set byte, and the setpoint, absent in a clear slot,
under a presence byte (log 10). -/
def Slot.bytes (x : Slot) : List Byte :=
  outFlag x.occupied ++ out1 x.plugState.num ++ outOpt (fun v => be16 (BitVec.ofInt 16 v)) x.setpoint ++ x.supply.bytes ++
    x.ret.bytes ++ [x.code] ++ outTemp x.temp ++ out2 x.ePrev ++ out4 x.dose ++ out1 x.residue ++ out4 x.unobserved ++
    out1 x.inBand ++ outOpt be32 x.lastUsable ++ x.reasons.bytes ++ out1 x.grade.rank ++ out1 x.ack.rank ++
    outFlag x.queued ++ outFlag x.displaced ++ x.flags.bytes

def RackView.bytes (v : RackView) : List Byte :=
  out1 v.number.val ++ out1 v.entry.val ++ out1 ((v.yard.map Fin.val).getD 0) ++ outSeg v.seg ++ out1 (v.cls.getD .dark).num ++
    out1 v.state.num ++ outOpt be32 v.lastHeard ++ outOpt (fun b => [b]) v.lastReport ++ out1 v.silence.num ++ out1 v.poll.num ++
    out2 v.accepted ++ outOpt be32 v.lastAcceptance ++ outList (fun p => Slot.bytes p.2) v.slots

def AlarmRec.bytes (p : AlarmRec × Nat) : List Byte :=
  out1 p.2 ++ out1 p.1.rack.val ++ out1 p.1.plug.val ++ out1 p.1.grade.rank ++ out4 p.1.dose ++ be32 p.1.raisedAt ++
    outFlag p.1.released

def Interest.bytes (i : Interest) : List Byte := be32 i.yards ++ outFlag i.allAlarms ++ out1 i.mode.num

/-- A parameter's number and its value, which takes 4 bytes for every parameter (R174; log 10). -/
def outParam (p : Fin 19 × Nat) : List Byte := out1 p.1.val ++ out4 p.2

/-- A reply's fields. That those which a rule gives for one kind or class alone (ENROLL's rack number, SEND's lifetime and deadline),
and READ ENTRY's terminal current indication, which it gives for a valid entry alone, stand under a presence byte in every such
reply is the model's reading (log 10). -/
def ReplyBody.bytes : ReplyBody → List Byte
  | .empty => []
  | .identity i => i.bytes
  | .times ms sec => be32 ms ++ be32 sec
  | .counters vs => vs.flatMap out2
  | .enrolled e q r => out1 e.val ++ be16 q ++ outOpt (fun r => out1 r.val) r
  | .withdrawn q => be16 q
  | .moved b a => outSeg b ++ out1 a.val
  | .dispositions ds => outList (fun d => out1 d.num) ds
  | .unknowns us => outList UnknownRec.bytes us
  | .terminal v => v.bytes
  | .granted t q => t.bytes ++ be16 q
  | .revoked q => [q]
  | .accessEntry e c => e.bytes ++ outOpt outFlag c
  | .coverage vs => outList SegView.bytes vs
  | .cell st => out1 st.num
  | .opened b h g => out1 b.val ++ out1 h.val ++ out1 g.val
  | .beams hs bs n ws => hs.flatMap HeadView.bytes ++ bs.flatMap BeamView.bytes ++ out1 n ++ outList WaitView.bytes ws
  | .survey st => out1 st.num
  | .taken ds n b q => outList Delivery.bytes ds ++ out2 n ++ out2 b ++ out2 q
  | .sent h c ctl =>
      be16 h ++ out1 c.num ++ outOpt (fun p => out2 p) (ctl.map Prod.fst) ++ outOpt be32 (ctl.map Prod.snd)
  | .purged a b c => out1 a ++ out1 b ++ out1 c
  | .burst n fl bl fs => [n] ++ out1 fl ++ out2 bl ++ outList BurstFrame.bytes fs
  | .burstEnd a b c => out1 a ++ out1 b ++ out1 c
  | .subscribed c k g on => out1 c.val ++ out1 k.num ++ outSeg g ++ outFlag on
  | .crane v => v.bytes
  | .interest i => i.bytes
  | .rack v => v.bytes
  | .alarms n f rs => out2 n ++ outList AlarmRec.bytes (rs.zipIdx f)
  | .acknowledged r p g rm => out1 r.val ++ out1 p.val ++ out1 g.rank ++ outFlag rm
  | .doseCleared d g => out4 d ++ out1 g.rank
  | .tuned as rs => outList outParam as ++ outList outParam rs
  | .stored w g => out1 w.num ++ be32 g

/-! ### Notices (numbered from 0 in the order of R9) -/

def Notice.num : Notice → Nat
  | .deliveryReady _ => 0 | .pause _ _ _ _ => 1 | .resume _ => 2 | .beamLost _ _ _ => 3 | .headState _ _ _ => 4
  | .coverageChanged _ _ _ => 5 | .safetyStall _ _ => 6 | .craneState _ _ _ _ _ => 7 | .frameResult _ _ _ _ _ _ => 8
  | .alarmRaised _ _ _ _ _ => 9 | .unknownTerminal _ _ => 10 | .restarted _ _ _ _ => 11

/-- A notice's fields. That CRANE_STATE's class, of which nothing is carried where the segment is absent (R130), stands under a
presence byte is the model's reading (log 10). -/
def Notice.bytes : Notice → List Byte
  | .deliveryReady n => out2 n
  | .pause f p r k => out2 f ++ out2 p ++ out2 r ++ out1 k
  | .resume f => out2 f
  | .beamLost b g r => out1 b.val ++ outSeg g ++ out1 r.num
  | .headState h st sv => out1 h.val ++ out1 st.num ++ out1 sv.num
  | .coverageChanged g b a => out1 g.val ++ out1 b.num ++ out1 a.num
  | .safetyStall c g => out1 c.val ++ outSeg g
  | .craneState c b a g k => out1 c.val ++ out1 b.num ++ out1 a.num ++ outSeg g ++ outOpt (fun k => out1 k.num) k
  | .frameResult h t c tag f n => be16 h ++ out1 t.val ++ out1 c.num ++ [tag] ++ out1 f.num ++ out1 n
  | .alarmRaised r p g d rs => out1 r.val ++ out1 p.val ++ out1 g.rank ++ out4 d ++ rs.bytes
  | .unknownTerminal a l => be32 a ++ out1 l.val
  | .restarted ms sec src l => be32 ms ++ be32 sec ++ out1 src.num ++ out1 l.val

/-- A message on the link: header, body, check value (R179). -/
def frameMessage (kind : Byte) (tag : Byte) (code lost : Nat) (body : List Byte) : List Byte :=
  let m := [0xC3, 0x5A, kind, tag] ++ out2 code ++ out2 body.length ++ out2 lost ++ body
  m ++ be16 (checkValue m)

def Msg.bytes : Msg → List Byte
  | .reply r => frameMessage 2 r.tag r.status.num 0 r.body.bytes
  | .notice n lost => frameMessage 3 0 n.num lost n.bytes

/-! ### Head line commands (R183) -/

/-- The byte that makes the modulo-256 sum 0. -/
def checkByte (bs : List Byte) : Byte := -(bs.foldl (· + ·) 0)

def HeadCmd.bytes (number : Byte) (c : HeadCmd) : List Byte :=
  let m := match c with
    | .steer sd g => [number, 1] ++ out1 sd.num ++ out1 g.val
    | .release sd => [number, 2] ++ out1 sd.num ++ [0]
    | .sweep => [number, 3, 0, 0]
    | .probe => [number, 4, 0, 0]
  m ++ [checkByte m]

/-! ### The settings image (R172, R184) -/

structure Image where
  generation : Word
  links : List (Fin 16 × Rights)
  heads : List (Option Reach)
  params : List Nat
  marks : List (HeadNo × SegNo)
  deriving DecidableEq, Repr

/-- The bytes of one copy of the image, its check value last (R184). R172 and R184 give the first segment and the reach length for a
configured head only; that both are written as 0 for another is the model's choice (log 10). -/
def Image.bytes (i : Image) : List Byte :=
  let m := [0x4B, 0x51, 0xF0, 0xA1] ++ be32 i.generation ++ i.links.flatMap (fun r => out1 r.1.val ++ r.2.bytes) ++
    i.heads.flatMap (fun r => match r with
      | none => [0, 0, 0]
      | some w => [1] ++ out1 w.first ++ out1 w.len) ++
    i.params.flatMap out4 ++ outList (fun p => out1 p.1.val ++ out1 p.2.val) i.marks
  m ++ be16 (checkValue m)

/-- A whole area: the copy, and zeros after its check value (R184). -/
def padArea (bs : List Byte) : List Byte := (bs ++ List.replicate (areaSize - bs.length) 0).take areaSize

end Sys2Proof.Machine
end

