-- ==== Sys2Proof/Machine/Frames.lean ====
section
/-! DEFINITION. Shared operations over downlink frames: the SAFETY fronts and frame ends told to the crane unit (R107, R135),
FRAME_RESULT (R110), dropping waiting frames, POLLs (R109), burst assembly (R116, R117) and the settling of a burst (R119). -/

namespace Sys2Proof.Machine

def Frame.id (f : Frame) : FrameId := { handle := f.handle, accept := f.accept }

/-- The frame's deadline has been reached: its lifetime has passed since its acceptance (R108, R111, log 15). -/
def Frame.late (f : Frame) (now : Time) : Bool :=
  match f.deadline with
  | none => false
  | some d => elapsed d f.accept ≤ elapsed now f.accept

/-- The waiting frames of one terminal and class, in queue order (R107). -/
def queueOf (w : List Frame) (e : EntryNo) (c : FrameClass) : List Frame := w.filter (fun f => f.terminal == e && f.cls == c)

/-- The frame at the front of a terminal's SAFETY queue, by identity. -/
def frontId (w : List Frame) (e : EntryNo) : Option FrameId := (queueOf w e .safety).head?.map Frame.id

def Beam.frames (b : Beam) : List Frame :=
  match b.burst with
  | none => []
  | some u => u.frames

/-- Every frame in flight, beam by beam. -/
def State.inFlight (s : State) : List Frame := s.beamCtl.beams.toList.flatMap Beam.frames

/-- A terminal's frames in flight that are not orphaned. -/
def State.inFlightOf (s : State) (e : EntryNo) : List Frame := s.inFlight.filter (fun f => f.terminal == e && !f.orphaned)

/-- A terminal's held frames (R107). -/
def State.heldCount (s : State) (e : EntryNo) : Nat :=
  (s.downlink.waiting.filter (fun f => f.terminal == e)).length + (s.inFlightOf e).length

/-- A SAFETY frame of the terminal is in flight. -/
def State.safetyInFlight (s : State) (e : EntryNo) : Bool := (s.inFlightOf e).any (fun f => f.cls == .safety)

/-- A new front, or the queue's being empty, moves the stall watch; an unchanged front does not (R135). -/
def CraneRec.seeFront (r : CraneRec) (before after : Option FrameId) (now : Time) : CraneRec :=
  if before = after then r else { r with watch := after.map (fun i => (i, now)) }

/-- The crane unit is told of every SAFETY front that has changed since the waiting frames were `before` (R107, R135). -/
def State.reportFronts (s : State) (before : List Frame) : State :=
  { s with cranes := { s.cranes with records := s.cranes.records.map (Option.map (fun r =>
      r.seeFront (frontId before r.entry) (frontId s.downlink.waiting r.entry) s.now)) } }

/-- The end of a SAFETY frame that is not orphaned leaves its crane's stall-reported set (R135). -/
def State.frameEnded (s : State) (f : Frame) : State :=
  if f.cls = .safety ∧ f.orphaned = false then
    { s with cranes := { s.cranes with records := s.cranes.records.map (Option.map (fun r =>
        if r.entry = f.terminal then { r with reported := r.reported.filter (fun i => i != f.id) } else r)) } }
  else s

/-- FRAME_RESULT at the originator's link, where there is one (R110). -/
def State.frameResult (s : State) (f : Frame) (fate : FrameFate) : State :=
  match f.origin with
  | none => s
  | some o => s.raise o.link (.frameResult f.handle f.terminal f.cls o.tag fate f.attempts)

def State.setWaiting (s : State) (w : List Frame) : State := { s with downlink := { s.downlink with waiting := w } }

/-- Every waiting frame that `p` names is dropped: blocks freed, result raised, counted (R111 to R114). The results of one drop
stand in the order of the one waiting list, a withdrawn terminal's three queues together: R22 and R114 give none (log 12). -/
def State.dropFrames (s : State) (p : Frame → Bool) (fate : FrameFate) (k : Fin 21) : State :=
  let before := s.downlink.waiting
  let gone := before.filter p
  let s := (s.setWaiting (before.filter (fun f => !p f))).setFree (s.pool.free + framesBlocks gone)
  let s := gone.foldl (fun s f => ((s.frameResult f fate).frameEnded f).bumpDown k) s
  s.reportFronts before

/-- An admitted frame takes its handle and joins the back of its queue (R106, R108). -/
def State.queueFrame (s : State) (f : Frame) : State :=
  let before := s.downlink.waiting
  let s := { s with downlink := { s.downlink with
    waiting := before ++ [f], handleCount := s.downlink.handleCount + 1 } }
  (s.setFree (s.pool.free - f.blocks)).reportFronts before

/-- A withdrawal of the entry is in hand and the units named by `p` have yet to deal with it (R22). -/
def State.withdrawing (s : State) (e : EntryNo) (p : Withdrawal → Bool) : Bool :=
  match (s.entry e).withdrawal with
  | none => false
  | some w => p w

/-- The downlink queue block holds queues for the terminal of an entry: one is enrolled there, or its withdrawal has yet to be
dealt with (R20, R114; log 17). -/
def State.hasQueues (s : State) (e : EntryNo) : Bool :=
  (s.entry e).state != .free || s.withdrawing e (fun w => !w.downlinkDone)

/-- A POLL for a rack: queued where the rack has queues, its held frames are fewer than 4 and the pool admits it (R109, R180;
log 17). -/
def State.queuePoll (s : State) (r : RackNo) (e : EntryNo) : State × Bool :=
  if !s.hasQueues e || decide (4 ≤ s.heldCount e) then (s, false)
  else
    let f : Frame := { handle := s.downlink.handleCount, terminal := e, cls := .bulk, origin := none, accept := s.now,
                       deadline := none, attempts := 0, payload := pollPayload r (s.entry e).lastReport s.nowSec,
                       orphaned := false }
    if s.pool.admits (s.param pReserve) .poll f.blocks then (((s.queueFrame f).bumpPool 0).bumpDown 1, true)
    else (s.bumpPool 4, false)

/-! ### Assembling a burst (R116, R117) -/

/-- Entry numbers in rotation: the first one above the rotation point, then on past 255 to 0 (R116). -/
def rotationFrom (point : EntryNo) : List EntryNo :=
  allEntries.filter (fun e => point < e) ++ allEntries.filter (fun e => e ≤ point)

/-- The terminals considered for a burst on a segment, in rotation order (R116). -/
def State.candidates (s : State) (point : EntryNo) (g : SegNo) : List EntryNo :=
  (rotationFrom point).filter (fun e => (s.entry e).state != .free && (s.entry e).seg == some g)

/-- Time remaining to a frame's deadline, modulo 2^32 (R117). -/
def Frame.remaining (f : Frame) (now : Time) : Nat :=
  match f.deadline with
  | none => 2 ^ 32
  | some d => elapsed d now

/-- Of the queues' front frames, the one with the least time remaining, the earlier queue where equal, and the queues
without it. -/
def takeEarliest (now : Time) : List (List Frame) → Option (Frame × List (List Frame))
  | [] => none
  | [] :: qs => (takeEarliest now qs).map (fun r => (r.1, [] :: r.2))
  | (f :: fs) :: qs =>
    match takeEarliest now qs with
    | none => some (f, fs :: qs)
    | some (g, qs') => if g.remaining now < f.remaining now then some (g, (f :: fs) :: qs') else some (f, fs :: qs)

/-- Step 2 of R117: the earliest front again and again, `n` times at most. -/
def mergeByDeadline (now : Time) : Nat → List (List Frame) → List Frame
  | 0, _ => []
  | n + 1, qs =>
    match takeEarliest now qs with
    | none => []
    | some (f, qs') => f :: mergeByDeadline now n qs'

/-- Step 3 of R117: rounds over the queues, `n` rounds at most. -/
def rounds : Nat → List (List Frame) → List Frame
  | 0, _ => []
  | n + 1, qs => qs.filterMap List.head? ++ rounds n (qs.map List.tail)

/-- The frames in the order that R117 places them, before the limits. -/
def State.burstOrder (s : State) (ts : List EntryNo) : List Frame :=
  let w := s.downlink.waiting
  let isCrane := fun e => (s.entry e).kind == some .crane
  let clear := fun e => (queueOf w e .safety).isEmpty && !s.safetyInFlight e
  let safety := (ts.filter (fun e => isCrane e && !s.safetyInFlight e)).filterMap (fun e => (queueOf w e .safety).head?)
  let control := ((ts.filter (fun e => isCrane e && clear e)).map (fun e => queueOf w e .control))
  let bulk := ((ts.filter (fun e => !isCrane e || clear e)).map (fun e => queueOf w e .bulk))
  safety ++ mergeByDeadline s.now w.length control ++ rounds w.length bulk

/-- Assembly stops at the first frame that would take the burst over a limit (R117). -/
def takeFitting (frames bytes : Nat) : List Frame → List Frame
  | [] => []
  | f :: fs =>
    if 1 ≤ frames ∧ f.payload.length ≤ bytes then f :: takeFitting (frames - 1) (bytes - f.payload.length) fs else []

/-- Frames move from the waiting frames into a burst: the frames placed, and those that stay waiting. -/
def moveOut : List Frame → List Frame → List Frame × List Frame
  | [], w => ([], w)
  | f :: fs, w =>
    if f ∈ w then
      let r := moveOut fs (w.erase f)
      (f :: r.1, r.2)
    else moveOut fs w

/-! ### Settling a burst (R119, R120) -/

inductive Settled where
  | orphan | delivered | excess | expired | returned
  deriving DecidableEq, Repr

/-- A frame that comes back: freed if its deadline has been reached, else returned to its queue (R119). -/
def comeBack (now : Time) (f : Frame) : Frame × Settled :=
  if f.cls = .control ∧ f.late now = true then (f, .expired) else (f, .returned)

/-- What becomes of a frame of an ended burst by its outcome (R119). -/
def settle (now : Time) (f : Frame) (o : FrameOutcome) : Frame × Settled :=
  if f.orphaned then (f, .orphan)
  else
    match o with
    | .sentOk => (f, .delivered)
    | .sentFailed =>
      let f := { f with attempts := f.attempts + 1 }
      if 16 ≤ f.attempts then (f, .excess) else comeBack now f
    | .notSent => comeBack now f

/-- The results, counts and reports that one settled frame calls for (R110, R119, R135). -/
def State.noteSettled (s : State) (p : Frame × Settled) : State :=
  match p.2 with
  | .orphan => s.bumpDown 19
  | .delivered => (if p.1.cls = .bulk then s else s.frameResult p.1 .delivered).frameEnded p.1
  | .excess => ((s.frameResult p.1 .excessRetry).frameEnded p.1).bumpDown 16
  | .expired => ((s.frameResult p.1 .expired).frameEnded p.1).bumpDown 15
  | .returned => s

/-- The settled frames of a burst, in position order, under the outcomes reported by position. -/
def Burst.settled (u : Burst) (now : Time) (outcome : Nat → FrameOutcome) : List (Frame × Settled) :=
  u.frames.zipIdx.map (fun p => settle now p.1 (outcome p.2))

/-- The frames that return, in position order. -/
def comingBack (fs : List (Frame × Settled)) : List Frame := (fs.filter (fun p => p.2 == .returned)).map Prod.fst
/-- The frames that are freed, in position order. -/
def goingOut (fs : List (Frame × Settled)) : List Frame := (fs.filter (fun p => p.2 != .returned)).map Prod.fst

/-- How many positions of a burst have an outcome. -/
def Burst.count (u : Burst) (outcome : Nat → FrameOutcome) (o : FrameOutcome) : Nat :=
  ((List.range u.frames.length).filter (fun i => outcome i == o)).length

/-- A beam's burst ends: its frames are freed or returned, counted and reported, and its record cleared (R119, R120). -/
def State.settleBurst (s : State) (b : BeamNo) (u : Burst) (outcome : Nat → FrameOutcome) : State :=
  let before := s.downlink.waiting
  let fs := u.settled s.now outcome
  let s := (s.setWaiting (comingBack fs ++ before)).setFree (s.pool.free + framesBlocks (goingOut fs))
  let s := s.setBeam b { s.beam b with burst := none }
  let s := fs.foldl State.noteSettled s
  let s := ((s.bumpDownBy 11 (u.count outcome .sentOk)).bumpDownBy 12 (u.count outcome .sentFailed)).bumpDownBy 13
    (u.count outcome .notSent)
  s.reportFronts before

end Sys2Proof.Machine
end

