-- ==== Sys2Proof/Machine/Slots.lean ====
section
/-! DEFINITION. Shared operations of the crane and reefer units: deriving a crane's condition (R130, R131), deriving a slot's
grade and consulting the alarm queue (R163 to R166), a rack's silence and its POLLs (R150 to R152), an entry falling silent
(R28) or being heard (R27), and the release that ends a withdrawal (R22). -/

namespace Sys2Proof.Machine

/-! ### Cranes -/

/-- A crane's condition is derived afresh; a change is counted, raised and, into LOST, handed on (R130, R131). -/
def State.deriveCondition (s : State) (c : CraneNo) : State :=
  match s.craneRec c with
  | none => s
  | some k =>
    let x := s.entry k.entry
    match conditionOf x.state (s.classOf x.seg) with
    | none => s
    | some v =>
      if v = k.cond then s
      else
        let s := (s.setCraneRec c (some { k with cond := v })).bumpCrane 5
        let s := s.raiseWhere (fun l n => look k.subs l || n.rights.command)
          (.craneState c k.cond v x.seg (s.classOf x.seg))
        let s := s.bumpCrane 6
        if v = .lost then (s.bumpCrane 7).dropFrames (fun f => f.terminal == k.entry && f.cls == .control) .linkLost 20
        else s

/-! ### Grades and alarms -/

/-- A link covers a rack when the rack's yard block is in its yard-block set (R153). -/
def State.covers (s : State) (l : LinkNo) (r : RackNo) : Bool :=
  match (s.rackRec r).bind (fun k => (s.entry k.entry).yard) with
  | none => false
  | some y => (look s.reefer.interest l).yards.getLsbD y.val

/-- ALARM_RAISED for a slot (R165). -/
def State.raiseAlarm (s : State) (r : RackNo) (p : PlugNo) : State :=
  let x := s.slot r p
  (s.raiseWhere (fun l _ => s.covers l r || (look s.reefer.interest l).allAlarms)
    (.alarmRaised r p x.grade x.dose x.reasons)).bumpReef 18

/-- What the alarm queue made of a slot's grade is written back (R165, R166). -/
def State.applyConsult (s : State) (r : RackNo) (p : PlugNo) (k : Consult) : State :=
  let s := (s.setAlarms k.alarms).setSlot r p k.slot
  let s := match k.displacement with
    | none => s
    | some a =>
      let s := s.bumpReef 20
      if a.released then s
      else s.setSlot a.rack a.plug { s.slot a.rack a.plug with queued := false, displaced := true }
  let s := if k.placed then s.bumpReef 19 else s
  let s := if k.dropped then s.bumpReef 21 else s
  if k.raised then s.raiseAlarm r p else s

/-- A slot's grade is derived and the alarm queue consulted; `reading`: at step 7 of a reading (R163, R165). -/
def State.regrade (s : State) (r : RackNo) (p : PlugNo) (reading : Bool) : State :=
  s.applyConsult r p (consult s.reefer.alarms (s.slot r p).regraded r p s.nowSec reading)

/-! ### Silent racks -/

/-- The silence reasons of an occupied slot under a rack's silence state (R150, R152). -/
def Reasons.underSilence (r : Reasons) : Silence → Reasons
  | .notSilent => { r with silent := false, dark := false }
  | .silent => { r with silent := true, dark := false }
  | .dark => { r with silent := false, dark := true }

/-- One slot of a rack that takes a silence state: if it is occupied and its reasons change, its grade is derived afresh. -/
def State.silencePlug (s : State) (r : RackNo) (v : Silence) (p : PlugNo) : State :=
  let x := s.slot r p
  let y := { x with reasons := x.reasons.underSilence v }
  if x.occupied && y.reasons != x.reasons then (s.setSlot r p y).regrade r p false else s

/-- A rack takes a silence state; every occupied slot whose reasons change has its grade derived afresh (R150, R152), in
ascending plug order, which no rule gives (log 12). -/
def State.setSilence (s : State) (r : RackNo) (v : Silence) : State :=
  match s.rackRec r with
  | none => s
  | some k =>
    allPlugs.foldl (fun s p => s.silencePlug r v p) (s.setRackRec r (some { k with silence := v }))

def State.setPoll (s : State) (r : RackNo) (v : PollState) : State :=
  match s.rackRec r with
  | none => s
  | some k => s.setRackRec r (some { k with poll := v })

/-- A POLL is asked for and the answer recorded (R151). -/
def State.askPoll (s : State) (r : RackNo) : State :=
  match s.rackRec r with
  | none => s
  | some k =>
    let q := s.queuePoll r k.entry
    if q.2 then (q.1.bumpReef 13).setPoll r .queued else (q.1.bumpReef 14).setPoll r .notQueued

/-- The class of the segment in which a rack stands. -/
def State.rackClass (s : State) (k : RackRec) : Option SegClass := s.classOf (s.entry k.entry).seg

/-- A rack has gone from HEARD to SILENT (R150). -/
def State.rackSilent (s : State) (r : RackNo) : State :=
  match s.rackRec r with
  | none => s
  | some k =>
    if s.rackClass k = some .dark then (s.setSilence r .dark).setPoll r .noPoll
    else (s.setSilence r .silent).askPoll r

/-- A silent rack is held against the class now in force for its segment (R152), whose table leaves the POLL state of a rack that
goes from SILENT to DARK as it was (log 32). -/
def State.reevaluateRack (s : State) (r : RackNo) : State :=
  match s.rackRec r with
  | none => s
  | some k =>
    match k.silence, s.rackClass k with
    | .silent, some .dark => s.setSilence r .dark
    | .dark, some .good | .dark, some .weak => (s.setSilence r .silent).askPoll r
    | _, _ => s

/-! ### Silence of an entry -/

/-- The present count on the clock that a kind's silence timer runs on (R28). -/
def State.silenceClock (s : State) : Kind → Time
  | .crane => s.now
  | .rack => s.nowSec

/-- The silence limit of a kind (R28). -/
def State.silenceLimit (s : State) : Kind → Nat
  | .crane => s.param pCraneSilence
  | .rack => s.param pRackSilence

/-- A HEARD entry's silence limit has passed (R28). -/
def State.silenceOver (s : State) (e : EntryNo) : Bool :=
  match (s.entry e).state, (s.entry e).kind with
  | .heard, some k => s.silenceLimit k ≤ elapsed (s.silenceClock k) (s.entry e).silenceFrom
  | _, _ => false

/-- A HEARD entry becomes SILENT, and the unit of its kind is told (R28). -/
def State.goSilent (s : State) (e : EntryNo) : State :=
  let x := s.entry e
  let s := s.setEntry e { x with state := .silent }
  match x.kind, x.crane, x.rack with
  | some .crane, some c, _ => (s.bumpReg 9).deriveCondition c
  | some .rack, _, some r => (s.bumpReg 10).rackSilent r
  | _, _, _ => s

/-! ### Heard traffic and withdrawals -/

/-- Traffic from a terminal: its last-heard time, its state HEARD and its silence timer (R27). -/
def Entry.hear (x : Entry) (t : Time) : Entry := { x with state := .heard, lastHeard := some t, silenceFrom := t }

/-- Once every unit has dealt with a withdrawal, what R21 kept is released (R22). -/
def State.releaseEntry (s : State) (e : EntryNo) : State :=
  let x := s.entry e
  let g := s.registry
  { s with registry := { g with
      entries := put g.entries e { x with kind := none, crane := none, rack := none, yard := none, withdrawal := none },
      craneCount := if x.kind = some .crane then g.craneCount - 1 else g.craneCount,
      rackCount := if x.kind = some .rack then g.rackCount - 1 else g.rackCount } }

/-- One unit has dealt with a withdrawal; the last one to do so releases the entry (R22). -/
def State.partDone (s : State) (e : EntryNo) (f : Withdrawal → Withdrawal) : State :=
  match (s.entry e).withdrawal with
  | none => s
  | some w =>
    if (f w).downlinkDone && (f w).kindDone then s.releaseEntry e
    else s.setEntry e { s.entry e with withdrawal := some (f w) }

end Sys2Proof.Machine
end

