-- ==== Sys2Proof/Machine/Segments.lean ====
section
/-! DEFINITION. Shared operations of the coverage block: the serving order and the choice of the serving cell (R52, R53), and
the dealing with class changes (R54). -/

namespace Sys2Proof.Machine

/-- The READY heads whose cell for the segment is in a given state, with its quality, in ascending head number. -/
def State.readyCells (s : State) (g : SegNo) (st : CellState) : List (HeadNo × Nat) :=
  allHeads.filterMap (fun h =>
    match s.cell h g with
    | some c => if (s.head h).state = .ready ∧ c.state = st then some (h, c.q) else none
    | none => none)

/-- The serving order of a segment (R52): GOOD cells before WEAK, each by quality, then by head number. -/
def State.servingOrder (s : State) (g : SegNo) : List HeadNo :=
  orderByQuality (s.readyCells g .good) ++ orderByQuality (s.readyCells g .weak)

/-- The class and serving head that the cells of a segment now give (R52). -/
def State.chosen (s : State) (g : SegNo) : SegRec :=
  match orderByQuality (s.readyCells g .good), orderByQuality (s.readyCells g .weak) with
  | h :: _, _ => { cls := .good, serving := some h }
  | [], h :: _ => { cls := .weak, serving := some h }
  | [], [] => { cls := .dark, serving := none }

/-- A segment's class has changed: the notice, the cranes and the racks that stand there (R54). -/
def State.classChanged (s : State) (g : SegNo) (before after : SegClass) : State :=
  let s := (s.raiseWhere (fun _ k => k.rights.traffic) (.coverageChanged g before after)).bumpCov 6
  let s := allCranes.foldl (fun s c =>
    match s.craneRec c with
    | some k => if (s.entry k.entry).seg = some g then s.deriveCondition c else s
    | none => s) s
  allRacks.foldl (fun s r =>
    match s.rackRec r with
    | some k => if (s.entry k.entry).seg = some g then s.reevaluateRack r else s
    | none => s) s

/-- The serving cell of each segment listed is chosen afresh; the class changes are then dealt with in order (R53, R54). -/
def State.rechoose (s : State) (gs : List SegNo) : State :=
  let changes := gs.filterMap (fun g =>
    let v := s.chosen g
    if v.cls = (s.segRec g).cls then none else some (g, (s.segRec g).cls, v.cls))
  let s := gs.foldl (fun s g => s.setSegRec g (s.chosen g)) s
  changes.foldl (fun s c => s.classChanged c.1 c.2.1 c.2.2) s

/-- A segment lies in a reach window. -/
def Reach.has (r : Reach) (g : SegNo) : Bool := r.first ≤ g.val && g.val < r.first + r.len

/-- The segments of a head's reach, ascending (R51). -/
def State.reachSegs (s : State) (h : HeadNo) : List SegNo :=
  match look s.coverage.reach h with
  | none => []
  | some r => allSegs.filter r.has

end Sys2Proof.Machine
end

