-- ==== Sys2Proof/Machine/BeamOps.lean ====
section
/-! DEFINITION. Shared operations of the beam controller: head lines (R70, R71), steering, joining and serving beams (R73, R76),
closing them (R77, R78), sweeps (R79), losses (R83), head faults (R85), and the samples that bursts and refusals give (R57,
R58). -/

namespace Sys2Proof.Machine

/-! ### Head lines -/

def HeadCmd.isSteer : HeadCmd → Bool
  | .steer _ _ => true
  | _ => false

/-- The head line sends the command at the front of an idle head's queue (R70). -/
def State.sendNext (s : State) (h : HeadNo) : State :=
  let x := s.head h
  match x.outstanding, x.queue with
  | none, c :: rest =>
    let o : Outstanding := { cmd := c, number := x.nextNumber, sentAt := s.now, leftToFinish := false }
    let s := s.setHead h { x with
      outstanding := some o, queue := rest, nextNumber := x.nextNumber + 1, lineOut := c.bytes x.nextNumber }
    if c.isSteer then s.bumpCov 9 else s
  | _, _ => s

/-- A command joins the back of its head's queue and is sent if the line is free (R70). -/
def State.pushCmd (s : State) (h : HeadNo) (c : HeadCmd) : State :=
  State.sendNext (s.setHead h { s.head h with queue := (s.head h).queue ++ [c] }) h

/-- The outstanding command ends and the next one is sent (R71). -/
def State.endOutstanding (s : State) (h : HeadNo) : State :=
  State.sendNext (s.setHead h { s.head h with outstanding := none }) h

/-- The kind and the entry count of an answer fit a command of a head with `reach` segments (R71). -/
def HeadCmd.fits (c : HeadCmd) (k : AnswerKind) (reach : Nat) : Bool :=
  match k with
  | .done => c != .sweep
  | .sweepResult es => c == .sweep && es.length == reach
  | .refused => true

/-- The outstanding command that an answer matches, and the answer's kind (R71, R183). -/
def State.matched (s : State) (h : HeadNo) (bytes : List Byte) : Option (Outstanding × AnswerKind) :=
  match (s.head h).outstanding, readAnswer bytes with
  | some o, some r =>
    if r.number = o.number ∧ o.cmd.fits r.kind (s.reachSegs h).length then some (o, r.kind) else none
  | _, _ => none

/-- The answer limit of a command (R72). -/
def State.answerLimit (s : State) (c : HeadCmd) : Nat :=
  if c = .sweep then s.param pSweepLimit else s.param pSteerLimit

/-! ### Steering and joining -/

/-- A beam goes to STEERING for one request, and its STEER is queued (R73). -/
def State.steer (s : State) (b : BeamNo) (r : OpenReq) (g : SegNo) (oneShot : Bool) : State :=
  let s := s.setBeam b { s.beam b with
    state := .steering, seg := some g, holders := LinkSet.only r.ref.link, awaiting := [r], oneShot := oneShot }
  s.pushCmd (headOf b) (.steer (sideOf b) g)

/-- A request may join the beam, given the beam's segment (R73). -/
def State.joinable (s : State) (b : BeamNo) : Bool :=
  let x := s.beam b
  (x.state == .opened || x.state == .steering) && !x.oneShot && x.closePending.isNone &&
    (s.head (headOf b)).survey != .overdue && !x.releaseDeferred

/-- A request joins a beam: answered at once when OPEN, awaiting the steer when STEERING (R73). -/
def State.join (s : State) (b : BeamNo) (r : OpenReq) (g : SegNo) : State :=
  let x := s.beam b
  let x := { x with holders := put x.holders r.ref.link true }
  if x.state = .opened then
    ((s.setBeam b x).bumpCov 19).reply r.ref .ok (.opened b (headOf b) g)
  else (s.setBeam b { x with awaiting := x.awaiting ++ [r] }).bumpCov 19

/-- The waiting entries that a beam on a segment may take by joining. -/
def WaitEntry.joins (w : WaitEntry) (g : SegNo) : Bool := !w.oneShot && w.seg == g

/-- Every waiting entry that is not one-shot and names the segment leaves the list and joins the beam (R76). -/
def State.joinWaiting (s : State) (b : BeamNo) (g : SegNo) : State :=
  let w := s.beamCtl.waitList
  (w.filter (fun e => e.joins g)).foldl (fun s e => s.join b e.req g) (s.setWaitList (w.filter (fun e => !e.joins g)))

/-- A head's cell for a segment is usable. -/
def State.cellUsable (s : State) (h : HeadNo) (g : SegNo) : Bool :=
  match s.cell h g with
  | some c => c.state.usable
  | none => false

/-- An IDLE beam serves the oldest waiting entry that it can (R76). -/
def State.serveIdle (s : State) (b : BeamNo) : State :=
  let h := headOf b
  if (s.beam b).state = .idle ∧ (s.head h).state = .ready ∧ (s.head h).survey = .current then
    match s.beamCtl.waitList.find? (fun w => s.cellUsable h w.seg) with
    | none => s
    | some w =>
      let s := (s.setWaitList (s.beamCtl.waitList.erase w)).steer b w.req w.seg w.oneShot
      if w.oneShot then s else s.joinWaiting b w.seg
  else s

/-- A beam that has become OPEN takes the waiting entries for its segment (R76). -/
def State.serveOpen (s : State) (b : BeamNo) : State :=
  match (s.beam b).seg with
  | some g => if s.joinable b then s.joinWaiting b g else s
  | none => s

/-! ### Sweeps and beams that become free -/

/-- The four conditions under which a sweep starts (R79). -/
def State.sweepMay (s : State) (h : HeadNo) : Bool :=
  let x := s.head h
  x.state == .ready && x.survey != .current && (s.beam (beamOf h .a)).state == .idle &&
    (s.beam (beamOf h .b)).state == .idle && x.outstanding.isNone && x.queue.isEmpty && x.retryAt.isNone && !x.restartProbe

/-- A sweep starts on the head if it may (R79). -/
def State.trySweep (s : State) (h : HeadNo) : State :=
  if s.sweepMay h then
    let s := s.setBeam (beamOf h .a) { s.beam (beamOf h .a) with state := .surveying }
    let s := s.setBeam (beamOf h .b) { s.beam (beamOf h .b) with state := .surveying }
    (s.pushCmd h .sweep).bumpCov 12
  else s

/-- A beam has become IDLE: a sweep starts, or the beam serves the wait list (R76, R79). -/
def State.becameIdle (s : State) (b : BeamNo) : State := State.serveIdle (s.trySweep (headOf b)) b

/-! ### Closing -/

/-- BEAM_LOST at each holder of a beam; the close is counted once (R78). -/
def State.raiseLost (s : State) (b : BeamNo) (r : LossReason) : State :=
  let x := s.beam b
  if x.holders.isNone then s
  else (s.raiseWhere (fun l _ => look x.holders l) (.beamLost b x.seg r)).bumpCov 23

/-- The STEER of a beam still stands in its head's queue. -/
def Head.steerQueued (x : Head) (sd : Side) : Bool :=
  x.queue.any (fun c => match c with
    | .steer t _ => t == sd
    | _ => false)

/-- The queue without the STEER of a beam. -/
def Head.dropSteer (x : Head) (sd : Side) : Head :=
  { x with queue := x.queue.filter (fun c => match c with
      | .steer t _ => t != sd
      | _ => true) }

/-- A beam's record in a free state: no segment, holder, request or reason (R74, R78, R85). -/
def Beam.cleared (x : Beam) (st : BeamState) : Beam :=
  { x with state := st, seg := none, holders := LinkSet.none, awaiting := [], oneShot := false, closePending := none,
           releaseDeferred := false }

/-- A beam is closed, with BEAM_LOST where the cause calls for it (R78). -/
def State.closeBeam (s : State) (b : BeamNo) (r : Option LossReason) : State :=
  let x := s.beam b
  let h := headOf b
  if x.state = .steering ∧ (s.head h).steerQueued (sideOf b) = true then
    let s := s.setHead h ((s.head h).dropSteer (sideOf b))
    (s.setBeam b (x.cleared .idle)).becameIdle b
  else if x.state = .opened ∨ x.state = .steering then
    let s := match r with
      | some v => s.raiseLost b v
      | none => s
    let s := s.setBeam b { x.cleared .closing with seg := x.seg }
    s.pushCmd h (.release (sideOf b))
  else s

/-- What the beam controller does when a burst of `owner` has ended on a beam (R77). -/
def State.burstEnded (s : State) (b : BeamNo) (owner : LinkNo) : State :=
  let x := s.beam b
  let x := if x.releaseDeferred then { x with holders := put x.holders owner false, releaseDeferred := false } else x
  let s := s.setBeam b x
  match x.closePending with
  | some r => s.closeBeam b (some r)
  | none => if x.oneShot || x.holders.isNone then s.closeBeam b none else s

/-- A burst ends and the beam controller takes its actions in the same change (R119, R120). -/
def State.endBurst (s : State) (b : BeamNo) (u : Burst) (outcome : Nat → FrameOutcome) : State :=
  State.burstEnded (s.settleBurst b u outcome) b u.owner

/-- A burst is returned by force: every frame NOT_SENT, no sample (R124). -/
def State.forcedReturn (s : State) (b : BeamNo) (u : Burst) : State :=
  (s.settleBurst b u (fun _ => .notSent)).bumpDown 9

/-! ### Losses -/

/-- One beam meets the loss of the cell beneath it (R83). -/
def State.loseBeam (s : State) (b : BeamNo) (g : SegNo) (r : LossReason) : State :=
  let x := s.beam b
  if x.seg ≠ some g then s
  else
    match x.state with
    | .opened =>
      if x.burst.isNone then s.closeBeam b (some r)
      else s.setBeam b { x with closePending := some (x.closePending.getD r) }
    | .steering => s.setBeam b { x with closePending := some (x.closePending.getD r) }
    | _ => s

/-- A cell has stopped being usable (R61, R83). That beam A is dealt with before beam B, so that its BEAM_LOST and its RELEASE come
first, is the model's choice (log 12). -/
def State.cellLost (s : State) (h : HeadNo) (g : SegNo) (r : LossReason) : State :=
  (s.loseBeam (beamOf h .a) g r).loseBeam (beamOf h .b) g r

/-- A burst or refusal sample is offered to a cell (R55, R57, R58). Where it retires the cell, R59 names the loss and the new choice
without an order between what they raise; that the class change and its notices come before the loss and its BEAM_LOST, as R56 has
it for a sweep, is the model's choice (log 12). -/
def State.sample (s : State) (h : HeadNo) (g : SegNo) (m k : Nat) (ctr : Fin 24) : State :=
  match s.cell h g with
  | none => s
  | some c =>
    if c.state.usable then
      let d := c.sampled m k
      let s := (s.setCell h g d).bumpCov ctr
      if d.state = .retired then ((s.bumpCov 4).rechoose [g]).cellLost h g .retired else s.rechoose [g]
    else s.bumpCov 3

/-- The sample of a burst that ended by DONE or CUT (R57, R120): none where no position was sent. -/
def State.burstSample (s : State) (b : BeamNo) (seg : Option SegNo) (ok failed : Nat) : State :=
  match seg with
  | some g => if ok + failed = 0 then s else s.sample (headOf b) g (255 * ok / (ok + failed)) 8 1
  | none => s

/-! ### Head faults -/

/-- HEAD_STATE (R84). -/
def State.raiseHeadState (s : State) (h : HeadNo) : State :=
  s.raiseWhere (fun _ k => k.rights.traffic || k.rights.admin) (.headState h (s.head h).state (s.head h).survey)

/-- A beam of a head that enters FAULT goes DOWN (R85). -/
def State.beamFault (s : State) (b : BeamNo) : State :=
  let x := s.beam b
  let s := if x.state = .opened then s.raiseLost b .headFault else s
  let s := match x.burst with
    | some u => s.forcedReturn b u
    | none => s
  let s := s.setBeam b { x.cleared .down with burst := none }
  if x.state = .steering then x.awaiting.foldl (fun s r => s.answer r.ref .headFault) s else s

/-- A head enters FAULT (R85). That beam A is dealt with before beam B, so that the frames of beam B's burst stand ahead of beam A's
in a queue to which both return (R124), is the model's choice (log 12). -/
def State.headFault (s : State) (h : HeadNo) : State :=
  let s := s.setHead h { s.head h with
    state := .fault, outstanding := none, queue := [], retryAt := none, restartProbe := false,
    probeAt := some (s.now + 1000) }
  let s := (s.beamFault (beamOf h .a)).beamFault (beamOf h .b)
  let s := s.rechoose (s.reachSegs h)
  (s.raiseHeadState h).bumpCov 15

end Sys2Proof.Machine
end

