-- ==== Sys2Proof/Machine/Links.lean ====
section
/-! DEFINITION. The agent links: line events (R2 to R4), messages taken and sent (R4 to R9), and the general requests (R11 to
R13). LINK_DOWN stands in Teardown.lean with what every unit does for it. -/

namespace Sys2Proof.Machine

/-- What one command answers with. -/
abbrev Answered := Host.Outcome State Fault Refusal

/-! ### Fill marks (R2, R3) -/

/-- The fill mark that the part sends on a link while no message is being sent (R2, R3, R8, R179): its second byte carries the
link's state. None before the load has ended, and none on a disabled link. -/
def State.fillMarkOut (s : State) (l : LinkNo) : Option (List Byte) :=
  let k := s.link l
  if s.settings.loaded && k.ax != 0 && !k.sending then some [0x3C, if k.up then 1 else 0] else none

/-- A link is DOWN and nothing but a run of fill marks keeps it so: the load has ended and its AX is not 0 (R2). -/
def State.runCounts (s : State) (k : Link) : Bool := s.settings.loaded && k.ax != 0 && !k.up

/-- The run of fill marks is cut short. -/
def Link.cutRun (k : Link) : Link := { k with runStart := none }

/-- A framing fault on the line: the run is cut and bytes are discarded until the next pattern begins (R2, R4). -/
def Link.framingFault (k : Link) : Link := { k.cutRun with discarding := true }

/-- A complete fill mark: valid for R3, and counted into the run of R2 or beginning a new one after a gap of 5 ms. -/
def Link.fillMark (k : Link) (counts : Bool) (now : Time) : Link :=
  { k with
    lastValid := now, discarding := false, lastMark := now,
    runStart :=
      if counts then
        match k.runStart with
        | none => some now
        | some t => if 5 ≤ elapsed now k.lastMark then some now else some t
      else none }

/-- FILL_MARK_RECEIVED. A second byte other than 00h or 01h is no fill mark but a framing fault (R179). -/
def execFillMarkReceived (link : LinkNo) (second : Byte) (s : State) : Answered :=
  .next (if fillMarkSecondOk second then s.onLink link (fun k => k.fillMark (s.runCounts k) s.now)
    else s.onLink link Link.framingFault)

/-- FILL_MARK_GAP: 5 ms have passed since the last valid mark of a run, and no message, which breaks no run, is being received
(R2, log 5). -/
def execFillMarkGap (gap : LineGap) (s : State) : Answered :=
  .next (s.onLink gap.link (fun k => if !gap.receiving && decide (5 ≤ elapsed s.now k.lastMark) then k.cutRun else k))

/-- The run has lasted 10 ms without a gap of 5 ms (R2). -/
def Link.runComplete (k : Link) (now : Time) : Bool :=
  match k.runStart with
  | none => false
  | some t => 10 ≤ elapsed now t && elapsed now k.lastMark < 5

/-- A link comes UP with an empty window and queue (R2). -/
def Link.comeUp (k : Link) : Link :=
  { k with up := true, window := [], refusal := none, outQ := [], sending := false, lost := 0, runStart := none,
           counters := bump k.counters 10 }

/-- LINK_UP. -/
def execLinkUp (link : LinkNo) (s : State) : Answered :=
  .next (s.onLink link (fun k => if s.runCounts k && k.runComplete s.now then k.comeUp else k))

/-- LINE_FRAMING_FAULT: a framing fault outside a message (R2, R4). -/
def execLineFramingFault (link : LinkNo) (s : State) : Answered := .next (s.onLink link Link.framingFault)

/-! ### Messages received (R4 to R6) -/

/-- A message that fails the checks of R4 is discarded and counted. -/
def Link.damaged (k : Link) : Link := { k.framingFault with counters := bump k.counters 1 }

/-- MESSAGE_ABANDONED. The silence measurement runs from the last byte received, 5 ms back where a gap ended it (R4). -/
def execMessageAbandoned (link : LinkNo) (cause : AbandonCause) (s : State) : Answered :=
  .next (s.onLink link (fun k => { k.damaged with
    lastValid := match cause with
      | .gap => s.now - 5
      | .tooLong => s.now }))

/-- What the link unit decides of a request's right (R6). -/
inductive RightNeeded where
  | noneNeeded | admin | trafficOrAdmin | command | traffic | unreadable
  deriving DecidableEq, Repr

/-- The right that a request needs; GRANT and REVOKE by their list byte (R6). -/
def rightNeeded (c : ReqCode) (body : List Byte) : RightNeeded :=
  match c with
  | .enroll | .withdraw | .move | .markCell | .unmarkCell | .tune | .storeSettings | .restart => .admin
  | .grant | .revoke =>
    match body with
    | 0 :: _ => .admin
    | 1 :: _ => .noneNeeded
    | _ => .unreadable
  | .openBeam | .release | .readBeams | .fetch | .done | .cut | .deliver => .traffic
  | .survey => .trafficOrAdmin
  | .send | .purgeQueue | .acknowledge | .clearDose => .command
  | .identify | .readTime | .readCounters | .readTerminal | .listUnknown | .readEntry | .readCoverage | .take | .subscribe
  | .readCrane | .setInterest | .readRack | .readAlarms => .noneNeeded

/-- A link's rights satisfy what a request needs. -/
def Rights.satisfy (r : Rights) : RightNeeded → Bool
  | .noneNeeded => true
  | .admin => r.admin
  | .trafficOrAdmin => r.traffic || r.admin
  | .command => r.command
  | .traffic => r.traffic
  | .unreadable => false

/-- An accepted request is decoded, checked for its right, and handed to its owner (R6). -/
def State.decodeRequest (s : State) (r : ReqRef) (q : RawRequest) : State :=
  match requestOfCode q.code with
  | none => s.answer r .badRequest
  | some c =>
    match rightNeeded c q.body with
    | .unreadable => s.answer r .badRequest
    | need =>
      if (s.link r.link).rights.satisfy need then
        { s with handed := s.handed ++ [{ ref := r, code := c, body := q.body }] }
      else State.onLink (s.answer r .noRight) r.link (fun k => { k with counters := bump k.counters 5 })

/-- A request joins the window (R5). -/
def Link.accept (k : Link) (tag : Byte) : Link :=
  { k with window := k.window ++ [(tag, k.nextSerial)], nextSerial := k.nextSerial + 1, counters := bump k.counters 0 }

/-- A request is refused BUSY for a full window (R5). -/
def Link.refuseBusy (k : Link) (tag : Byte) : Link :=
  Link.place { k with refusal := some tag, counters := bump k.counters 3 }
    (.reply { tag := tag, serial := none, status := .busy, body := .empty })

/-- A tag is held, by the window or by the refusal place. -/
def Link.holdsTag (k : Link) (tag : Byte) : Bool := k.window.any (fun w => w.1 == tag) || k.refusal == some tag

/-- A request that passed R4 is accepted, refused or discarded by its tag (R5). -/
def State.takeRequest (s : State) (link : LinkNo) (q : RawRequest) : State :=
  let k := s.link link
  if k.holdsTag q.tag then s.onLink link (fun k => { k with counters := bump k.counters 2 })
  else if k.window.length < 8 then
    State.decodeRequest (s.onLink link (fun k => k.accept q.tag)) { link := link, serial := k.nextSerial, tag := q.tag } q
  else if k.refusal.isNone then s.onLink link (fun k => k.refuseBusy q.tag)
  else s.onLink link (fun k => { k with counters := bump k.counters 4 })

/-- A sound message on a DOWN link is discarded and breaks no run: the gap measurement goes on from its last byte (R2, log 6). -/
def Link.passOver (k : Link) (now : Time) : Link := { k with lastMark := now }

/-- MESSAGE_RECEIVED: the checks of R4, then R5; a DOWN link discards a sound message (R2). -/
def execMessageReceived (link : LinkNo) (bytes : List Byte) (s : State) : Answered :=
  .next (
    let s := s.onLink link (fun k => { k with lastValid := s.now, discarding := false })
    match readMessage bytes with
    | none => s.onLink link Link.damaged
    | some q => if (s.link link).up then s.takeRequest link q else s.onLink link (fun k => k.passOver s.now))

/-! ### Messages sent (R5, R8, R9) -/

/-- The last byte of the front message has gone: its tag is freed, and the next message begins (R5, R8). -/
def Link.sent (k : Link) : Link :=
  match k.outQ with
  | [] => k
  | m :: rest =>
    let k := { k with outQ := rest, sending := false, lineOut := m.bytes }
    Link.beginSend (match m with
      | .notice _ _ => { k with counters := bump k.counters 7 }
      | .reply r =>
        match r.serial with
        | some n => { k with window := k.window.filter (fun w => w.2 != n), counters := bump k.counters 6 }
        | none => { k with refusal := none, counters := bump k.counters 6 })

/-- MESSAGE_SENT. -/
def execMessageSent (link : LinkNo) (s : State) : Answered :=
  .next (s.onLink link (fun k => if k.up && k.sending then k.sent else k))

/-! ### General requests (R11 to R13) -/

/-- An owner answers BAD_REQUEST where the body is malformed, else goes on with its fields (R179). -/
def State.reading {α : Type} (s : State) (r : Request) (fields : Option α) (f : α → State) : State :=
  match fields with
  | none => s.answer r.ref .badRequest
  | some v => f v

/-- The identity that IDENTIFY reports (R12). -/
def State.identity (s : State) (l : LinkNo) : Identity :=
  { vendor := Config.vendorCode, family := Config.familyCode, part := 240, revision := Config.revision.val + 1, link := l,
    ax := (s.link l).ax, rights := (s.link l).rights, windowSize := 8, queueSize := 64, replyPlaces := 9,
    source := s.settings.source }

/-- IDENTIFY (R12). -/
def serveIdentify (s : State) (r : Request) : State :=
  s.reading r (readNothing r.body) (fun _ => s.reply r.ref .ok (.identity (s.identity r.ref.link)))

def execIdentify (link : LinkNo) (s : State) : Answered := .next (s.taking .identify link serveIdentify)

/-- READ TIME (R11). -/
def serveReadTime (s : State) (r : Request) : State :=
  s.reading r (readNothing r.body) (fun _ => s.reply r.ref .ok (.times s.now s.nowSec))

def execReadTime (link : LinkNo) (s : State) : Answered := .next (s.taking .readTime link serveReadTime)

/-- The counters of a group, in order; none above group 11 (R13). -/
def State.counterGroup (s : State) (g : Nat) : Option (List Nat) :=
  match g with
  | 0 => some (s.link 0).counters.toList
  | 1 => some (s.link 1).counters.toList
  | 2 => some (s.link 2).counters.toList
  | 3 => some (s.link 3).counters.toList
  | 4 => some s.registry.counters.toList
  | 5 => some s.access.counters.toList
  | 6 => some s.coverage.counters.toList
  | 7 => some s.pool.counters.toList
  | 8 => some s.downlink.counters.toList
  | 9 => some s.cranes.counters.toList
  | 10 => some s.reefer.counters.toList
  | 11 => some s.settings.counters.toList
  | _ => none

def Link.clearCounters (k : Link) : Link := { k with counters := Vector.replicate 12 0 }

/-- Every counter of a group set to 0 (R13). -/
def State.clearGroup (s : State) (g : Nat) : State :=
  match g with
  | 0 => s.onLink 0 Link.clearCounters
  | 1 => s.onLink 1 Link.clearCounters
  | 2 => s.onLink 2 Link.clearCounters
  | 3 => s.onLink 3 Link.clearCounters
  | 4 => { s with registry := { s.registry with counters := Vector.replicate 12 0 } }
  | 5 => { s with access := { s.access with counters := Vector.replicate 12 0 } }
  | 6 => { s with coverage := { s.coverage with counters := Vector.replicate 24 0 } }
  | 7 => { s with pool := { s.pool with counters := Vector.replicate 13 0 } }
  | 8 => { s with downlink := { s.downlink with counters := Vector.replicate 21 0 } }
  | 9 => { s with cranes := { s.cranes with counters := Vector.replicate 11 0 } }
  | 10 => { s with reefer := { s.reefer with counters := Vector.replicate 25 0 } }
  | 11 => { s with settings := { s.settings with counters := Vector.replicate 11 0 } }
  | _ => s

/-- READ COUNTERS (R13). -/
def serveReadCounters (s : State) (r : Request) : State :=
  s.reading r (readCountersBody r.body) (fun q =>
    match s.counterGroup q.1 with
    | none => s.answer r.ref .badRequest
    | some vs => State.reply (if q.2 then s.clearGroup q.1 else s) r.ref .ok (.counters vs))

def execReadCounters (link : LinkNo) (s : State) : Answered := .next (s.taking .readCounters link serveReadCounters)

end Sys2Proof.Machine
end

