-- ==== Sys2Proof/Machine/AccessList.lean ====
section
/-! DEFINITION. The access block: the token check (R41 to R45), GRANT (R36, R37), REVOKE (R39), READ ENTRY (R40). -/

namespace Sys2Proof.Machine

/-! ### Lists and entries -/

/-- The list that a request of a link names (R35). -/
def State.accessList (s : State) (link : LinkNo) : ListName → Vector AccessEntry 128
  | .common => s.access.common
  | .own => look s.access.own link

def State.setAccessEntry (s : State) (link : LinkNo) (n : ListName) (i : Fin 128) (x : AccessEntry) : State :=
  match n with
  | .common => { s with access := { s.access with common := put s.access.common i x } }
  | .own => { s with access := { s.access with own := tweak s.access.own link (fun v => put v i x) } }

/-- An entry number of a list; none for 128 and above. -/
def entryIndex (b : Byte) : Option (Fin 128) := if h : b.toNat < 128 then some ⟨b.toNat, h⟩ else none

/-- The entry's terminal is enrolled as it was when the entry was made (R41 stage 4). -/
def State.entryCurrent (s : State) (x : AccessEntry) : Bool :=
  match x.terminal, x.snapshot with
  | some e, some q => (s.entry e).state != .free && (s.entry e).seq == q
  | _, _ => false

/-- An entry after its revocation: invalid, its sequence moved on, its other fields cleared (R39, R47). -/
def AccessEntry.revoked (x : AccessEntry) : AccessEntry := { AccessEntry.reset with seq := x.seq + 1 }

/-! ### The token check (R41) -/

/-- What a token check gives: the terminal, or the status and the counter of the stage that failed. -/
inductive Checked where
  | passed (terminal : EntryNo)
  | failed (st : Status) (counter : Fin 12)
  deriving DecidableEq, Repr

/-- The six stages of the token check, in order (R41, R43). -/
def State.checkToken (s : State) (link : LinkNo) (t : Token) (writing : Bool) : Checked :=
  match entryIndex t.entry with
  | none => .failed .tokenRange 5
  | some i =>
    let x := look (s.accessList link t.list) i
    if !x.valid then .failed .entryInvalid 6
    else if t.seq ≠ x.seq then .failed .entryStale 7
    else
      match x.terminal with
      | none => .failed .terminalGone 8
      | some e =>
        if !s.entryCurrent x then .failed .terminalGone 8
        else if x.priv && x.ax != some (s.link link).ax && !(s.entry e).auth.getLsbD (s.link link).ax.val then
          .failed .notAuthorised 9
        else if writing && x.readOnly then .failed .readOnly 10
        else .passed e

/-- The owner has a token checked and goes on with its terminal, or answers the failed stage's code (R41, R45). -/
def State.withToken (s : State) (r : Request) (t : Token) (writing : Bool) (f : State → EntryNo → State) : State :=
  match s.checkToken r.ref.link t writing with
  | .failed st k => (s.bumpAcc k).answer r.ref st
  | .passed e => f (s.bumpAcc 4) e

/-! ### GRANT -/

/-- The authority index that a GRANT writes; none where the request's index is malformed (R36, R37). -/
def grantIndex (q : GrantReq) (own : Fin 16) : Option (Fin 16) :=
  match q.list, q.ax with
  | .common, none => none
  | .common, some a => if h : a.toNat < 16 then (if a = 0 then none else some ⟨a.toNat, h⟩) else none
  | .own, none => some own
  | .own, some a => if a.toNat = own.val then some own else none

/-- The lowest-numbered invalid entry of a list. -/
def firstInvalid (v : Vector AccessEntry 128) : Option (Fin 128) := (List.finRange 128).find? (fun i => !(look v i).valid)

/-- GRANT (R36, R37). -/
def serveGrant (s : State) (r : Request) : State :=
  s.reading r (readGrant r.body) (fun q =>
    let l := r.ref.link
    let x := s.entry q.terminal
    match grantIndex q (s.link l).ax with
    | none => s.answer r.ref .badRequest
    | some ax =>
      if x.state = .free ∨ (q.expected.isSome ∧ q.expected ≠ some x.seq) then (s.bumpAcc 2).answer r.ref .terminalGone
      else if q.list = .own ∧ x.auth.getLsbD (s.link l).ax.val = false then (s.bumpAcc 2).answer r.ref .notAuthorised
      else
        match firstInvalid (s.accessList l q.list) with
        | none => (s.bumpAcc 1).answer r.ref .tableFull
        | some i =>
          let old := look (s.accessList l q.list) i
          let s := s.setAccessEntry l q.list i
            { valid := true, readOnly := q.readOnly, priv := q.priv || q.list == .own, seq := old.seq, ax := some ax,
              terminal := some q.terminal, snapshot := some x.seq }
          (s.bumpAcc 0).reply r.ref .ok
            (.granted { list := q.list, entry := BitVec.ofNat 8 i.val, seq := old.seq } x.seq))

def execGrant (link : LinkNo) (s : State) : Answered := .next (s.taking .grant link serveGrant)

/-! ### REVOKE and READ ENTRY -/

/-- REVOKE (R39). -/
def serveRevoke (s : State) (r : Request) : State :=
  s.reading r (readToken r.body) (fun t =>
    match entryIndex t.entry with
    | none => s.answer r.ref .tokenRange
    | some i =>
      let x := look (s.accessList r.ref.link t.list) i
      if !x.valid then s.answer r.ref .entryInvalid
      else if t.seq ≠ x.seq then s.answer r.ref .entryStale
      else ((s.setAccessEntry r.ref.link t.list i x.revoked).bumpAcc 3).reply r.ref .ok (.revoked x.revoked.seq))

def execRevoke (link : LinkNo) (s : State) : Answered := .next (s.taking .revoke link serveRevoke)

/-- The fields of an entry as READ ENTRY gives them: those of an invalid entry are absent (R40). Absent are those that can be, the
link's AX, the terminal and the snapshot; the two flags read as no and the sequence as it stands (log 10). -/
def AccessEntry.shown (x : AccessEntry) : AccessEntry := if x.valid then x else { AccessEntry.reset with seq := x.seq }

/-- READ ENTRY (R40). -/
def serveReadEntry (s : State) (r : Request) : State :=
  s.reading r (readReadEntry r.body) (fun q =>
    match entryIndex q.2 with
    | none => s.answer r.ref .tokenRange
    | some i =>
      let x := look (s.accessList r.ref.link q.1) i
      s.reply r.ref .ok (.accessEntry x.shown (if x.valid then some (s.entryCurrent x) else none)))

def execReadEntry (link : LinkNo) (s : State) : Answered := .next (s.taking .readEntry link serveReadEntry)

/-! ### Link DOWN -/

/-- Every valid entry of a link's own list becomes invalid, each counted (R47). -/
def State.invalidateOwn (s : State) (l : LinkNo) : State :=
  let v := look s.access.own l
  let n := (v.toList.filter AccessEntry.valid).length
  { s with access := { s.access with
      own := put s.access.own l (v.map (fun x => if x.valid then x.revoked else x)),
      counters := bumpBy s.access.counters 11 n } }

end Sys2Proof.Machine
end

