-- ==== Sys2Proof/Machine/CraneLinks.lean ====
section
/-! DEFINITION. The crane unit: telemetry intake (R132, R133), the stall watch (R136), SUBSCRIBE (R137), READ CRANE (R138), a
crane's withdrawal (R139), and a link's subscriptions at DOWN (R140). -/

namespace Sys2Proof.Machine

/-! ### Telemetry (R132, R133) -/

/-- The longest payload that a copy carries. -/
def telemetryMax : Nat := 1008

/-- Step 3 of R132: a gantry segment in 0 to 63 is written where it differs (R25); another is held and counted. -/
def State.placeCrane (s : State) (e : EntryNo) (gantry : Half) : State :=
  if h : gantry.toNat < 64 then
    if (s.entry e).seg = some ⟨gantry.toNat, h⟩ then s
    else (s.setEntry e { s.entry e with seg := some ⟨gantry.toNat, h⟩ }).bumpReg 8
  else s.bumpCrane 3

/-- The record after a frame (R132). -/
def CraneRec.telemetered (k : CraneRec) (now : Time) (gantry : Half) (truncated held : Bool) : CraneRec :=
  { k with lastTelemetry := some now, lastGantry := some gantry, truncated := truncated, positionHeld := held,
           telemetryCount := satInc k.telemetryCount }

/-- Copies are offered to the subscribers in ascending link number, each counted (R133). -/
def State.copyTelemetry (s : State) (subs : LinkSet) (t : TelemetryCopy) : State :=
  (LinkSet.members subs).foldl (fun s l => (s.offerCopy l (.telemetry t)).bumpCrane 4) s

/-- One intake of a frame from a crane; `changed`: the registry changed the crane's state for it (R132). -/
def State.takeTelemetry (s : State) (e : EntryNo) (c : CraneNo) (changed : Bool) : List Byte → State
  | g1 :: g0 :: payload =>
    match s.craneRec c with
    | none => s
    | some k =>
      let gantry := half g1 g0
      let truncated := decide (telemetryMax < payload.length)
      let held := decide (64 ≤ gantry.toNat)
      let s := (s.setCraneRec c (some (k.telemetered s.now gantry truncated held))).bumpCrane 0
      let s := s.placeCrane e gantry
      let s := if truncated then s.bumpCrane 2 else s
      let s := s.deriveCondition c
      s.copyTelemetry k.subs { crane := c, truncated := truncated, positionHeld := held, seg := (s.entry e).seg,
                               time := s.now, gantry := gantry, received := payload.length,
                               payload := payload.take telemetryMax }
  | _ =>
    let s := s.bumpCrane 1
    if changed then s.deriveCondition c else s

/-! ### The stall watch (R136) -/

/-- A crane's watch has run for the stall limit. -/
def State.stallOver (s : State) (c : CraneNo) : Bool :=
  match (s.craneRec c).bind CraneRec.watch with
  | none => false
  | some w => s.param pStallLimit ≤ elapsed s.now w.2

/-- A stall watch expires: its frame raises SAFETY_STALL once in its life (R136). -/
def State.expireWatch (s : State) (c : CraneNo) : State :=
  match s.craneRec c with
  | none => s
  | some k =>
    match k.watch with
    | none => s
    | some w =>
      if w.1 ∈ k.reported then s.setCraneRec c (some { k with watch := none })
      else
        let s := s.setCraneRec c (some { k with watch := none, reported := k.reported ++ [w.1] })
        (s.raiseWhere (fun _ n => n.rights.traffic) (.safetyStall c (s.entry k.entry).seg)).bumpCrane 8

def execStallExpiry (crane : CraneNo) (s : State) : Answered :=
  .next (if s.stallOver crane then s.expireWatch crane else s)

/-! ### Requests -/

/-- A request about a crane goes on with its number and record, or is answered WRONG_STATE. -/
def State.withCrane (s : State) (r : Request) (e : EntryNo) (f : CraneNo → CraneRec → State) : State :=
  match (s.entry e).kind, (s.entry e).crane with
  | some .crane, some c =>
    match s.craneRec c with
    | some k => f c k
    | none => s.answer r.ref .wrongState
  | _, _ => s.answer r.ref .wrongState

/-- SUBSCRIBE (R137). -/
def serveSubscribe (s : State) (r : Request) : State :=
  s.reading r (readSubscribe r.body) (fun q =>
    s.withToken r q.1 false (fun s e =>
      s.withCrane r e (fun c k =>
        let l := r.ref.link
        let was := look k.subs l
        let s := s.setCraneRec c (some { k with subs := put k.subs l q.2 })
        let s := if q.2 && !was then s.bumpCrane 9 else if !q.2 && was then s.bumpCrane 10 else s
        s.reply r.ref .ok (.subscribed c k.cond (s.entry e).seg q.2))))

def execSubscribe (link : LinkNo) (s : State) : Answered := .next (s.taking .subscribe link serveSubscribe)

/-- What READ CRANE gives (R138). -/
def State.craneView (s : State) (e : EntryNo) (c : CraneNo) (k : CraneRec) : CraneView :=
  let x := s.entry e
  { number := c, entry := e, cond := k.cond, state := x.state, seg := x.seg, cls := s.classOf x.seg,
    lastHeard := x.lastHeard, subs := k.subs,
    telemetry := match k.lastTelemetry, k.lastGantry with
      | some t, some g => some (t, g, k.truncated, k.positionHeld)
      | _, _ => none,
    telemetryCount := k.telemetryCount,
    watch := k.watch.map (fun w => (w.1.handle, w.2, k.reported.contains w.1)),
    safety := (queueOf s.downlink.waiting e .safety).length,
    control := (queueOf s.downlink.waiting e .control).length,
    bulk := (queueOf s.downlink.waiting e .bulk).length,
    safetyInFlight := s.safetyInFlight e }

/-- READ CRANE (R138). -/
def serveReadCrane (s : State) (r : Request) : State :=
  s.reading r (readToken r.body) (fun t =>
    s.withToken r t false (fun s e =>
      s.withCrane r e (fun c k => s.reply r.ref .ok (.crane (s.craneView e c k)))))

def execReadCrane (link : LinkNo) (s : State) : Answered := .next (s.taking .readCrane link serveReadCrane)

/-! ### Withdrawal and link DOWN -/

/-- The crane unit's part of a withdrawal (R139). -/
def State.endCrane (s : State) (c : CraneNo) : State :=
  match s.craneRec c with
  | none => s
  | some k =>
    let s := s.setCraneRec c none
    { s with cranes := { s.cranes with counters := bumpBy s.cranes.counters 10 (LinkSet.members k.subs).length } }

/-- CRANE_WITHDRAWAL (R139, R22). -/
def execCraneWithdrawal (entry : EntryNo) (s : State) : Answered :=
  .next (
    match (s.entry entry).kind, (s.entry entry).crane with
    | some .crane, some c =>
      if s.withdrawing entry (fun w => !w.kindDone) then
        (s.endCrane c).partDone entry (fun w => { w with kindDone := true })
      else s
    | _, _ => s)

/-- Every subscription of a link ends (R140). -/
def State.endSubscriptions (s : State) (l : LinkNo) : State :=
  let n := (s.cranes.records.toList.filter (fun o => o.any (fun k => look k.subs l))).length
  { s with cranes := { s.cranes with
      records := s.cranes.records.map (Option.map (fun k => { k with subs := put k.subs l false })),
      counters := bumpBy s.cranes.counters 10 n } }

end Sys2Proof.Machine
end

