-- ==== Sys2Proof/Machine/Reefers.lean ====
section
/-! DEFINITION. The reefer unit's intake: rack reports (R144, R145), readings (R146 to R149, R159 to R163), digests (R154), SET
INTEREST (R153), READ RACK (R156), a rack's withdrawal (R155). -/

namespace Sys2Proof.Machine

/-! ### One reading on one slot (R146 to R149, R159 to R162) -/

/-- A setpoint held to -400 to +300 (R147). -/
def clampSetpoint (v : Int) : Int := max (-400) (min 300 v)

/-- Steps 1 to 3 of R146: flags, plug state and code, setpoint. -/
def Slot.written (x : Slot) (q : Reading) : Slot :=
  { x with
    plugState := q.plugState, code := q.code, setpoint := some (clampSetpoint q.setpoint),
    flags := { ReadingFlags.clear with setpointClamped := clampSetpoint q.setpoint != q.setpoint },
    reasons := { x.reasons with unitOff := q.plugState == .off, unitCode := q.code != 0 } }

/-- Step 4: both probes, and the reason PROBE (R148). -/
def Slot.probed (x : Slot) (q : Reading) : Slot :=
  let supply := x.supply.take q.supply
  let ret := x.ret.take q.ret
  { x with supply := supply, ret := ret, reasons := { x.reasons with probe := supply.health == .bad || ret.health == .bad } }

/-- Step 5: the control temperature, and SUBSTITUTED (R149). -/
def Slot.controlled (x : Slot) (q : Reading) : Slot :=
  match controlTemp (clampSetpoint q.setpoint) x.supply x.ret q.supply q.ret with
  | some (t, sub) => { x with temp := some t, flags := { x.flags with substituted := sub } }
  | none => { x with temp := none }

/-- The excess of a usable reading; none for one that is not usable (R159). -/
def Slot.excessOf (x : Slot) (ps : Vector Nat 19) (q : Reading) : Option Nat :=
  if q.plugState = .defrost then some 0
  else x.temp.map (excess (look ps pChilledBand) (look ps pFrozenBand) (clampSetpoint q.setpoint))

/-- Step 6: the dose arithmetic (R159 to R162). -/
def Slot.dosed (x : Slot) (ps : Vector Nat 19) (now : Time) (q : Reading) : Slot :=
  let y := match x.excessOf ps q with
    | some e => (x.addExcess now (look ps pMaxGap) e).judgeExcursion (look ps pInBandClear) e
    | none => x
  y.judgeDose (look ps pDoseWarn) (look ps pDoseAlarm)

/-- Steps 1 to 6 of R146 on an occupied slot. -/
def Slot.afterReading (x : Slot) (ps : Vector Nat 19) (now : Time) (q : Reading) : Slot :=
  (((x.written q).probed q).controlled q).dosed ps now q

/-- A probe's health went from one value to the other. -/
def Probe.turned (p q : Probe) (h : Health) : Bool := p.health != h && q.health == h

/-- The counters that a reading moves (R158, R171), from the slot before it and after step 6. -/
def State.countReading (s : State) (x y : Slot) : State :=
  let s := if y.flags.setpointClamped then s.bumpReef 8 else s
  let s := if x.supply.turned y.supply .bad then s.bumpReef 9 else s
  let s := if x.ret.turned y.ret .bad then s.bumpReef 9 else s
  let s := if x.supply.turned y.supply .good then s.bumpReef 10 else s
  let s := if x.ret.turned y.ret .good then s.bumpReef 10 else s
  let s := if y.flags.substituted then s.bumpReef 11 else s
  let s := if y.temp.isNone && y.plugState != .defrost then s.bumpReef 12 else s
  let s := if y.flags.gap then s.bumpReef 16 else s
  if y.flags.saturated then s.bumpReef 17 else s

/-- An EMPTY reading releases an occupied slot: its record is marked released, the slot becomes clear (R146, R167). -/
def State.releaseSlot (s : State) (r : RackNo) (p : PlugNo) : State :=
  let s := s.setAlarms (s.reefer.alarms.map (fun a => if a.isOf r p && !a.released then { a with released := true } else a))
  (s.setSlot r p Slot.clear).bumpReef 7

/-- A reading applied to its slot (R146). -/
def State.applyReading (s : State) (r : RackNo) (q : Reading) : State :=
  let p := q.plug
  if q.plugState = .empty then
    if (s.slot r p).occupied then s.releaseSlot r p else s
  else
    let s := if (s.slot r p).occupied then s else (s.setSlot r p { Slot.clear with occupied := true }).bumpReef 6
    let x := s.slot r p
    let y := x.afterReading s.settings.params s.nowSec q
    ((s.countReading x y).setSlot r p y).regrade r p true

/-! ### A rack report (R144, R145) -/

/-- How a report is judged by its counter. -/
inductive Judgement where
  | accepted | duplicate | stale
  deriving DecidableEq, Repr

/-- The judgement of R145. -/
def judgeReport (last : Option Byte) (c : Byte) : Judgement :=
  match last with
  | none => .accepted
  | some l =>
    let d := (c - l).toNat
    if d = 0 then .duplicate else if d ≤ 127 then .accepted else .stale

/-- The reading of a report that is applied for a plug: the last that names it (R146). -/
def lastReading (qs : List Reading) (p : PlugNo) : Option Reading := qs.reverse.find? (fun q => q.plug == p)

/-- The readings applied, in ascending plug order. -/
def appliedReadings (qs : List Reading) : List Reading := allPlugs.filterMap (lastReading qs)

/-- A digest's entry for a slot (R154). -/
def digestEntry (p : PlugNo) (x : Slot) : DigestEntry :=
  { plug := p, plugState := x.plugState, grade := x.grade, reasons := x.reasons, flags := x.flags, setpoint := x.setpoint,
    temp := x.temp, dose := x.dose }

/-- The report is changing: some slot's grade or plug state differs from the one before (R154). -/
def changing (before after : Vector Slot 24) : Bool :=
  allPlugs.any (fun p => (look before p).grade != (look after p).grade || (look before p).plugState != (look after p).plugState)

/-- The plugs that a digest reports (R154). -/
def digestPlugs (qs : List Reading) (before after : Vector Slot 24) : List PlugNo :=
  allPlugs.filter (fun p => (lastReading qs p).isSome || (look before p).grade != (look after p).grade)

/-- The digest of a report just applied (R154). -/
def State.digest (s : State) (r : RackNo) (e : EntryNo) (c : Byte) (qs : List Reading) (before : Vector Slot 24) : Digest :=
  let x := s.entry e
  let after := look s.reefer.slots r
  { rack := r, yard := x.yard, seg := x.seg, cls := s.classOf x.seg, counter := c, second := s.nowSec,
    entries := (digestPlugs qs before after).map (fun p => digestEntry p (look after p)) }

/-- Whether a link is sent a digest: its mode, the pool's state and the report (R154, R102). -/
def wantsDigest (m : InterestMode) (paused change : Bool) : Bool :=
  match m with
  | .noInterest => false
  | .changes => change
  | .all => !paused || change

/-- Digests are offered to the UP links that cover the rack, in ascending link number (R154). -/
def State.offerDigests (s : State) (r : RackNo) (d : Digest) (change : Bool) : State :=
  let paused := s.pool.paused
  allLinks.foldl (fun s l =>
    let m := (look s.reefer.interest l).mode
    if !(s.link l).up || !s.covers l r then s
    else if wantsDigest m paused change then (s.bumpReef 15).offerCopy l (.digest d)
    else if m = .all then s.bumpPool 12
    else s) s

/-- An accepted report: registry, silence, readings, record, digests (R145). -/
def State.acceptReport (s : State) (e : EntryNo) (r : RackNo) (k : RackRec) (c : Byte) (qs : List Reading) : State :=
  let before := look s.reefer.slots r
  let s := s.setEntry e { (s.entry e).hear s.nowSec with lastReport := some c }
  let s := if k.silence = .notSilent then s else (s.setSilence r .notSilent).setPoll r .noPoll
  let applied := appliedReadings qs
  let s := s.bumpReefBy 5 (qs.length - applied.length)
  let s := applied.foldl (fun s q => s.applyReading r q) s
  let s := match s.rackRec r with
    | none => s
    | some k => s.setRackRec r (some { k with accepted := satInc k.accepted, lastAcceptance := some s.nowSec })
  let s := s.bumpReef 2
  s.offerDigests r (s.digest r e c qs before) (changing before (look s.reefer.slots r))

/-- A frame from a rack is handed to the reefer unit (R144, R145). -/
def State.takeReport (s : State) (e : EntryNo) (r : RackNo) (frame : List Byte) : State :=
  let s := s.bumpReef 0
  match readReport frame, s.rackRec r with
  | none, _ => s.bumpReef 1
  | some _, none => s
  | some (c, qs), some k =>
    match judgeReport (s.entry e).lastReport c with
    | .accepted => s.acceptReport e r k c qs
    | .duplicate => s.bumpReef 3
    | .stale => s.bumpReef 4

/-! ### Requests -/

/-- SET INTEREST (R153). -/
def serveSetInterest (s : State) (r : Request) : State :=
  s.reading r (readInterest r.body) (fun i =>
    State.reply { s with reefer := { s.reefer with interest := put s.reefer.interest r.ref.link i } } r.ref .ok (.interest i))

def execSetInterest (link : LinkNo) (s : State) : Answered := .next (s.taking .setInterest link serveSetInterest)

/-- A request about a rack goes on with its number and record, or is answered WRONG_STATE. -/
def State.withRack (s : State) (r : Request) (e : EntryNo) (f : RackNo → RackRec → State) : State :=
  match (s.entry e).kind, (s.entry e).rack with
  | some .rack, some n =>
    match s.rackRec n with
    | some k => f n k
    | none => s.answer r.ref .wrongState
  | _, _ => s.answer r.ref .wrongState

/-- The plugs that READ RACK names: all 24, or a range that lies within them (R156). -/
def rackRange : Option (Nat × Nat) → Option (List PlugNo)
  | none => some allPlugs
  | some (f, n) => if f < 24 ∧ 1 ≤ n ∧ f + n ≤ 24 then some (allPlugs.filter (fun p => f ≤ p.val && p.val < f + n)) else none

/-- What READ RACK gives (R156). -/
def State.rackView (s : State) (e : EntryNo) (n : RackNo) (k : RackRec) (ps : List PlugNo) : RackView :=
  let x := s.entry e
  { number := n, entry := e, yard := x.yard, seg := x.seg, cls := s.classOf x.seg, state := x.state, lastHeard := x.lastHeard,
    lastReport := x.lastReport, silence := k.silence, poll := k.poll, accepted := k.accepted,
    lastAcceptance := k.lastAcceptance, slots := ps.map (fun p => (p, s.slot n p)) }

/-- READ RACK (R156). -/
def serveReadRack (s : State) (r : Request) : State :=
  s.reading r (readReadRack r.body) (fun q =>
    s.withToken r q.1 false (fun s e =>
      s.withRack r e (fun n k =>
        match rackRange q.2 with
        | none => s.answer r.ref .badRequest
        | some ps => s.reply r.ref .ok (.rack (s.rackView e n k ps)))))

def execReadRack (link : LinkNo) (s : State) : Answered := .next (s.taking .readRack link serveReadRack)

/-! ### Withdrawal -/

/-- The reefer unit's part of a withdrawal: records removed, slots clear, rack record not present (R155, R167). -/
def State.endRack (s : State) (r : RackNo) : State :=
  let n := (s.reefer.alarms.filter (fun a => a.rack == r)).length
  let s := s.bumpReefBy 22 n
  let s := s.setAlarms (s.reefer.alarms.filter (fun a => a.rack != r))
  State.setRackRec { s with reefer := { s.reefer with slots := put s.reefer.slots r (Vector.replicate 24 Slot.clear) } } r none

/-- REEFER_WITHDRAWAL (R155, R22). -/
def execReeferWithdrawal (entry : EntryNo) (s : State) : Answered :=
  .next (
    match (s.entry entry).kind, (s.entry entry).rack with
    | some .rack, some r =>
      if s.withdrawing entry (fun w => !w.kindDone) then
        (s.endRack r).partDone entry (fun w => { w with kindDone := true })
      else s
    | _, _ => s)

end Sys2Proof.Machine
end

