-- ==== Sys2Proof/Machine/Alarms.lean ====
section
/-! DEFINITION. The requests on alarms and doses: READ ALARMS (R170), ACKNOWLEDGE (R168), CLEAR DOSE (R169). -/

namespace Sys2Proof.Machine

/-- READ ALARMS (R170). -/
def serveReadAlarms (s : State) (r : Request) : State :=
  s.reading r (readReadAlarms r.body) (fun q =>
    s.reply r.ref .ok (.alarms s.reefer.alarms.length q.1 ((s.reefer.alarms.drop q.1).take q.2)))

def execReadAlarms (link : LinkNo) (s : State) : Answered := .next (s.taking .readAlarms link serveReadAlarms)

/-- The slot's record is removed, its grade acknowledged, its flags cleared (R168). -/
def State.acknowledgeSlot (s : State) (n : RackNo) (p : PlugNo) : State :=
  let x := s.slot n p
  let s := s.setAlarms (s.reefer.alarms.filter (fun a => !a.isOf n p))
  (s.setSlot n p { x with ack := x.grade, queued := false, displaced := false }).bumpReef 23

/-- ACKNOWLEDGE (R168). -/
def serveAcknowledge (s : State) (r : Request) : State :=
  s.reading r (readPlugReq r.body) (fun q =>
    s.withToken r q.1 true (fun s e =>
      s.withRack r e (fun n _ =>
        let removed := s.reefer.alarms.any (fun a => a.isOf n q.2)
        (s.acknowledgeSlot n q.2).reply r.ref .ok (.acknowledged n q.2 (s.slot n q.2).grade removed))))

def execAcknowledge (link : LinkNo) (s : State) : Answered := .next (s.taking .acknowledge link serveAcknowledge)

/-- The dose and what follows from it alone are cleared (R169). -/
def Slot.doseCleared (x : Slot) : Slot :=
  { x with dose := 0, residue := 0, unobserved := 0, ePrev := 0,
           reasons := { x.reasons with doseWarn := false, doseAlarm := false } }

/-- CLEAR DOSE (R169). -/
def serveClearDose (s : State) (r : Request) : State :=
  s.reading r (readPlugReq r.body) (fun q =>
    s.withToken r q.1 true (fun s e =>
      s.withRack r e (fun n _ =>
        let x := s.slot n q.2
        if !x.occupied then s.answer r.ref .wrongState
        else
          let s := ((s.setSlot n q.2 x.doseCleared).regrade n q.2 false).bumpReef 24
          s.reply r.ref .ok (.doseCleared x.dose (s.slot n q.2).grade))))

def execClearDose (link : LinkNo) (s : State) : Answered := .next (s.taking .clearDose link serveClearDose)

end Sys2Proof.Machine
end

