-- ==== Sys2Proof/Machine/RegistryUnit.lean ====
section
/-! DEFINITION. The terminal registry: ENROLL (R19, R20), WITHDRAW (R21), MOVE (R24), DELIVER (R26 to R29), the silence timers
(R28), LIST UNKNOWN (R30), READ TERMINAL (R31). -/

namespace Sys2Proof.Machine

/-! ### ENROLL -/

/-- The limit of a kind's count (R18). -/
def kindLimit : Kind → Nat
  | .crane => 16
  | .rack => 240

/-- The count of a kind (R18). -/
def Registry.count (g : Registry) : Kind → Nat
  | .crane => g.craneCount
  | .rack => g.rackCount

/-- The entry that an address names (R18, R26). -/
def Registry.lookup (g : Registry) (a : Word) : Option EntryNo := (g.addrMap.find? (fun p => p.1 == a)).map Prod.snd

/-- An entry holds the crane number, a withdrawal in hand included (R19). -/
def State.craneHeld (s : State) (c : CraneNo) : Bool := allEntries.any (fun e => (s.entry e).crane == some c)

/-- The checks of R19 after the first; none where the ENROLL passes. -/
def State.enrollRefusal (s : State) (q : EnrollReq) : Option (Status × Fin 12) :=
  if (s.registry.lookup q.addr).isSome then some (.duplicate, 4)
  else if kindLimit q.kind ≤ s.registry.count q.kind then some (.tableFull, 5)
  else if q.kind = .crane ∧ q.crane.any s.craneHeld = true then some (.duplicate, 4)
  else none

/-- The lowest-numbered FREE entry with no withdrawal in hand (R20). -/
def State.freeEntry (s : State) : Option EntryNo :=
  allEntries.find? (fun e => (s.entry e).state == .free && (s.entry e).withdrawal.isNone)

/-- The lowest rack number that no rack entry holds (R20). -/
def State.freeRack (s : State) : Option RackNo :=
  allRacks.find? (fun r => !allEntries.any (fun e => (s.entry e).rack == some r))

/-- A crane record at its enrolment (R128). -/
def CraneRec.start (e : EntryNo) : CraneRec :=
  { entry := e, cond := .enrolled, subs := LinkSet.none, lastTelemetry := none, lastGantry := none, truncated := false,
    positionHeld := false, telemetryCount := 0, watch := none, reported := [] }

/-- A rack record at its enrolment (R142). -/
def RackRec.start (e : EntryNo) : RackRec :=
  { entry := e, silence := .notSilent, poll := .noPoll, accepted := 0, lastAcceptance := none }

/-- The entry as an ENROLL writes it (R20). -/
def Entry.enrolled (x : Entry) (q : EnrollReq) (rack : Option RackNo) : Entry :=
  { kind := some q.kind, state := .enrolled, addr := some q.addr, seq := x.seq + 1, seg := q.seg, auth := q.auth,
    lastHeard := none, silenceFrom := x.silenceFrom, crane := q.crane, rack := rack, yard := q.yard, lastReport := none,
    withdrawal := none }

/-- The registry's part of an ENROLL that passed R19 (R20). -/
def State.enrollEntry (s : State) (e : EntryNo) (q : EnrollReq) (rack : Option RackNo) : State :=
  let g := s.registry
  { s with registry := { g with
      entries := put g.entries e ((s.entry e).enrolled q rack),
      addrMap := g.addrMap ++ [(q.addr, e)],
      craneCount := if q.kind = .crane then g.craneCount + 1 else g.craneCount,
      rackCount := if q.kind = .rack then g.rackCount + 1 else g.rackCount,
      unknowns := g.unknowns.filter (fun u => u.addr != q.addr) } }

/-- The unit of the terminal's kind starts its record (R20, R128, R142). -/
def State.startRecord (s : State) (e : EntryNo) (q : EnrollReq) (rack : Option RackNo) : State :=
  match q.kind, q.crane, rack with
  | .crane, some c, _ => s.setCraneRec c (some (CraneRec.start e))
  | .rack, _, some r => s.setRackRec r (some (RackRec.start e))
  | _, _, _ => s

/-- ENROLL (R19, R20). R19's last paragraph says that a free entry and number are always found. -/
def serveEnroll (s : State) (r : Request) : State :=
  s.reading r (readEnroll r.body) (fun q =>
    match s.enrollRefusal q with
    | some (st, k) => (s.bumpReg k).answer r.ref st
    | none =>
      match s.freeEntry, s.freeRack with
      | some e, some n =>
        let rack := if q.kind = .rack then some n else none
        let s := ((s.enrollEntry e q rack).startRecord e q rack).bumpReg 3
        s.reply r.ref .ok (.enrolled e (s.entry e).seq rack)
      | some e, none =>
        if q.kind = .rack then (s.bumpReg 5).answer r.ref .tableFull
        else
          let s := ((s.enrollEntry e q none).startRecord e q none).bumpReg 3
          s.reply r.ref .ok (.enrolled e (s.entry e).seq none)
      | none, _ => (s.bumpReg 5).answer r.ref .tableFull)

def execEnroll (link : LinkNo) (s : State) : Answered := .next (s.taking .enroll link serveEnroll)

/-! ### WITHDRAW -/

/-- The entry right after a WITHDRAW (R21). -/
def Entry.withdrawn (x : Entry) : Entry :=
  { x with state := .free, seq := x.seq + 1, seg := none, auth := 0, addr := none, lastHeard := none, lastReport := none,
           withdrawal := some { downlinkDone := false, kindDone := false } }

/-- The registry's change at a WITHDRAW (R21). -/
def State.withdrawEntry (s : State) (e : EntryNo) : State :=
  let g := s.registry
  { s with registry := { g with
      entries := put g.entries e (s.entry e).withdrawn, addrMap := g.addrMap.filter (fun p => p.2 != e) } }

/-- WITHDRAW (R21). -/
def serveWithdraw (s : State) (r : Request) : State :=
  s.reading r (readWithdraw r.body) (fun q =>
    let x := s.entry q.1
    if x.state = .free ∨ x.seq ≠ q.2 then s.answer r.ref .wrongState
    else ((s.withdrawEntry q.1).bumpReg 6).reply r.ref .ok (.withdrawn (x.seq + 1)))

def execWithdraw (link : LinkNo) (s : State) : Answered := .next (s.taking .withdraw link serveWithdraw)

/-! ### MOVE -/

/-- An entry's segment is written, and the unit of its kind is told (R24). -/
def State.moveEntry (s : State) (e : EntryNo) (g : SegNo) : State :=
  let x := s.entry e
  let s := (s.setEntry e { x with seg := some g }).bumpReg 7
  match x.kind, x.crane, x.rack with
  | some .crane, some c, _ => s.deriveCondition c
  | some .rack, _, some r => s.reevaluateRack r
  | _, _, _ => s

/-- MOVE (R24). -/
def serveMove (s : State) (r : Request) : State :=
  s.reading r (readMove r.body) (fun q =>
    let x := s.entry q.1
    if x.state = .free ∨ x.seq ≠ q.2.1 then s.answer r.ref .wrongState
    else
      let s := if x.seg = some q.2.2 then s else State.judge (s.moveEntry q.1 q.2.2)
      s.reply r.ref .ok (.moved x.seg q.2.2))

def execMove (link : LinkNo) (s : State) : Answered := .next (s.taking .move link serveMove)

/-! ### DELIVER -/

/-- The unknown-source list after a frame from an address (R29): the list, whether the address joined, whether one left. -/
def noteUnknown (us : List UnknownRec) (a : Word) (now : Time) : List UnknownRec × Bool × Bool :=
  match us.find? (fun u => u.addr == a) with
  | some u => (us.filter (fun v => v.addr != a) ++ [{ u with last := now, count := satInc u.count }], false, false)
  | none =>
    let full := decide (8 ≤ us.length)
    ((if full then us.tail else us) ++ [{ addr := a, first := now, last := now, count := 1 }], true, full)

/-- A frame whose address is not in the map (R29). -/
def State.takeUnknown (s : State) (link : LinkNo) (a : Word) : State :=
  let n := noteUnknown s.registry.unknowns a s.now
  let s := s.bumpReg 2
  let s := { s with registry := { s.registry with unknowns := n.1 } }
  let s := if n.2.2 then s.bumpReg 11 else s
  if n.2.1 then s.raiseWhere (fun _ k => k.rights.admin) (.unknownTerminal a link) else s

/-- One uplink frame is looked up and handed on; the pool is judged after it (R26, R27, R92). -/
def State.takeUplink (s : State) (link : LinkNo) (f : Word × List Byte) : State × Disposition :=
  match s.registry.lookup f.1 with
  | none => (s.takeUnknown link f.1, .unknown)
  | some e =>
    let x := s.entry e
    match x.kind, x.crane, x.rack with
    | some .crane, some c, _ =>
      let s := (s.bumpReg 0).setEntry e (x.hear s.now)
      (State.judge (s.takeTelemetry e c (x.state != .heard) f.2), .crane)
    | some .rack, _, some r => (State.judge ((s.bumpReg 1).takeReport e r f.2), .rack)
    | _, _, _ => (s.takeUnknown link f.1, .unknown)

/-- The frames of a DELIVER in list order (R26). -/
def State.takeUplinks (s : State) (link : LinkNo) : List (Word × List Byte) → State × List Disposition
  | [] => (s, [])
  | f :: fs =>
    let a := s.takeUplink link f
    let b := State.takeUplinks a.1 link fs
    (b.1, a.2 :: b.2)

/-- DELIVER (R26). -/
def serveDeliver (s : State) (r : Request) : State :=
  s.reading r (readDeliver r.body) (fun fs =>
    let q := s.takeUplinks r.ref.link fs
    q.1.reply r.ref .ok (.dispositions q.2))

def execDeliver (link : LinkNo) (s : State) : Answered := .next (s.taking .deliver link serveDeliver)

/-! ### Silence timers, reading -/

/-- SILENCE_EXPIRY (R28). -/
def execSilenceExpiry (entry : EntryNo) (s : State) : Answered :=
  .next (if s.silenceOver entry then State.judge (s.goSilent entry) else s)

/-- LIST UNKNOWN (R30). -/
def serveListUnknown (s : State) (r : Request) : State :=
  s.reading r (readNothing r.body) (fun _ => s.reply r.ref .ok (.unknowns s.registry.unknowns))

def execListUnknown (link : LinkNo) (s : State) : Answered := .next (s.taking .listUnknown link serveListUnknown)

/-- What READ TERMINAL gives (R31). -/
def State.terminalView (s : State) (e : EntryNo) : TerminalView :=
  { number := e, entry := s.entry e,
    safety := (queueOf s.downlink.waiting e .safety).length,
    control := (queueOf s.downlink.waiting e .control).length,
    bulk := (queueOf s.downlink.waiting e .bulk).length,
    inFlight := (s.inFlightOf e).length }

/-- READ TERMINAL (R31). -/
def serveReadTerminal (s : State) (r : Request) : State :=
  s.reading r (readToken r.body) (fun t =>
    s.withToken r t false (fun s e => s.reply r.ref .ok (.terminal (s.terminalView e))))

def execReadTerminal (link : LinkNo) (s : State) : Answered := .next (s.taking .readTerminal link serveReadTerminal)

end Sys2Proof.Machine
end

