-- ==== Sys2Proof/Machine/CoverageCells.lean ====
section
/-! DEFINITION. The requests of the coverage block: READ COVERAGE (R64), MARK CELL (R62), UNMARK CELL (R63). -/

namespace Sys2Proof.Machine

/-- The cells of a segment in ascending head number, as READ COVERAGE shows them (R64). -/
def State.cellViews (s : State) (g : SegNo) : List CellView :=
  allHeads.filterMap (fun h => (s.cell h g).map (fun c => { head := h, ready := (s.head h).state == .ready, cell := c }))

/-- One segment as READ COVERAGE shows it (R64). -/
def State.segView (s : State) (g : SegNo) : SegView :=
  { seg := g, cls := (s.segRec g).cls, serving := (s.segRec g).serving, cells := s.cellViews g }

/-- READ COVERAGE (R64). -/
def serveReadCoverage (s : State) (r : Request) : State :=
  s.reading r (readCoverageBody r.body) (fun q =>
    s.reply r.ref .ok (.coverage ((allSegs.filter (fun g => q.1 ≤ g.val && g.val < q.1 + q.2)).map s.segView)))

def execReadCoverage (link : LinkNo) (s : State) : Answered := .next (s.taking .readCoverage link serveReadCoverage)

/-- A cell that is not MARKED becomes so (R62). -/
def State.markCell (s : State) (h : HeadNo) (g : SegNo) (c : Cell) : State :=
  let s := ((s.setCell h g { c with state := .marked, recovery := 0 }).bumpCov 7).rechoose [g]
  if c.state.usable then s.cellLost h g .marked else s

/-- MARK CELL (R62). -/
def serveMarkCell (s : State) (r : Request) : State :=
  s.reading r (readCellBody r.body) (fun q =>
    match s.cell q.1 q.2 with
    | none => s.answer r.ref .badRequest
    | some c =>
      let s := if c.state = .marked then s else State.judge (s.markCell q.1 q.2 c)
      s.reply r.ref .ok (.cell c.state))

def execMarkCell (link : LinkNo) (s : State) : Answered := .next (s.taking .markCell link serveMarkCell)

/-- A MARKED cell returns WEAK at 128 (R63). -/
def State.unmarkCell (s : State) (h : HeadNo) (g : SegNo) (c : Cell) : State :=
  ((s.setCell h g { c with state := .weak, q := 128, recovery := 0 }).bumpCov 8).rechoose [g]

/-- UNMARK CELL (R63). -/
def serveUnmarkCell (s : State) (r : Request) : State :=
  s.reading r (readCellBody r.body) (fun q =>
    match s.cell q.1 q.2 with
    | none => s.answer r.ref .badRequest
    | some c =>
      let s := if c.state = .marked then State.judge (s.unmarkCell q.1 q.2 c) else s
      s.reply r.ref .ok (.cell c.state))

def execUnmarkCell (link : LinkNo) (s : State) : Answered := .next (s.taking .unmarkCell link serveUnmarkCell)

end Sys2Proof.Machine
end

