-- ==== Sys2Proof/Machine/Beams.lean ====
section
/-! DEFINITION. The beam controller's requests (OPEN, RELEASE, READ BEAMS, SURVEY: R73, R77, R82, R87), the answers of the head
lines (R71, R74, R78, R81, R86, R89), and its timers (R72, R75, R79 to R81, R86). -/

namespace Sys2Proof.Machine

/-! ### OPEN (R73) -/

/-- Some cell covering the segment is usable, whatever its head's state (R73 step 1). -/
def State.segUsable (s : State) (g : SegNo) : Bool := allHeads.any (fun h => s.cellUsable h g)

/-- The lowest-numbered beam on the segment that the request may join (R73 step 2). -/
def State.beamToJoin (s : State) (g : SegNo) : Option BeamNo :=
  allBeams.find? (fun b => (s.beam b).seg == some g && s.joinable b)

/-- The IDLE beam of a head, beam A first. -/
def State.idleBeam (s : State) (h : HeadNo) : Option BeamNo :=
  [beamOf h .a, beamOf h .b].find? (fun b => (s.beam b).state == .idle)

/-- The beam to steer: the first head of the serving order that is CURRENT and has an IDLE beam (R73 step 3). -/
def State.beamToSteer (s : State) (g : SegNo) : Option BeamNo :=
  (s.servingOrder g).findSome? (fun h =>
    if (s.head h).state = .ready ∧ (s.head h).survey = .current then s.idleBeam h else none)

/-- OPEN's third and fourth steps. -/
def State.steerOrWait (s : State) (q : OpenReq) (g : SegNo) (oneShot : Bool) : State :=
  match s.beamToSteer g with
  | some b => s.steer b q g oneShot
  | none =>
    if s.beamCtl.waitList.length < 16 then
      (s.setWaitList (s.beamCtl.waitList ++ [{ req := q, seg := g, oneShot := oneShot }])).bumpCov 20
    else (s.bumpCov 21).answer q.ref .noBeam

/-- OPEN (R73). -/
def serveOpenBeam (s : State) (r : Request) : State :=
  s.reading r (readOpen r.body) (fun q =>
    let o : OpenReq := { ref := r.ref, arrival := s.now }
    if !s.segUsable q.1 then s.answer r.ref .cellUnusable
    else
      match (if q.2 then none else s.beamToJoin q.1) with
      | some b => s.join b o q.1
      | none => s.steerOrWait o q.1 q.2)

def execOpenBeam (link : LinkNo) (s : State) : Answered := .next (s.taking .openBeam link serveOpenBeam)

/-! ### RELEASE (R77) -/

/-- A link leaves a beam; a STEERING or OPEN beam left without holders closes (R77). -/
def State.leaveBeam (s : State) (b : BeamNo) (l : LinkNo) : State :=
  let x := s.beam b
  let mine := x.awaiting.filter (fun q => q.ref.link == l)
  let y := { x with holders := put x.holders l false, awaiting := x.awaiting.filter (fun q => q.ref.link != l) }
  let s := s.setBeam b y
  let s := mine.foldl (fun s q => s.answer q.ref .noBeam) s
  if y.holders.isNone then s.closeBeam b none else s

/-- The link owns the burst in flight on the beam. -/
def Beam.ownedBy (x : Beam) (l : LinkNo) : Bool := x.burst.any (fun u => u.owner == l)

/-- RELEASE (R77). -/
def serveRelease (s : State) (r : Request) : State :=
  s.reading r (readBeamNo r.body) (fun b =>
    let x := s.beam b
    let l := r.ref.link
    if !look x.holders l then s.answer r.ref .notHolder
    else
      let s := if x.state = .opened ∧ x.ownedBy l = true then s.setBeam b { x with releaseDeferred := true } else s.leaveBeam b l
      s.answer r.ref .ok)

def execRelease (link : LinkNo) (s : State) : Answered := .next (s.taking .release link serveRelease)

/-! ### READ BEAMS (R87) and SURVEY (R82) -/

/-- The survey period in milliseconds. -/
def State.surveyMs (s : State) : Nat := s.param pSurveyPeriod * 1000

def State.headView (s : State) (h : HeadNo) : HeadView :=
  let x := s.head h
  { state := x.state, survey := x.survey,
    dueAt := if x.state = .ready then
        some (x.reference + BitVec.ofNat 32 s.surveyMs, x.reference + BitVec.ofNat 32 (2 * s.surveyMs)) else none,
    outstanding := x.outstanding.map (fun o => (o.cmd, o.number)), queued := x.queue.length }

def State.beamView (s : State) (b : BeamNo) : BeamView :=
  let x := s.beam b
  { state := x.state, seg := x.seg, holders := x.holders, awaiting := x.awaiting.length, oneShot := x.oneShot,
    burst := x.burst.map (fun u => (u.number, u.owner)), releaseDeferred := x.releaseDeferred, closePending := x.closePending }

/-- What READ BEAMS gives a link (R87). -/
def State.beamsView (s : State) (l : LinkNo) : ReplyBody :=
  .beams (allHeads.map s.headView) (allBeams.map s.beamView) s.beamCtl.waitList.length
    ((s.beamCtl.waitList.filter (fun w => w.req.ref.link == l)).map
      (fun w => { tag := w.req.ref.tag, seg := w.seg, oneShot := w.oneShot, arrival := w.req.arrival }))

/-- READ BEAMS (R87). -/
def serveReadBeams (s : State) (r : Request) : State :=
  s.reading r (readNothing r.body) (fun _ => s.reply r.ref .ok (s.beamsView r.ref.link))

def execReadBeams (link : LinkNo) (s : State) : Answered := .next (s.taking .readBeams link serveReadBeams)

def State.setSurvey (s : State) (h : HeadNo) (v : SurveyStatus) : State := s.setHead h { s.head h with survey := v }

/-- A head becomes DUE, and a sweep starts if R79 allows. -/
def State.makeDue (s : State) (h : HeadNo) : State := (s.setSurvey h .due).trySweep h

/-- SURVEY (R82). -/
def serveSurvey (s : State) (r : Request) : State :=
  s.reading r (readHeadNo r.body) (fun h =>
    match (s.head h).state with
    | .offline => s.answer r.ref .wrongState
    | .fault => s.answer r.ref .headFault
    | .ready =>
      let s := if (s.head h).survey = .current then s.makeDue h else s
      s.reply r.ref .ok (.survey (s.head h).survey))

def execSurvey (link : LinkNo) (s : State) : Answered := .next (s.taking .survey link serveSurvey)

/-! ### Answers to STEER (R74, R78) -/

/-- A matched answer has ended its command; the rest of what it brings is left out for a command that a warm restart left to
finish (R89). A sweep is tried at the end, since an outstanding command has ended (R79). -/
def State.answered (s : State) (h : HeadNo) (o : Outstanding) (f : State → State) : State :=
  let s := s.endOutstanding h
  State.trySweep (if o.leftToFinish then s else f s) h

/-- The awaiting requests of a beam are answered OK, oldest first (R74). -/
def State.answerOpened (s : State) (b : BeamNo) (g : SegNo) (qs : List OpenReq) : State :=
  qs.foldl (fun s q => s.reply q.ref .ok (.opened b (headOf b) g)) s

/-- A STEER answered DONE (R74); a beam that has begun closing is left alone (R78). -/
def State.steered (s : State) (b : BeamNo) : State :=
  let x := s.beam b
  if x.state = .steering then
    let s := s.setBeam b { x with state := .opened, awaiting := [] }
    let s := match x.seg with
      | some g => s.answerOpened b g x.awaiting
      | none => s
    match x.closePending with
    | some r => s.closeBeam b (some r)
    | none => s.serveOpen b
  else s

/-- STEER_DONE (R74). -/
def execSteerDone (head : HeadNo) (answer : List Byte) (s : State) : Answered :=
  .next (
    match s.matched head answer with
    | some (o, .done) =>
      match o.cmd with
      | .steer sd _ => s.answered head o (fun s => s.steered (beamOf head sd))
      | _ => s
    | _ => s)

/-- An entry joins a list that is ordered oldest first, behind those of its age (R74). -/
def insertByAge (now : Time) (w : WaitEntry) : List WaitEntry → List WaitEntry
  | [] => [w]
  | v :: vs =>
    if elapsed now v.req.arrival < elapsed now w.req.arrival then w :: v :: vs else v :: insertByAge now w vs

/-- An entry's steer wait limit has passed (R75). -/
def State.waitOver (s : State) (w : WaitEntry) : Bool := s.param pWaitLimit ≤ elapsed s.now w.req.arrival

/-- The requests of a refused steer go back onto the wait list by age; the expired and those beyond 16 are answered (R74). -/
def State.requeue (s : State) (ws : List WaitEntry) : State :=
  let late := ws.filter s.waitOver
  let all := (ws.filter (fun w => !s.waitOver w)).foldl (fun l w => insertByAge s.now w l) s.beamCtl.waitList
  let s := s.setWaitList (all.take 16)
  let s := late.foldl (fun s w => s.answer w.req.ref .noBeam) s
  (all.drop 16).foldl (fun s w => (s.bumpCov 21).answer w.req.ref .noBeam) s

/-- A STEER answered REFUSED: the sample, then the beam and its requests (R74, R78). -/
def State.steerRefused (s : State) (b : BeamNo) (g : SegNo) : State :=
  let x := s.beam b
  let s := s.sample (headOf b) g 0 2 2
  if x.state = .steering then
    let s := s.bumpCov 10
    let s := s.setBeam b { s.beam b with state := .idle, seg := none, holders := LinkSet.none, awaiting := [],
                                         oneShot := false, closePending := none }
    let s := s.requeue (x.awaiting.map (fun q => { req := q, seg := g, oneShot := x.oneShot }))
    s.becameIdle b
  else s

/-- STEER_REFUSED (R74, R58). -/
def execSteerRefused (head : HeadNo) (answer : List Byte) (s : State) : Answered :=
  .next (
    match s.matched head answer with
    | some (o, .refused) =>
      match o.cmd with
      | .steer sd g => State.judge (s.answered head o (fun s => s.steerRefused (beamOf head sd) g))
      | _ => s
    | _ => s)

/-! ### Answers to RELEASE, SWEEP and PROBE -/

/-- A RELEASE answered DONE or REFUSED: the beam goes from CLOSING to IDLE (R78). -/
def State.released (s : State) (b : BeamNo) (refused : Bool) : State :=
  let s := if refused then s.bumpCov 11 else s
  if (s.beam b).state = .closing then State.becameIdle (s.setBeam b { s.beam b with state := .idle, seg := none }) b else s

/-- RELEASE_ANSWERED (R78). -/
def execReleaseAnswered (head : HeadNo) (answer : List Byte) (s : State) : Answered :=
  .next (
    match s.matched head answer with
    | some (o, k) =>
      match o.cmd with
      | .release sd => s.answered head o (fun s => s.released (beamOf head sd) (k == .refused))
      | _ => s
    | none => s)

/-- One entry of a sweep result reaches its cell (R56). -/
def State.sweepEntry (s : State) (h : HeadNo) (g : SegNo) (m : Option Nat) : State :=
  match s.cell h g, m with
  | none, _ => s
  | some c, none => s.setCell h g { c with sweep := none }
  | some c, some v =>
    match c.state with
    | .good | .weak =>
      let d := { c.sampled v 2 with sweep := some v }
      let s := (s.setCell h g d).bumpCov 0
      if d.state = .retired then s.bumpCov 4 else s
    | .retired =>
      let d := { c.recovering v with sweep := some v }
      let s := s.setCell h g d
      if d.state = .good then s.bumpCov 5 else s
    | .marked => (s.setCell h g { c with sweep := some v }).bumpCov 3

/-- The segments of a head whose cells a sweep result retires (R56, R61). -/
def State.retiredBy (s t : State) (h : HeadNo) : List SegNo :=
  (s.reachSegs h).filter (fun g => s.cellUsable h g && !t.cellUsable h g)

/-- A sweep result applied to every cell of the head, the choices and the losses after it (R56). That the losses are handed on in
ascending segment number is the model's choice (log 12). -/
def State.applySweep (s : State) (h : HeadNo) (ms : List (Option Nat)) : State :=
  let gs := s.reachSegs h
  let t := (gs.zip ms).foldl (fun t p => t.sweepEntry h p.1 p.2) s
  (s.retiredBy t h).foldl (fun u g => u.cellLost h g .retired) (t.rechoose gs)

/-- What the beam controller does with a sweep result (R81). -/
def State.swept (s : State) (h : HeadNo) (ms : List (Option Nat)) : State :=
  let s := s.applySweep h ms
  let s := s.setBeam (beamOf h .a) { s.beam (beamOf h .a) with state := .idle }
  let s := s.setBeam (beamOf h .b) { s.beam (beamOf h .b) with state := .idle }
  let s := (s.setHead h { s.head h with reference := s.now, survey := .current }).bumpCov 13
  (s.serveIdle (beamOf h .a)).serveIdle (beamOf h .b)

/-- SWEEP_RESULT (R81). -/
def execSweepResult (head : HeadNo) (answer : List Byte) (s : State) : Answered :=
  .next (
    match s.matched head answer with
    | some (o, .sweepResult ms) => State.judge (s.answered head o (fun s => s.swept head ms))
    | _ => s)

/-- SWEEP_REFUSED (R81). -/
def execSweepRefused (head : HeadNo) (answer : List Byte) (s : State) : Answered :=
  .next (
    match s.matched head answer with
    | some (o, .refused) =>
      if o.cmd = .sweep then
        s.answered head o (fun s => (s.setHead head { s.head head with retryAt := some (s.now + 1000) }).bumpCov 14)
      else s
    | _ => s)

/-- A head in FAULT has answered a PROBE and becomes READY (R86). -/
def State.recoverHead (s : State) (h : HeadNo) : State :=
  let s := s.setHead h { s.head h with state := .ready, probeAt := none, reference := s.now, survey := .due }
  let s := s.setBeam (beamOf h .a) { s.beam (beamOf h .a) with state := .idle }
  let s := s.setBeam (beamOf h .b) { s.beam (beamOf h .b) with state := .idle }
  let s := s.rechoose (s.reachSegs h)
  (s.raiseHeadState h).bumpCov 17

/-- A PROBE answered: a FAULT head recovers, a READY head's restart probe ends (R86, R89). -/
def State.probed (s : State) (h : HeadNo) : State :=
  if (s.head h).state = .fault then s.recoverHead h
  else s.setHead h { s.head h with restartProbe := false, reference := s.now, survey := .due }

/-- PROBE_ANSWERED (R86, R89). -/
def execProbeAnswered (head : HeadNo) (answer : List Byte) (s : State) : Answered :=
  .next (
    match s.matched head answer with
    | some (o, _) => if o.cmd = .probe then State.judge (s.answered head o (fun s => s.probed head)) else s
    | none => s)

/-- UNMATCHED_ANSWER (R71, R183). -/
def execUnmatchedAnswer (head : HeadNo) (answer : List Byte) (s : State) : Answered :=
  .next (if (s.matched head answer).isNone then s.bumpCov 18 else s)

/-! ### Timers -/

/-- The outstanding command's answer limit has run out (R72). -/
def State.answerOver (s : State) (h : HeadNo) : Bool :=
  match (s.head h).outstanding with
  | none => false
  | some o => s.answerLimit o.cmd ≤ elapsed s.now o.sentAt

/-- The answer limit runs out: a FAULT head's PROBE leaves it so, anything else puts the head in FAULT (R72, R85, R86). -/
def State.answerRunsOut (s : State) (h : HeadNo) : State :=
  if (s.head h).state = .fault then s.endOutstanding h else s.headFault h

/-- ANSWER_LIMIT_EXPIRY (R72). -/
def execAnswerLimitExpiry (head : HeadNo) (s : State) : Answered :=
  .next (if s.answerOver head then State.judge (s.answerRunsOut head) else s)

/-- PROBE_TIME (R86): the rhythm goes on from the time reached. -/
def execProbeTime (head : HeadNo) (s : State) : Answered :=
  .next (
    match (s.head head).probeAt with
    | some t =>
      if (s.head head).state = .fault ∧ reached s.now t = true then
        ((s.setHead head { s.head head with probeAt := some (t + 1000) }).pushCmd head .probe).bumpCov 16
      else s
    | none => s)

/-- SWEEP_RETRY_TIME (R81). -/
def execSweepRetryTime (head : HeadNo) (s : State) : Answered :=
  .next (
    match (s.head head).retryAt with
    | some t =>
      if reached s.now t then (s.setHead head { s.head head with retryAt := none }).pushCmd head .sweep else s
    | none => s)

/-- A READY head's reference lies `n` survey periods back (R79). -/
def State.surveyOld (s : State) (h : HeadNo) (n : Nat) : Bool :=
  (s.head h).state == .ready && n * s.surveyMs ≤ elapsed s.now (s.head h).reference

/-- SURVEY_DUE (R79). -/
def execSurveyDue (head : HeadNo) (s : State) : Answered :=
  .next (if s.surveyOld head 1 && (s.head head).survey == .current then s.makeDue head else s)

/-- One beam of a head that has become OVERDUE (R80). -/
def State.overdueBeam (s : State) (b : BeamNo) : State :=
  let x := s.beam b
  let r := x.closePending.getD .survey
  match x.state with
  | .opened =>
    let s := s.setBeam b { x with closePending := some r }
    if x.burst.isNone then s.closeBeam b (some r) else s
  | .steering => s.setBeam b { x with closePending := some r }
  | _ => s

/-- A head becomes OVERDUE (R79, R80). That beam A is dealt with before beam B, so that its BEAM_LOST and its RELEASE come first, is
the model's choice (log 12). -/
def State.makeOverdue (s : State) (h : HeadNo) : State :=
  let s := s.setSurvey h .overdue
  State.trySweep ((s.overdueBeam (beamOf h .a)).overdueBeam (beamOf h .b)) h

/-- SURVEY_OVERDUE (R80). -/
def execSurveyOverdue (head : HeadNo) (s : State) : Answered :=
  .next (if s.surveyOld head 2 && (s.head head).survey != .overdue then s.makeOverdue head else s)

/-- A waiting entry expires (R75). -/
def State.expireWait (s : State) (w : WaitEntry) : State :=
  ((s.setWaitList (s.beamCtl.waitList.erase w)).bumpCov 22).answer w.req.ref .noBeam

/-- WAIT_EXPIRY (R75). -/
def execWaitExpiry (place : Fin 16) (s : State) : Answered :=
  .next (
    match s.beamCtl.waitList[place.val]? with
    | some w => if s.waitOver w then s.expireWait w else s
    | none => s)

end Sys2Proof.Machine
end

