-- ==== Sys2Proof/Machine/PoolQueues.lean ====
section
/-! DEFINITION. The pool's request TAKE (R101), its PAUSE repeats (R96), and its parts of a link DOWN (R103) and of a warm
restart (R104). -/

namespace Sys2Proof.Machine

/-- The first `n` deliveries of a link's queue are removed and their blocks freed (R101). -/
def State.takeDeliveries (s : State) (l : LinkNo) (n : Nat) : State :=
  let q := look s.pool.queues l
  { s with pool := { s.pool with
      queues := put s.pool.queues l (q.drop n), free := s.pool.free + deliveriesBlocks (q.take n),
      counters := bumpBy s.pool.counters 8 (q.take n).length } }

/-- TAKE (R101). -/
def serveTake (s : State) (r : Request) : State :=
  s.reading r (readTake r.body) (fun n =>
    let q := look s.pool.queues r.ref.link
    let s := State.judge (s.takeDeliveries r.ref.link n)
    s.reply r.ref .ok (.taken (q.take n) (q.drop n).length (deliveriesBlocks (q.drop n)) (s.param pQuota)))

def execTake (link : LinkNo) (s : State) : Answered := .next (s.taking .take link serveTake)

/-- A PAUSE is raised again while repeats remain; the rhythm goes on from the time reached (R96). -/
def State.repeatPause (s : State) (t : Time) : State :=
  let n := s.pool.repeatsSent
  let s := { s with pool := { s.pool with nextRepeat := some (t + 100) } }
  if n < s.param pPauseRepeats then
    let s := { s with pool := { s.pool with repeatsSent := n + 1 } }
    (s.raiseWhere (fun _ k => k.rights.command)
      (.pause s.pool.free (s.param pPauseMark) (s.param pResumeMark) (n + 1))).bumpPool 10
  else s

/-- PAUSE_REPEAT (R96). -/
def execPauseRepeat (s : State) : Answered :=
  .next (
    match s.pool.nextRepeat with
    | some t => if s.pool.paused && reached s.now t then s.repeatPause t else s
    | none => s)

/-- The pool's part of a link DOWN (R103). -/
def State.emptyDeliveries (s : State) (l : LinkNo) : State :=
  { s with pool := { s.pool with
      queues := put s.pool.queues l [], free := s.pool.free + deliveriesBlocks (look s.pool.queues l),
      dropped := put s.pool.dropped l 0 } }

/-- The pool's part of a warm restart (R104). -/
def State.restartPool (s : State) : State :=
  { s with pool := { s.pool with
      free := 4096, paused := false, repeatsSent := 0, nextRepeat := none, queues := Vector.replicate 4 [],
      dropped := Vector.replicate 4 0 } }

end Sys2Proof.Machine
end

