-- ==== Sys2Proof/Machine/Downlinks.lean ====
section
/-! DEFINITION. The downlink queue block: SEND (R108), PURGE QUEUE (R113), deadlines (R111), a withdrawal (R114), FETCH (R115 to
R118), DONE (R121), CUT (R122), the burst limit (R123), and its parts of a link DOWN (R125) and of a warm restart (R126). -/

namespace Sys2Proof.Machine

/-! ### SEND (R108) -/

/-- The longest payload for a terminal. -/
def payloadMax : Kind → Nat
  | .crane => 1024
  | .rack => 256

/-- The limit of a terminal's held frames (R107). -/
def heldMax : Kind → Nat
  | .crane => 64
  | .rack => 4

/-- The class that a frame takes: BULK for a rack (R108). -/
def classApplied : Kind → FrameClass → FrameClass
  | .crane, c => c
  | .rack, _ => .bulk

/-- The kind of allocation of a frame (R93). -/
def allocKind : Kind → FrameClass → AllocKind
  | .rack, _ => .rackCommand
  | .crane, .safety => .safety
  | .crane, .control => .control
  | .crane, .bulk => .craneBulk

/-- A CONTROL lifetime held to 1 to 1,000 (R108). -/
def clampLifetime (v : Half) : Nat := max 1 (min 1000 v.toNat)

/-- The lifetime applied: for CONTROL only. -/
def lifetimeApplied (c : FrameClass) (v : Option Half) : Option Nat :=
  if c = .control then some (clampLifetime (v.getD 0)) else none

/-- The frame record that an accepted SEND makes (R108). -/
def State.newFrame (s : State) (r : ReqRef) (e : EntryNo) (k : Kind) (q : SendReq) : Frame :=
  { handle := s.downlink.handleCount, terminal := e, cls := classApplied k q.cls,
    origin := some { link := r.link, tag := r.tag }, accept := s.now,
    deadline := (lifetimeApplied (classApplied k q.cls) q.lifetime).map (fun v => s.now + BitVec.ofNat 32 v),
    attempts := 0, payload := q.payload, orphaned := false }

/-- The pool's refusal of a SEND (R94). -/
def State.poolRefusal (s : State) (a : AllocKind) : Status × Fin 13 :=
  if a = .craneBulk ∧ s.pool.paused = true then (.paused, 3) else (.noBuffer, 2)

/-- The lifetime and deadline that an OK reply gives for CONTROL. -/
def sendControl (c : FrameClass) (v : Option Half) (f : Frame) : Option (Nat × Time) :=
  match lifetimeApplied c v, f.deadline with
  | some n, some d => some (n, d)
  | _, _ => none

/-- An admitted frame is queued and counted (R93, R108). -/
def State.acceptFrame (s : State) (a : AllocKind) (f : Frame) : State :=
  let s := s.queueFrame f
  let s := (s.bumpPool 0).bumpDown 0
  State.judge (if a = .safety ∧ s.pool.free < s.param pReserve then s.bumpPool 1 else s)

/-- SEND, once its token has passed (R108 steps 3 to 5). -/
def State.sendTo (s : State) (r : Request) (e : EntryNo) (k : Kind) (q : SendReq) : State :=
  let a := allocKind k q.cls
  let f := s.newFrame r.ref e k q
  if payloadMax k < q.payload.length then (s.bumpDown 2).answer r.ref .tooLong
  else if heldMax k ≤ s.heldCount e then (s.bumpDown 3).answer r.ref .queueFull
  else if s.pool.admits (s.param pReserve) a f.blocks then
    (s.acceptFrame a f).reply r.ref .ok (.sent f.handle f.cls (sendControl f.cls q.lifetime f))
  else (s.bumpPool (s.poolRefusal a).2).answer r.ref (s.poolRefusal a).1

/-- SEND (R108). A terminal that a token names is enrolled, and so has its kind. -/
def serveSend (s : State) (r : Request) : State :=
  s.reading r (readSend r.body) (fun q =>
    s.withToken r q.token true (fun s e =>
      match (s.entry e).kind with
      | some k => s.sendTo r e k q
      | none => s.answer r.ref .terminalGone))

def execSend (link : LinkNo) (s : State) : Answered := .next (s.taking .send link serveSend)

/-! ### Dropping waiting frames (R111, R113, R114) -/

/-- The waiting frames of a terminal in one class. -/
def Frame.isOf (f : Frame) (e : EntryNo) (c : FrameClass) : Bool := f.terminal == e && f.cls == c

/-- One class of a terminal's queues is purged, if the request names it (R113). -/
def State.purgeClass (s : State) (e : EntryNo) (c : FrameClass) (named : Bool) : State :=
  if named then s.dropFrames (fun f => f.isOf e c) .purged 17 else s

/-- How many frames a purge drops in a class. -/
def State.purgeCount (s : State) (e : EntryNo) (c : FrameClass) (named : Bool) : Nat :=
  if named then (queueOf s.downlink.waiting e c).length else 0

/-- The named classes are purged queue by queue; the pool is judged once (R113). -/
def State.purge (s : State) (e : EntryNo) (set : Byte) : State :=
  State.judge (((s.purgeClass e .safety (set.getLsbD 0)).purgeClass e .control (set.getLsbD 1)).purgeClass e .bulk
    (set.getLsbD 2))

/-- PURGE QUEUE (R113). -/
def servePurgeQueue (s : State) (r : Request) : State :=
  s.reading r (readPurge r.body) (fun q =>
    s.withToken r q.1 true (fun s e =>
      (s.purge e q.2).reply r.ref .ok
        (.purged (s.purgeCount e .safety (q.2.getLsbD 0)) (s.purgeCount e .control (q.2.getLsbD 1))
          (s.purgeCount e .bulk (q.2.getLsbD 2)))))

def execPurgeQueue (link : LinkNo) (s : State) : Answered := .next (s.taking .purgeQueue link servePurgeQueue)

/-- A waiting frame whose deadline has been reached (R111). -/
def State.isLate (s : State) (i : FrameId) (f : Frame) : Bool := f.id == i && f.cls == .control && f.late s.now

/-- DEADLINE_EXPIRY (R111). -/
def execDeadlineExpiry (frame : FrameId) (s : State) : Answered :=
  .next (
    if s.downlink.waiting.any (s.isLate frame) then State.judge (s.dropFrames (s.isLate frame) .expired 14) else s)

/-- The frames of a withdrawn terminal in flight are orphaned in their bursts (R114). -/
def Beam.orphan (x : Beam) (e : EntryNo) : Beam :=
  { x with burst := x.burst.map (fun u =>
      { u with frames := u.frames.map (fun f => if f.terminal = e then { f with orphaned := true } else f) }) }

/-- The downlink queue block's part of a withdrawal (R114). -/
def State.discardTerminal (s : State) (e : EntryNo) : State :=
  let s := s.dropFrames (fun f => f.terminal == e) .withdrawn 18
  { s with beamCtl := { s.beamCtl with beams := s.beamCtl.beams.map (fun x => x.orphan e) } }

/-- DOWNLINK_WITHDRAWAL (R114, R22). -/
def execDownlinkWithdrawal (entry : EntryNo) (s : State) : Answered :=
  .next (
    if s.withdrawing entry (fun w => !w.downlinkDone) then
      State.judge ((s.discardTerminal entry).partDone entry (fun w => { w with downlinkDone := true }))
    else s)

/-! ### FETCH (R115 to R118) -/

/-- The checks of R115 after the first; none where the FETCH passes. -/
def State.fetchRefusal (s : State) (b : BeamNo) (l : LinkNo) : Option Status :=
  let x := s.beam b
  if x.state ≠ .opened ∨ look x.holders l = false then some .notHolder
  else if (s.head (headOf b)).survey = .overdue then some .surveyPending
  else if !(x.seg.any (fun g => s.cellUsable (headOf b) g)) then some .cellUnusable
  else if x.burst.isSome then some .burstActive
  else none

/-- The frames that a burst places and the frames that stay waiting (R116, R117). -/
def State.assemble (s : State) (b : BeamNo) (frames bytes : Nat) : List Frame × List Frame :=
  match (s.beam b).seg with
  | none => ([], s.downlink.waiting)
  | some g =>
    moveOut (takeFitting frames bytes (s.burstOrder (s.candidates (look s.downlink.rotation b) g))) s.downlink.waiting

/-- A burst begins with its frames (R118). -/
def State.beginBurst (s : State) (b : BeamNo) (l : LinkNo) (placed stay : List Frame) : State :=
  let before := s.downlink.waiting
  let d := s.downlink
  let s := s.setBeam b { s.beam b with
    burst := some { number := look d.nextBurst b, owner := l, frames := placed, start := s.now } }
  let s := { s with downlink := { d with
    waiting := stay, nextBurst := put d.nextBurst b (look d.nextBurst b + 1),
    rotation := match placed.getLast? with
      | some f => put d.rotation b f.terminal
      | none => d.rotation } }
  let s := s.reportFronts before
  if placed.isEmpty then (s.bumpDown 4).bumpDown 5 else s.bumpDown 4

/-- A frame as a FETCH reply shows it (R118). -/
def State.burstFrame (s : State) (f : Frame) : BurstFrame :=
  { handle := f.handle, addr := (s.entry f.terminal).addr, cls := f.cls, attempts := f.attempts, payload := f.payload }

/-- FETCH (R115): its limits are clamped. -/
def serveFetch (s : State) (r : Request) : State :=
  s.reading r (readFetch r.body) (fun q =>
    let b := q.1
    let fl := max 1 (min 32 q.2.1)
    let bl := max 128 (min 8192 q.2.2)
    match s.fetchRefusal b r.ref.link with
    | some st => s.answer r.ref st
    | none =>
      let a := s.assemble b fl bl
      (s.beginBurst b r.ref.link a.1 a.2).reply r.ref .ok
        (.burst (look s.downlink.nextBurst b) fl bl (a.1.map s.burstFrame)))

def execFetch (link : LinkNo) (s : State) : Answered := .next (s.taking .fetch link serveFetch)

/-! ### DONE and CUT (R121, R122) -/

/-- The outcome of a position by an outcome list: NOT_SENT beyond its end (R121). -/
def doneOutcome (os : List FrameOutcome) (i : Nat) : FrameOutcome := os.getD i .notSent

/-- The outcome of a position by a list of positions: NOT_SENT where it is not listed (R122). -/
def cutOutcome (ps : List (Nat × FrameOutcome)) (i : Nat) : FrameOutcome :=
  match ps.find? (fun p => p.1 == i) with
  | some p => p.2
  | none => .notSent

/-- How many frames of a settled burst fared in one of several ways. -/
def settledCount (fs : List (Frame × Settled)) (ks : List Settled) : Nat := (fs.filter (fun p => ks.contains p.2)).length

/-- What the reply to DONE and CUT gives (R121; log 20). -/
def endReport (fs : List (Frame × Settled)) : ReplyBody :=
  .burstEnd (settledCount fs [.delivered]) (settledCount fs [.returned]) (settledCount fs [.orphan, .excess, .expired])

/-- A reported burst ends: its frames, the beam, the sample, the pool (R119, R120). -/
def State.reportBurst (s : State) (b : BeamNo) (u : Burst) (outcome : Nat → FrameOutcome) (k : Fin 21) : State :=
  let seg := (s.beam b).seg
  let s := (s.endBurst b u outcome).bumpDown k
  State.judge (s.burstSample b seg (u.count outcome .sentOk) (u.count outcome .sentFailed))

/-- A report on a burst: the checks that DONE and CUT share, then the end of the burst (R121, R122). -/
def State.burstReport (s : State) (r : Request) (b : BeamNo) (n : Byte) (outcome : Nat → FrameOutcome) (k : Fin 21) : State :=
  match (s.beam b).burst with
  | none => (s.bumpDown 10).answer r.ref .noBurst
  | some u =>
    if u.number ≠ n then (s.bumpDown 10).answer r.ref .noBurst
    else if u.owner ≠ r.ref.link then s.answer r.ref .notHolder
    else (s.reportBurst b u outcome k).reply r.ref .ok (endReport (u.settled s.now outcome))

/-- DONE (R121). -/
def serveDone (s : State) (r : Request) : State :=
  s.reading r (readDone r.body) (fun q => s.burstReport r q.1 q.2.1 (doneOutcome q.2.2) 6)

def execDone (link : LinkNo) (s : State) : Answered := .next (s.taking .done link serveDone)

/-- CUT (R122). -/
def serveCut (s : State) (r : Request) : State :=
  s.reading r (readCut r.body) (fun q => s.burstReport r q.1 q.2.1 (cutOutcome q.2.2) 7)

def execCut (link : LinkNo) (s : State) : Answered := .next (s.taking .cut link serveCut)

/-! ### The burst limit (R123) -/

/-- A burst in flight on the beam has passed the burst limit. -/
def State.burstOver (s : State) (b : BeamNo) : Bool :=
  match (s.beam b).burst with
  | none => false
  | some u => s.param pBurstLimit ≤ elapsed s.now u.start

/-- A burst ends by expiry: every frame SENT_FAILED, no sample (R123). -/
def State.expireBurst (s : State) (b : BeamNo) : State :=
  match (s.beam b).burst with
  | none => s
  | some u => (s.endBurst b u (fun _ => .sentFailed)).bumpDown 8

/-- BURST_LIMIT_EXPIRY (R123). -/
def execBurstLimitExpiry (beam : BeamNo) (s : State) : Answered :=
  .next (if s.burstOver beam then State.judge (s.expireBurst beam) else s)

/-! ### Link DOWN and warm restart (R125, R126) -/

/-- A frame without an originator at a link (R125). -/
def Frame.forget (f : Frame) (l : LinkNo) : Frame := if f.origin.any (fun o => o.link == l) then { f with origin := none } else f

def Beam.forget (x : Beam) (l : LinkNo) : Beam :=
  { x with burst := x.burst.map (fun u => { u with frames := u.frames.map (fun f => f.forget l) }) }

/-- Every frame that a link originated loses its originator (R125). -/
def State.forgetOrigin (s : State) (l : LinkNo) : State :=
  let s := s.setWaiting (s.downlink.waiting.map (fun f => f.forget l))
  { s with beamCtl := { s.beamCtl with beams := s.beamCtl.beams.map (fun x => x.forget l) } }

/-- Every frame record is removed; the pool frees the blocks by R104 (R126). -/
def State.restartDownlink (s : State) : State :=
  let s := s.setWaiting []
  { s with beamCtl := { s.beamCtl with beams := s.beamCtl.beams.map (fun x => { x with burst := none }) } }

end Sys2Proof.Machine
end

