-- ==== Sys2Proof/Machine/Teardown.lean ====
section
/-! DEFINITION. LINK_DOWN (R3) with the part that every unit takes in it (R15, R47, R88, R103, R125, R140, R153). -/

namespace Sys2Proof.Machine

/-- The link unit's own change (R3). -/
def Link.goDown (k : Link) : Link :=
  { k with up := false, window := [], refusal := none, outQ := [], sending := false, lost := 0, runStart := none,
           counters := bump k.counters 11 }

/-- A link is removed from a beam's holders and awaiting requests (R88). -/
def Beam.without (x : Beam) (l : LinkNo) : Beam :=
  { x with holders := put x.holders l false, awaiting := x.awaiting.filter (fun q => q.ref.link != l) }

/-- The burst that a departed link owns on a beam is returned, and the beam's actions taken with it (R88, R124). -/
def State.returnOwned (s : State) (b : BeamNo) (l : LinkNo) : State :=
  match (s.beam b).burst with
  | none => s
  | some u => if u.owner = l then (s.forcedReturn b u).burstEnded b l else s

/-- A STEERING or OPEN beam left without holders closes, with no BEAM_LOST (R88). -/
def State.closeIfEmpty (s : State) (b : BeamNo) : State :=
  let x := s.beam b
  if (x.state = .opened ∨ x.state = .steering) ∧ x.holders.isNone = true then s.closeBeam b none else s

/-- The beam controller's and the downlink queue block's parts of a link DOWN (R88, R125). Beams act in ascending beam number,
so STEERING beams freed on several heads serve the wait list in that order: R88 orders only the two beams of one head (log 12). The
bursts that the link owns are settled in that order too, so that the frames of a later beam's burst stand ahead in a queue to which
both return: R124 gives no order (log 12). -/
def State.downBeams (s : State) (l : LinkNo) : State :=
  let s := s.forgetOrigin l
  let s := s.setWaitList (s.beamCtl.waitList.filter (fun w => w.req.ref.link != l))
  let s := { s with beamCtl := { s.beamCtl with beams := s.beamCtl.beams.map (fun x => x.without l) } }
  let s := allBeams.foldl (fun s b => s.returnOwned b l) s
  allBeams.foldl (fun s b => s.closeIfEmpty b) s

/-- The reefer unit's part: the interest record (R153). -/
def State.clearInterest (s : State) (l : LinkNo) : State :=
  { s with reefer := { s.reefer with interest := put s.reefer.interest l Interest.empty } }

/-- Every unit's part of a link DOWN, as one change (R15). -/
def State.tearDown (s : State) (l : LinkNo) : State :=
  let s := s.onLink l Link.goDown
  let s := { s with handed := s.handed.filter (fun r => r.ref.link != l) }
  let s := s.emptyDeliveries l
  let s := s.downBeams l
  let s := ((s.invalidateOwn l).clearInterest l).endSubscriptions l
  s.judge

/-- LINK_DOWN (R3): an UP link, no message being received, and 20 ms without anything valid. -/
def execLinkDown (link : LinkNo) (receiving : Bool) (s : State) : Answered :=
  .next (
    if (s.link link).up && !receiving && decide (20 ≤ elapsed s.now (s.link link).lastValid) then s.tearDown link else s)

end Sys2Proof.Machine
end

