-- ==== Sys2Proof/Machine/SettingsUnit.lean ====
section
/-! DEFINITION. The time counts (R10) and the settings unit's requests and events: TUNE (R174), STORE SETTINGS and its outcome
(R175), RESTART with every unit's part in it, and its answer (R176, R16, R33, R89, R126, R140, R157). -/

namespace Sys2Proof.Machine

/-! ### Time (R10) -/

/-- MILLISECOND_TICK. -/
def execMillisecondTick (s : State) : Answered :=
  .next { s with clock := { s.clock with ms := s.clock.ms + 1, sinceSecond := s.clock.sinceSecond + 1 } }

/-- SECOND_TICK: 1,000 milliseconds have been counted since the second count last advanced. -/
def execSecondTick (s : State) : Answered :=
  .next (
    if 1000 ≤ s.clock.sinceSecond then
      { s with clock := { s.clock with sec := s.clock.sec + 1, sinceSecond := s.clock.sinceSecond - 1000 } }
    else s)

/-! ### TUNE (R174) -/

/-- Outstanding commands whose limit is the parameter run out if they are past it (R72). -/
def State.recheckAnswers (s : State) (sweep : Bool) : State :=
  allHeads.foldl (fun s h =>
    if s.answerOver h && (s.head h).outstanding.any (fun o => (o.cmd == .sweep) == sweep) then s.answerRunsOut h else s) s

/-- Each head is held against a new survey period (R79). -/
def State.recheckSurveys (s : State) : State :=
  allHeads.foldl (fun s h =>
    if s.surveyOld h 2 && (s.head h).survey != .overdue then s.makeOverdue h
    else if s.surveyOld h 1 && (s.head h).survey == .current then s.makeDue h
    else s) s

/-- Waiting entries past a new steer wait limit expire, oldest first (R75). -/
def State.recheckWaits (s : State) : State :=
  (s.beamCtl.waitList.filter s.waitOver).foldl (fun s w => s.expireWait w) s

/-- Bursts past a new burst limit end (R123). -/
def State.recheckBursts (s : State) : State :=
  allBeams.foldl (fun s b => if s.burstOver b then s.expireBurst b else s) s

/-- HEARD entries of a kind past a new silence limit become SILENT (R28). -/
def State.recheckSilence (s : State) (k : Kind) : State :=
  allEntries.foldl (fun s e => if s.silenceOver e && (s.entry e).kind == some k then s.goSilent e else s) s

/-- Stall watches past a new stall limit expire (R136). -/
def State.recheckStalls (s : State) : State :=
  allCranes.foldl (fun s c => if s.stallOver c then s.expireWatch c else s) s

/-- What a changed parameter brings about at once (the last column of R174's table). -/
def State.afterTune (s : State) (i : Fin 19) : State :=
  match i.val with
  | 0 => s.recheckAnswers false
  | 1 => s.recheckAnswers true
  | 2 => s.recheckSurveys
  | 3 => s.recheckWaits
  | 4 => s.recheckBursts
  | 5 => s.recheckSilence .crane
  | 6 => s.recheckStalls
  | 15 => s.recheckSilence .rack
  | _ => s

/-- One pair of a TUNE, as one change (R174). -/
def State.tunePair (s : State) (i : Fin 19) (v : Nat) : State :=
  let a := applyPair s.settings.params i v
  let changed := look a.1 i != look s.settings.params i
  let s := { s with settings := { s.settings with params := a.1 } }
  let s := if a.2.2.1 then s.bumpSet 5 else s
  State.judge (if changed then s.afterTune i else s)

/-- A dependent parameter raised is reported once, with the value it was last raised to. -/
def noteRaise (rs : List (Fin 19 × Nat)) (r : Fin 19 × Nat) : List (Fin 19 × Nat) :=
  if rs.any (fun p => p.1 == r.1) then rs.map (fun p => if p.1 = r.1 then r else p) else rs ++ [r]

/-- The values that the pairs of a TUNE apply, and the dependent parameters they raise (R174). -/
def tuneReport : Vector Nat 19 → List (Fin 19 × Nat) → List (Fin 19 × Nat) → List (Fin 19 × Nat) × List (Fin 19 × Nat)
  | _, [], raised => ([], raised)
  | ps, (i, v) :: rest, raised =>
    let a := applyPair ps i v
    let r := tuneReport a.1 rest (match a.2.2.2 with
      | some d => noteRaise raised d
      | none => raised)
    ((i, a.2.1) :: r.1, r.2)

/-- TUNE (R174). -/
def serveTune (s : State) (r : Request) : State :=
  s.reading r (readTune r.body) (fun ps =>
    let rep := tuneReport s.settings.params ps []
    let s := ps.foldl (fun s p => s.tunePair p.1 p.2) s
    (s.bumpSet 4).reply r.ref .ok (.tuned rep.1 rep.2))

def execTune (link : LinkNo) (s : State) : Answered := .next (s.taking .tune link serveTune)

/-! ### STORE SETTINGS (R175) -/

/-- The link table in force. -/
def State.linkTable (s : State) : List (Fin 16 × Rights) := allLinks.map (fun l => ((s.link l).ax, (s.link l).rights))

/-- The cells that are MARKED, in ascending head and then segment order. -/
def State.markedCells (s : State) : List (HeadNo × SegNo) :=
  allHeads.flatMap (fun h =>
    (allSegs.filter (fun g => (s.cell h g).any (fun c => c.state == .marked))).map (fun g => (h, g)))

/-- The generation of the next store. -/
def State.nextGeneration (s : State) : Word :=
  match s.settings.newest with
  | some (_, g) => g + 1
  | none => 1

/-- The area of the next store: the one that does not hold the newest good copy. -/
def State.nextArea (s : State) : Area :=
  match s.settings.newest with
  | some (.a, _) => .b
  | some (.b, _) => .a
  | none => .a

/-- The snapshot that a store writes. -/
def State.snapshot (s : State) (links : Option (List (Fin 16 × Rights))) (heads : Option (List (Option Reach))) : Image :=
  { generation := s.nextGeneration, links := links.getD s.linkTable, heads := heads.getD s.coverage.reach.toList,
    params := s.settings.params.toList, marks := s.markedCells }

/-- STORE SETTINGS (R175). -/
def serveStoreSettings (s : State) (r : Request) : State :=
  s.reading r (readStore r.body) (fun q =>
    if s.settings.store.isSome then (s.bumpSet 8).answer r.ref .busy
    else
      { s with settings := { s.settings with
          store := some { ref := r.ref, area := s.nextArea, image := padArea (s.snapshot q.1 q.2).bytes,
                          generation := s.nextGeneration, startedAt := s.now } } })

def execStoreSettings (link : LinkNo) (s : State) : Answered := .next (s.taking .storeSettings link serveStoreSettings)

/-- An area holds new contents, written whole. -/
def Settings.writeArea (x : Settings) (area : Area) (contents : List Byte) : Settings :=
  let x := { x with mem := Memory.writeBytes x.mem area.base (padArea contents) }
  match area with
  | .a => { x with cutOffA := false }
  | .b => { x with cutOffB := false }

/-- A store ends: the area's new contents, the store state IDLE, the newest good copy on a match, the reply (R175). -/
def State.endStore (s : State) (j : StoreJob) (isMatch : Bool) (contents : List Byte) : State :=
  let x := { s.settings.writeArea j.area contents with store := none }
  if isMatch then
    State.reply (State.bumpSet { s with settings := { x with newest := some (j.area, j.generation) } } 6) j.ref .ok
      (.stored j.area j.generation)
  else State.answer (State.bumpSet { s with settings := x } 7) j.ref .writeFailed

/-- STORE_WRITE_END (R175): within the 250 ms, whatever the area then holds. -/
def execStoreWriteEnd (memoryError : Bool) (contents : List Byte) (s : State) : Answered :=
  .next (
    match s.settings.store with
    | some j =>
      if elapsed s.now j.startedAt ≤ 250 then
        s.endStore j (!memoryError && padArea contents == j.image) contents
      else s
    | none => s)

/-- STORE_WRITE_TIMEOUT (R175): 250 ms have passed, and the write ends as a memory error. -/
def execStoreWriteTimeout (contents : List Byte) (s : State) : Answered :=
  .next (
    match s.settings.store with
    | some j => if 250 ≤ elapsed s.now j.startedAt then s.endStore j false contents else s
    | none => s)

/-! ### RESTART (R176) -/

/-- The serial of the reply being sent on a link. -/
def Link.sendingSerial (k : Link) : Option Nat :=
  match k.sending, k.outQ with
  | true, .reply r :: _ => r.serial
  | _, _ => none

/-- The BUSY reply of the refusal place is being sent. -/
def Link.sendingBusy (k : Link) : Bool :=
  match k.sending, k.outQ with
  | true, .reply r :: _ => r.serial.isNone
  | _, _ => false

/-- A link unit's part of a warm restart; `keep`: the serial of the RESTART on its own link (R16). -/
def Link.restarted (k : Link) (keep : Option Nat) : Link :=
  { k with
    window := k.window.filter (fun w => some w.2 == keep || some w.2 == k.sendingSerial)
    refusal := if k.sendingBusy then k.refusal else none
    outQ := if k.sending then k.outQ.take 1 else []
    lost := 0 }

/-- The link units' part (R16). -/
def State.restartLinks (s : State) (r : ReqRef) : State :=
  let s := { s with handed := [] }
  allLinks.foldl (fun s l => s.onLink l (fun k => k.restarted (if l = r.link then some r.serial else none))) s

/-- An entry at a warm restart: a HEARD entry's timer starts again, a rack's report counter is absent (R33). -/
def Entry.restarted (x : Entry) (ms sec : Time) : Entry :=
  { x with
    silenceFrom := if x.state = .heard then (if x.kind = some .rack then sec else ms) else x.silenceFrom
    lastReport := if x.kind = some .rack then none else x.lastReport }

/-- The registry's part (R33). -/
def State.restartRegistry (s : State) : State :=
  { s with registry := { s.registry with entries := s.registry.entries.map (fun x => x.restarted s.now s.nowSec) } }

/-- A head at a warm restart, before its PROBE is placed (R89). -/
def Head.restarted (x : Head) : Head :=
  match x.state with
  | .offline => x
  | .fault => { x with queue := [], retryAt := none }
  | .ready => { x with
      queue := [], retryAt := none, survey := .due, restartProbe := true,
      outstanding := x.outstanding.map (fun o => { o with leftToFinish := true }) }

/-- A beam at a warm restart (R89); its burst is cleared with it (R126). -/
def Beam.restarted (x : Beam) : Beam := if x.state = .down then x else { x.cleared .idle with burst := none }

/-- The beam controller's part (R89). -/
def State.restartBeams (s : State) : State :=
  let s := { s with beamCtl := {
    heads := s.beamCtl.heads.map Head.restarted, beams := s.beamCtl.beams.map Beam.restarted, waitList := [] } }
  allHeads.foldl (fun s h => if (s.head h).state = .ready then s.pushCmd h .probe else s) s

/-- The crane unit's part (R140). -/
def State.restartCranes (s : State) : State :=
  { s with cranes := { s.cranes with
      records := s.cranes.records.map (Option.map (fun k => { k with watch := none, reported := [] })) } }

/-- The reefer unit's part for one rack: no POLL while DARK, a fresh one while SILENT (R157). -/
def State.restartRack (s : State) (r : RackNo) : State :=
  match (s.rackRec r).map RackRec.silence with
  | some .silent => (s.setPoll r .noPoll).askPoll r
  | some .dark => s.setPoll r .noPoll
  | some .notSilent | none => s

/-- The reefer unit's part, in ascending rack number (R157). -/
def State.restartReefer (s : State) : State := allRacks.foldl State.restartRack s

/-- Every unit's part of a warm restart, as one change (R176). R176 gives the units no order; that the registry's part comes before
the reefer unit's, so that a POLL queued by the restart gives the report counter as absent (R33, R180), is the model's choice
(log 33). -/
def State.restartUnits (s : State) (r : ReqRef) : State :=
  let s := ((s.restartLinks r).restartRegistry).restartBeams
  let s := ((s.restartDownlink).restartPool).restartCranes
  State.judge s.restartReefer

/-- RESTART (R176). -/
def serveRestart (s : State) (r : Request) : State :=
  s.reading r (readNothing r.body) (fun _ =>
    if s.settings.restart.isSome then (s.bumpSet 10).answer r.ref .busy
    else
      State.restartUnits (State.bumpSet { s with settings := { s.settings with restart := some r.ref } } 9) r.ref)

def execRestart (link : LinkNo) (s : State) : Answered := .next (s.taking .restart link serveRestart)

/-- The restart is answered, RESTARTED raised at the other links, the flag cleared (R176). -/
def State.answerRestart (s : State) (r : ReqRef) : State :=
  let s := s.reply r .ok (.times s.now s.nowSec)
  let s := s.raiseWhere (fun l _ => l != r.link) (.restarted s.now s.nowSec s.settings.source r.link)
  { s with settings := { s.settings with restart := none } }

/-- RESTART_ANSWER (R176). -/
def execRestartAnswer (s : State) : Answered :=
  .next (
    match s.settings.restart with
    | some r => s.answerRestart r
    | none => s)

end Sys2Proof.Machine
end

