-- ==== Sys2Proof/Machine/SettingsLoad.lean ====
section
/-! DEFINITION. A start from the reset pin, and the end of the settings load that follows it (R173, R184, R50, R51, R67, R68). -/

namespace Sys2Proof.Machine

/-! ### PIN_RESET -/

/-- A store is writing the area. -/
def Settings.writing (x : Settings) (area : Area) : Bool := x.store.any (fun j => j.area == area)

/-- PIN_RESET (R173): every unit at its reset values; the settings memory keeps its bytes, and an area whose write is cut off
fails its check value at the next load (R175). The queue of commands is not the part's own and stays. -/
def execPinReset (s : State) : Answered :=
  .next { State.reset with
    settings := { Settings.reset with
      mem := s.settings.mem
      cutOffA := s.settings.cutOffA || s.settings.writing .a
      cutOffB := s.settings.cutOffB || s.settings.writing .b }
    pending := s.pending }

/-! ### Judging and correcting a copy (R173, R184) -/

/-- The byte at an offset. -/
def byteAt (bs : List Byte) (i : Nat) : Byte := bs.getD i 0

/-- The 32-bit number at an offset. -/
def wordAt (bs : List Byte) (i : Nat) : Word := word (byteAt bs i) (byteAt bs (i + 1)) (byteAt bs (i + 2)) (byteAt bs (i + 3))

/-- The number of marks that a copy states. -/
def markCount (bs : List Byte) : Nat := (byteAt bs 128).toNat

/-- A copy's marker is right and its check value matches (R173, R184). -/
def copySound (bs : List Byte) : Bool :=
  let n := 129 + 2 * markCount bs
  wordAt bs 0 == 0x4B51F0A1 && half (byteAt bs n) (byteAt bs (n + 1)) == checkValue (bs.take n)

/-- A generation is newer than another (R173). -/
def newer (g h : Word) : Bool := 1 ≤ (g - h).toNat && (g - h).toNat ≤ 2147483647

/-- What a settings load hands to the units. -/
structure Load where
  source : Source
  newest : Option (Area × Word)
  links : Vector (Fin 16 × Rights) 4
  heads : Vector (Option Reach) 12
  marks : List (HeadNo × SegNo)
  params : Vector Nat 19
  rejected : Nat
  corrected : Nat
  deriving DecidableEq, Repr

/-- A link row of a copy, and its corrections: an index above 15 is 0, rights bits above the third are ignored. -/
def loadLink (bs : List Byte) (l : LinkNo) : (Fin 16 × Rights) × Nat :=
  let a := byteAt bs (8 + 2 * l.val)
  let r := byteAt bs (9 + 2 * l.val)
  let ax : Fin 16 := if h : a.toNat < 16 then ⟨a.toNat, h⟩ else 0
  ((ax, rightsOf r), (if a.toNat < 16 then 0 else 1) + (if r.toNat < 8 then 0 else 1))

/-- A head row of a copy, and its corrections. -/
def loadHead (bs : List Byte) (h : HeadNo) : Option Reach × Nat :=
  let c := byteAt bs (16 + 3 * h.val)
  let w : Reach := { first := (byteAt bs (17 + 3 * h.val)).toNat, len := (byteAt bs (18 + 3 * h.val)).toNat }
  if c = 0 then (none, 0) else if c = 1 ∧ reachOk w = true then (some w, 0) else (none, 1)

/-- The parameters of a copy, clamped in ascending number against those already corrected, and the clamps made. -/
def loadParams (bs : List Byte) : Vector Nat 19 × Nat :=
  (List.finRange 19).foldl (fun acc i =>
    let c := clampParam acc.1 i (wordAt bs (52 + 4 * i.val)).toNat
    (put acc.1 i c.1, acc.2 + if c.2 then 1 else 0)) (paramDefaults, 0)

/-- A mark that names a cell of the table; none for another. -/
def loadMark (heads : Vector (Option Reach) 12) (h g : Byte) : Option (HeadNo × SegNo) :=
  if hh : h.toNat < 12 then
    if hg : g.toNat < 64 then
      let m : HeadNo × SegNo := (⟨h.toNat, hh⟩, ⟨g.toNat, hg⟩)
      if (look heads m.1).any (fun w => w.has m.2) then some m else none
    else none
  else none

/-- The marks of a copy, each as the cell it names or none. -/
def loadMarks (bs : List Byte) (heads : Vector (Option Reach) 12) : List (Option (HeadNo × SegNo)) :=
  (List.range (markCount bs)).map (fun i => loadMark heads (byteAt bs (129 + 2 * i)) (byteAt bs (130 + 2 * i)))

/-- The content of a good copy, corrected (R173). -/
def loadCopy (bs : List Byte) (area : Area) (rejected : Nat) : Load :=
  let links := Vector.ofFn (loadLink bs)
  let heads := Vector.ofFn (loadHead bs)
  let reach := heads.map Prod.fst
  let marks := loadMarks bs reach
  let params := loadParams bs
  { source := .image, newest := some (area, wordAt bs 4), links := links.map Prod.fst, heads := reach,
    marks := marks.filterMap id, params := params.1, rejected := rejected,
    corrected := (links.toList.map Prod.snd).sum + (heads.toList.map Prod.snd).sum + params.2 +
      (marks.filter Option.isNone).length }

/-- The defaults, taken where neither copy is good (R173). -/
def loadDefaults : Load :=
  { source := .defaults, newest := none,
    links := #v[(1, ⟨true, true, true⟩), (2, ⟨true, true, true⟩), (3, ⟨true, true, true⟩), (4, ⟨true, true, true⟩)],
    heads := Vector.replicate 12 none, marks := [], params := paramDefaults, rejected := 2, corrected := 0 }

/-- The settings that a load chooses (R173). `goodA`, `goodB`: the copy could be read and was not cut off. -/
def chooseSettings (m : Memory) (readA readB : Bool) : Load :=
  let a := Memory.area m .a
  let b := Memory.area m .b
  match readA && copySound a, readB && copySound b with
  | true, true => if newer (wordAt b 4) (wordAt a 4) then loadCopy b .b 0 else loadCopy a .a 0
  | true, false => loadCopy a .a 1
  | false, true => loadCopy b .b 1
  | false, false => loadDefaults

/-! ### The end of the load -/

/-- The cell table (R51). -/
def buildCells (heads : Vector (Option Reach) 12) (marks : List (HeadNo × SegNo)) : Vector (Vector (Option Cell) 64) 12 :=
  Vector.ofFn (fun h => Vector.ofFn (fun g =>
    if (look heads h).any (fun w => w.has g) then
      some { state := if marks.contains (h, g) then .marked else .weak, q := 128, recovery := 0, sweep := none }
    else none))

/-- A head's record at the end of the load (R67). -/
def loadedHead (configured : Bool) (now : Time) : Head :=
  { Head.reset with state := if configured then .ready else .offline, survey := .due, reference := now }

/-- A beam's record at the end of the load (R68). -/
def loadedBeam (configured : Bool) : Beam := if configured then { Beam.reset with state := .idle } else Beam.reset

/-- Every unit is handed its part of the settings (R173). -/
def State.handOut (s : State) (d : Load) : State :=
  let configured := fun h => (look d.heads h).isSome
  { s with
    links := Vector.ofFn (fun l => { s.link l with ax := (look d.links l).1, rights := (look d.links l).2 })
    coverage := { s.coverage with reach := d.heads, cells := buildCells d.heads d.marks }
    beamCtl := { s.beamCtl with
      heads := Vector.ofFn (fun h => loadedHead (configured h) s.now)
      beams := Vector.ofFn (fun b => loadedBeam (configured (headOf b))) }
    settings := { s.settings with
      loaded := true, source := d.source, newest := d.newest, params := d.params
      counters := bumpBy (bumpBy (bump s.settings.counters (if d.source = .image then 0 else 1)) 2 d.rejected) 3 d.corrected } }

/-- The first choice of every segment's serving cell: nothing is raised or handed on (R50). -/
def State.firstChoice (s : State) : State :=
  { s with coverage := { s.coverage with segs := Vector.ofFn s.chosen } }

/-- The first sweep of each configured head begins (R67, R79). -/
def State.firstSweeps (s : State) : State := allHeads.foldl (fun s h => s.trySweep h) s

/-- SETTINGS_LOAD_END (R173), once after each pin reset. -/
def execSettingsLoadEnd (readA readB : Bool) (s : State) : Answered :=
  .next (
    if s.settings.loaded then s
    else
      let d := chooseSettings s.settings.mem (readA && !s.settings.cutOffA) (readB && !s.settings.cutOffB)
      ((s.handOut d).firstChoice).firstSweeps)

end Sys2Proof.Machine
end

