-- ==== Sys2Proof/Machine/Dispatch.lean ====
section
/-! DEFINITION. The command dispatcher: one arm for each constructor of Instr, each a direct call of its meaning. -/

namespace Sys2Proof.Machine

def exec (i : Instr) (s : State) : Host.Outcome State Fault Refusal :=
  match i with
  | .pinReset => Sys2Proof.Machine.execPinReset s
  | .settingsLoadEnd readA readB => Sys2Proof.Machine.execSettingsLoadEnd readA readB s
  | .millisecondTick => Sys2Proof.Machine.execMillisecondTick s
  | .secondTick => Sys2Proof.Machine.execSecondTick s
  | .fillMarkReceived link second => Sys2Proof.Machine.execFillMarkReceived link second s
  | .fillMarkGap gap => Sys2Proof.Machine.execFillMarkGap gap s
  | .linkUp link => Sys2Proof.Machine.execLinkUp link s
  | .linkDown link receiving => Sys2Proof.Machine.execLinkDown link receiving s
  | .messageReceived link bytes => Sys2Proof.Machine.execMessageReceived link bytes s
  | .messageAbandoned link cause => Sys2Proof.Machine.execMessageAbandoned link cause s
  | .messageSent link => Sys2Proof.Machine.execMessageSent link s
  | .identify link => Sys2Proof.Machine.execIdentify link s
  | .readTime link => Sys2Proof.Machine.execReadTime link s
  | .readCounters link => Sys2Proof.Machine.execReadCounters link s
  | .enroll link => Sys2Proof.Machine.execEnroll link s
  | .withdraw link => Sys2Proof.Machine.execWithdraw link s
  | .downlinkWithdrawal entry => Sys2Proof.Machine.execDownlinkWithdrawal entry s
  | .craneWithdrawal entry => Sys2Proof.Machine.execCraneWithdrawal entry s
  | .reeferWithdrawal entry => Sys2Proof.Machine.execReeferWithdrawal entry s
  | .move link => Sys2Proof.Machine.execMove link s
  | .deliver link => Sys2Proof.Machine.execDeliver link s
  | .silenceExpiry entry => Sys2Proof.Machine.execSilenceExpiry entry s
  | .listUnknown link => Sys2Proof.Machine.execListUnknown link s
  | .readTerminal link => Sys2Proof.Machine.execReadTerminal link s
  | .grant link => Sys2Proof.Machine.execGrant link s
  | .revoke link => Sys2Proof.Machine.execRevoke link s
  | .readEntry link => Sys2Proof.Machine.execReadEntry link s
  | .readCoverage link => Sys2Proof.Machine.execReadCoverage link s
  | .markCell link => Sys2Proof.Machine.execMarkCell link s
  | .unmarkCell link => Sys2Proof.Machine.execUnmarkCell link s
  | .openBeam link => Sys2Proof.Machine.execOpenBeam link s
  | .release link => Sys2Proof.Machine.execRelease link s
  | .readBeams link => Sys2Proof.Machine.execReadBeams link s
  | .survey link => Sys2Proof.Machine.execSurvey link s
  | .steerDone head answer => Sys2Proof.Machine.execSteerDone head answer s
  | .steerRefused head answer => Sys2Proof.Machine.execSteerRefused head answer s
  | .releaseAnswered head answer => Sys2Proof.Machine.execReleaseAnswered head answer s
  | .sweepResult head answer => Sys2Proof.Machine.execSweepResult head answer s
  | .sweepRefused head answer => Sys2Proof.Machine.execSweepRefused head answer s
  | .probeAnswered head answer => Sys2Proof.Machine.execProbeAnswered head answer s
  | .unmatchedAnswer head answer => Sys2Proof.Machine.execUnmatchedAnswer head answer s
  | .answerLimitExpiry head => Sys2Proof.Machine.execAnswerLimitExpiry head s
  | .probeTime head => Sys2Proof.Machine.execProbeTime head s
  | .sweepRetryTime head => Sys2Proof.Machine.execSweepRetryTime head s
  | .surveyDue head => Sys2Proof.Machine.execSurveyDue head s
  | .surveyOverdue head => Sys2Proof.Machine.execSurveyOverdue head s
  | .waitExpiry place => Sys2Proof.Machine.execWaitExpiry place s
  | .pauseRepeat => Sys2Proof.Machine.execPauseRepeat s
  | .take link => Sys2Proof.Machine.execTake link s
  | .send link => Sys2Proof.Machine.execSend link s
  | .purgeQueue link => Sys2Proof.Machine.execPurgeQueue link s
  | .deadlineExpiry frame => Sys2Proof.Machine.execDeadlineExpiry frame s
  | .fetch link => Sys2Proof.Machine.execFetch link s
  | .done link => Sys2Proof.Machine.execDone link s
  | .cut link => Sys2Proof.Machine.execCut link s
  | .burstLimitExpiry beam => Sys2Proof.Machine.execBurstLimitExpiry beam s
  | .stallExpiry crane => Sys2Proof.Machine.execStallExpiry crane s
  | .subscribe link => Sys2Proof.Machine.execSubscribe link s
  | .readCrane link => Sys2Proof.Machine.execReadCrane link s
  | .setInterest link => Sys2Proof.Machine.execSetInterest link s
  | .readRack link => Sys2Proof.Machine.execReadRack link s
  | .readAlarms link => Sys2Proof.Machine.execReadAlarms link s
  | .acknowledge link => Sys2Proof.Machine.execAcknowledge link s
  | .clearDose link => Sys2Proof.Machine.execClearDose link s
  | .tune link => Sys2Proof.Machine.execTune link s
  | .storeSettings link => Sys2Proof.Machine.execStoreSettings link s
  | .storeWriteEnd memoryError contents => Sys2Proof.Machine.execStoreWriteEnd memoryError contents s
  | .storeWriteTimeout contents => Sys2Proof.Machine.execStoreWriteTimeout contents s
  | .restart link => Sys2Proof.Machine.execRestart link s
  | .restartAnswer => Sys2Proof.Machine.execRestartAnswer s
  | .lineFramingFault link => Sys2Proof.Machine.execLineFramingFault link s

end Sys2Proof.Machine
end

