-- ==== Sys2Proof/Safety.lean ====
section
/-! DEFINITION. The vocabulary of the statements: the parts of the state, what it is for a request to be asked, what a request's body
and token must be, the byte strings an agent, a head or a terminal sends, and the invariants that every step keeps. -/

namespace Sys2Proof.Machine

/-! ### Parts of the state -/

/-- The parts of the state, one for each of its fields. -/
inductive Part where
  | clock | links | handed | registry | access | coverage | beamCtl | pool | downlink | cranes | reefer | settings | pending
  deriving DecidableEq, Repr

/-- Two states agree in a part. -/
def Part.same (s t : State) : Part → Prop
  | .clock => t.clock = s.clock
  | .links => t.links = s.links
  | .handed => t.handed = s.handed
  | .registry => t.registry = s.registry
  | .access => t.access = s.access
  | .coverage => t.coverage = s.coverage
  | .beamCtl => t.beamCtl = s.beamCtl
  | .pool => t.pool = s.pool
  | .downlink => t.downlink = s.downlink
  | .cranes => t.cranes = s.cranes
  | .reefer => t.reefer = s.reefer
  | .settings => t.settings = s.settings
  | .pending => t.pending = s.pending

/-- Every part of the state that is not listed is as it was. -/
def State.KeepsAllBut (s t : State) (ps : List Part) : Prop := ∀ p : Part, p ∉ ps → p.same s t

/-! ### Requests -/

/-- The command that is a request's taking by its owner from a link. -/
def ReqCode.command (l : LinkNo) : ReqCode → Instr
  | .identify => .identify l | .readTime => .readTime l | .readCounters => .readCounters l | .enroll => .enroll l
  | .withdraw => .withdraw l | .move => .move l | .readTerminal => .readTerminal l | .listUnknown => .listUnknown l
  | .grant => .grant l | .revoke => .revoke l | .readEntry => .readEntry l | .readCoverage => .readCoverage l
  | .markCell => .markCell l | .unmarkCell => .unmarkCell l | .openBeam => .openBeam l | .release => .release l
  | .readBeams => .readBeams l | .survey => .survey l | .send => .send l | .purgeQueue => .purgeQueue l
  | .fetch => .fetch l | .done => .done l | .cut => .cut l | .deliver => .deliver l | .take => .take l
  | .subscribe => .subscribe l | .readCrane => .readCrane l | .setInterest => .setInterest l | .readRack => .readRack l
  | .readAlarms => .readAlarms l | .acknowledge => .acknowledge l | .clearDose => .clearDose l | .tune => .tune l
  | .storeSettings => .storeSettings l | .restart => .restart l

/-- The request is the one that its owner takes next from its link, and it is of code `c` (R7). -/
abbrev State.Asks (s : State) (c : ReqCode) (r : Request) : Prop :=
  s.nextRequest c.owner r.ref.link = some r ∧ r.code = c

/-- The state once the owner has taken the request, before it does anything for it. -/
def State.taken (s : State) (r : Request) : State := { s with handed := s.handed.erase r }

/-- A body is well formed for its request (R179 and each request's rule). -/
def ReqCode.bodyOk (body : List Byte) : ReqCode → Bool
  | .identify | .readTime | .listUnknown | .readBeams | .restart => (readNothing body).isSome
  | .readCounters => (readCountersBody body).isSome
  | .enroll => (readEnroll body).isSome
  | .withdraw => (readWithdraw body).isSome
  | .move => (readMove body).isSome
  | .readTerminal | .revoke | .readCrane => (readToken body).isSome
  | .grant => (readGrant body).isSome
  | .readEntry => (readReadEntry body).isSome
  | .readCoverage => (readCoverageBody body).isSome
  | .markCell | .unmarkCell => (readCellBody body).isSome
  | .openBeam => (readOpen body).isSome
  | .release => (readBeamNo body).isSome
  | .survey => (readHeadNo body).isSome
  | .send => (readSend body).isSome
  | .purgeQueue => (readPurge body).isSome
  | .fetch => (readFetch body).isSome
  | .done => (readDone body).isSome
  | .cut => (readCut body).isSome
  | .deliver => (readDeliver body).isSome
  | .take => (readTake body).isSome
  | .subscribe => (readSubscribe body).isSome
  | .setInterest => (readInterest body).isSome
  | .readRack => (readReadRack body).isSome
  | .readAlarms => (readReadAlarms body).isSome
  | .acknowledge | .clearDose => (readPlugReq body).isSome
  | .tune => (readTune body).isSome
  | .storeSettings => (readStore body).isSome

/-- The token that a request presents to the check of R41, and whether it is a writing request (R42); none for a request
that presents no token there. -/
def ReqCode.token (body : List Byte) : ReqCode → Option (Token × Bool)
  | .readTerminal | .readCrane => (readToken body).map (fun t => (t, false))
  | .subscribe => (readSubscribe body).map (fun q => (q.1, false))
  | .readRack => (readReadRack body).map (fun q => (q.1, false))
  | .send => (readSend body).map (fun q => (q.token, true))
  | .purgeQueue => (readPurge body).map (fun q => (q.1, true))
  | .acknowledge | .clearDose => (readPlugReq body).map (fun q => (q.1, true))
  | .identify | .readTime | .readCounters | .enroll | .withdraw | .move | .listUnknown | .grant | .revoke | .readEntry
  | .readCoverage | .markCell | .unmarkCell | .openBeam | .release | .readBeams | .survey | .fetch | .done | .cut | .deliver
  | .take | .setInterest | .readAlarms | .tune | .storeSettings | .restart => none

/-! ### What a change of several links, slots or racks comes to -/

/-- A notice stands in the link's outgoing queue, whatever its lost-notice field. -/
def Link.HasNotice (k : Link) (n : Notice) : Prop := ∃ x : Nat, Msg.notice n x ∈ k.outQ

/-- A delivery copy offered to several links in turn (R99). -/
def State.offerEach (s : State) (ls : List LinkNo) (c : Content) : State := ls.foldl (fun v l => v.offerCopy l c) s

/-- Two states agree in the delivery queues, the dropped-delivery counts and the free blocks. -/
def State.SameDeliveries (s t : State) : Prop :=
  t.pool.queues = s.pool.queues ∧ t.pool.dropped = s.pool.dropped ∧ t.pool.free = s.pool.free

/-- A slot is as another one but for the queued and displaced flags, which the alarm queue writes for whatever slot loses its
record (R165, R166). -/
def Slot.Like (x y : Slot) : Prop := y = { x with queued := y.queued, displaced := y.displaced }

/-- A slot once its rack has taken a silence state: an occupied one whose reasons change has its grade derived afresh (R150, R152). -/
def Slot.silenced (x : Slot) (v : Silence) : Slot :=
  let y := { x with reasons := x.reasons.underSilence v }
  if x.occupied = true ∧ y.reasons ≠ x.reasons then y.regraded else x

/-- The silence state of a rack once its segment is found of a class (R152). -/
def Silence.follow : Silence → SegClass → Silence
  | .silent, .dark => .dark
  | .dark, .good | .dark, .weak => .silent
  | v, _ => v

/-- A rack has been re-evaluated against a class (R152): its silence state, the POLL asked for where it goes from DARK to SILENT
(else the POLL state stays, log 32), and its slots, in each of which only the alarm queue's flags may otherwise have changed. -/
def State.RackFollows (s t : State) (n : RackNo) (k : RackRec) (c : SegClass) : Prop :=
  let v := k.silence.follow c
  (∃ p : PollState, t.rackRec n = some { k with silence := v, poll := p } ∧
    (if k.silence = .dark ∧ v = .silent then p ≠ .noPoll else p = k.poll)) ∧
  ∀ p : PlugNo, (if v = k.silence then s.slot n p else (s.slot n p).silenced v).Like (t.slot n p)

/-! ### Notices that one change raises -/

/-- A link at which these notices are raised in turn (R9). -/
def Link.raiseAll (k : Link) (ns : List Notice) : Link := ns.foldl Link.raise k

/-- Every link with its notices raised at it in turn. -/
def State.tell (s : State) (ns : LinkNo → List Notice) : State :=
  { s with links := Vector.ofFn (fun l => (s.link l).raiseAll (ns l)) }

/-- No notice at any link. -/
def noNotices : LinkNo → List Notice := fun _ => []

/-- PAUSE or RESUME, which the pool raises where it compares its marks (R95, R97). -/
def Notice.ofPool : Notice → Bool
  | .pause _ _ _ _ | .resume _ => true
  | _ => false

/-- A change raises at each link first these notices and last those, between them nothing where it is quiet and otherwise what a
change of class calls for (R54), and behind them all no more than the pool's PAUSE or RESUME. -/
def State.Raises (s t : State) (first last : LinkNo → List Notice) (quiet : Prop) : Prop :=
  ∀ l : LinkNo, ∃ between pool : List Notice, (quiet → between = []) ∧ (∀ n ∈ pool, n.ofPool = true) ∧
    t.link l = (s.link l).raiseAll (first l ++ between ++ last l ++ pool)

/-- The FRAME_RESULTs that a link is told of frames that have ended, in their order: those of the frames it originated (R110). -/
def resultsAt (l : LinkNo) (fs : List (Frame × FrameFate)) : List Notice :=
  fs.filterMap (fun p => p.1.origin.bind (fun o =>
    if o.link = l then some (.frameResult p.1.handle p.1.terminal p.1.cls o.tag p.2 p.1.attempts) else none))

/-- The frames of an ended burst of which a result is told, by position: all that ended but the orphans, DELIVERED not for BULK
(R110, R119). -/
def toldOf (fs : List (Frame × Settled)) : List (Frame × FrameFate) :=
  fs.filterMap (fun p => match p.2 with
    | .delivered => if p.1.cls = .bulk then none else some (p.1, .delivered)
    | .excess => some (p.1, .excessRetry)
    | .expired => some (p.1, .expired)
    | .orphan | .returned => none)

/-- What becomes of the frames of a beam's burst when it is returned by force: every one NOT_SENT (R124). -/
def Beam.returned (x : Beam) (now : Time) : List (Frame × Settled) := x.frames.map (fun f => settle now f .notSent)

/-- Waiting frames and free blocks after a change that left `w` waiting and `free` blocks free: just these where it is quiet; else,
for the classes that changed, CONTROL frames of cranes that became LOST may have left and POLLs joined at the back, each with its
blocks (R54, R109, R112). -/
def State.FramesFollow (t : State) (w : List Frame) (free : Nat) (quiet : Prop) : Prop :=
  (quiet → t.downlink.waiting = w ∧ t.pool.free = free) ∧
  t.pool.free + framesBlocks t.downlink.waiting = free + framesBlocks w ∧
  ∃ kept polls : List Frame, t.downlink.waiting = kept ++ polls ∧ kept.Sublist w ∧
    (∀ f ∈ w, f ∉ kept → f.cls = .control) ∧ ∀ f ∈ polls, f.cls = .bulk ∧ f.origin = none ∧ f.attempts = 0

/-! ### Beams that close -/

/-- A beam that has gone to CLOSING, its segment kept (R78). -/
def Beam.closing (seg : Option SegNo) : Beam :=
  { state := .closing, seg := seg, holders := LinkSet.none, awaiting := [], oneShot := false, burst := none,
    releaseDeferred := false, closePending := none }

/-- A command has joined the back of a head's queue, and is on the line at once where the head was idle (R70). -/
def Head.Took (x y : Head) (c : HeadCmd) (now : Time) : Prop :=
  (x.outstanding ≠ none → y = { x with queue := x.queue ++ [c] }) ∧
  (x.outstanding = none → x.queue = [] → y.queue = [] ∧
    y.outstanding = some { cmd := c, number := x.nextNumber, sentAt := now, leftToFinish := false })

/-- The holders of a beam on which a burst of `owner` has ended: a deferred release takes the owner out (R77). -/
def Beam.holdersAfter (x : Beam) (owner : LinkNo) : LinkSet :=
  if x.releaseDeferred then put x.holders owner false else x.holders

/-- A beam closes at the end of a burst of `owner`: a close is pending, it is one-shot, or it is left without holders (R77). -/
def Beam.closesAfter (x : Beam) (owner : LinkNo) : Bool :=
  x.closePending.isSome || x.oneShot || !(allLinks.any (fun l => look (x.holdersAfter owner) l))

/-- BEAM_LOST with the pending reason at each holder left at the end of a burst (R77). -/
def Beam.lostAfter (x : Beam) (b : BeamNo) (owner l : LinkNo) : List Notice :=
  match x.closePending with
  | some r => if look (x.holdersAfter owner) l then [.beamLost b x.seg r] else []
  | none => []

/-- What the beam controller does with an OPEN beam when a burst of `owner` has ended on it (R77): it closes and its RELEASE is
queued, or it stays OPEN with its holders. -/
def State.ActsAtBurstEnd (s t : State) (b : BeamNo) (owner : LinkNo) : Prop :=
  let x := s.beam b
  let h := headOf b
  (x.closesAfter owner = true → t.beam b = Beam.closing x.seg ∧ (s.head h).Took (t.head h) (.release (sideOf b)) s.clock.ms) ∧
  (x.closesAfter owner = false →
    t.beam b = { x with holders := x.holdersAfter owner, burst := none, releaseDeferred := false } ∧ t.head h = s.head h)

/-- A beam meets the loss of the cell beneath it (R83). -/
def Beam.MeetsLoss (x y : Beam) (g : SegNo) (r : LossReason) : Prop :=
  (x.seg = some g → x.state = .opened → x.burst = none → y = Beam.closing (some g)) ∧
  (x.seg = some g → x.state = .steering ∨ (x.state = .opened ∧ x.burst ≠ none) →
    y = { x with closePending := some (x.closePending.getD r) }) ∧
  (x.seg ≠ some g ∨ (x.state ≠ .opened ∧ x.state ≠ .steering) → y = x)

/-- BEAM_LOST at each holder of an OPEN beam without a burst (R78). -/
def Beam.lostNow (x : Beam) (b : BeamNo) (r : LossReason) (l : LinkNo) : List Notice :=
  if x.state = .opened ∧ x.burst.isNone = true ∧ look x.holders l = true then [.beamLost b x.seg r] else []

/-- A head's two beams, beam A first (the model's order, log 12). -/
def beamsOf (h : HeadNo) : List BeamNo := [beamOf h .a, beamOf h .b]

/-! ### Byte strings that come from outside -/

/-- A request message as an agent sends it (R179). -/
def requestMessage (tag : Byte) (code : Half) (body : List Byte) : List Byte :=
  let m := [0xC3, 0x5A, 1, tag] ++ be16 code ++ be16 (BitVec.ofNat 16 body.length) ++ [0, 0] ++ body
  m ++ be16 (checkValue m)

/-- Bit n of the none mask is set for each entry n that is none. -/
def noneMask (es : List (Option Nat)) : Half :=
  BitVec.ofNat 16 ((es.zipIdx.map (fun p => if p.1.isNone then 2 ^ p.2 else 0)).sum)

/-- An answer as a head sends it (R183). -/
def Answer.bytes (a : Answer) : List Byte :=
  let m := match a.kind with
    | .done => [a.number, 1, 0]
    | .refused => [a.number, 3, 0]
    | .sweepResult es => [a.number, 2] ++ out1 es.length ++ be16 (noneMask es) ++ es.map (fun e => BitVec.ofNat 8 (e.getD 0))
  m ++ [checkByte m]

/-- A rack report as a rack sends it (R181). -/
def reportBytes (counter : Byte) (qs : List Reading) : List Byte :=
  [counter] ++ out1 qs.length ++ qs.flatMap (fun q =>
    out1 q.plug.val ++ out1 q.plugState.num ++ be16 (BitVec.ofInt 16 q.setpoint) ++ outTemp q.supply ++ outTemp q.ret ++
      [q.code])

/-- A signed 16-bit value other than the one that means absent. -/
def Present16 (v : Int) : Prop := -32767 ≤ v ∧ v ≤ 32767

/-- A reading that a report can carry. -/
def Reading.carried (q : Reading) : Prop :=
  (-32768 ≤ q.setpoint ∧ q.setpoint ≤ 32767) ∧ (∀ v, q.supply = some v → Present16 v) ∧ (∀ v, q.ret = some v → Present16 v)

/-! ### Invariants -/

/-- What the replies in a link's outgoing queue answer: a request by its identity, or none, the message in the refusal place. -/
def Link.replies (k : Link) : List (Option Nat) :=
  k.outQ.filterMap (fun m => match m with
    | .reply p => some p.serial
    | .notice _ _ => none)

/-- A link record's own bounds (R1, R5, R8, R9): at most 8 outstanding requests under distinct tags and identities, the
refusal place's tag another one; at most one reply for each outstanding request and one for the refusal place, so at most 9; at
most 55 notices, and at most 64 messages in all; nothing held while DOWN; something is being sent whenever an UP link's queue
holds anything. -/
def Link.sound (k : Link) : Prop :=
  k.window.length ≤ 8 ∧ (k.window.map Prod.fst).Nodup ∧ (k.window.map Prod.snd).Nodup ∧
  (∀ w ∈ k.window, w.2 < k.nextSerial) ∧ (∀ t, k.refusal = some t → t ∉ k.window.map Prod.fst) ∧
  k.replies.Nodup ∧ (∀ n : Nat, some n ∈ k.replies → n ∈ k.window.map Prod.snd) ∧ (none ∈ k.replies → k.refusal ≠ none) ∧
  k.replies.length ≤ 9 ∧ k.noticeCount ≤ 55 ∧ k.outQ.length ≤ 64 ∧
  (k.up = false → k.window = [] ∧ k.refusal = none ∧ k.outQ = []) ∧
  (k.sending = true → k.outQ ≠ []) ∧ (k.up = true → k.outQ ≠ [] → k.sending = true)

/-- The requests that some unit has yet to answer: handed on and not taken, awaiting a STEER, waiting for a beam, behind a store,
behind a warm restart. -/
def State.owed (s : State) : List ReqRef :=
  s.handed.map Request.ref ++ allBeams.flatMap (fun b => (s.beam b).awaiting.map OpenReq.ref) ++
    s.beamCtl.waitList.map (fun w => w.req.ref) ++ (s.settings.store.map StoreJob.ref).toList ++ s.settings.restart.toList

/-- Every link keeps its bounds, and a request is answered once at most (R7): those yet to be answered are distinct, and no reply to
one of them is queued. -/
def State.linksSound (s : State) : Prop :=
  (∀ l : LinkNo, (s.link l).sound) ∧
  (s.owed.map (fun r => (r.link, r.serial))).Nodup ∧
  ∀ r ∈ s.owed, r.serial < (s.link r.link).nextSerial ∧ some r.serial ∉ (s.link r.link).replies

/-- Blocks held by the deliveries of all four links. -/
def State.deliveryBlocks (s : State) : Nat := (allLinks.map (fun l => deliveriesBlocks (look s.pool.queues l))).sum

/-- Before the settings load ends nothing is asked of the units (R91). -/
def State.quietBeforeLoad (s : State) : Prop :=
  s.settings.loaded = false → s.handed = [] ∧ (∀ l : LinkNo, (s.link l).up = false) ∧ ∀ b : BeamNo, (s.beam b).burst = none

/-- R92: free blocks and the blocks of waiting frames, of frames in flight and of deliveries sum to 4,096. -/
def State.poolAccounted (s : State) : Prop :=
  s.pool.free + framesBlocks s.downlink.waiting + framesBlocks s.inFlight + s.deliveryBlocks = 4096 ∧ s.quietBeforeLoad

/-- The ranges of a slot's numbers (R143, R161). -/
def Slot.bounded (x : Slot) : Prop :=
  x.dose ≤ 1000000 ∧ x.residue < 120 ∧ x.ePrev ≤ 600 ∧ x.inBand ≤ 10 ∧ x.unobserved ≤ 4294967295 ∧
  x.supply.invalid ≤ 2 ∧ x.supply.valid ≤ 3 ∧ x.ret.invalid ≤ 2 ∧ x.ret.valid ≤ 3 ∧
  (∀ v, x.setpoint = some v → -400 ≤ v ∧ v ≤ 300) ∧ (∀ v, x.temp = some v → -500 ≤ v ∧ v ≤ 500)

def State.slotsBounded (s : State) : Prop := ∀ (r : RackNo) (p : PlugNo), (s.slot r p).bounded

/-- The alarm queue and the slots' flags agree (R164): at most 256 records and one a slot; a slot is queued while the queue holds
a record for it that is not released, and a displaced slot has none; a clear slot is neither. -/
def State.alarmsAgree (s : State) : Prop :=
  s.reefer.alarms.length ≤ 256 ∧
  (s.reefer.alarms.map (fun a => (a.rack, a.plug))).Nodup ∧
  (∀ (r : RackNo) (p : PlugNo), (s.slot r p).queued = true ↔ ∃ a ∈ s.reefer.alarms, a.isOf r p = true ∧ a.released = false) ∧
  (∀ (r : RackNo) (p : PlugNo), (s.slot r p).displaced = true → ∀ a ∈ s.reefer.alarms, a.isOf r p = false) ∧
  (∀ (r : RackNo) (p : PlugNo), (s.slot r p).occupied = false → (s.slot r p).queued = false ∧ (s.slot r p).displaced = false)

/-- An entry's own fields agree (R17, R21, R22): an address exactly while it is not FREE, a withdrawal in hand only while it is
FREE, a kind exactly while one of the two holds, a crane or rack number exactly as its kind calls for. -/
def Entry.sound (x : Entry) : Prop :=
  (x.addr.isSome = true ↔ x.state ≠ .free) ∧ (x.withdrawal.isSome = true → x.state = .free) ∧
  (x.kind = none ↔ x.state = .free ∧ x.withdrawal = none) ∧
  (x.kind = some .crane ↔ x.crane.isSome = true) ∧ (x.kind = some .rack ↔ x.rack.isSome = true)

/-- How many entries hold a kind. -/
def State.holding (s : State) (k : Kind) : Nat := (allEntries.filter (fun e => (s.entry e).kind == some k)).length

/-- The registry's map, counts and numbers agree with its entries (R18, R29). -/
def State.registryAgrees (s : State) : Prop :=
  (∀ e : EntryNo, (s.entry e).sound) ∧
  (s.registry.addrMap.map Prod.fst).Nodup ∧
  (∀ (a : Word) (e : EntryNo), (a, e) ∈ s.registry.addrMap ↔ (s.entry e).addr = some a) ∧
  (∀ (e f : EntryNo) (c : CraneNo), (s.entry e).crane = some c → (s.entry f).crane = some c → e = f) ∧
  (∀ (e f : EntryNo) (r : RackNo), (s.entry e).rack = some r → (s.entry f).rack = some r → e = f) ∧
  s.registry.craneCount = s.holding .crane ∧ s.registry.rackCount = s.holding .rack ∧
  s.registry.craneCount ≤ 16 ∧ s.registry.rackCount ≤ 240 ∧
  s.registry.unknowns.length ≤ 8 ∧ (s.registry.unknowns.map UnknownRec.addr).Nodup

/-- Frames wait, and fly without being orphaned, only for a terminal that has queues: one that is enrolled, or whose withdrawal the
downlink queue block has yet to deal with (R20, R22). -/
def State.framesHaveTerminals (s : State) : Prop :=
  (∀ f ∈ s.downlink.waiting, s.hasQueues f.terminal = true) ∧
  ∀ f ∈ s.inFlight, f.orphaned = false → s.hasQueues f.terminal = true

/-- After the load, cells stand only within their head's reach, and every segment record is what its cells now give (R51, R53). -/
def State.segmentsFollow (s : State) : Prop :=
  s.settings.loaded = true →
    (∀ (h : HeadNo) (g : SegNo), (s.cell h g).isSome = true → g ∈ s.reachSegs h) ∧ ∀ g : SegNo, s.segRec g = s.chosen g

/-- Every configured reach window has a length of 1 to 16 and ends at segment 63 at the latest (R51). -/
def State.reachFits (s : State) : Prop :=
  ∀ (h : HeadNo) (w : Reach), look s.coverage.reach h = some w → 1 ≤ w.len ∧ w.len ≤ 16 ∧ w.first + w.len ≤ 64

/-- No terminal has two SAFETY frames in flight (R117). -/
def State.oneSafety (s : State) : Prop :=
  ∀ e : EntryNo, ((s.inFlightOf e).filter (fun f => f.cls == .safety)).length ≤ 1

/-- A head has a sweep on hand: outstanding and not left behind by a restart, queued, or to be retried. -/
def Head.sweeps (x : Head) : Nat :=
  (match x.outstanding with
    | some o => if o.cmd = .sweep ∧ o.leftToFinish = false then 1 else 0
    | none => 0) +
  (x.queue.filter (fun c => c == .sweep)).length + (if x.retryAt.isSome then 1 else 0)

/-- A beam is STEERING or OPEN. -/
def Beam.heldState (x : Beam) : Prop := x.state = .steering ∨ x.state = .opened

/-- Who holds a beam (R68, R69): a STEERING or OPEN beam has holders, another beam none; holders and all whose OPEN is not yet
answered are UP links; a burst is in flight on an OPEN beam alone, and its owner is a holder (R77, R118); the wait list holds at most
16. A head's command waits only behind an outstanding one (R70). The beams of a head that is not READY are DOWN, and those of a head
with a sweep on hand, of which there is at most one, are SURVEYING. -/
def State.beamsHeld (s : State) : Prop :=
  (∀ b : BeamNo, (s.beam b).heldState ↔ ∃ l : LinkNo, look (s.beam b).holders l = true) ∧
  (∀ (b : BeamNo) (l : LinkNo), look (s.beam b).holders l = true → (s.link l).up = true) ∧
  (∀ b : BeamNo, ∀ u ∈ (s.beam b).burst, (s.beam b).state = .opened ∧ look (s.beam b).holders u.owner = true) ∧
  (∀ (b : BeamNo), ∀ q ∈ (s.beam b).awaiting, (s.link q.ref.link).up = true) ∧
  (∀ w ∈ s.beamCtl.waitList, (s.link w.req.ref.link).up = true) ∧ (∀ r ∈ s.handed, (s.link r.ref.link).up = true) ∧
  s.beamCtl.waitList.length ≤ 16 ∧
  (∀ h : HeadNo, (s.head h).outstanding = none → (s.head h).queue = []) ∧
  (∀ b : BeamNo, (s.head (headOf b)).state ≠ .ready → (s.beam b).state = .down) ∧
  (∀ h : HeadNo, (s.head h).sweeps ≤ 1) ∧
  (∀ b : BeamNo, (s.head (headOf b)).sweeps = 1 → (s.beam b).state = .surveying)

/-- Every parameter in force lies in its range (R174). -/
def State.paramsInRange (s : State) : Prop :=
  ∀ i : Fin 19, (paramRange s.settings.params i).1 ≤ s.param i ∧ s.param i ≤ (paramRange s.settings.params i).2

/-- The settings memory is in its canonical form (R184; the form is the model's, log 8). -/
def State.memoryCanonical (s : State) : Prop := Memory.wf s.settings.mem = true

end Sys2Proof.Machine
end

