-- ==== Sys2Proof/Certificates/Slice0/Obligations.lean ====
section
/-! DEFINITION. The statements for the provers, each a Prop. Conventions: `r` is a request that its owner takes next from its link
(`State.Asks`), `s.taken r` the state once it has been taken; a conclusion `exec c s = .next t` gives the whole next state, so what
`t` does not name is unchanged. -/

open Sys2Proof Sys2Proof.Machine

/-! ### The block as a whole -/

/-- A step with a command at the front of the queue is that command's meaning on the state with the queue's rest. -/
def Obligations.StepRunsTheFrontCommand : Prop :=
  ∀ (c : Instr) (rest : List Instr) (s : State),
    step { s with pending := c :: rest } = exec c { s with pending := rest }

/-- The model's choices for what does not occur (logs 1 to 3): an empty queue idles; a request's command has no effect where its
owner has no such request to take next. A request whose body is malformed is answered BAD_REQUEST by its owner (R6, R179). -/
def Obligations.UnaskedIdlesAndMalformedIsBadRequest : Prop :=
  (∀ s : State, s.pending = [] → step s = .next s) ∧
  (∀ (c : ReqCode) (l : LinkNo) (s : State),
    (∀ r : Request, s.nextRequest c.owner l = some r → r.code ≠ c) → exec (c.command l) s = .next s) ∧
  (∀ (c : ReqCode) (r : Request) (s : State), s.Asks c r → c.bodyOk r.body = false →
    exec (c.command r.ref.link) s = .next ((s.taken r).answer r.ref .badRequest))

/-- No command stops the block, and none touches the commands that wait. -/
def Obligations.EveryCommandAnswersNext : Prop :=
  ∀ (c : Instr) (s : State), ∃ t : State, exec c s = .next t ∧ t.pending = s.pending

/-- What a pin reset leaves (R1, R10, R17, R34, R50, R67, R68, R91, R106, R128, R142, R143, R153, R164, R172), and that PIN_RESET
gives it whatever the state was. The settings memory keeps its bytes; that an area being written counts as cut off is the model's
reading (log 8). What the model chose, no rule giving it: that no cell exists before the load ends, and what heads, beams and
settings hold until then (log 7); and where an entry's silence timer runs from before it is first HEARD (log 16). -/
def Obligations.PinResetLeavesTheResetState : Prop :=
  (∀ s : State, exec .pinReset s = .next { State.reset with
      settings := { State.reset.settings with
        mem := s.settings.mem
        cutOffA := s.settings.cutOffA || s.settings.writing .a
        cutOffB := s.settings.cutOffB || s.settings.writing .b }
      pending := s.pending }) ∧
  State.reset.clock.ms = 0 ∧ State.reset.clock.sec = 0 ∧
  (∀ l : LinkNo, (State.reset.link l).up = false ∧ (State.reset.link l).ax = 0 ∧ (State.reset.link l).rights = Rights.empty ∧
    (State.reset.link l).window = [] ∧ (State.reset.link l).refusal = none ∧ (State.reset.link l).outQ = [] ∧
    (State.reset.link l).lost = 0 ∧ ∀ k : Fin 12, look (State.reset.link l).counters k = 0) ∧
  (∀ e : EntryNo, State.reset.entry e = Entry.reset) ∧ State.reset.registry.addrMap = [] ∧
  State.reset.registry.unknowns = [] ∧ State.reset.registry.craneCount = 0 ∧ State.reset.registry.rackCount = 0 ∧
  (∀ (l : LinkNo) (n : ListName) (i : Fin 128), look (State.reset.accessList l n) i = AccessEntry.reset) ∧
  (∀ g : SegNo, State.reset.segRec g = { cls := .dark, serving := none }) ∧
  (∀ (h : HeadNo) (g : SegNo), State.reset.cell h g = none) ∧
  (∀ h : HeadNo, (State.reset.head h).state = .offline ∧ (State.reset.head h).queue = []) ∧
  State.reset.pool.free = 4096 ∧ State.reset.pool.paused = false ∧ State.reset.pool.repeatsSent = 0 ∧
  State.reset.pool.nextRepeat = none ∧
  (∀ l : LinkNo, look State.reset.pool.queues l = [] ∧ look State.reset.pool.dropped l = 0 ∧
    look State.reset.reefer.interest l = Interest.empty) ∧
  State.reset.downlink.waiting = [] ∧ State.reset.downlink.handleCount = 0 ∧
  (∀ b : BeamNo, look State.reset.downlink.nextBurst b = 0 ∧ look State.reset.downlink.rotation b = 255 ∧
    (State.reset.beam b).burst = none) ∧
  (∀ c : CraneNo, State.reset.craneRec c = none) ∧ (∀ r : RackNo, State.reset.rackRec r = none) ∧
  (∀ (r : RackNo) (p : PlugNo), State.reset.slot r p = Slot.clear) ∧ State.reset.reefer.alarms = [] ∧
  State.reset.settings.store = none ∧ State.reset.settings.restart = none ∧ State.reset.settings.loaded = false

/-- The two time counts (R10): a millisecond advances the one; the other advances when 1,000 milliseconds have been counted since it
last did, a SECOND_TICK before that having no effect (logs 1, 25); both wrap at 32 bits; no command but the two ticks and a pin
reset moves either. -/
def Obligations.OnlyTicksMoveTheTimeCounts : Prop :=
  State.reset.clock = { ms := 0, sec := 0, sinceSecond := 0 } ∧
  (∀ s : State, exec .millisecondTick s = .next { s with
    clock := { ms := s.clock.ms + 1, sec := s.clock.sec, sinceSecond := s.clock.sinceSecond + 1 } }) ∧
  (∀ s : State, s.clock.sinceSecond = 1000 → exec .secondTick s = .next { s with
    clock := { ms := s.clock.ms, sec := s.clock.sec + 1, sinceSecond := 0 } }) ∧
  (∀ s : State, s.clock.sinceSecond < 1000 → exec .secondTick s = .next s) ∧
  (∀ (c : Instr) (s t : State), c ≠ .millisecondTick → c ≠ .secondTick → c ≠ .pinReset → exec c s = .next t →
    t.clock = s.clock)

/-- SETTINGS_LOAD_END (R173, R184, R50, R51, R67, R68, R79): which copy is taken, what the defaults are, what a copy gives at the
offsets of R184 once its fields are corrected, each correction counted, and the state that each unit starts from. A second load end
after one pin reset does not occur (log 1). -/
def Obligations.SettingsLoadStartsEveryUnit : Prop :=
  let fromCopy := fun (bs : List Byte) (rejected : Nat) (s t : State) =>
    let at8 := fun i : Nat => (bs.getD i 0).toNat
    let at32 := fun i : Nat => ((at8 i * 256 + at8 (i + 1)) * 256 + at8 (i + 2)) * 256 + at8 (i + 3)
    let window := fun h : HeadNo => (at8 (17 + 3 * h.val), at8 (18 + 3 * h.val))
    let fit := fun w : Nat × Nat => decide (1 ≤ w.2 ∧ w.2 ≤ 16 ∧ w.1 + w.2 ≤ 64)
    let names := fun (i : Nat) (h : HeadNo) (g : SegNo) => at8 (129 + 2 * i) = h.val ∧ at8 (130 + 2 * i) = g.val
    let badAx := (allLinks.filter (fun l => 16 ≤ at8 (8 + 2 * l.val))).length
    let badRights := (allLinks.filter (fun l => 8 ≤ at8 (9 + 2 * l.val))).length
    let badHeads := (allHeads.filter (fun h => at8 (16 + 3 * h.val) ≠ 0 ∧
      ¬(at8 (16 + 3 * h.val) = 1 ∧ fit (window h) = true))).length
    let clamped := ((List.finRange 19).filter (fun i => t.param i ≠ at32 (52 + 4 * i.val))).length
    let badMarks := ((List.range (at8 128)).filter (fun i => ∀ (h : HeadNo) (g : SegNo), names i h g → t.cell h g = none)).length
    t.settings.source = .image ∧
    look t.settings.counters 0 = satInc (look s.settings.counters 0) ∧
    look t.settings.counters 1 = look s.settings.counters 1 ∧
    look t.settings.counters 2 = min (look s.settings.counters 2 + rejected) 65535 ∧
    look t.settings.counters 3 = min (look s.settings.counters 3 + badAx + badRights + badHeads + clamped + badMarks) 65535 ∧
    (∀ l : LinkNo, (t.link l).ax.val = (if at8 (8 + 2 * l.val) < 16 then at8 (8 + 2 * l.val) else 0) ∧
      (t.link l).rights = { traffic := (bs.getD (9 + 2 * l.val) 0).getLsbD 0
                            command := (bs.getD (9 + 2 * l.val) 0).getLsbD 1
                            admin := (bs.getD (9 + 2 * l.val) 0).getLsbD 2 }) ∧
    (∀ h : HeadNo, look t.coverage.reach h = (if at8 (16 + 3 * h.val) = 1 ∧ fit (window h) = true then
      some { first := (window h).1, len := (window h).2 } else none)) ∧
    (∀ (h : HeadNo) (g : SegNo) (c : Cell), t.cell h g = some c →
      (c.state = .marked ↔ ∃ i : Nat, i < at8 128 ∧ names i h g)) ∧
    (∀ i : Fin 19,
      let lo := (paramRange t.settings.params i).1
      let hi := (paramRange t.settings.params i).2
      t.param i = max lo (min hi (at32 (52 + 4 * i.val))))
  paramDefaults.toList = [10, 100, 10, 50, 100, 300, 20, 512, 1024, 4, 128, 1024, 20, 30, 900, 1800, 300, 1200, 3] ∧
  ∀ (a b : Bool) (s : State),
    (s.settings.loaded = true → exec (.settingsLoadEnd a b) s = .next s) ∧
    (s.settings.loaded = false →
      let bytesA := Memory.area s.settings.mem .a
      let bytesB := Memory.area s.settings.mem .b
      let goodA := a && !s.settings.cutOffA && copySound bytesA
      let goodB := b && !s.settings.cutOffB && copySound bytesB
      let newerB := newer (wordAt bytesB 4) (wordAt bytesA 4)
      ∃ t : State, exec (.settingsLoadEnd a b) s = .next t ∧
        t.settings.loaded = true ∧
        (goodA = false → goodB = false →
          t.settings.source = .defaults ∧ t.settings.newest = none ∧ t.settings.params = paramDefaults ∧
          (∀ l : LinkNo, (t.link l).ax.val = l.val + 1 ∧
            (t.link l).rights = { traffic := true, command := true, admin := true }) ∧
          (∀ h : HeadNo, look t.coverage.reach h = none) ∧
          look t.settings.counters 1 = satInc (look s.settings.counters 1) ∧
          look t.settings.counters 2 = min (look s.settings.counters 2 + 2) 65535) ∧
        (goodA = true → (goodB = false ∨ newerB = false) →
          t.settings.newest = some (.a, wordAt bytesA 4) ∧ fromCopy bytesA (if goodB = true then 0 else 1) s t) ∧
        (goodB = true → (goodA = false ∨ newerB = true) →
          t.settings.newest = some (.b, wordAt bytesB 4) ∧ fromCopy bytesB (if goodA = true then 0 else 1) s t) ∧
        (∀ h : HeadNo, (t.head h).survey = .due ∧ (t.head h).reference = s.clock.ms ∧
          (t.head h).state = (if (look t.coverage.reach h).isSome then .ready else .offline) ∧
          (t.head h).outstanding = (if (look t.coverage.reach h).isSome then
            some { cmd := .sweep, number := 0, sentAt := s.clock.ms, leftToFinish := false } else none)) ∧
        (∀ c : BeamNo, (t.beam c).state = (if (look t.coverage.reach (headOf c)).isSome then .surveying else .down) ∧
          (t.beam c).holders = LinkSet.none ∧ (t.beam c).burst = none) ∧
        (∀ (h : HeadNo) (g : SegNo), ((t.cell h g).isSome = true ↔ g ∈ t.reachSegs h) ∧
          ∀ x : Cell, t.cell h g = some x →
            x.q = 128 ∧ x.recovery = 0 ∧ x.sweep = none ∧ (x.state = .weak ∨ x.state = .marked)) ∧
        (∀ g : SegNo, t.segRec g = t.chosen g) ∧
        (∀ l : LinkNo, t.link l = { s.link l with ax := (t.link l).ax, rights := (t.link l).rights }) ∧
        s.KeepsAllBut t [.links, .coverage, .beamCtl, .settings])

/-! ### The agent links -/

/-- Messages in an outgoing queue (R7 to R9): what beginning to send does, and what placing a reply and raising a notice do. That a
front message begins sending the moment it is placed on an idle line is the model's reading (log 4). -/
def Obligations.RepliesAndNoticesArePlaced : Prop :=
  (∀ (k : Link) (m : Msg), k.place m = Link.beginSend { k with outQ := k.outQ ++ [m] }) ∧
  (∀ k : Link, k.up = false ∨ k.sending = true ∨ k.outQ = [] → k.beginSend = k) ∧
  (∀ (k : Link) (p : Reply) (q : List Msg), k.up = true → k.sending = false → k.outQ = .reply p :: q →
    k.beginSend = { k with sending := true }) ∧
  (∀ (k : Link) (n : Notice) (x : Nat) (q : List Msg), k.up = true → k.sending = false → k.outQ = .notice n x :: q →
    k.beginSend = { k with sending := true, outQ := .notice n k.lost :: q, lost := 0 }) ∧
  (∀ (k : Link) (r : ReqRef) (st : Status) (body : ReplyBody), k.holds r.serial = true →
    k.reply r st body = k.place (.reply { tag := r.tag, serial := some r.serial, status := st, body := body })) ∧
  (∀ (k : Link) (r : ReqRef) (st : Status) (body : ReplyBody), k.holds r.serial = false →
    k.reply r st body = { k with counters := bump k.counters 9 }) ∧
  (∀ (k : Link) (n : Notice), k.up = false → k.raise n = k) ∧
  (∀ (k : Link) (n : Notice), k.up = true → k.noticeCount < 55 → k.raise n = k.place (.notice n 0)) ∧
  (∀ (k : Link) (n : Notice), k.up = true → 55 ≤ k.noticeCount →
    k.raise n = { k with lost := satInc k.lost, counters := bump k.counters 8 })

/-- Fill marks, gaps and framing faults, and how a link comes UP (R2, R3, R4, R179). How a run is timed, and that a gap is not counted
while a message is being received, are the model's reading (logs 5, 6). -/
def Obligations.TenMillisecondsOfFillMarksBringALinkUp : Prop :=
  ∀ (l : LinkNo) (s : State),
    let k := s.link l
    let counts := s.settings.loaded && k.ax != 0 && !k.up
    let marked : Link := { k with lastValid := s.clock.ms, lastMark := s.clock.ms, discarding := false }
    (∀ b : Byte, b = 0 ∨ b = 1 → counts = false →
      exec (.fillMarkReceived l b) s = .next (s.onLink l (fun _ => { marked with runStart := none }))) ∧
    (∀ b : Byte, b = 0 ∨ b = 1 → counts = true → k.runStart = none ∨ 5 ≤ elapsed s.clock.ms k.lastMark →
      exec (.fillMarkReceived l b) s = .next (s.onLink l (fun _ => { marked with runStart := some s.clock.ms }))) ∧
    (∀ (b : Byte) (t : Time), b = 0 ∨ b = 1 → counts = true → k.runStart = some t → elapsed s.clock.ms k.lastMark < 5 →
      exec (.fillMarkReceived l b) s = .next (s.onLink l (fun _ => marked))) ∧
    (∀ b : Byte, b ≠ 0 → b ≠ 1 →
      exec (.fillMarkReceived l b) s = .next (s.onLink l (fun _ => { k with runStart := none, discarding := true }))) ∧
    exec (.lineFramingFault l) s = .next (s.onLink l (fun _ => { k with runStart := none, discarding := true })) ∧
    (5 ≤ elapsed s.clock.ms k.lastMark →
      exec (.fillMarkGap { link := l, receiving := false }) s = .next (s.onLink l (fun _ => { k with runStart := none }))) ∧
    (elapsed s.clock.ms k.lastMark < 5 →
      exec (.fillMarkGap { link := l, receiving := false }) s = .next (s.onLink l (fun _ => k))) ∧
    exec (.fillMarkGap { link := l, receiving := true }) s = .next (s.onLink l (fun _ => k)) ∧
    (∀ t : Time, counts = true → k.runStart = some t → 10 ≤ elapsed s.clock.ms t → elapsed s.clock.ms k.lastMark < 5 →
      exec (.linkUp l) s = .next (s.onLink l (fun _ =>
        { k with up := true, window := [], refusal := none, outQ := [], sending := false, lost := 0, runStart := none,
                 counters := bump k.counters 10 }))) ∧
    ((counts = false ∨ k.runStart = none ∨ (∃ t : Time, k.runStart = some t ∧ elapsed s.clock.ms t < 10) ∨
        5 ≤ elapsed s.clock.ms k.lastMark) →
      exec (.linkUp l) s = .next (s.onLink l (fun _ => k)))

/-- LINK_DOWN (R3) and what every unit gives up for it (R15, R47, R88, R103, R125, R140, R153): the bursts that the link owns are
returned by force (R124), and a beam left without holders closes (R78). That it is one step, and that requests handed on and not yet
taken go with it, are the model's reading (log 27); that the beams act in ascending beam number, so that a later beam's frames stand
ahead, is its choice (log 12); that the pool then compares its marks once is its reading (log 13), and so is lateness (log 15). -/
def Obligations.LinkDownTearsDownEveryUnit : Prop :=
  ∀ (l : LinkNo) (receiving : Bool) (s : State),
    ((s.link l).up = false ∨ receiving = true ∨ elapsed s.clock.ms (s.link l).lastValid < 20 →
      exec (.linkDown l receiving) s = .next s) ∧
    ((s.link l).up = true → receiving = false → 20 ≤ elapsed s.clock.ms (s.link l).lastValid →
      let ownedBy := fun b : BeamNo => (s.beam b).burst.any (fun u => u.owner == l)
      let forget := fun f : Frame => if f.origin.any (fun o => o.link == l) then { f with origin := none } else f
      let back := fun b : BeamNo =>
        if ownedBy b then (((s.beam b).returned s.clock.ms).filter (fun p => p.2 == .returned)).map (fun p => forget p.1) else []
      let gone := fun b : BeamNo =>
        if ownedBy b then (((s.beam b).returned s.clock.ms).filter (fun p => p.2 != .returned)).map Prod.fst else []
      let left := fun b : BeamNo => put (s.beam b).holders l false
      let lost := fun (b : BeamNo) (m : LinkNo) => match (s.beam b).closePending with
        | some r => if look (left b) m then [Notice.beamLost b (s.beam b).seg r] else []
        | none => []
      let closes := fun b : BeamNo => (∀ m : LinkNo, look (left b) m = false) ∨
        (ownedBy b = true ∧ ((s.beam b).closePending ≠ none ∨ (s.beam b).oneShot = true))
      let unsent := fun b : BeamNo => (s.beam b).state = .steering ∧ (s.head (headOf b)).steerQueued (sideOf b) = true
      ∃ t : State, exec (.linkDown l receiving) s = .next t ∧
        t.downlink.waiting = allBeams.reverse.flatMap back ++ s.downlink.waiting.map forget ∧
        t.pool.free = s.pool.free + deliveriesBlocks (look s.pool.queues l) + framesBlocks (allBeams.flatMap gone) ∧
        (look s.downlink.counters 9 ≤ 65535 → look t.downlink.counters 9 =
          min (look s.downlink.counters 9 + (allBeams.filter ownedBy).length) 65535) ∧
        (s.beamsHeld →
          (∀ m : LinkNo, m ≠ l → ∃ pool : List Notice, (∀ n ∈ pool, n.ofPool = true) ∧
            t.link m = (s.link m).raiseAll (allBeams.flatMap (fun b =>
              if ownedBy b then resultsAt m (toldOf ((s.beam b).returned s.clock.ms)) ++ lost b m else []) ++ pool)) ∧
          (∀ b : BeamNo, (s.beam b).heldState → closes b → ¬unsent b → t.beam b = Beam.closing (s.beam b).seg ∧
            (HeadCmd.release (sideOf b) ∈ (t.head (headOf b)).queue ∨
              ∃ o : Outstanding, (t.head (headOf b)).outstanding = some o ∧ o.cmd = .release (sideOf b))) ∧
          (∀ b : BeamNo, (s.beam b).heldState → closes b → unsent b →
            (((t.beam b).state = .idle ∨ (t.beam b).state = .surveying) ∧ (t.beam b).seg = none ∧
              (t.beam b).holders = LinkSet.none ∧ (t.beam b).awaiting = []) ∨
            ((t.beam b).state = .steering ∧ ∃ w ∈ s.beamCtl.waitList, w.req.ref.link ≠ l ∧ (t.beam b).seg = some w.seg ∧
              (t.beam b).awaiting.head? = some w.req)) ∧
          (∀ b : BeamNo, (s.beam b).heldState → ¬closes b → t.beam b = { s.beam b with
            holders := left b
            awaiting := (s.beam b).awaiting.filter (fun q => q.ref.link != l)
            burst := if ownedBy b then none else
              (s.beam b).burst.map (fun u => { u with frames := u.frames.map forget })
            releaseDeferred := if ownedBy b then false else (s.beam b).releaseDeferred })) ∧
        t.coverage.cells = s.coverage.cells ∧ t.coverage.segs = s.coverage.segs ∧ t.coverage.reach = s.coverage.reach ∧
        t.reefer = { s.reefer with interest := put s.reefer.interest l { yards := 0, allAlarms := false, mode := .noInterest } } ∧
        (∀ c : CraneNo, t.craneRec c = (s.craneRec c).map (fun k => { k with
          subs := put k.subs l false
          watch := ((t.craneRec c).bind CraneRec.watch)
          reported := (((t.craneRec c).map CraneRec.reported).getD []) })) ∧
        (t.link l).up = false ∧ (t.link l).window = [] ∧ (t.link l).refusal = none ∧ (t.link l).outQ = [] ∧
        (t.link l).lost = 0 ∧ (t.link l).ax = (s.link l).ax ∧ (t.link l).rights = (s.link l).rights ∧
        look (t.link l).counters 11 = satInc (look (s.link l).counters 11) ∧
        t.handed = s.handed.filter (fun r => r.ref.link != l) ∧
        look t.pool.queues l = [] ∧ look t.pool.dropped l = 0 ∧
        (∀ m : LinkNo, m ≠ l → look t.pool.queues m = look s.pool.queues m ∧ look t.pool.dropped m = look s.pool.dropped m) ∧
        (∀ w ∈ t.beamCtl.waitList, w.req.ref.link ≠ l) ∧
        (∀ b : BeamNo, look (t.beam b).holders l = false ∧ (∀ q ∈ (t.beam b).awaiting, q.ref.link ≠ l) ∧
          ∀ u : Burst, (t.beam b).burst = some u → u.owner ≠ l ∧ ∀ f ∈ u.frames, ∀ o : Origin, f.origin = some o → o.link ≠ l) ∧
        (∀ f ∈ t.downlink.waiting, ∀ o : Origin, f.origin = some o → o.link ≠ l) ∧
        (∀ i : Fin 128, look (look t.access.own l) i =
          (if (look (look s.access.own l) i).valid then { AccessEntry.reset with seq := (look (look s.access.own l) i).seq + 1 }
           else look (look s.access.own l) i)) ∧
        t.access.common = s.access.common ∧
        (∀ m : LinkNo, m ≠ l → look t.access.own m = look s.access.own m) ∧
        s.KeepsAllBut t [.links, .handed, .access, .coverage, .beamCtl, .pool, .downlink, .cranes, .reefer])

/-- MESSAGE_RECEIVED and MESSAGE_ABANDONED (R2 to R6): the checks of a message, then its tag, its code and its right. That a damaged or
abandoned message cuts the run of fill marks and sets discarding, that after a gap the last valid time lies 5 ms back, and that
the gap measurement goes on from the last byte of a message on a DOWN link are the model's reading (log 6); that a reply placed on
an idle line begins sending at once is log 4's. Each code's request, its right and its owner (R6) and what a right asks of the link stand as a
table; GRANT and REVOKE need what their list byte says. -/
def Obligations.MessagesAreCheckedAndTaken : Prop :=
  ((List.range 36).map (fun n => requestOfCode (BitVec.ofNat 16 n)) = none :: List.map some
    [.identify, .readTime, .readCounters, .enroll, .withdraw, .move, .readTerminal, .listUnknown, .grant, .revoke, .readEntry,
     .readCoverage, .markCell, .unmarkCell, .openBeam, .release, .readBeams, .survey, .send, .purgeQueue, .fetch, .done, .cut,
     .deliver, .take, .subscribe, .readCrane, .setInterest, .readRack, .readAlarms, .acknowledge, .clearDose, .tune,
     .storeSettings, .restart]) ∧
  (∀ c : Half, 36 ≤ c.toNat → requestOfCode c = none) ∧
  (∀ body : List Byte,
    (∀ c ∈ [ReqCode.enroll, .withdraw, .move, .markCell, .unmarkCell, .tune, .storeSettings, .restart],
      rightNeeded c body = .admin) ∧
    (∀ c ∈ [ReqCode.openBeam, .release, .readBeams, .fetch, .done, .cut, .deliver], rightNeeded c body = .traffic) ∧
    (∀ c ∈ [ReqCode.send, .purgeQueue, .acknowledge, .clearDose], rightNeeded c body = .command) ∧
    rightNeeded .survey body = .trafficOrAdmin ∧
    (∀ c ∈ [ReqCode.identify, .readTime, .readCounters, .readTerminal, .listUnknown, .readEntry, .readCoverage, .take,
      .subscribe, .readCrane, .setInterest, .readRack, .readAlarms], rightNeeded c body = .noneNeeded) ∧
    (∀ c ∈ [ReqCode.grant, .revoke], rightNeeded c body = (match body.head? with
      | none => .unreadable
      | some b => if b = 0 then .admin else if b = 1 then .noneNeeded else .unreadable))) ∧
  ((∀ c ∈ [ReqCode.identify, .readTime, .readCounters], c.owner = .linkUnit) ∧
    (∀ c ∈ [ReqCode.enroll, .withdraw, .move, .readTerminal, .listUnknown, .deliver], c.owner = .registry) ∧
    (∀ c ∈ [ReqCode.grant, .revoke, .readEntry], c.owner = .access) ∧
    (∀ c ∈ [ReqCode.readCoverage, .markCell, .unmarkCell], c.owner = .coverage) ∧
    (∀ c ∈ [ReqCode.openBeam, .release, .readBeams, .survey], c.owner = .beam) ∧ ReqCode.owner .take = .pool ∧
    (∀ c ∈ [ReqCode.send, .purgeQueue, .fetch, .done, .cut], c.owner = .downlink) ∧
    (∀ c ∈ [ReqCode.subscribe, .readCrane], c.owner = .crane) ∧
    (∀ c ∈ [ReqCode.setInterest, .readRack, .readAlarms, .acknowledge, .clearDose], c.owner = .reefer) ∧
    (∀ c ∈ [ReqCode.tune, .storeSettings, .restart], c.owner = .settings)) ∧
  (∀ r : Rights, r.satisfy .noneNeeded = true ∧ r.satisfy .admin = r.admin ∧ r.satisfy .command = r.command ∧
    r.satisfy .traffic = r.traffic ∧ r.satisfy .trafficOrAdmin = (r.traffic || r.admin) ∧ r.satisfy .unreadable = false) ∧
  ∀ (l : LinkNo) (bytes : List Byte) (s : State),
    let k := s.link l
    let heard : Link := { k with lastValid := s.clock.ms, discarding := false }
    exec (.messageAbandoned l .tooLong) s = .next (s.onLink l (fun _ =>
      { k with lastValid := s.clock.ms, runStart := none, discarding := true, counters := bump k.counters 1 })) ∧
    exec (.messageAbandoned l .gap) s = .next (s.onLink l (fun _ =>
      { k with lastValid := s.clock.ms - 5, runStart := none, discarding := true, counters := bump k.counters 1 })) ∧
    (readMessage bytes = none → exec (.messageReceived l bytes) s = .next (s.onLink l (fun _ =>
      { heard with runStart := none, discarding := true, counters := bump k.counters 1 }))) ∧
    (∀ q : RawRequest, readMessage bytes = some q →
      (k.up = false → exec (.messageReceived l bytes) s =
        .next (s.onLink l (fun _ => { heard with lastMark := s.clock.ms }))) ∧
      (k.up = true → k.holdsTag q.tag = true → exec (.messageReceived l bytes) s =
        .next (s.onLink l (fun _ => { heard with counters := bump k.counters 2 }))) ∧
      (k.up = true → k.holdsTag q.tag = false → 8 ≤ k.window.length → k.refusal = none →
        exec (.messageReceived l bytes) s = .next (s.onLink l (fun _ =>
          Link.place { heard with refusal := some q.tag, counters := bump k.counters 3 }
            (.reply { tag := q.tag, serial := none, status := .busy, body := .empty })))) ∧
      (k.up = true → k.holdsTag q.tag = false → 8 ≤ k.window.length → k.refusal ≠ none →
        exec (.messageReceived l bytes) s = .next (s.onLink l (fun _ => { heard with counters := bump k.counters 4 }))) ∧
      (k.up = true → k.holdsTag q.tag = false → k.window.length < 8 →
        let r : ReqRef := { link := l, serial := k.nextSerial, tag := q.tag }
        let u := s.onLink l (fun _ => { heard with
          window := k.window ++ [(q.tag, k.nextSerial)], nextSerial := k.nextSerial + 1, counters := bump k.counters 0 })
        (requestOfCode q.code = none → exec (.messageReceived l bytes) s = .next (u.answer r .badRequest)) ∧
        (∀ c : ReqCode, requestOfCode q.code = some c →
          (rightNeeded c q.body = .unreadable → exec (.messageReceived l bytes) s = .next (u.answer r .badRequest)) ∧
          (rightNeeded c q.body ≠ .unreadable → k.rights.satisfy (rightNeeded c q.body) = false →
            exec (.messageReceived l bytes) s =
              .next ((u.answer r .noRight).onLink l (fun x => { x with counters := bump x.counters 5 }))) ∧
          (k.rights.satisfy (rightNeeded c q.body) = true → exec (.messageReceived l bytes) s =
            .next { u with handed := u.handed ++ [{ ref := r, code := c, body := q.body }] }))))

/-- MESSAGE_SENT (R5, R8): the front message leaves with its last byte, its tag is freed, and the next message begins. The link's
view of the bytes sent last is the model's own (log 23), and that the next message begins at once its reading (log 4). -/
def Obligations.TheFrontMessageLeavesAndFreesItsTag : Prop :=
  ∀ (l : LinkNo) (s : State),
    let k := s.link l
    (k.up = false ∨ k.sending = false ∨ k.outQ = [] → exec (.messageSent l) s = .next (s.onLink l (fun _ => k))) ∧
    (∀ (n : Notice) (x : Nat) (q : List Msg), k.up = true → k.sending = true → k.outQ = .notice n x :: q →
      exec (.messageSent l) s = .next (s.onLink l (fun _ => Link.beginSend
        { k with outQ := q, sending := false, lineOut := (Msg.notice n x).bytes, counters := bump k.counters 7 }))) ∧
    (∀ (p : Reply) (n : Nat) (q : List Msg), k.up = true → k.sending = true → k.outQ = .reply p :: q → p.serial = some n →
      exec (.messageSent l) s = .next (s.onLink l (fun _ => Link.beginSend
        { k with outQ := q, sending := false, lineOut := (Msg.reply p).bytes, counters := bump k.counters 6,
                 window := k.window.filter (fun w => w.2 != n) }))) ∧
    (∀ (p : Reply) (q : List Msg), k.up = true → k.sending = true → k.outQ = .reply p :: q → p.serial = none →
      exec (.messageSent l) s = .next (s.onLink l (fun _ => Link.beginSend
        { k with outQ := q, sending := false, lineOut := (Msg.reply p).bytes, counters := bump k.counters 6,
                 refusal := none })))

/-- What is sent by the layouts of R178, R179, R181 and R183 is what is read: request messages under every tag, code and body, head
line answers of every kind, and rack reports. -/
def Obligations.EncodedMessagesReadBack : Prop :=
  (∀ (tag : Byte) (code : Half) (body : List Byte), body.length ≤ 24576 →
    readMessage (requestMessage tag code body) = some { tag := tag, code := code, body := body }) ∧
  (∀ a : Answer, (∀ es : List (Option Nat), a.kind = .sweepResult es → es.length ≤ 16 ∧ ∀ m, some m ∈ es → m ≤ 255) →
    readAnswer a.bytes = some a) ∧
  (∀ (c : Byte) (qs : List Reading), 1 ≤ qs.length → qs.length ≤ 24 → (∀ q ∈ qs, q.carried) →
    readReport (reportBytes c qs) = some (c, qs)) ∧
  (∀ c : Byte, readReport (reportBytes c []) = none)

/-- IDENTIFY (R12; its vendor, family and revision are constants of the silicon, log 9) and READ COUNTERS (R13): which counters each
group holds, and that the clear flag sets exactly that group's to 0 and leaves everything else as it was. -/
def Obligations.IdentifyAndReadCountersAnswer : Prop :=
  (∀ (r : Request) (s : State), s.Asks .identify r → r.body = [] → ∃ i : Identity,
    exec (.identify r.ref.link) s = .next ((s.taken r).reply r.ref .ok (.identity i)) ∧
    i.part = 240 ∧ 1 ≤ i.revision ∧ i.revision ≤ 15 ∧ i.link = r.ref.link ∧ i.ax = (s.link r.ref.link).ax ∧
    i.rights = (s.link r.ref.link).rights ∧ i.windowSize = 8 ∧ i.queueSize = 64 ∧ i.replyPlaces = 9 ∧
    i.source = s.settings.source) ∧
  (∀ (r : Request) (s : State) (g : Nat) (clear : Bool), s.Asks .readCounters r → readCountersBody r.body = some (g, clear) →
    (12 ≤ g → exec (.readCounters r.ref.link) s = .next ((s.taken r).answer r.ref .badRequest)) ∧
    (∀ vs : List Nat, s.counterGroup g = some vs →
      (clear = false → exec (.readCounters r.ref.link) s = .next ((s.taken r).reply r.ref .ok (.counters vs))) ∧
      (clear = true → exec (.readCounters r.ref.link) s = .next (((s.taken r).clearGroup g).reply r.ref .ok (.counters vs)) ∧
        ∀ ws : List Nat, ((s.taken r).clearGroup g).counterGroup g = some ws → ws.length = vs.length ∧ ∀ w ∈ ws, w = 0))) ∧
  (∀ s : State, (∀ l : LinkNo, s.counterGroup l.val = some (s.link l).counters.toList) ∧
    s.counterGroup 4 = some s.registry.counters.toList ∧ s.counterGroup 5 = some s.access.counters.toList ∧
    s.counterGroup 6 = some s.coverage.counters.toList ∧ s.counterGroup 7 = some s.pool.counters.toList ∧
    s.counterGroup 8 = some s.downlink.counters.toList ∧ s.counterGroup 9 = some s.cranes.counters.toList ∧
    s.counterGroup 10 = some s.reefer.counters.toList ∧ s.counterGroup 11 = some s.settings.counters.toList) ∧
  (∀ s : State,
    (∀ l : LinkNo, s.clearGroup l.val = s.onLink l (fun k => { k with counters := Vector.replicate 12 0 })) ∧
    s.clearGroup 4 = { s with registry := { s.registry with counters := Vector.replicate 12 0 } } ∧
    s.clearGroup 5 = { s with access := { s.access with counters := Vector.replicate 12 0 } } ∧
    s.clearGroup 6 = { s with coverage := { s.coverage with counters := Vector.replicate 24 0 } } ∧
    s.clearGroup 7 = { s with pool := { s.pool with counters := Vector.replicate 13 0 } } ∧
    s.clearGroup 8 = { s with downlink := { s.downlink with counters := Vector.replicate 21 0 } } ∧
    s.clearGroup 9 = { s with cranes := { s.cranes with counters := Vector.replicate 11 0 } } ∧
    s.clearGroup 10 = { s with reefer := { s.reefer with counters := Vector.replicate 25 0 } } ∧
    s.clearGroup 11 = { s with settings := { s.settings with counters := Vector.replicate 11 0 } })

/-! ### The registry -/

/-- ENROLL (R19, R20): the refusals in their order, and what an accepted one writes. The new terminal's downlink queues are empty (R20)
in every state with the invariant `State.framesHaveTerminals`, which StepsKeepTheRegistryAgreeing keeps (log 17). -/
def Obligations.EnrollIsRefusedOrFillsTheLowestFreeEntry : Prop :=
  ∀ (r : Request) (s : State) (q : EnrollReq), s.Asks .enroll r → readEnroll r.body = some q →
    let known := ∃ e : EntryNo, (q.addr, e) ∈ s.registry.addrMap
    let full := match q.kind with
      | .crane => 16 ≤ s.registry.craneCount
      | .rack => 240 ≤ s.registry.rackCount
    let numbered := q.kind = .crane ∧ ∃ (e : EntryNo) (c : CraneNo), q.crane = some c ∧ (s.entry e).crane = some c
    (known → exec (.enroll r.ref.link) s = .next (((s.taken r).bumpReg 4).answer r.ref .duplicate)) ∧
    (¬known → full → exec (.enroll r.ref.link) s = .next (((s.taken r).bumpReg 5).answer r.ref .tableFull)) ∧
    (¬known → ¬full → numbered → exec (.enroll r.ref.link) s = .next (((s.taken r).bumpReg 4).answer r.ref .duplicate)) ∧
    (∀ (e : EntryNo) (rack : Option RackNo), ¬known → ¬full → ¬numbered →
      ((s.entry e).state = .free ∧ (s.entry e).withdrawal = none ∧
        ∀ f : EntryNo, f < e → (s.entry f).state ≠ .free ∨ (s.entry f).withdrawal ≠ none) →
      (q.kind = .crane ∧ rack = none ∨
        q.kind = .rack ∧ ∃ n : RackNo, rack = some n ∧ (∀ f : EntryNo, (s.entry f).rack ≠ some n) ∧
          ∀ m : RackNo, m < n → ∃ f : EntryNo, (s.entry f).rack = some m) →
      ∃ t : State, exec (.enroll r.ref.link) s = .next (t.reply r.ref .ok (.enrolled e ((s.entry e).seq + 1) rack)) ∧
        t.entry e =
          { kind := some q.kind, state := .enrolled, addr := some q.addr, seq := (s.entry e).seq + 1, seg := q.seg,
            auth := q.auth, lastHeard := none, silenceFrom := (s.entry e).silenceFrom, crane := q.crane, rack := rack,
            yard := q.yard, lastReport := none, withdrawal := none } ∧
        (∀ f : EntryNo, f ≠ e → t.entry f = s.entry f) ∧
        t.registry.addrMap = s.registry.addrMap ++ [(q.addr, e)] ∧
        t.registry.craneCount = (if q.kind = .crane then s.registry.craneCount + 1 else s.registry.craneCount) ∧
        t.registry.rackCount = (if q.kind = .rack then s.registry.rackCount + 1 else s.registry.rackCount) ∧
        t.registry.unknowns = s.registry.unknowns.filter (fun u => u.addr != q.addr) ∧
        t.registry.counters = bump s.registry.counters 3 ∧
        (∀ c : CraneNo, t.craneRec c =
          (if q.kind = .crane ∧ q.crane = some c then some (CraneRec.start e) else s.craneRec c)) ∧
        (∀ m : RackNo, t.rackRec m = (if rack = some m then some (RackRec.start e) else s.rackRec m)) ∧
        t.cranes.counters = s.cranes.counters ∧ t.reefer.slots = s.reefer.slots ∧ t.reefer.alarms = s.reefer.alarms ∧
        t.reefer.interest = s.reefer.interest ∧ t.reefer.counters = s.reefer.counters ∧
        (s.framesHaveTerminals → (∀ f ∈ t.downlink.waiting, f.terminal ≠ e) ∧ t.inFlightOf e = []) ∧
        (s.taken r).KeepsAllBut t [.registry, .cranes, .reefer])

/-- WITHDRAW (R21) and MOVE (R24), which has the crane's condition derived again, a change counted and raised (R130), or the rack held
against the class of its new segment (R152, `State.RackFollows`; log 32 for its POLL state). -/
def Obligations.WithdrawAndMoveChangeTheEntryNamed : Prop :=
  (∀ (r : Request) (s : State) (e : EntryNo) (q : Half), s.Asks .withdraw r → readWithdraw r.body = some (e, q) →
    ((s.entry e).state = .free ∨ (s.entry e).seq ≠ q →
      exec (.withdraw r.ref.link) s = .next ((s.taken r).answer r.ref .wrongState)) ∧
    ((s.entry e).state ≠ .free → (s.entry e).seq = q →
      ∃ t : State, exec (.withdraw r.ref.link) s = .next (t.reply r.ref .ok (.withdrawn (q + 1))) ∧
        t.entry e =
          { s.entry e with
            state := .free, seq := q + 1, seg := none, auth := 0, addr := none, lastHeard := none, lastReport := none,
            withdrawal := some { downlinkDone := false, kindDone := false } } ∧
        (∀ f : EntryNo, f ≠ e → t.entry f = s.entry f) ∧
        t.registry.addrMap = s.registry.addrMap.filter (fun p => p.2 != e) ∧
        t.registry.craneCount = s.registry.craneCount ∧ t.registry.rackCount = s.registry.rackCount ∧
        t.registry.unknowns = s.registry.unknowns ∧ t.registry.counters = bump s.registry.counters 6 ∧
        (s.taken r).KeepsAllBut t [.registry])) ∧
  (∀ (r : Request) (s : State) (e : EntryNo) (q : Half) (g : SegNo), s.Asks .move r → readMove r.body = some (e, q, g) →
    ((s.entry e).state = .free ∨ (s.entry e).seq ≠ q →
      exec (.move r.ref.link) s = .next ((s.taken r).answer r.ref .wrongState)) ∧
    ((s.entry e).state ≠ .free → (s.entry e).seq = q → (s.entry e).seg = some g →
      exec (.move r.ref.link) s = .next ((s.taken r).reply r.ref .ok (.moved (some g) g))) ∧
    ((s.entry e).state ≠ .free → (s.entry e).seq = q → (s.entry e).seg ≠ some g →
      ∃ t : State, exec (.move r.ref.link) s = .next (t.reply r.ref .ok (.moved (s.entry e).seg g)) ∧
        t.entry e = { s.entry e with seg := some g } ∧ (∀ f : EntryNo, f ≠ e → t.entry f = s.entry f) ∧
        t.registry.counters = bump s.registry.counters 7 ∧ t.registry.addrMap = s.registry.addrMap ∧
        (∀ (c : CraneNo) (k : CraneRec), (s.entry e).kind = some .crane → (s.entry e).crane = some c →
          s.craneRec c = some k → k.entry = e → ∀ v : Condition,
          conditionOf (s.entry e).state (some (s.segRec g).cls) = some v → (t.craneRec c).map CraneRec.cond = some v ∧
          (v = k.cond → t.cranes = s.cranes) ∧
          (v ≠ k.cond → look t.cranes.counters 5 = satInc (look s.cranes.counters 5) ∧
            ∀ l : LinkNo, look k.subs l = true ∨ (s.link l).rights.command = true → (s.link l).up = true →
              (s.link l).noticeCount < 55 →
              (t.link l).HasNotice (.craneState c k.cond v (some g) (some (s.segRec g).cls)))) ∧
        (∀ (n : RackNo) (k : RackRec), (s.entry e).kind = some .rack → (s.entry e).rack = some n →
          s.rackRec n = some k → k.entry = e →
          s.RackFollows t n k (s.segRec g).cls ∧ (∀ m : RackNo, m ≠ n → t.rackRec m = s.rackRec m) ∧
          ∀ (m : RackNo) (p : PlugNo), m ≠ n → (s.slot m p).Like (t.slot m p)) ∧
        (s.taken r).KeepsAllBut t [.links, .registry, .pool, .downlink, .cranes, .reefer]))

/-- The three units' parts of a withdrawal (R22, R114, R139, R155): each acts once, on a withdrawal in hand that it has not dealt with;
the last one, whichever it is, releases the entry's kind, number, yard block and count. The downlink part raises FRAME_RESULT
WITHDRAWN for each frame dropped (R110), in the order in which they wait (the model's choice, log 12); the pool's notice behind them
is log 13's. -/
def Obligations.EachUnitDealsOnceWithAWithdrawal : Prop :=
  ∀ (e : EntryNo) (s : State),
    (∀ (w : Withdrawal), (s.entry e).withdrawal = some w → w.downlinkDone = false →
      ∃ t : State, exec (.downlinkWithdrawal e) s = .next t ∧
        t.downlink.waiting = s.downlink.waiting.filter (fun f => f.terminal != e) ∧
        t.pool.free = s.pool.free + framesBlocks (s.downlink.waiting.filter (fun f => f.terminal == e)) ∧
        s.Raises t (fun l => resultsAt l ((s.downlink.waiting.filter (fun f => f.terminal == e)).map (fun f => (f, .withdrawn))))
          noNotices True ∧
        (look s.downlink.counters 18 ≤ 65535 → look t.downlink.counters 18 = min (look s.downlink.counters 18 +
          (s.downlink.waiting.filter (fun f => f.terminal == e)).length) 65535) ∧
        (∀ (b : BeamNo) (u : Burst), (t.beam b).burst = some u → ∀ f ∈ u.frames, f.terminal = e → f.orphaned = true) ∧
        (∀ b : BeamNo, framesBlocks (t.beam b).frames = framesBlocks (s.beam b).frames) ∧
        (t.entry e).withdrawal = (if w.kindDone then none else some { w with downlinkDone := true }) ∧
        (t.entry e).kind = (if w.kindDone then none else (s.entry e).kind) ∧
        (t.entry e).crane = (if w.kindDone then none else (s.entry e).crane) ∧
        (t.entry e).rack = (if w.kindDone then none else (s.entry e).rack) ∧
        (t.entry e).yard = (if w.kindDone then none else (s.entry e).yard) ∧
        t.registry.craneCount = (if w.kindDone = true ∧ (s.entry e).kind = some .crane then s.registry.craneCount - 1
          else s.registry.craneCount) ∧
        t.registry.rackCount = (if w.kindDone = true ∧ (s.entry e).kind = some .rack then s.registry.rackCount - 1
          else s.registry.rackCount) ∧
        s.KeepsAllBut t [.links, .registry, .beamCtl, .pool, .downlink, .cranes]) ∧
    (∀ (w : Withdrawal) (c : CraneNo), (s.entry e).withdrawal = some w → w.kindDone = false →
      (s.entry e).kind = some .crane → (s.entry e).crane = some c →
      ∃ t : State, exec (.craneWithdrawal e) s = .next t ∧ t.craneRec c = none ∧
        (∀ d : CraneNo, d ≠ c → t.craneRec d = s.craneRec d) ∧
        (t.entry e).withdrawal = (if w.downlinkDone then none else some { w with kindDone := true }) ∧
        (t.entry e).kind = (if w.downlinkDone then none else some .crane) ∧
        (t.entry e).crane = (if w.downlinkDone then none else some c) ∧
        (t.entry e).yard = (if w.downlinkDone then none else (s.entry e).yard) ∧
        t.registry.craneCount = (if w.downlinkDone then s.registry.craneCount - 1 else s.registry.craneCount) ∧
        t.registry.rackCount = s.registry.rackCount ∧ s.KeepsAllBut t [.registry, .cranes]) ∧
    (∀ (w : Withdrawal) (n : RackNo), (s.entry e).withdrawal = some w → w.kindDone = false →
      (s.entry e).kind = some .rack → (s.entry e).rack = some n →
      ∃ t : State, exec (.reeferWithdrawal e) s = .next t ∧ t.rackRec n = none ∧
        (∀ m : RackNo, m ≠ n → t.rackRec m = s.rackRec m) ∧ (∀ p : PlugNo, t.slot n p = Slot.clear) ∧
        (∀ (m : RackNo) (p : PlugNo), m ≠ n → t.slot m p = s.slot m p) ∧
        t.reefer.alarms = s.reefer.alarms.filter (fun a => a.rack != n) ∧ t.reefer.interest = s.reefer.interest ∧
        (t.entry e).withdrawal = (if w.downlinkDone then none else some { w with kindDone := true }) ∧
        (t.entry e).kind = (if w.downlinkDone then none else some .rack) ∧
        (t.entry e).rack = (if w.downlinkDone then none else some n) ∧
        (t.entry e).yard = (if w.downlinkDone then none else (s.entry e).yard) ∧
        t.registry.rackCount = (if w.downlinkDone then s.registry.rackCount - 1 else s.registry.rackCount) ∧
        t.registry.craneCount = s.registry.craneCount ∧ s.KeepsAllBut t [.registry, .reefer]) ∧
    ((∀ w : Withdrawal, (s.entry e).withdrawal = some w → w.downlinkDone = true) → exec (.downlinkWithdrawal e) s = .next s) ∧
    ((∀ w : Withdrawal, (s.entry e).withdrawal = some w → w.kindDone = true) →
      exec (.craneWithdrawal e) s = .next s ∧ exec (.reeferWithdrawal e) s = .next s)

/-- DELIVER (R26, R29): the disposition of each frame by the address map, and what a frame from an address that is not in the map
does to the unknown-source list. The map, and every unit that no frame reaches, is as before. -/
def Obligations.DeliverDisposesOfEachFrameByItsAddress : Prop :=
  (∀ (r : Request) (s : State) (fs : List (Word × List Byte)), s.registryAgrees → s.Asks .deliver r →
    readDeliver r.body = some fs →
    ∃ t : State, exec (.deliver r.ref.link) s = .next (t.reply r.ref .ok (.dispositions (fs.map (fun f =>
        match (s.registry.lookup f.1).bind (fun e => (s.entry e).kind) with
        | some .crane => Disposition.crane
        | some .rack => Disposition.rack
        | none => Disposition.unknown)))) ∧
      t.registry.addrMap = s.registry.addrMap ∧
      (s.taken r).KeepsAllBut t [.links, .registry, .pool, .downlink, .cranes, .reefer]) ∧
  (∀ (r : Request) (s : State) (a : Word) (bytes : List Byte), s.Asks .deliver r → readDeliver r.body = some [(a, bytes)] →
    s.registry.lookup a = none →
    ∃ t : State, exec (.deliver r.ref.link) s = .next (t.reply r.ref .ok (.dispositions [.unknown])) ∧
      look t.registry.counters 2 = satInc (look s.registry.counters 2) ∧
      (∀ u : UnknownRec, s.registry.unknowns.find? (fun v => v.addr == a) = some u →
        t.registry.unknowns = s.registry.unknowns.filter (fun v => v.addr != a) ++
          [{ u with last := s.clock.ms, count := satInc u.count }] ∧ t.links = s.links) ∧
      ((∀ u ∈ s.registry.unknowns, u.addr ≠ a) →
        t.registry.unknowns = (if 8 ≤ s.registry.unknowns.length then s.registry.unknowns.tail else s.registry.unknowns) ++
          [{ addr := a, first := s.clock.ms, last := s.clock.ms, count := 1 }] ∧
        ∀ l : LinkNo, t.link l =
          (if (s.link l).rights.admin then (s.link l).raise (.unknownTerminal a r.ref.link) else s.link l)) ∧
      t.registry.entries = s.registry.entries ∧ (s.taken r).KeepsAllBut t [.links, .registry])

/-- A telemetry frame from a crane (R27, R132, R25), the one frame of a DELIVER, and the copy of it that is offered to each subscriber in
ascending link number (R99, R133; State.offerCopy is said in TheReserveAndTheQuotaAdmitFramesAndCopies). -/
def Obligations.TelemetryUpdatesTheCraneAndItsEntry : Prop :=
  ∀ (r : Request) (s : State) (a : Word) (e : EntryNo) (c : CraneNo) (k : CraneRec) (bytes : List Byte),
    s.Asks .deliver r → readDeliver r.body = some [(a, bytes)] → s.registry.lookup a = some e →
    (s.entry e).kind = some .crane → (s.entry e).crane = some c → s.craneRec c = some k → k.entry = e →
    ∃ t : State, exec (.deliver r.ref.link) s = .next (t.reply r.ref .ok (.dispositions [.crane])) ∧
      (t.entry e).state = .heard ∧ (t.entry e).lastHeard = some s.clock.ms ∧ (t.entry e).silenceFrom = s.clock.ms ∧
      (∀ f : EntryNo, f ≠ e → t.entry f = s.entry f) ∧
      (bytes.length < 2 → (t.entry e).seg = (s.entry e).seg ∧
        look t.cranes.counters 1 = satInc (look s.cranes.counters 1) ∧
        (t.craneRec c).map CraneRec.telemetryCount = some k.telemetryCount ∧ s.SameDeliveries t) ∧
      (∀ (g1 g0 : Byte) (payload : List Byte), bytes = g1 :: g0 :: payload →
        look t.cranes.counters 0 = satInc (look s.cranes.counters 0) ∧
        (∀ g : SegNo, (half g1 g0).toNat = g.val → (t.entry e).seg = some g) ∧
        (64 ≤ (half g1 g0).toNat → (t.entry e).seg = (s.entry e).seg) ∧
        ∃ k' : CraneRec, t.craneRec c = some k' ∧ k'.lastTelemetry = some s.clock.ms ∧ k'.lastGantry = some (half g1 g0) ∧
          k'.telemetryCount = satInc k.telemetryCount ∧ k'.truncated = decide (1008 < payload.length) ∧
          k'.positionHeld = decide (64 ≤ (half g1 g0).toNat) ∧ k'.subs = k.subs ∧
          conditionOf .heard (s.classOf (t.entry e).seg) = some k'.cond ∧
          State.SameDeliveries (s.offerEach (allLinks.filter (fun l => look k.subs l)) (.telemetry
            { crane := c, truncated := k'.truncated, positionHeld := k'.positionHeld, seg := (t.entry e).seg,
              time := s.clock.ms, gantry := half g1 g0, received := payload.length, payload := payload.take 1008 })) t ∧
          (look s.cranes.counters 4 ≤ 65535 → look t.cranes.counters 4 =
            min (look s.cranes.counters 4 + (allLinks.filter (fun l => look k.subs l)).length) 65535)) ∧
      (s.taken r).KeepsAllBut t [.links, .registry, .pool, .downlink, .cranes]

/-- A rack's report (R144, R145), the one frame of a DELIVER: malformed, duplicate and stale ones move counters alone; an accepted
one makes the rack heard, ends its silence, applies the last reading of each plug in ascending plug order (R146) and is recorded.
Each slot with a reading is what `Slot.afterReading` gives, its grade derived and the alarm queue consulted (R163, R165); and a
digest is offered to each UP link that covers the rack and whose mode calls for one (R153, R154). What `Slot.afterReading` puts
together is said in ReadingsMoveProbesAndDose. That the pool compares its marks after a malformed, duplicate or stale report too,
once for each uplink frame, is the model's reading (log 13). -/
def Obligations.RackReportsAreJudgedByTheirCounter : Prop :=
  (∀ (v : State) (n : RackNo) (q : Reading),
    let x := v.slot n q.plug
    (q.plugState = .empty → x.occupied = false → v.applyReading n q = v) ∧
    (q.plugState = .empty → x.occupied = true →
      let u := v.applyReading n q
      u.slot n q.plug = Slot.clear ∧ (∀ (m : RackNo) (p : PlugNo), (m, p) ≠ (n, q.plug) → u.slot m p = v.slot m p) ∧
      u.reefer.alarms = v.reefer.alarms.map (fun a =>
        if a.rack = n ∧ a.plug = q.plug ∧ a.released = false then { a with released := true } else a) ∧
      v.KeepsAllBut u [.reefer]) ∧
    (q.plugState ≠ .empty → ∃ w : State, v.applyReading n q = w.regrade n q.plug true ∧
      w.slot n q.plug = (if x.occupied then x else { Slot.clear with occupied := true }).afterReading v.settings.params
        v.clock.sec q ∧
      (∀ (m : RackNo) (p : PlugNo), (m, p) ≠ (n, q.plug) → w.slot m p = v.slot m p) ∧
      w.reefer.alarms = v.reefer.alarms ∧ w.reefer.racks = v.reefer.racks ∧ w.reefer.interest = v.reefer.interest ∧
      v.KeepsAllBut w [.reefer])) ∧
  ∀ (r : Request) (s : State) (a : Word) (e : EntryNo) (n : RackNo) (k : RackRec) (bytes : List Byte),
    s.Asks .deliver r → readDeliver r.body = some [(a, bytes)] → s.registry.lookup a = some e →
    (s.entry e).kind = some .rack → (s.entry e).rack = some n → s.rackRec n = some k →
    let u := ((s.taken r).bumpReg 1).bumpReef 0
    (readReport bytes = none →
      exec (.deliver r.ref.link) s = .next (((u.bumpReef 1).judge).reply r.ref .ok (.dispositions [.rack]))) ∧
    (∀ (c : Byte) (qs : List Reading), readReport bytes = some (c, qs) →
      ((s.entry e).lastReport = some c →
        exec (.deliver r.ref.link) s = .next (((u.bumpReef 3).judge).reply r.ref .ok (.dispositions [.rack]))) ∧
      (∀ l : Byte, (s.entry e).lastReport = some l → 128 ≤ (c - l).toNat →
        exec (.deliver r.ref.link) s = .next (((u.bumpReef 4).judge).reply r.ref .ok (.dispositions [.rack]))) ∧
      (((s.entry e).lastReport = none ∨ ∃ l : Byte, (s.entry e).lastReport = some l ∧ 1 ≤ (c - l).toNat ∧ (c - l).toNat ≤ 127) →
        ∃ t : State, exec (.deliver r.ref.link) s = .next (t.reply r.ref .ok (.dispositions [.rack])) ∧
          t.entry e = { s.entry e with state := .heard, lastHeard := some s.clock.sec, silenceFrom := s.clock.sec,
                                       lastReport := some c } ∧
          (∀ f : EntryNo, f ≠ e → t.entry f = s.entry f) ∧
          t.rackRec n = some { k with silence := .notSilent, poll := (if k.silence = .notSilent then k.poll else .noPoll),
                                      accepted := satInc k.accepted, lastAcceptance := some s.clock.sec } ∧
          (∀ m : RackNo, m ≠ n → t.rackRec m = s.rackRec m) ∧
          (∀ p : PlugNo, (∀ q ∈ qs, q.plug ≠ p) → k.silence = .notSilent → ∀ x, x = s.slot n p →
            (t.slot n p).dose = x.dose ∧ (t.slot n p).setpoint = x.setpoint ∧ (t.slot n p).plugState = x.plugState ∧
            (t.slot n p).grade = x.grade) ∧
          (∀ (p : PlugNo) (q : Reading), lastReading qs p = some q →
            ((t.slot n p).occupied = true ↔ q.plugState ≠ .empty) ∧
            ((s.slot n p).occupied = true ∨ q.plugState ≠ .empty → (t.slot n p).plugState = q.plugState)) ∧
          (∀ p : PlugNo,
            let x : Slot := if k.silence = .notSilent then s.slot n p else (s.slot n p).silenced .notSilent
            let y : Slot := match lastReading qs p with
              | none => x
              | some q =>
                if q.plugState = PlugState.empty then (if x.occupied then Slot.clear else x)
                else ((if x.occupied then x else { Slot.clear with occupied := true }).afterReading s.settings.params
                  s.clock.sec q).regraded
            y.Like (t.slot n p)) ∧
          (∀ (m : RackNo) (p : PlugNo), m ≠ n → (s.slot m p).Like (t.slot m p)) ∧
          (let heard := if k.silence = .notSilent then s else s.setSilence n .notSilent
           let read := (allPlugs.filterMap (lastReading qs)).foldl (fun v q => v.applyReading n q) heard
           t.reefer.slots = read.reefer.slots ∧ t.reefer.alarms = read.reefer.alarms) ∧
          (let before := look s.reefer.slots n
           let after := look t.reefer.slots n
           let change := allPlugs.any (fun p =>
             (look before p).grade != (look after p).grade || (look before p).plugState != (look after p).plugState)
           let covers := fun l : LinkNo =>
             (s.link l).up && (s.entry k.entry).yard.any (fun y => (look s.reefer.interest l).yards.getLsbD y.val)
           let served := allLinks.filter (fun l => covers l && (match (look s.reefer.interest l).mode with
             | .noInterest => false
             | .changes => change
             | .all => change || !s.pool.paused))
           State.SameDeliveries (s.offerEach served (.digest
             { rack := n, yard := (s.entry e).yard, seg := (s.entry e).seg, cls := s.classOf (s.entry e).seg, counter := c,
               second := s.clock.sec
               entries := (allPlugs.filter (fun p =>
                 (lastReading qs p).isSome || (look before p).grade != (look after p).grade)).map (fun p =>
                   { plug := p, plugState := (look after p).plugState, grade := (look after p).grade,
                     reasons := (look after p).reasons, flags := (look after p).flags, setpoint := (look after p).setpoint,
                     temp := (look after p).temp, dose := (look after p).dose }) })) t ∧
           (look s.reefer.counters 15 ≤ 65535 →
             look t.reefer.counters 15 = min (look s.reefer.counters 15 + served.length) 65535)) ∧
          look t.reefer.counters 2 = satInc (look s.reefer.counters 2) ∧
          (s.taken r).KeepsAllBut t [.links, .registry, .pool, .reefer]))

/-- SILENCE_EXPIRY (R28, R131, R150): only a HEARD entry past its kind's limit falls silent; its unit acts on it. A crane that is
LOST raises CRANE_STATE (R130) and loses its waiting CONTROL frames with FRAME_RESULT LINK_LOST (R112), in that order (the model's
choice, log 12); the pool's notice behind them is log 13's. -/
def Obligations.AHeardEntryPastItsLimitFallsSilent : Prop :=
  ∀ (e : EntryNo) (s : State),
    ((s.entry e).state ≠ .heard → exec (.silenceExpiry e) s = .next s) ∧
    (∀ c : CraneNo, (s.entry e).state = .heard → (s.entry e).kind = some .crane → (s.entry e).crane = some c →
      (elapsed s.clock.ms (s.entry e).silenceFrom < s.param pCraneSilence → exec (.silenceExpiry e) s = .next s) ∧
      (s.param pCraneSilence ≤ elapsed s.clock.ms (s.entry e).silenceFrom →
        ∃ t : State, exec (.silenceExpiry e) s = .next t ∧ t.entry e = { s.entry e with state := .silent } ∧
          (∀ f : EntryNo, f ≠ e → t.entry f = s.entry f) ∧
          look t.registry.counters 9 = satInc (look s.registry.counters 9) ∧
          (∀ k : CraneRec, s.craneRec c = some k → k.entry = e →
            (t.craneRec c).map CraneRec.cond = some .lost ∧
            (k.cond ≠ .lost → t.downlink.waiting =
              s.downlink.waiting.filter (fun f => !(f.terminal == e && f.cls == .control)) ∧
              s.Raises t
                (fun l => if look k.subs l = true ∨ (s.link l).rights.command = true then
                  [.craneState c k.cond .lost (s.entry e).seg (s.classOf (s.entry e).seg)] else [])
                (fun l => resultsAt l ((s.downlink.waiting.filter (fun f => f.terminal == e && f.cls == .control)).map
                  (fun f => (f, .linkLost)))) True)) ∧
          s.KeepsAllBut t [.links, .registry, .pool, .downlink, .cranes])) ∧
    (∀ n : RackNo, (s.entry e).state = .heard → (s.entry e).kind = some .rack → (s.entry e).rack = some n →
      (elapsed s.clock.sec (s.entry e).silenceFrom < s.param pRackSilence → exec (.silenceExpiry e) s = .next s) ∧
      (s.param pRackSilence ≤ elapsed s.clock.sec (s.entry e).silenceFrom →
        ∃ t : State, exec (.silenceExpiry e) s = .next t ∧ t.entry e = { s.entry e with state := .silent } ∧
          (∀ f : EntryNo, f ≠ e → t.entry f = s.entry f) ∧
          look t.registry.counters 10 = satInc (look s.registry.counters 10) ∧
          (∀ k : RackRec, s.rackRec n = some k → k.entry = e → ∃ k' : RackRec, t.rackRec n = some k' ∧
            (s.classOf (s.entry e).seg = some .dark → k'.silence = .dark ∧ k'.poll = .noPoll ∧
              (∀ p : PlugNo, (s.slot n p).occupied = true →
                (t.slot n p).reasons = { (s.slot n p).reasons with silent := false, dark := true })) ∧
            (s.classOf (s.entry e).seg ≠ some .dark → k'.silence = .silent ∧ k'.poll ≠ .noPoll ∧
              (∀ p : PlugNo, (s.slot n p).occupied = true →
                (t.slot n p).reasons = { (s.slot n p).reasons with silent := true, dark := false }))) ∧
          s.KeepsAllBut t [.links, .registry, .pool, .downlink, .cranes, .reefer]))

/-- READ TIME (R11) gives both counts, LIST UNKNOWN (R30) and READ ALARMS (R170) what they list, the count first; they change
nothing. -/
def Obligations.TimeUnknownsAndAlarmsAreOnlyRead : Prop :=
  (∀ (r : Request) (s : State), s.Asks .readTime r →
    (r.body = [] → exec (.readTime r.ref.link) s = .next ((s.taken r).reply r.ref .ok (.times s.clock.ms s.clock.sec))) ∧
    (r.body ≠ [] → exec (.readTime r.ref.link) s = .next ((s.taken r).answer r.ref .badRequest))) ∧
  (∀ (r : Request) (s : State), s.Asks .listUnknown r →
    (r.body = [] → exec (.listUnknown r.ref.link) s =
      .next ((s.taken r).reply r.ref .ok (.unknowns s.registry.unknowns))) ∧
    (r.body ≠ [] → exec (.listUnknown r.ref.link) s = .next ((s.taken r).answer r.ref .badRequest))) ∧
  (∀ us : List UnknownRec, (ReplyBody.unknowns us).bytes = out1 us.length ++ us.flatMap (fun u =>
    be32 u.addr ++ be32 u.first ++ be32 u.last ++ out2 u.count)) ∧
  (∀ (r : Request) (s : State) (f n : Byte), s.Asks .readAlarms r → r.body = [f, n] →
    (1 ≤ n.toNat → n.toNat ≤ 64 → exec (.readAlarms r.ref.link) s = .next ((s.taken r).reply r.ref .ok
      (.alarms s.reefer.alarms.length f.toNat ((s.reefer.alarms.drop f.toNat).take n.toNat)))) ∧
    (n.toNat = 0 ∨ 64 < n.toNat → exec (.readAlarms r.ref.link) s = .next ((s.taken r).answer r.ref .badRequest))) ∧
  (∀ (r : Request) (s : State), s.Asks .readAlarms r → r.body.length ≠ 2 →
    exec (.readAlarms r.ref.link) s = .next ((s.taken r).answer r.ref .badRequest))

/-! ### Access lists and tokens -/

/-- The token check (R35, R41, R43): its six stages in order, and that a request whose token fails is answered the stage's code, with
the stage counted and no other effect. -/
def Obligations.TokensPassSixStagesOrAreRefused : Prop :=
  (∀ (s : State) (l : LinkNo), s.accessList l .common = s.access.common ∧ s.accessList l .own = look s.access.own l) ∧
  (∀ (s : State) (l : LinkNo) (t : Token) (writing : Bool), 128 ≤ t.entry.toNat →
    s.checkToken l t writing = .failed .tokenRange 5) ∧
  (∀ (s : State) (l : LinkNo) (t : Token) (writing : Bool) (i : Fin 128), t.entry.toNat = i.val →
    let x := look (s.accessList l t.list) i
    let current := fun e : EntryNo =>
      x.terminal = some e ∧ (s.entry e).state ≠ .free ∧ x.snapshot = some (s.entry e).seq
    let shut := fun e : EntryNo =>
      x.priv = true ∧ x.ax ≠ some (s.link l).ax ∧ (s.entry e).auth.getLsbD (s.link l).ax.val = false
    (x.valid = false → s.checkToken l t writing = .failed .entryInvalid 6) ∧
    (x.valid = true → t.seq ≠ x.seq → s.checkToken l t writing = .failed .entryStale 7) ∧
    (x.valid = true → t.seq = x.seq → (¬∃ e, current e) → s.checkToken l t writing = .failed .terminalGone 8) ∧
    (∀ e, x.valid = true → t.seq = x.seq → current e →
      (shut e → s.checkToken l t writing = .failed .notAuthorised 9) ∧
      (¬shut e → writing = true → x.readOnly = true → s.checkToken l t writing = .failed .readOnly 10) ∧
      (¬shut e → writing = false ∨ x.readOnly = false → s.checkToken l t writing = .passed e))) ∧
  (∀ (c : ReqCode) (r : Request) (s : State) (t : Token) (writing : Bool) (st : Status) (k : Fin 12), s.Asks c r →
    c.token r.body = some (t, writing) → s.checkToken r.ref.link t writing = .failed st k →
    exec (c.command r.ref.link) s = .next (((s.taken r).bumpAcc k).answer r.ref st))

/-- GRANT (R36, R37): the refusals in their order, and the entry that an accepted one writes. -/
def Obligations.GrantIsRefusedOrFillsTheLowestInvalidEntry : Prop :=
  ∀ (r : Request) (s : State) (q : GrantReq), s.Asks .grant r → readGrant r.body = some q →
    let l := r.ref.link
    let x := s.entry q.terminal
    let index := fun ax : Fin 16 =>
      (q.list = .common ∧ ax ≠ 0 ∧ ∃ a : Byte, q.ax = some a ∧ a.toNat = ax.val) ∨
      (q.list = .own ∧ ax = (s.link l).ax ∧ ∀ a : Byte, q.ax = some a → a.toNat = ax.val)
    let gone := x.state = .free ∨ ∃ v : Half, q.expected = some v ∧ v ≠ x.seq
    let barred := q.list = .own ∧ x.auth.getLsbD (s.link l).ax.val = false
    ((¬∃ ax, index ax) → exec (.grant l) s = .next ((s.taken r).answer r.ref .badRequest)) ∧
    (∀ ax, index ax →
      (gone → exec (.grant l) s = .next (((s.taken r).bumpAcc 2).answer r.ref .terminalGone)) ∧
      (¬gone → barred → exec (.grant l) s = .next (((s.taken r).bumpAcc 2).answer r.ref .notAuthorised)) ∧
      (¬gone → ¬barred → (∀ i : Fin 128, (look (s.accessList l q.list) i).valid = true) →
        exec (.grant l) s = .next (((s.taken r).bumpAcc 1).answer r.ref .tableFull)) ∧
      (∀ i : Fin 128, ¬gone → ¬barred → (look (s.accessList l q.list) i).valid = false →
        (∀ j : Fin 128, j < i → (look (s.accessList l q.list) j).valid = true) →
        let seq := (look (s.accessList l q.list) i).seq
        exec (.grant l) s = .next ((((s.taken r).setAccessEntry l q.list i
            { valid := true, readOnly := q.readOnly, priv := q.priv || q.list == .own, seq := seq, ax := some ax,
              terminal := some q.terminal, snapshot := some x.seq }).bumpAcc 0).reply r.ref .ok
          (.granted { list := q.list, entry := BitVec.ofNat 8 i.val, seq := seq } x.seq))))

/-- REVOKE (R39) in its three stages, and READ ENTRY (R40), which changes nothing. Which fields of an invalid entry can be given as
absent is the model's reading (log 10). -/
def Obligations.RevokeAndReadEntryActOnTheEntryNamed : Prop :=
  (∀ (r : Request) (s : State) (t : Token), s.Asks .revoke r → readToken r.body = some t →
    (128 ≤ t.entry.toNat → exec (.revoke r.ref.link) s = .next ((s.taken r).answer r.ref .tokenRange)) ∧
    (∀ i : Fin 128, t.entry.toNat = i.val →
      let x := look (s.accessList r.ref.link t.list) i
      (x.valid = false → exec (.revoke r.ref.link) s = .next ((s.taken r).answer r.ref .entryInvalid)) ∧
      (x.valid = true → t.seq ≠ x.seq → exec (.revoke r.ref.link) s = .next ((s.taken r).answer r.ref .entryStale)) ∧
      (x.valid = true → t.seq = x.seq →
        exec (.revoke r.ref.link) s = .next ((((s.taken r).setAccessEntry r.ref.link t.list i
            { valid := false, readOnly := false, priv := false, seq := x.seq + 1, ax := none, terminal := none,
              snapshot := none }).bumpAcc 3).reply r.ref .ok (.revoked (x.seq + 1)))))) ∧
  (∀ (r : Request) (s : State), s.Asks .readEntry r →
    (readReadEntry r.body = none → exec (.readEntry r.ref.link) s = .next ((s.taken r).answer r.ref .badRequest)) ∧
    (∀ (n : ListName) (b : Byte), readReadEntry r.body = some (n, b) →
      (128 ≤ b.toNat → exec (.readEntry r.ref.link) s = .next ((s.taken r).answer r.ref .tokenRange)) ∧
      (∀ i : Fin 128, b.toNat = i.val →
        let x := look (s.accessList r.ref.link n) i
        (x.valid = false → exec (.readEntry r.ref.link) s =
          .next ((s.taken r).reply r.ref .ok (.accessEntry { AccessEntry.reset with seq := x.seq } none))) ∧
        (∀ e : EntryNo, x.valid = true → x.terminal = some e → exec (.readEntry r.ref.link) s =
          .next ((s.taken r).reply r.ref .ok (.accessEntry x
            (some (decide ((s.entry e).state ≠ .free ∧ x.snapshot = some (s.entry e).seq)))))))))

/-- READ TERMINAL (R31), READ CRANE (R138) and READ RACK (R156) under a token that passes: what they give, and that nothing but the
count of checks passed and the reply changes. That READ RACK is answered WRONG_STATE for a crane's token whatever the range, the kind
coming before the range, is the model's reading (log 11). -/
def Obligations.ReadsUnderATokenGiveTheTerminal : Prop :=
  (∀ (r : Request) (s : State) (t : Token) (e : EntryNo), s.Asks .readTerminal r → readToken r.body = some t →
    s.checkToken r.ref.link t false = .passed e → ∃ v : TerminalView,
      exec (.readTerminal r.ref.link) s = .next (((s.taken r).bumpAcc 4).reply r.ref .ok (.terminal v)) ∧
      v.number = e ∧ v.entry = s.entry e ∧
      v.safety = (s.downlink.waiting.filter (fun f => f.terminal == e && f.cls == .safety)).length ∧
      v.control = (s.downlink.waiting.filter (fun f => f.terminal == e && f.cls == .control)).length ∧
      v.bulk = (s.downlink.waiting.filter (fun f => f.terminal == e && f.cls == .bulk)).length ∧
      v.inFlight = (s.inFlight.filter (fun f => f.terminal == e && !f.orphaned)).length) ∧
  (∀ (r : Request) (s : State) (t : Token) (e : EntryNo), s.Asks .readCrane r → readToken r.body = some t →
    s.checkToken r.ref.link t false = .passed e →
    ((s.entry e).kind ≠ some .crane →
      exec (.readCrane r.ref.link) s = .next (((s.taken r).bumpAcc 4).answer r.ref .wrongState)) ∧
    (∀ (c : CraneNo) (k : CraneRec), (s.entry e).kind = some .crane → (s.entry e).crane = some c → s.craneRec c = some k →
      ∃ v : CraneView, exec (.readCrane r.ref.link) s = .next (((s.taken r).bumpAcc 4).reply r.ref .ok (.crane v)) ∧
        v.number = c ∧ v.entry = e ∧ v.cond = k.cond ∧ v.state = (s.entry e).state ∧ v.seg = (s.entry e).seg ∧
        v.cls = s.classOf (s.entry e).seg ∧ v.lastHeard = (s.entry e).lastHeard ∧ v.subs = k.subs ∧
        v.telemetryCount = k.telemetryCount ∧
        (∀ (m : Time) (g : Half), k.lastTelemetry = some m → k.lastGantry = some g →
          v.telemetry = some (m, g, k.truncated, k.positionHeld)) ∧
        (k.lastTelemetry = none ∨ k.lastGantry = none → v.telemetry = none) ∧
        v.safety = (s.downlink.waiting.filter (fun f => f.terminal == e && f.cls == .safety)).length ∧
        v.control = (s.downlink.waiting.filter (fun f => f.terminal == e && f.cls == .control)).length ∧
        v.bulk = (s.downlink.waiting.filter (fun f => f.terminal == e && f.cls == .bulk)).length ∧
        v.watch = k.watch.map (fun w => (w.1.handle, w.2, k.reported.contains w.1)) ∧
        v.safetyInFlight = s.safetyInFlight e)) ∧
  (∀ (r : Request) (s : State) (t : Token) (e : EntryNo) (range : Option (Nat × Nat)), s.Asks .readRack r →
    readReadRack r.body = some (t, range) → s.checkToken r.ref.link t false = .passed e →
    ((s.entry e).kind ≠ some .rack →
      exec (.readRack r.ref.link) s = .next (((s.taken r).bumpAcc 4).answer r.ref .wrongState)) ∧
    (∀ (n : RackNo) (k : RackRec), (s.entry e).kind = some .rack → (s.entry e).rack = some n → s.rackRec n = some k →
      ((∃ f c : Nat, range = some (f, c) ∧ (24 ≤ f ∨ c = 0 ∨ 24 < f + c)) →
        exec (.readRack r.ref.link) s = .next (((s.taken r).bumpAcc 4).answer r.ref .badRequest)) ∧
      ((¬∃ f c : Nat, range = some (f, c) ∧ (24 ≤ f ∨ c = 0 ∨ 24 < f + c)) → ∃ v : RackView,
        exec (.readRack r.ref.link) s = .next (((s.taken r).bumpAcc 4).reply r.ref .ok (.rack v)) ∧
        v.number = n ∧ v.entry = e ∧ v.yard = (s.entry e).yard ∧ v.seg = (s.entry e).seg ∧
        v.cls = s.classOf (s.entry e).seg ∧ v.state = (s.entry e).state ∧ v.lastHeard = (s.entry e).lastHeard ∧
        v.lastReport = (s.entry e).lastReport ∧ v.silence = k.silence ∧ v.poll = k.poll ∧ v.accepted = k.accepted ∧
        v.lastAcceptance = k.lastAcceptance ∧
        v.slots = (allPlugs.filter (fun p => match range with
          | none => true
          | some (f, c) => decide (f ≤ p.val) && decide (p.val < f + c))).map (fun p => (p, s.slot n p)))))

/-! ### The coverage block -/

/-- READ COVERAGE (R64): the segments asked for, each with its class, its serving head and its cells, and nothing changed. -/
def Obligations.ReadCoverageGivesSegmentsAndCells : Prop :=
  (∀ (r : Request) (s : State) (f n : Byte), s.Asks .readCoverage r → r.body = [f, n] →
    (64 ≤ f.toNat ∨ n.toNat = 0 ∨ 64 < n.toNat ∨ 64 < f.toNat + n.toNat →
      exec (.readCoverage r.ref.link) s = .next ((s.taken r).answer r.ref .badRequest)) ∧
    (f.toNat < 64 → 1 ≤ n.toNat → f.toNat + n.toNat ≤ 64 → exec (.readCoverage r.ref.link) s =
      .next ((s.taken r).reply r.ref .ok (.coverage
        ((allSegs.filter (fun g => f.toNat ≤ g.val && g.val < f.toNat + n.toNat)).map (fun g =>
          { seg := g, cls := (s.segRec g).cls, serving := (s.segRec g).serving,
            cells := allHeads.filterMap (fun h => (s.cell h g).map (fun c =>
              { head := h, ready := (s.head h).state == .ready, cell := c })) })))))) ∧
  (∀ (r : Request) (s : State), s.Asks .readCoverage r → r.body.length ≠ 2 →
    exec (.readCoverage r.ref.link) s = .next ((s.taken r).answer r.ref .badRequest))

/-- MARK CELL (R62, R61, R83) and UNMARK CELL (R63), and what a change of the segment's class brings about (R54): COVERAGE_CHANGED at
every UP link with the TRAFFIC right, the condition of each crane on the segment derived again (R130), each rack on it held against
the new class (R152; log 32 for its POLL state). Without a change of class the cranes and racks are as they were. Where the cell was
usable the head's beams meet its loss, with BEAM_LOST at the holders of those that close (R78), beam A's first and behind what the
class calls for (the model's choice, log 12). -/
def Obligations.MarkAndUnmarkChangeOneCell : Prop :=
  let spreads := fun (s t : State) (g : SegNo) =>
    let was := (s.segRec g).cls
    let now := (t.segRec g).cls
    (∀ f : SegNo, f ≠ g → t.segRec f = s.segRec f) ∧
    (was = now → t.cranes = s.cranes ∧ t.reefer = s.reefer ∧ look t.coverage.counters 6 = look s.coverage.counters 6) ∧
    (was ≠ now →
      look t.coverage.counters 6 = satInc (look s.coverage.counters 6) ∧
      (∀ l : LinkNo, (s.link l).rights.traffic = true → (s.link l).up = true → (s.link l).noticeCount < 55 →
        (t.link l).HasNotice (.coverageChanged g was now)) ∧
      (∀ (c : CraneNo) (k : CraneRec), s.craneRec c = some k →
        ((s.entry k.entry).seg ≠ some g → t.craneRec c = some k) ∧
        ((s.entry k.entry).seg = some g → ∀ v : Condition, conditionOf (s.entry k.entry).state (some now) = some v →
          t.craneRec c = some { k with cond := v })) ∧
      (∀ (n : RackNo) (k : RackRec), s.rackRec n = some k →
        ((s.entry k.entry).seg = some g → s.RackFollows t n k now) ∧
        ((s.entry k.entry).seg ≠ some g → t.rackRec n = some k ∧ ∀ p : PlugNo, (s.slot n p).Like (t.slot n p))))
  (∀ (r : Request) (s : State) (h : HeadNo) (g : SegNo), s.Asks .markCell r → readCellBody r.body = some (h, g) →
    (s.cell h g = none → exec (.markCell r.ref.link) s = .next ((s.taken r).answer r.ref .badRequest)) ∧
    (∀ c : Cell, s.cell h g = some c → c.state = .marked →
      exec (.markCell r.ref.link) s = .next ((s.taken r).reply r.ref .ok (.cell .marked))) ∧
    (∀ c : Cell, s.cell h g = some c → c.state ≠ .marked →
      ∃ t : State, exec (.markCell r.ref.link) s = .next (t.reply r.ref .ok (.cell c.state)) ∧
        t.cell h g = some { c with state := .marked, recovery := 0 } ∧
        (∀ (i : HeadNo) (f : SegNo), (i, f) ≠ (h, g) → t.cell i f = s.cell i f) ∧
        look t.coverage.counters 7 = satInc (look s.coverage.counters 7) ∧ t.segRec g = t.chosen g ∧
        (∀ b : BeamNo, headOf b ≠ h ∨ c.state = .retired → t.beam b = s.beam b) ∧
        (∀ b : BeamNo, headOf b = h → c.state = .good ∨ c.state = .weak → (s.beam b).MeetsLoss (t.beam b) g .marked) ∧
        s.Raises t noNotices (fun l => if c.state = .good ∨ c.state = .weak then
            (beamsOf h).flatMap (fun b => if (s.beam b).seg = some g then (s.beam b).lostNow b .marked l else []) else [])
          ((t.segRec g).cls = (s.segRec g).cls) ∧
        (look s.coverage.counters 23 ≤ 65535 → look t.coverage.counters 23 = min (look s.coverage.counters 23 +
          ((beamsOf h).filter (fun b => (c.state = .good ∨ c.state = .weak) ∧ (s.beam b).seg = some g ∧
            ∃ l : LinkNo, (s.beam b).lostNow b .marked l ≠ [])).length) 65535) ∧ spreads s t g ∧
        (s.taken r).KeepsAllBut t [.links, .coverage, .beamCtl, .pool, .downlink, .cranes, .reefer])) ∧
  (∀ (r : Request) (s : State) (h : HeadNo) (g : SegNo), s.Asks .unmarkCell r → readCellBody r.body = some (h, g) →
    (s.cell h g = none → exec (.unmarkCell r.ref.link) s = .next ((s.taken r).answer r.ref .badRequest)) ∧
    (∀ c : Cell, s.cell h g = some c → c.state ≠ .marked →
      exec (.unmarkCell r.ref.link) s = .next ((s.taken r).reply r.ref .ok (.cell c.state))) ∧
    (∀ c : Cell, s.cell h g = some c → c.state = .marked →
      ∃ t : State, exec (.unmarkCell r.ref.link) s = .next (t.reply r.ref .ok (.cell .marked)) ∧
        t.cell h g = some { c with state := .weak, q := 128, recovery := 0 } ∧
        (∀ (i : HeadNo) (f : SegNo), (i, f) ≠ (h, g) → t.cell i f = s.cell i f) ∧
        look t.coverage.counters 8 = satInc (look s.coverage.counters 8) ∧ t.segRec g = t.chosen g ∧ spreads s t g ∧
        (s.taken r).KeepsAllBut t [.links, .coverage, .pool, .downlink, .cranes, .reefer]))

/-! ### Heads and beams -/

/-- OPEN (R73): the four steps in their order. -/
def Obligations.OpenIsRefusedJoinsSteersOrWaits : Prop :=
  ∀ (r : Request) (s : State) (g : SegNo) (one : Bool), s.Asks .openBeam r → readOpen r.body = some (g, one) →
    let l := r.ref.link
    let o : OpenReq := { ref := r.ref, arrival := s.clock.ms }
    let usable := ∃ (h : HeadNo) (c : Cell), s.cell h g = some c ∧ (c.state = .good ∨ c.state = .weak)
    let joins := fun b : BeamNo => one = false ∧ (s.beam b).seg = some g ∧
      ((s.beam b).state = .opened ∨ (s.beam b).state = .steering) ∧ (s.beam b).oneShot = false ∧
      (s.beam b).closePending = none ∧ (s.head (headOf b)).survey ≠ .overdue ∧ (s.beam b).releaseDeferred = false
    let steers := fun h : HeadNo => (s.head h).state = .ready ∧ (s.head h).survey = .current ∧
      ((s.beam (beamOf h .a)).state = .idle ∨ (s.beam (beamOf h .b)).state = .idle)
    (¬usable → exec (.openBeam l) s = .next ((s.taken r).answer r.ref .cellUnusable)) ∧
    (∀ b : BeamNo, usable → joins b → (∀ d : BeamNo, d < b → ¬joins d) →
      let x := s.beam b
      (x.state = .opened → exec (.openBeam l) s = .next ((((s.taken r).setBeam b
        { x with holders := put x.holders l true }).bumpCov 19).reply r.ref .ok (.opened b (headOf b) g))) ∧
      (x.state = .steering → exec (.openBeam l) s = .next (((s.taken r).setBeam b
        { x with holders := put x.holders l true, awaiting := x.awaiting ++ [o] }).bumpCov 19))) ∧
    (∀ (h : HeadNo) (before after : List HeadNo) (b : BeamNo), usable → (∀ d : BeamNo, ¬joins d) →
      s.servingOrder g = before ++ h :: after → (∀ i ∈ before, ¬steers i) → steers h →
      b = (if (s.beam (beamOf h .a)).state = .idle then beamOf h .a else beamOf h .b) →
      ∃ t : State, exec (.openBeam l) s = .next t ∧
        t.beam b = { s.beam b with
          state := .steering, seg := some g, holders := LinkSet.only l, awaiting := [o], oneShot := one } ∧
        (∀ d : BeamNo, d ≠ b → t.beam d = s.beam d) ∧ (∀ i : HeadNo, i ≠ h → t.head i = s.head i) ∧
        t.beamCtl.waitList = s.beamCtl.waitList ∧
        ((s.head h).outstanding = none → (s.head h).queue = [] → (t.head h).queue = [] ∧
          (t.head h).outstanding = some { cmd := .steer (sideOf b) g, number := (s.head h).nextNumber,
                                          sentAt := s.clock.ms, leftToFinish := false }) ∧
        ((s.head h).outstanding ≠ none → (t.head h).queue = (s.head h).queue ++ [.steer (sideOf b) g] ∧
          (t.head h).outstanding = (s.head h).outstanding) ∧
        (s.taken r).KeepsAllBut t [.coverage, .beamCtl]) ∧
    (usable → (∀ d : BeamNo, ¬joins d) → (∀ i ∈ s.servingOrder g, ¬steers i) →
      (s.beamCtl.waitList.length < 16 → exec (.openBeam l) s = .next (((s.taken r).setWaitList
        (s.beamCtl.waitList ++ [{ req := o, seg := g, oneShot := one }])).bumpCov 20)) ∧
      (16 ≤ s.beamCtl.waitList.length →
        exec (.openBeam l) s = .next (((s.taken r).bumpCov 21).answer r.ref .noBeam)))

/-- RELEASE (R77, R78): of an OPEN beam, of a STEERING one whose STEER has been sent, and of one whose STEER is still queued, which
leaves the queue and frees the beam at once for the survey that is due or the wait list (R76, R79). That the link's waiting OPENs
are answered before its own RELEASE is the model's reading (log 30). -/
def Obligations.ReleaseTakesTheLinkOffTheBeam : Prop :=
  ∀ (r : Request) (s : State) (b : BeamNo), s.Asks .release r → readBeamNo r.body = some b →
    let l := r.ref.link
    let x := s.beam b
    let mine := x.awaiting.filter (fun q => q.ref.link == l)
    let y : Beam := { x with holders := put x.holders l false, awaiting := x.awaiting.filter (fun q => q.ref.link != l) }
    let owned := x.state = .opened ∧ ∃ u : Burst, x.burst = some u ∧ u.owner = l
    (look x.holders l = false → exec (.release l) s = .next ((s.taken r).answer r.ref .notHolder)) ∧
    (look x.holders l = true → owned →
      exec (.release l) s = .next (((s.taken r).setBeam b { x with releaseDeferred := true }).answer r.ref .ok)) ∧
    (look x.holders l = true → ¬owned → (∃ m : LinkNo, look y.holders m = true) →
      exec (.release l) s = .next ((mine.foldl (fun s q => s.answer q.ref .noBeam) ((s.taken r).setBeam b y)).answer r.ref .ok)) ∧
    (look x.holders l = true → ¬owned → (∀ m : LinkNo, look y.holders m = false) →
      ∃ t : State, exec (.release l) s = .next (t.answer r.ref .ok) ∧
        (x.state = .opened ∨ (x.state = .steering ∧ (s.head (headOf b)).steerQueued (sideOf b) = false) →
          (t.beam b).state = .closing ∧ (t.beam b).seg = x.seg ∧ (t.beam b).holders = LinkSet.none ∧
          (t.beam b).awaiting = [] ∧ (t.beam b).closePending = none ∧
          ((s.head (headOf b)).outstanding ≠ none →
            (t.head (headOf b)).queue = (s.head (headOf b)).queue ++ [.release (sideOf b)])) ∧
        (x.state = .steering → (s.head (headOf b)).steerQueued (sideOf b) = true →
          let h := headOf b
          let serves := fun w : WaitEntry => ∃ c : Cell, s.cell h w.seg = some c ∧ (c.state = .good ∨ c.state = .weak)
          let current := (s.head h).state = .ready ∧ (s.head h).survey = .current
          (current → (∀ w ∈ s.beamCtl.waitList, ¬serves w) →
            t.beam b = { state := .idle, seg := none, holders := LinkSet.none, awaiting := [], oneShot := false,
                         burst := x.burst, releaseDeferred := false, closePending := none } ∧
            t.head h = { s.head h with queue := (s.head h).queue.filter (fun c => match c with
              | .steer sd _ => sd != sideOf b
              | _ => true) } ∧
            t.beamCtl.waitList = s.beamCtl.waitList ∧ t.coverage = s.coverage) ∧
          (¬current → ((t.beam b).state = .idle ∨ (t.beam b).state = .surveying) ∧ (t.beam b).seg = none ∧
            (t.beam b).holders = LinkSet.none ∧ (t.beam b).awaiting = [] ∧ t.beamCtl.waitList = s.beamCtl.waitList ∧
            ∀ g : SegNo, HeadCmd.steer (sideOf b) g ∉ (t.head h).queue) ∧
          (∀ (before after : List WaitEntry) (w : WaitEntry), current → s.beamCtl.waitList = before ++ w :: after →
            (∀ v ∈ before, ¬serves v) → serves w →
            (t.beam b).state = .steering ∧ (t.beam b).seg = some w.seg ∧ (t.beam b).oneShot = w.oneShot ∧
            look (t.beam b).holders w.req.ref.link = true ∧ (t.beam b).awaiting.head? = some w.req)) ∧
        t.links = (mine.foldl (fun s q => s.answer q.ref .noBeam) s).links ∧
        (s.taken r).KeepsAllBut t [.links, .coverage, .beamCtl])

/-- READ BEAMS (R87) and SURVEY (R82, R79). -/
def Obligations.ReadBeamsReadsAndSurveyMakesDue : Prop :=
  (∀ (r : Request) (s : State), s.Asks .readBeams r →
    (r.body ≠ [] → exec (.readBeams r.ref.link) s = .next ((s.taken r).answer r.ref .badRequest)) ∧
    (r.body = [] → ∃ (hs : List HeadView) (bs : List BeamView) (own : List WaitView),
      exec (.readBeams r.ref.link) s =
        .next ((s.taken r).reply r.ref .ok (.beams hs bs s.beamCtl.waitList.length own)) ∧
      hs = allHeads.map (fun h =>
        { state := (s.head h).state, survey := (s.head h).survey,
          dueAt := if (s.head h).state = .ready then
              some ((s.head h).reference + BitVec.ofNat 32 (s.param pSurveyPeriod * 1000),
                (s.head h).reference + BitVec.ofNat 32 (2 * (s.param pSurveyPeriod * 1000))) else none,
          outstanding := (s.head h).outstanding.map (fun o => (o.cmd, o.number)), queued := (s.head h).queue.length }) ∧
      bs = allBeams.map (fun b =>
        { state := (s.beam b).state, seg := (s.beam b).seg, holders := (s.beam b).holders,
          awaiting := (s.beam b).awaiting.length, oneShot := (s.beam b).oneShot,
          burst := (s.beam b).burst.map (fun u => (u.number, u.owner)), releaseDeferred := (s.beam b).releaseDeferred,
          closePending := (s.beam b).closePending }) ∧
      own = (s.beamCtl.waitList.filter (fun w => w.req.ref.link == r.ref.link)).map (fun w =>
        { tag := w.req.ref.tag, seg := w.seg, oneShot := w.oneShot, arrival := w.req.arrival }))) ∧
  (∀ (r : Request) (s : State) (h : HeadNo), s.Asks .survey r → readHeadNo r.body = some h →
    let x := s.head h
    ((s.head h).state = .offline → exec (.survey r.ref.link) s = .next ((s.taken r).answer r.ref .wrongState)) ∧
    (x.state = .fault → exec (.survey r.ref.link) s = .next ((s.taken r).answer r.ref .headFault)) ∧
    (x.state = .ready → x.survey ≠ .current →
      exec (.survey r.ref.link) s = .next ((s.taken r).reply r.ref .ok (.survey x.survey))) ∧
    (x.state = .ready → x.survey = .current →
      ∃ t : State, exec (.survey r.ref.link) s = .next (t.reply r.ref .ok (.survey .due)) ∧
        (t.head h).survey = .due ∧ (t.head h).reference = x.reference ∧ (t.head h).state = .ready ∧
        (let may := (s.beam (beamOf h .a)).state = .idle ∧ (s.beam (beamOf h .b)).state = .idle ∧ x.outstanding = none ∧
            x.queue = [] ∧ x.retryAt = none ∧ x.restartProbe = false
         (may → (t.beam (beamOf h .a)).state = .surveying ∧ (t.beam (beamOf h .b)).state = .surveying ∧
            (t.head h).outstanding = some { cmd := .sweep, number := x.nextNumber, sentAt := s.clock.ms,
                                            leftToFinish := false } ∧
            look t.coverage.counters 12 = satInc (look s.coverage.counters 12)) ∧
         (¬may → t.beamCtl.beams = s.beamCtl.beams ∧ t.coverage = s.coverage)) ∧
        (∀ i : HeadNo, i ≠ h → t.head i = s.head i) ∧ (s.taken r).KeepsAllBut t [.coverage, .beamCtl]))

/-- Which answer of a head matches its outstanding command (R71, R183), what an answer that does not match does, and that an answer to
a command that a warm restart left on the line only ends it (R89). That the rows of the other answers have no effect without a
match is the model's choice (logs 1, 29); that the pool compares its marks after an answer left by a restart, as at the end of every
such command, is its reading (log 13). -/
def Obligations.AnswersMatchByNumberKindAndCount : Prop :=
  (∀ (s : State) (h : HeadNo) (bytes : List Byte), readAnswer bytes = none → s.matched h bytes = none) ∧
  (∀ (s : State) (h : HeadNo) (bytes : List Byte), (s.head h).outstanding = none → s.matched h bytes = none) ∧
  (∀ (s : State) (h : HeadNo) (bytes : List Byte) (o : Outstanding) (a : Answer), readAnswer bytes = some a →
    (s.head h).outstanding = some o →
    let fits := a.number = o.number ∧ match a.kind with
      | .done => o.cmd ≠ .sweep
      | .sweepResult es => o.cmd = .sweep ∧ es.length = (s.reachSegs h).length
      | .refused => True
    (fits → s.matched h bytes = some (o, a.kind)) ∧ (¬fits → s.matched h bytes = none)) ∧
  (∀ (s : State) (h : HeadNo) (bytes : List Byte), s.matched h bytes = none →
    exec (.unmatchedAnswer h bytes) s = .next (s.bumpCov 18) ∧ exec (.steerDone h bytes) s = .next s ∧
    exec (.steerRefused h bytes) s = .next s ∧ exec (.releaseAnswered h bytes) s = .next s ∧
    exec (.sweepResult h bytes) s = .next s ∧ exec (.sweepRefused h bytes) s = .next s ∧
    exec (.probeAnswered h bytes) s = .next s) ∧
  (∀ (s : State) (h : HeadNo) (bytes : List Byte), (s.matched h bytes).isSome = true →
    exec (.unmatchedAnswer h bytes) s = .next s) ∧
  (∀ (s : State) (h : HeadNo) (bytes : List Byte) (o : Outstanding) (k : AnswerKind), s.matched h bytes = some (o, k) →
    o.leftToFinish = true →
    let t := (s.endOutstanding h).trySweep h
    (∀ (sd : Side) (g : SegNo), o.cmd = .steer sd g → k = .done → exec (.steerDone h bytes) s = .next t) ∧
    (∀ (sd : Side) (g : SegNo), o.cmd = .steer sd g → k = .refused → exec (.steerRefused h bytes) s = .next t.judge) ∧
    (∀ sd : Side, o.cmd = .release sd → exec (.releaseAnswered h bytes) s = .next t) ∧
    (∀ es : List (Option Nat), k = .sweepResult es → exec (.sweepResult h bytes) s = .next t.judge) ∧
    (o.cmd = .sweep → k = .refused → exec (.sweepRefused h bytes) s = .next t) ∧
    (o.cmd = .probe → exec (.probeAnswered h bytes) s = .next t.judge))

/-- STEER_DONE and STEER_REFUSED (R74, R78, R58). A refused steer's requests that are past the steer wait limit are answered NO_BEAM;
the others go back onto the wait list, which is in order of age, by their arrival time (ties behind those that wait, the model's
reading, log 22), and those beyond 16, the newest, are answered NO_BEAM and counted; the beam then serves the list or a sweep begins
(R76, R79). That the pool compares its marks once at the end is the model's reading (log 13), and the order of the refused sample's
notices before the replies its choice (log 12). -/
def Obligations.SteerAnswersOpenOrFreeTheBeam : Prop :=
  ∀ (h : HeadNo) (bytes : List Byte) (s : State) (o : Outstanding) (sd : Side) (g : SegNo),
    o.cmd = .steer sd g → o.leftToFinish = false →
    let b := beamOf h sd
    let x := s.beam b
    let next := match (s.head h).queue with
      | [] => none
      | c :: _ => some { cmd := c, number := (s.head h).nextNumber, sentAt := s.clock.ms, leftToFinish := false }
    (s.matched h bytes = some (o, .done) →
      (∀ f : SegNo, x.state = .steering → x.seg = some f → x.closePending = none →
        ∃ t : State, exec (.steerDone h bytes) s = .next t ∧
          (t.beam b).state = .opened ∧ (t.beam b).awaiting = [] ∧ (t.beam b).seg = some f ∧
          (∀ l : LinkNo, look x.holders l = true → look (t.beam b).holders l = true) ∧
          (t.head h).outstanding = next ∧
          t.links = ((x.awaiting.map OpenReq.ref ++
              (if x.oneShot = false ∧ (s.head h).survey ≠ .overdue ∧ x.releaseDeferred = false then
                (s.beamCtl.waitList.filter (fun w => !w.oneShot && w.seg == f)).map (fun w => w.req.ref) else [])).foldl
            (fun s q => s.reply q .ok (.opened b h f)) s).links ∧
          s.KeepsAllBut t [.links, .coverage, .beamCtl]) ∧
      (∀ v : LossReason, x.state = .steering → x.closePending = some v →
        ∃ t : State, exec (.steerDone h bytes) s = .next t ∧
          (t.beam b).state = .closing ∧ (t.beam b).awaiting = [] ∧ (t.beam b).holders = LinkSet.none ∧
          (t.beam b).seg = x.seg ∧ (t.beam b).closePending = none ∧
          (∀ f : SegNo, x.seg = some f →
            t.links = ((x.awaiting.foldl (fun s q => s.reply q.ref .ok (.opened b h f)) s).tell (fun l =>
              if look x.holders l = true then [.beamLost b (some f) v] else [])).links) ∧
          s.KeepsAllBut t [.links, .coverage, .beamCtl]) ∧
      (x.state = .closing → ∃ t : State, exec (.steerDone h bytes) s = .next t ∧
          t.beamCtl.beams = s.beamCtl.beams ∧ (t.head h).outstanding = next ∧ s.KeepsAllBut t [.coverage, .beamCtl])) ∧
    (s.matched h bytes = some (o, .refused) →
      ∃ t : State, exec (.steerRefused h bytes) s = .next t ∧
        (∀ c : Cell, s.cell h g = some c → c.state = .good ∨ c.state = .weak →
          t.cell h g = some (c.sampled 0 2) ∧ look t.coverage.counters 2 = satInc (look s.coverage.counters 2)) ∧
        (∀ c : Cell, s.cell h g = some c → c.state = .retired ∨ c.state = .marked →
          t.cell h g = some c ∧ look t.coverage.counters 3 = satInc (look s.coverage.counters 3)) ∧
        (x.state = .steering → look t.coverage.counters 10 = satInc (look s.coverage.counters 10)) ∧
        (let age := fun w : WaitEntry => elapsed s.clock.ms w.req.arrival
         let limit := s.param pWaitLimit
         let back := x.awaiting.map (fun q => ({ req := q, seg := g, oneShot := x.oneShot } : WaitEntry))
         let late := back.filter (fun w => limit ≤ age w)
         let young := back.filter (fun w => age w < limit)
         let usable := fun w : WaitEntry => ∃ c : Cell, t.cell h w.seg = some c ∧ (c.state = .good ∨ c.state = .weak)
         let current := (s.head h).state = .ready ∧ (s.head h).survey = .current
         x.state = .steering → s.beamCtl.waitList.Pairwise (fun v w => age w ≤ age v) → ∃ all : List WaitEntry,
          all.Pairwise (fun v w => age w ≤ age v) ∧
          (∀ n : Nat, all.filter (fun w => age w == n) = (s.beamCtl.waitList ++ young).filter (fun w => age w == n)) ∧
          (∃ before : LinkNo → List Notice, ∃ pool : LinkNo → List Notice, (∀ l : LinkNo, ∀ n ∈ pool l, n.ofPool = true) ∧
            ((t.segRec g).cls = (s.segRec g).cls → (∀ c : Cell, t.cell h g = some c → c.state ≠ .retired) →
              ∀ l : LinkNo, before l = []) ∧
            t.links = (((late ++ all.drop 16).foldl (fun v w => v.answer w.req.ref .noBeam) (s.tell before)).tell pool).links) ∧
          (look s.coverage.counters 21 ≤ 65535 →
            look t.coverage.counters 21 = min (look s.coverage.counters 21 + (all.drop 16).length) 65535) ∧
          (¬current ∨ (∀ w ∈ all.take 16, ¬usable w) →
            ((t.beam b).state = .idle ∨ (t.beam b).state = .surveying) ∧ (t.beam b).holders = LinkSet.none ∧
            (t.beam b).awaiting = [] ∧ (t.beam b).seg = none ∧ t.beamCtl.waitList = all.take 16) ∧
          (∀ (before after : List WaitEntry) (w : WaitEntry), current → all.take 16 = before ++ w :: after →
            (∀ v ∈ before, ¬usable v) → usable w →
            let joins := fun v : WaitEntry => !w.oneShot && !v.oneShot && v.seg == w.seg
            (t.beam b).state = .steering ∧ (t.beam b).seg = some w.seg ∧ (t.beam b).oneShot = w.oneShot ∧
            (t.beam b).awaiting = w.req :: ((before ++ after).filter joins).map WaitEntry.req ∧
            t.beamCtl.waitList = (before ++ after).filter (fun v => !joins v))) ∧
        s.KeepsAllBut t [.links, .coverage, .beamCtl, .pool, .downlink, .cranes, .reefer])

/-- RELEASE_ANSWERED (R78), SWEEP_RESULT and SWEEP_REFUSED (R81, R56). -/
def Obligations.ReleaseAndSweepAnswersFreeTheBeams : Prop :=
  ∀ (h : HeadNo) (bytes : List Byte) (s : State) (o : Outstanding), o.leftToFinish = false →
    (∀ (sd : Side) (k : AnswerKind), o.cmd = .release sd → s.matched h bytes = some (o, k) →
      (s.beam (beamOf h sd)).state = .closing →
      ∃ t : State, exec (.releaseAnswered h bytes) s = .next t ∧
        (t.beam (beamOf h sd)).state ≠ .closing ∧
        (s.beamCtl.waitList = [] → (s.head h).survey = .current →
          (t.beam (beamOf h sd)).state = .idle ∧ (t.beam (beamOf h sd)).seg = none) ∧
        (k = .refused → look t.coverage.counters 11 = satInc (look s.coverage.counters 11)) ∧
        (k ≠ .refused → look t.coverage.counters 11 = look s.coverage.counters 11) ∧
        s.KeepsAllBut t [.links, .coverage, .beamCtl]) ∧
    (∀ ms : List (Option Nat), s.matched h bytes = some (o, .sweepResult ms) →
      ∃ t : State, exec (.sweepResult h bytes) s = .next t ∧
        (t.head h).survey = .current ∧ (t.head h).reference = s.clock.ms ∧
        look t.coverage.counters 13 = satInc (look s.coverage.counters 13) ∧
        (∀ (g : SegNo) (m : Option Nat), (g, m) ∈ (s.reachSegs h).zip ms → ∀ c : Cell, s.cell h g = some c →
          t.cell h g = some (match m with
            | none => { c with sweep := none }
            | some v => match c.state with
              | .good | .weak => { c.sampled v 2 with sweep := some v }
              | .retired => { c.recovering v with sweep := some v }
              | .marked => { c with sweep := some v })) ∧
        (∀ (i : HeadNo) (g : SegNo), i ≠ h → t.cell i g = s.cell i g) ∧
        (∀ g ∈ s.reachSegs h, t.segRec g = t.chosen g) ∧
        (s.beamCtl.waitList = [] → (t.beam (beamOf h .a)).state = .idle ∧ (t.beam (beamOf h .b)).state = .idle) ∧
        s.KeepsAllBut t [.links, .coverage, .beamCtl, .pool, .downlink, .cranes, .reefer]) ∧
    (o.cmd = .sweep → s.matched h bytes = some (o, .refused) →
      ∃ t : State, exec (.sweepRefused h bytes) s = .next t ∧
        (t.head h).retryAt = some (s.clock.ms + 1000) ∧ (t.head h).survey = (s.head h).survey ∧
        look t.coverage.counters 14 = satInc (look s.coverage.counters 14) ∧ t.beamCtl.beams = s.beamCtl.beams ∧
        t.beamCtl.waitList = s.beamCtl.waitList ∧ s.KeepsAllBut t [.coverage, .beamCtl])

/-- PROBE_ANSWERED (R86, R89) and ANSWER_LIMIT_EXPIRY (R72, R85), with HEAD_STATE at the UP links that hold TRAFFIC or ADMIN (R84). A
head in FAULT has its bursts returned by force (R124), raises BEAM_LOST at the holders of its OPEN beams and answers HEAD_FAULT to
the requests that await its STEERING ones. That beam A comes before beam B, that HEAD_STATE stands behind what the changes of class
call for, and that the frames of beam B's burst stand ahead of beam A's are the model's choice (log 12); the pool's comparison once
at the end is its reading (log 13). -/
def Obligations.ProbesRecoverAHeadAndLimitsFaultIt : Prop :=
  (∀ (h : HeadNo) (bytes : List Byte) (s : State) (o : Outstanding) (k : AnswerKind), o.cmd = .probe → o.leftToFinish = false →
    s.matched h bytes = some (o, k) →
    ((s.head h).state = .fault →
      ∃ t : State, exec (.probeAnswered h bytes) s = .next t ∧
        (t.head h).state = .ready ∧ (t.head h).survey = .due ∧ (t.head h).reference = s.clock.ms ∧
        (t.head h).probeAt = none ∧ look t.coverage.counters 17 = satInc (look s.coverage.counters 17) ∧
        (∀ g ∈ s.reachSegs h, t.segRec g = t.chosen g) ∧
        s.Raises t noNotices (fun l => if (s.link l).rights.traffic = true ∨ (s.link l).rights.admin = true then
          [.headState h .ready .due] else []) (∀ g ∈ s.reachSegs h, (t.segRec g).cls = (s.segRec g).cls) ∧
        ((s.head h).queue = [] → (s.head h).retryAt = none → (s.head h).restartProbe = false →
          (t.beam (beamOf h .a)).state = .surveying ∧ (t.beam (beamOf h .b)).state = .surveying) ∧
        s.KeepsAllBut t [.links, .coverage, .beamCtl, .pool, .downlink, .cranes, .reefer]) ∧
    ((s.head h).state ≠ .fault →
      ∃ t : State, exec (.probeAnswered h bytes) s = .next t ∧
        (t.head h).state = (s.head h).state ∧ (t.head h).survey = .due ∧ (t.head h).reference = s.clock.ms ∧
        (t.head h).restartProbe = false ∧ t.coverage.segs = s.coverage.segs ∧
        s.KeepsAllBut t [.links, .coverage, .beamCtl, .pool])) ∧
  (∀ (h : HeadNo) (s : State), (s.head h).outstanding = none → exec (.answerLimitExpiry h) s = .next s) ∧
  (∀ (h : HeadNo) (s : State) (o : Outstanding), (s.head h).outstanding = some o →
    let limit := if o.cmd = .sweep then s.param pSweepLimit else s.param pSteerLimit
    (elapsed s.clock.ms o.sentAt < limit → exec (.answerLimitExpiry h) s = .next s) ∧
    (limit ≤ elapsed s.clock.ms o.sentAt → (s.head h).state = .fault →
      ∃ t : State, exec (.answerLimitExpiry h) s = .next t ∧ (t.head h).state = .fault ∧
        ((s.head h).queue = [] → (t.head h).outstanding = none) ∧ (t.head h).probeAt = (s.head h).probeAt ∧
        t.beamCtl.beams = s.beamCtl.beams ∧ s.KeepsAllBut t [.links, .coverage, .beamCtl, .pool]) ∧
    (limit ≤ elapsed s.clock.ms o.sentAt → (s.head h).state ≠ .fault →
      ∃ t : State, exec (.answerLimitExpiry h) s = .next t ∧
        (t.head h).state = .fault ∧ (t.head h).outstanding = none ∧ (t.head h).queue = [] ∧ (t.head h).retryAt = none ∧
        (t.head h).restartProbe = false ∧ (t.head h).probeAt = some (s.clock.ms + 1000) ∧
        look t.coverage.counters 15 = satInc (look s.coverage.counters 15) ∧
        (∀ b : BeamNo, headOf b = h → (t.beam b).state = .down ∧ (t.beam b).holders = LinkSet.none ∧
          (t.beam b).awaiting = [] ∧ (t.beam b).burst = none ∧ (t.beam b).seg = none) ∧
        (∀ b : BeamNo, headOf b ≠ h → t.beam b = s.beam b) ∧
        (∀ g ∈ s.reachSegs h, t.segRec g = t.chosen g) ∧
        (let quiet : Prop := ∀ g ∈ s.reachSegs h, (t.segRec g).cls = (s.segRec g).cls
         let back := fun b : BeamNo => (((s.beam b).returned s.clock.ms).filter (fun p => p.2 == .returned)).map Prod.fst
         let gone := fun b : BeamNo => (((s.beam b).returned s.clock.ms).filter (fun p => p.2 != .returned)).map Prod.fst
         let holds := fun (b : BeamNo) (l : LinkNo) => (s.beam b).state == .opened && look (s.beam b).holders l
         let told := fun (v : State) (b : BeamNo) =>
           let v := v.tell (fun l => (if holds b l then [.beamLost b (s.beam b).seg .headFault] else []) ++
             resultsAt l (toldOf ((s.beam b).returned s.clock.ms)))
           if (s.beam b).state = .steering then (s.beam b).awaiting.foldl (fun v q => v.answer q.ref .headFault) v else v
         ((beamsOf h).foldl told s).Raises t noNotices
           (fun l => if (s.link l).rights.traffic = true ∨ (s.link l).rights.admin = true then
             [.headState h .fault (s.head h).survey] else []) quiet ∧
         t.FramesFollow ((beamsOf h).reverse.flatMap back ++ s.downlink.waiting)
           (s.pool.free + framesBlocks ((beamsOf h).flatMap gone)) quiet ∧
         (look s.downlink.counters 9 ≤ 65535 → look t.downlink.counters 9 = min (look s.downlink.counters 9 +
           ((beamsOf h).filter (fun b => (s.beam b).burst.isSome)).length) 65535) ∧
         (look s.coverage.counters 23 ≤ 65535 → look t.coverage.counters 23 = min (look s.coverage.counters 23 +
           ((beamsOf h).filter (fun b => allLinks.any (holds b))).length) 65535)) ∧
        s.KeepsAllBut t [.links, .coverage, .beamCtl, .pool, .downlink, .cranes, .reefer]))

/-- The head timers and the steer wait limit (R75, R79, R80, R81, R86). When a stored time counts as reached, and that the PROBEs keep
their rhythm from the time reached, are the model's reading (log 14). A head that becomes OVERDUE closes its OPEN beams without a
burst, with BEAM_LOST at their holders (R80), beam A first (the model's choice, log 12). -/
def Obligations.HeadAndWaitTimersActWhenReached : Prop :=
  (∀ (h : HeadNo) (s : State),
    ((s.head h).state ≠ .fault ∨ (s.head h).probeAt = none ∨
        (∃ t : Time, (s.head h).probeAt = some t ∧ reached s.clock.ms t = false) → exec (.probeTime h) s = .next s) ∧
    (∀ t : Time, (s.head h).state = .fault → (s.head h).probeAt = some t → reached s.clock.ms t = true →
      ∃ u : State, exec (.probeTime h) s = .next u ∧ (u.head h).probeAt = some (t + 1000) ∧
        look u.coverage.counters 16 = satInc (look s.coverage.counters 16) ∧
        ((s.head h).outstanding = none → (s.head h).queue = [] → (u.head h).queue = [] ∧ (u.head h).outstanding =
          some { cmd := .probe, number := (s.head h).nextNumber, sentAt := s.clock.ms, leftToFinish := false }) ∧
        ((s.head h).outstanding ≠ none → (u.head h).queue = (s.head h).queue ++ [.probe] ∧
          (u.head h).outstanding = (s.head h).outstanding) ∧
        u.beamCtl.beams = s.beamCtl.beams ∧ s.KeepsAllBut u [.coverage, .beamCtl]) ∧
    ((s.head h).retryAt = none ∨ (∃ t : Time, (s.head h).retryAt = some t ∧ reached s.clock.ms t = false) →
      exec (.sweepRetryTime h) s = .next s) ∧
    (∀ t : Time, (s.head h).retryAt = some t → reached s.clock.ms t = true →
      ∃ u : State, exec (.sweepRetryTime h) s = .next u ∧ (u.head h).retryAt = none ∧
        ((s.head h).outstanding = none → (s.head h).queue = [] → (u.head h).queue = [] ∧ (u.head h).outstanding =
          some { cmd := .sweep, number := (s.head h).nextNumber, sentAt := s.clock.ms, leftToFinish := false }) ∧
        u.beamCtl.beams = s.beamCtl.beams ∧ s.KeepsAllBut u [.coverage, .beamCtl])) ∧
  (∀ (h : HeadNo) (s : State),
    let age := elapsed s.clock.ms (s.head h).reference
    let period := s.param pSurveyPeriod * 1000
    ((s.head h).state ≠ .ready ∨ age < period ∨ (s.head h).survey ≠ .current → exec (.surveyDue h) s = .next s) ∧
    ((s.head h).state = .ready → period ≤ age → (s.head h).survey = .current →
      ∃ t : State, exec (.surveyDue h) s = .next t ∧ (t.head h).survey = .due ∧
        (t.head h).reference = (s.head h).reference ∧ s.KeepsAllBut t [.coverage, .beamCtl]) ∧
    ((s.head h).state ≠ .ready ∨ age < 2 * period ∨ (s.head h).survey = .overdue →
      exec (.surveyOverdue h) s = .next s) ∧
    ((s.head h).state = .ready → 2 * period ≤ age → (s.head h).survey ≠ .overdue →
      ∃ t : State, exec (.surveyOverdue h) s = .next t ∧ (t.head h).survey = .overdue ∧
        (∀ b : BeamNo, headOf b = h → (s.beam b).state = .opened → (s.beam b).burst = none →
          t.beam b = Beam.closing (s.beam b).seg ∧ (HeadCmd.release (sideOf b) ∈ (t.head h).queue ∨
            ∃ o : Outstanding, (t.head h).outstanding = some o ∧ o.cmd = .release (sideOf b))) ∧
        (∀ l : LinkNo, t.link l = (s.link l).raiseAll ((beamsOf h).flatMap (fun b =>
          (s.beam b).lostNow b ((s.beam b).closePending.getD .survey) l))) ∧
        (look s.coverage.counters 23 ≤ 65535 → look t.coverage.counters 23 = min (look s.coverage.counters 23 +
          ((beamsOf h).filter (fun b => ∃ l : LinkNo, (s.beam b).lostNow b .survey l ≠ [])).length) 65535) ∧
        (∀ b : BeamNo, headOf b = h →
          (s.beam b).state = .steering ∨ ((s.beam b).state = .opened ∧ (s.beam b).burst ≠ none) →
          t.beam b = { s.beam b with closePending := some ((s.beam b).closePending.getD .survey) }) ∧
        (∀ b : BeamNo, headOf b ≠ h → t.beam b = s.beam b) ∧
        s.KeepsAllBut t [.links, .coverage, .beamCtl])) ∧
  (∀ (i : Fin 16) (s : State),
    (s.beamCtl.waitList[i.val]? = none → exec (.waitExpiry i) s = .next s) ∧
    (∀ w : WaitEntry, s.beamCtl.waitList[i.val]? = some w →
      (elapsed s.clock.ms w.req.arrival < s.param pWaitLimit → exec (.waitExpiry i) s = .next s) ∧
      (s.param pWaitLimit ≤ elapsed s.clock.ms w.req.arrival → exec (.waitExpiry i) s =
        .next (((s.setWaitList (s.beamCtl.waitList.erase w)).bumpCov 22).answer w.req.ref .noBeam))))

/-! ### The frame buffer pool -/

/-- TAKE (R101): deliveries leave from the front of the link's own queue, and their blocks are freed at once. -/
def Obligations.TakeRemovesDeliveriesFromTheFront : Prop :=
  (∀ (r : Request) (s : State) (n : Byte), s.Asks .take r → r.body = [n] →
    let q := look s.pool.queues r.ref.link
    let out := q.take n.toNat
    let left := q.drop n.toNat
    (n.toNat = 0 ∨ 16 < n.toNat → exec (.take r.ref.link) s = .next ((s.taken r).answer r.ref .badRequest)) ∧
    (1 ≤ n.toNat → n.toNat ≤ 16 →
      ∃ t : State, exec (.take r.ref.link) s =
          .next (t.reply r.ref .ok (.taken out left.length (deliveriesBlocks left) (s.param pQuota))) ∧
        look t.pool.queues r.ref.link = left ∧
        (∀ l : LinkNo, l ≠ r.ref.link → look t.pool.queues l = look s.pool.queues l) ∧
        t.pool.free = s.pool.free + deliveriesBlocks out ∧ t.pool.dropped = s.pool.dropped ∧
        look t.pool.counters 8 = min (look s.pool.counters 8 + out.length) 65535 ∧
        (s.taken r).KeepsAllBut t [.links, .pool])) ∧
  (∀ (r : Request) (s : State), s.Asks .take r → r.body.length ≠ 1 →
    exec (.take r.ref.link) s = .next ((s.taken r).answer r.ref .badRequest))

/-- The marks (R95, R97) and PAUSE_REPEAT (R96): when the pool's state changes, what it then holds, and at which links it raises a
notice; a notice is raised at no DOWN link (R9). When a stored time counts as reached, and that the repeats keep their rhythm from the
time reached, are the model's reading (log 14). -/
def Obligations.MarksPauseAndRepeatsFollow : Prop :=
  let raisedAtCommand := fun (s t : State) (n : Notice) =>
    ∀ l : LinkNo, t.link l = (if (s.link l).rights.command then (s.link l).raise n else s.link l)
  (∀ s : State, s.pool.paused = false → s.pool.free < s.param pPauseMark →
    s.judge.pool = { s.pool with
      paused := true, repeatsSent := 0, nextRepeat := some (s.clock.ms + 100)
      counters := bump (bump s.pool.counters 9) 10 } ∧
    raisedAtCommand s s.judge (.pause s.pool.free (s.param pPauseMark) (s.param pResumeMark) 0) ∧
    s.KeepsAllBut s.judge [.links, .pool]) ∧
  (∀ s : State, s.pool.paused = true → s.param pResumeMark < s.pool.free →
    s.judge.pool = { s.pool with
      paused := false, repeatsSent := 0, nextRepeat := none, counters := bump s.pool.counters 11 } ∧
    raisedAtCommand s s.judge (.resume s.pool.free) ∧ s.KeepsAllBut s.judge [.links, .pool]) ∧
  (∀ s : State, (s.pool.paused = false ∧ s.param pPauseMark ≤ s.pool.free) ∨
    (s.pool.paused = true ∧ s.pool.free ≤ s.param pResumeMark) → s.judge = s) ∧
  (∀ s : State, s.pool.paused = false ∨ s.pool.nextRepeat = none ∨
      (∃ t : Time, s.pool.nextRepeat = some t ∧ reached s.clock.ms t = false) →
    exec .pauseRepeat s = .next s) ∧
  (∀ (s : State) (t : Time), s.pool.paused = true → s.pool.nextRepeat = some t → reached s.clock.ms t = true →
    (s.param pPauseRepeats ≤ s.pool.repeatsSent →
      exec .pauseRepeat s = .next { s with pool := { s.pool with nextRepeat := some (t + 100) } }) ∧
    (s.pool.repeatsSent < s.param pPauseRepeats →
      ∃ u : State, exec .pauseRepeat s = .next u ∧
        u.pool = { s.pool with
          nextRepeat := some (t + 100), repeatsSent := s.pool.repeatsSent + 1, counters := bump s.pool.counters 10 } ∧
        raisedAtCommand s u
          (.pause s.pool.free (s.param pPauseMark) (s.param pResumeMark) (s.pool.repeatsSent + 1)) ∧
        s.KeepsAllBut u [.links, .pool]))

/-- What the pool admits (R93), and the four tests of a delivery copy with what each does (R99, R100). -/
def Obligations.TheReserveAndTheQuotaAdmitFramesAndCopies : Prop :=
  (∀ (p : Pool) (reserve n : Nat),
    (p.admits reserve .safety n = true ↔ n ≤ p.free) ∧
    (p.admits reserve .control n = true ↔ reserve + n ≤ p.free) ∧
    (p.admits reserve .rackCommand n = true ↔ reserve + n ≤ p.free) ∧
    (p.admits reserve .poll n = true ↔ reserve + n ≤ p.free) ∧
    (p.admits reserve .craneBulk n = true ↔ reserve + n ≤ p.free ∧ p.paused = false)) ∧
  (∀ (s : State) (l : LinkNo) (c : Content),
    let q := look s.pool.queues l
    let beyond := s.param pQuota < deliveriesBlocks q + c.blocks
    let short := s.pool.free < s.param pReserve + c.blocks
    let placed : State := { s with pool := { s.pool with
      free := s.pool.free - c.blocks
      queues := put s.pool.queues l (q ++ [{ content := c, placed := s.clock.ms, dropsBefore := look s.pool.dropped l }])
      dropped := put s.pool.dropped l 0
      counters := bump s.pool.counters 5 } }
    ((s.link l).up = false → s.offerCopy l c = s) ∧
    ((s.link l).up = true → beyond → s.offerCopy l c = { s with pool := { s.pool with
      dropped := put s.pool.dropped l (satInc (look s.pool.dropped l)), counters := bump s.pool.counters 6 } }) ∧
    ((s.link l).up = true → ¬beyond → short → s.offerCopy l c = { s with pool := { s.pool with
      dropped := put s.pool.dropped l (satInc (look s.pool.dropped l)), counters := bump s.pool.counters 7 } }) ∧
    ((s.link l).up = true → ¬beyond → ¬short → q ≠ [] → s.offerCopy l c = placed) ∧
    ((s.link l).up = true → ¬beyond → ¬short → q = [] → s.offerCopy l c = placed.raise l (.deliveryReady 1)))

/-! ### Downlink queues and bursts -/

/-- SEND, once its token has passed (R108, R93, R94, R107, R135). -/
def Obligations.SendIsRefusedOrQueued : Prop :=
  ∀ (r : Request) (s : State) (q : SendReq) (e : EntryNo) (k : Kind), s.Asks .send r → readSend r.body = some q →
    s.checkToken r.ref.link q.token true = .passed e → (s.entry e).kind = some k →
    let u := (s.taken r).bumpAcc 4
    let c : FrameClass := match k with
      | .crane => q.cls
      | .rack => .bulk
    let n := (q.payload.length + 127) / 128
    let held := (s.downlink.waiting.filter (fun f => f.terminal == e)).length +
      (s.inFlight.filter (fun f => f.terminal == e && !f.orphaned)).length
    let tooLong := match k with
      | .crane => 1024 < q.payload.length
      | .rack => 256 < q.payload.length
    let full := match k with
      | .crane => 64 ≤ held
      | .rack => 4 ≤ held
    let barred := k = .crane ∧ c = .bulk ∧ s.pool.paused = true
    let short := if c = .safety then s.pool.free < n else s.pool.free < s.param pReserve + n
    let life := max 1 (min 1000 (q.lifetime.getD 0).toNat)
    let f : Frame :=
      { handle := s.downlink.handleCount, terminal := e, cls := c, origin := some { link := r.ref.link, tag := r.ref.tag },
        accept := s.clock.ms, deadline := if c = .control then some (s.clock.ms + BitVec.ofNat 32 life) else none,
        attempts := 0, payload := q.payload, orphaned := false }
    (tooLong → exec (.send r.ref.link) s = .next ((u.bumpDown 2).answer r.ref .tooLong)) ∧
    (¬tooLong → full → exec (.send r.ref.link) s = .next ((u.bumpDown 3).answer r.ref .queueFull)) ∧
    (¬tooLong → ¬full → barred → exec (.send r.ref.link) s = .next ((u.bumpPool 3).answer r.ref .paused)) ∧
    (¬tooLong → ¬full → ¬barred → short → exec (.send r.ref.link) s = .next ((u.bumpPool 2).answer r.ref .noBuffer)) ∧
    (¬tooLong → ¬full → ¬barred → ¬short →
      ∃ t : State, exec (.send r.ref.link) s = .next (t.reply r.ref .ok (.sent f.handle c
          (if c = .control then some (life, s.clock.ms + BitVec.ofNat 32 life) else none))) ∧
        t.downlink.waiting = s.downlink.waiting ++ [f] ∧ t.downlink.handleCount = s.downlink.handleCount + 1 ∧
        t.downlink.nextBurst = s.downlink.nextBurst ∧ t.downlink.rotation = s.downlink.rotation ∧
        t.downlink.counters = bump s.downlink.counters 0 ∧ t.pool.free = s.pool.free - n ∧
        t.pool.queues = s.pool.queues ∧ look t.pool.counters 0 = satInc (look s.pool.counters 0) ∧
        look t.pool.counters 1 = (if c = .safety ∧ s.pool.free < s.param pReserve + n then
          satInc (look s.pool.counters 1) else look s.pool.counters 1) ∧
        (∀ (d : CraneNo) (x : CraneRec), s.craneRec d = some x →
          (c = .safety → x.entry = e → (∀ g ∈ s.downlink.waiting, ¬(g.terminal = e ∧ g.cls = .safety)) →
            t.craneRec d = some { x with watch := some ({ handle := f.handle, accept := f.accept }, s.clock.ms) }) ∧
          (c ≠ .safety ∨ x.entry ≠ e → t.craneRec d = some x)) ∧
        u.KeepsAllBut t [.links, .pool, .downlink, .cranes])

/-- PURGE QUEUE, once its token has passed (R113), and DEADLINE_EXPIRY (R111, R108): which waiting frames are dropped, that every
other stays as it was, and FRAME_RESULT at the originators of those dropped (R110): PURGED, class by class and each in queue order,
or EXPIRED. A frame is late once the time passed since its acceptance is at least its lifetime (log 15); the pool compares its marks
once, behind the results (log 13). -/
def Obligations.PurgeAndDeadlineDropWaitingFrames : Prop :=
  (∀ (r : Request) (s : State) (t : Token) (set : Byte) (e : EntryNo), s.Asks .purgeQueue r →
    readPurge r.body = some (t, set) → s.checkToken r.ref.link t true = .passed e →
    let gone := fun f : Frame => f.terminal == e && (match f.cls with
      | .safety => set.getLsbD 0
      | .control => set.getLsbD 1
      | .bulk => set.getLsbD 2)
    let dropped := s.downlink.waiting.filter gone
    ∃ u : State, exec (.purgeQueue r.ref.link) s = .next (u.reply r.ref .ok (.purged
        (dropped.filter (fun f => f.cls == .safety)).length (dropped.filter (fun f => f.cls == .control)).length
        (dropped.filter (fun f => f.cls == .bulk)).length)) ∧
      u.downlink.waiting = s.downlink.waiting.filter (fun f => !gone f) ∧
      u.pool.free = s.pool.free + (dropped.map (fun f => (f.payload.length + 127) / 128)).sum ∧
      s.Raises u (fun l => resultsAt l (([FrameClass.safety, .control, .bulk].flatMap (fun c =>
        dropped.filter (fun f => f.cls == c))).map (fun f => (f, .purged)))) noNotices True ∧
      (look s.downlink.counters 17 ≤ 65535 →
        look u.downlink.counters 17 = min (look s.downlink.counters 17 + dropped.length) 65535) ∧
      u.downlink.handleCount = s.downlink.handleCount ∧ u.downlink.nextBurst = s.downlink.nextBurst ∧
      u.downlink.rotation = s.downlink.rotation ∧ u.pool.queues = s.pool.queues ∧
      ((s.taken r).bumpAcc 4).KeepsAllBut u [.links, .pool, .downlink, .cranes]) ∧
  (∀ (i : FrameId) (s : State),
    let late := fun f : Frame => ({ handle := f.handle, accept := f.accept } : FrameId) == i && f.cls == .control &&
      f.deadline.any (fun d => elapsed d f.accept ≤ elapsed s.clock.ms f.accept)
    let dropped := s.downlink.waiting.filter late
    (dropped = [] → exec (.deadlineExpiry i) s = .next s) ∧
    (dropped ≠ [] → ∃ u : State, exec (.deadlineExpiry i) s = .next u ∧
      u.downlink.waiting = s.downlink.waiting.filter (fun f => !late f) ∧
      u.pool.free = s.pool.free + (dropped.map (fun f => (f.payload.length + 127) / 128)).sum ∧
      s.Raises u (fun l => resultsAt l (dropped.map (fun f => (f, .expired)))) noNotices True ∧
      (look s.downlink.counters 14 ≤ 65535 →
        look u.downlink.counters 14 = min (look s.downlink.counters 14 + dropped.length) 65535) ∧
      s.KeepsAllBut u [.links, .pool, .downlink]))

/-- FETCH (R115 to R118): the refusals in their order; and of a burst begun, its record, its limits, which frames it may hold and in
which order of classes, and that the frames only pass from waiting to in flight. The burst is the longest part from the front of
the order of R117 that the two limits allow; that order holds exactly the frames that R116 and R117 consider: the SAFETY frames in
rotation order, then the CONTROL frames by the time remaining, then the BULK frames in rounds. -/
def Obligations.FetchIsRefusedOrBeginsABurst : Prop :=
  ∀ (r : Request) (s : State) (b : BeamNo) (frames bytes : Nat), s.Asks .fetch r → readFetch r.body = some (b, frames, bytes) →
    let l := r.ref.link
    let x := s.beam b
    let holds := x.state = .opened ∧ look x.holders l = true
    let overdue := (s.head (headOf b)).survey = .overdue
    let usable := ∃ (g : SegNo) (c : Cell), x.seg = some g ∧ s.cell (headOf b) g = some c ∧ (c.state = .good ∨ c.state = .weak)
    let fl := max 1 (min 32 frames)
    let bl := max 128 (min 8192 bytes)
    let isCrane := fun f : Frame => (s.entry f.terminal).kind = some .crane
    (¬holds → exec (.fetch l) s = .next ((s.taken r).answer r.ref .notHolder)) ∧
    (holds → overdue → exec (.fetch l) s = .next ((s.taken r).answer r.ref .surveyPending)) ∧
    (holds → ¬overdue → ¬usable → exec (.fetch l) s = .next ((s.taken r).answer r.ref .cellUnusable)) ∧
    (holds → ¬overdue → usable → x.burst ≠ none → exec (.fetch l) s = .next ((s.taken r).answer r.ref .burstActive)) ∧
    (holds → ¬overdue → usable → x.burst = none →
      ∃ (t : State) (u : Burst), exec (.fetch l) s = .next (t.reply r.ref .ok (.burst u.number fl bl (u.frames.map (fun f =>
          { handle := f.handle, addr := (s.entry f.terminal).addr, cls := f.cls, attempts := f.attempts,
            payload := f.payload })))) ∧
        t.beam b = { x with burst := some u } ∧ (∀ d : BeamNo, d ≠ b → t.beam d = s.beam d) ∧
        t.beamCtl.heads = s.beamCtl.heads ∧ t.beamCtl.waitList = s.beamCtl.waitList ∧
        u.number = look s.downlink.nextBurst b ∧ u.owner = l ∧ u.start = s.clock.ms ∧
        u.frames.length ≤ fl ∧ (u.frames.map (fun f => f.payload.length)).sum ≤ bl ∧
        (∀ g : SegNo, x.seg = some g →
          let w := s.downlink.waiting
          let point := look s.downlink.rotation b
          let ts := (allEntries.filter (fun e => point < e) ++ allEntries.filter (fun e => e ≤ point)).filter (fun e =>
            (s.entry e).state != .free && (s.entry e).seg == some g)
          let crane := fun e : EntryNo => (s.entry e).kind == some .crane
          let queue := fun (e : EntryNo) (c : FrameClass) => w.filter (fun f => f.terminal == e && f.cls == c)
          let clear := fun e : EntryNo => !crane e || ((queue e .safety).isEmpty && !s.safetyInFlight e)
          let order := s.burstOrder ts
          let part := fun c : FrameClass => order.filter (fun f => f.cls == c)
          u.frames.IsPrefix order ∧
          (∀ (f : Frame) (rest : List Frame), order = u.frames ++ f :: rest →
            u.frames.length = fl ∨ bl < (u.frames.map (fun f => f.payload.length)).sum + f.payload.length) ∧
          order = part .safety ++ part .control ++ part .bulk ∧
          part .safety =
            (ts.filter (fun e => crane e && !s.safetyInFlight e)).filterMap (fun e => (queue e .safety).head?) ∧
          (∀ e : EntryNo, (part .control).filter (fun f => f.terminal == e) =
            (if e ∈ ts ∧ crane e = true ∧ clear e = true then queue e .control else [])) ∧
          (∀ (before after : List Frame) (f h : Frame), part .control = before ++ f :: after → h.terminal ≠ f.terminal →
            (after.filter (fun i => i.terminal == h.terminal)).head? = some h →
            f.remaining s.clock.ms < h.remaining s.clock.ms ∨
              (f.remaining s.clock.ms = h.remaining s.clock.ms ∧ ts.idxOf f.terminal < ts.idxOf h.terminal)) ∧
          part .bulk = (List.range w.length).flatMap (fun i => (ts.filter clear).filterMap (fun e => (queue e .bulk)[i]?))) ∧
        (u.frames ++ t.downlink.waiting).Perm s.downlink.waiting ∧ t.downlink.waiting.Sublist s.downlink.waiting ∧
        (∀ f ∈ u.frames, (s.entry f.terminal).state ≠ .free ∧ (s.entry f.terminal).seg = x.seg) ∧
        (u.frames.map (fun f => f.cls.num)).Pairwise (· ≤ ·) ∧
        (∀ f ∈ u.frames, isCrane f → s.safetyInFlight f.terminal = false) ∧
        (∀ f ∈ u.frames, isCrane f → (∃ g ∈ s.downlink.waiting, g.terminal = f.terminal ∧ g.cls = .safety) →
          f.cls = .safety) ∧
        look t.downlink.nextBurst b = u.number + 1 ∧
        (u.frames = [] → t.downlink.rotation = s.downlink.rotation) ∧
        (∀ f : Frame, u.frames.getLast? = some f → t.downlink.rotation = put s.downlink.rotation b f.terminal) ∧
        t.downlink.handleCount = s.downlink.handleCount ∧
        look t.downlink.counters 4 = satInc (look s.downlink.counters 4) ∧
        look t.downlink.counters 5 =
          (if u.frames = [] then satInc (look s.downlink.counters 5) else look s.downlink.counters 5) ∧
        (s.taken r).KeepsAllBut t [.beamCtl, .downlink, .cranes])

/-- DONE (R121) and CUT (R122): the checks in their order; the outcomes by position; and that the burst then ends (R120): the results
told to the originators in position order (R110), where frames and blocks go, what the beam controller does with the beam (R77), and
the loss that the beam's sample can bring (R57, R61, R83). Orphans count among the frames dropped (log 20). That the results come
first, then the beam's close, then what the sample brings, a class change before the loss and beam A before beam B, is the model's
choice (log 12); that the pool
compares its marks once, at the end, is its reading (log 13). The clauses on the beam say so for an OPEN one: no other has a burst in
any state with the invariant `State.beamsHeld`. -/
def Obligations.DoneAndCutEndTheBurst : Prop :=
  ∀ (c : ReqCode) (r : Request) (s : State) (b : BeamNo) (n : Byte) (outcome : Nat → FrameOutcome) (k : Fin 21),
    s.Asks c r →
    ((∃ os : List FrameOutcome, c = .done ∧ k = 6 ∧ readDone r.body = some (b, n, os) ∧
        ∀ i : Nat, outcome i = (os[i]?).getD .notSent) ∨
      (∃ ps : List (Nat × FrameOutcome), c = .cut ∧ k = 7 ∧ readCut r.body = some (b, n, ps) ∧
        (∀ p ∈ ps, outcome p.1 = p.2) ∧ ∀ i : Nat, i ∉ ps.map Prod.fst → outcome i = .notSent)) →
    let fits := fun u : Burst => (s.beam b).burst = some u ∧ u.number = n
    let count := fun (u : Burst) (o : FrameOutcome) => ((List.range u.frames.length).filter (fun i => outcome i == o)).length
    ((∀ u : Burst, ¬fits u) →
      exec (c.command r.ref.link) s = .next (((s.taken r).bumpDown 10).answer r.ref .noBurst)) ∧
    (∀ u : Burst, fits u → u.owner ≠ r.ref.link →
      exec (c.command r.ref.link) s = .next ((s.taken r).answer r.ref .notHolder)) ∧
    (∀ u : Burst, fits u → u.owner = r.ref.link →
      let fs := u.frames.zipIdx.map (fun p => settle s.clock.ms p.1 (outcome p.2))
      ∃ t : State, exec (c.command r.ref.link) s = .next (t.reply r.ref .ok (.burstEnd
          (fs.filter (fun p => p.2 == .delivered)).length (fs.filter (fun p => p.2 == .returned)).length
          (fs.filter (fun p => p.2 != .delivered && p.2 != .returned)).length)) ∧
        (t.beam b).burst = none ∧ (∀ d : BeamNo, d ≠ b → (t.beam d).burst = (s.beam d).burst) ∧
        look t.downlink.counters k = satInc (look s.downlink.counters k) ∧
        look t.downlink.counters 11 = min (look s.downlink.counters 11 + count u .sentOk) 65535 ∧
        look t.downlink.counters 12 = min (look s.downlink.counters 12 + count u .sentFailed) 65535 ∧
        look t.downlink.counters 13 = min (look s.downlink.counters 13 + count u .notSent) 65535 ∧
        (count u .sentOk = 0 → count u .sentFailed = 0 →
          t.downlink.waiting = (fs.filter (fun p => p.2 == .returned)).map Prod.fst ++ s.downlink.waiting ∧
          t.pool.free = s.pool.free + framesBlocks ((fs.filter (fun p => p.2 != .returned)).map Prod.fst) ∧
          t.coverage.cells = s.coverage.cells ∧ t.coverage.segs = s.coverage.segs) ∧
        (∀ (g : SegNo) (x : Cell), 0 < count u .sentOk + count u .sentFailed → (s.beam b).seg = some g →
          s.cell (headOf b) g = some x →
          t.cell (headOf b) g = some (if x.state = .good ∨ x.state = .weak then
            x.sampled (255 * count u .sentOk / (count u .sentOk + count u .sentFailed)) 8 else x)) ∧
        (let x := s.beam b
         let h := headOf b
         let sent := count u .sentOk + count u .sentFailed
         let quiet : Prop := ∀ g : SegNo, x.seg = some g → (t.segRec g).cls = (s.segRec g).cls
         let retires : Prop := 0 < sent ∧ ∃ (g : SegNo) (c : Cell), x.seg = some g ∧ s.cell h g = some c ∧
           (c.state = .good ∨ c.state = .weak) ∧ (c.sampled (255 * count u .sentOk / sent) 8).state = .retired
         let told := fun l : LinkNo => resultsAt l (toldOf fs) ++ x.lostAfter b u.owner l
         let lost := fun l : LinkNo => (beamsOf h).flatMap (fun d =>
           if d = b then
             if x.closesAfter u.owner = false ∧ look (x.holdersAfter u.owner) l = true then [.beamLost b x.seg .retired] else []
           else if (s.beam d).seg = x.seg then (s.beam d).lostNow d .retired l else [])
         t.FramesFollow ((fs.filter (fun p => p.2 == .returned)).map Prod.fst ++ s.downlink.waiting)
           (s.pool.free + framesBlocks ((fs.filter (fun p => p.2 != .returned)).map Prod.fst)) quiet ∧
         (x.state = .opened →
           (¬retires → s.ActsAtBurstEnd t b u.owner ∧ (∀ d : BeamNo, d ≠ b → t.beam d = s.beam d) ∧
             s.Raises t told noNotices quiet) ∧
           (retires → t.beam b = Beam.closing x.seg ∧
             (∀ (d : BeamNo) (g : SegNo), d ≠ b → headOf d = h → x.seg = some g →
               (s.beam d).MeetsLoss (t.beam d) g .retired) ∧
             (∀ d : BeamNo, headOf d ≠ h → t.beam d = s.beam d) ∧ s.Raises t told lost quiet))) ∧
        (s.taken r).KeepsAllBut t [.links, .coverage, .beamCtl, .pool, .downlink, .cranes, .reefer])

/-- What becomes of each frame of an ended burst by its outcome (R119), and BURST_LIMIT_EXPIRY (R123): every frame SENT_FAILED, no
sample; the results told to the originators in position order (R110), and then what the beam controller does with the beam (R77),
said of an OPEN one: no other has a burst in any state with the invariant `State.beamsHeld`. That a CONTROL frame is late once the
time passed since its acceptance is at least its lifetime is the model's reading (log 15), and so is that the pool compares its marks
once, at the end (log 13). -/
def Obligations.FramesOfAnEndedBurstSettle : Prop :=
  (∀ (now : Time) (f : Frame) (o : FrameOutcome),
    let late := f.cls = .control ∧ ∃ d : Time, f.deadline = some d ∧ elapsed d f.accept ≤ elapsed now f.accept
    let more : Frame := { f with attempts := f.attempts + 1 }
    (f.orphaned = true → settle now f o = (f, .orphan)) ∧
    (f.orphaned = false → settle now f .sentOk = (f, .delivered)) ∧
    (f.orphaned = false → 15 ≤ f.attempts → settle now f .sentFailed = (more, .excess)) ∧
    (f.orphaned = false → f.attempts < 15 → late → settle now f .sentFailed = (more, .expired)) ∧
    (f.orphaned = false → f.attempts < 15 → ¬late → settle now f .sentFailed = (more, .returned)) ∧
    (f.orphaned = false → late → settle now f .notSent = (f, .expired)) ∧
    (f.orphaned = false → ¬late → settle now f .notSent = (f, .returned))) ∧
  (∀ (b : BeamNo) (s : State),
    ((s.beam b).burst = none ∨ (∃ u : Burst, (s.beam b).burst = some u ∧ elapsed s.clock.ms u.start < s.param pBurstLimit) →
      exec (.burstLimitExpiry b) s = .next s) ∧
    (∀ u : Burst, (s.beam b).burst = some u → s.param pBurstLimit ≤ elapsed s.clock.ms u.start →
      let fs := u.frames.map (fun f => settle s.clock.ms f .sentFailed)
      ∃ t : State, exec (.burstLimitExpiry b) s = .next t ∧
        (t.beam b).burst = none ∧ (∀ d : BeamNo, d ≠ b → (t.beam d).burst = (s.beam d).burst) ∧
        t.downlink.waiting = (fs.filter (fun p => p.2 == .returned)).map Prod.fst ++ s.downlink.waiting ∧
        t.pool.free = s.pool.free + framesBlocks ((fs.filter (fun p => p.2 != .returned)).map Prod.fst) ∧
        look t.downlink.counters 8 = satInc (look s.downlink.counters 8) ∧
        look t.downlink.counters 12 = min (look s.downlink.counters 12 + u.frames.length) 65535 ∧
        ((s.beam b).state = .opened → s.ActsAtBurstEnd t b u.owner ∧ (∀ d : BeamNo, d ≠ b → t.beam d = s.beam d) ∧
          s.Raises t (fun l => resultsAt l (toldOf fs) ++ (s.beam b).lostAfter b u.owner l) noNotices True) ∧
        t.coverage.cells = s.coverage.cells ∧ t.coverage.segs = s.coverage.segs ∧
        s.KeepsAllBut t [.links, .coverage, .beamCtl, .pool, .downlink, .cranes]))

/-! ### Cranes and reefers -/

/-- STALL_EXPIRY (R136) and SUBSCRIBE under a token that passes (R137). -/
def Obligations.StallsAreRaisedOnceAndSubscriptionsHeld : Prop :=
  (∀ (c : CraneNo) (s : State),
    ((∀ k : CraneRec, s.craneRec c = some k → ∀ w, k.watch = some w → elapsed s.clock.ms w.2 < s.param pStallLimit) →
      exec (.stallExpiry c) s = .next s) ∧
    (∀ (k : CraneRec) (i : FrameId) (since : Time), s.craneRec c = some k → k.watch = some (i, since) →
      s.param pStallLimit ≤ elapsed s.clock.ms since →
      (i ∈ k.reported → exec (.stallExpiry c) s = .next (s.setCraneRec c (some { k with watch := none }))) ∧
      (i ∉ k.reported → ∃ t : State, exec (.stallExpiry c) s = .next t ∧
        t.craneRec c = some { k with watch := none, reported := k.reported ++ [i] } ∧
        (∀ d : CraneNo, d ≠ c → t.craneRec d = s.craneRec d) ∧ t.cranes.counters = bump s.cranes.counters 8 ∧
        (∀ l : LinkNo, t.link l = (if (s.link l).rights.traffic then
          (s.link l).raise (.safetyStall c (s.entry k.entry).seg) else s.link l)) ∧
        s.KeepsAllBut t [.links, .cranes]))) ∧
  (∀ (r : Request) (s : State) (q : Token) (on : Bool) (e : EntryNo), s.Asks .subscribe r →
    readSubscribe r.body = some (q, on) → s.checkToken r.ref.link q false = .passed e →
    ((s.entry e).kind ≠ some .crane →
      exec (.subscribe r.ref.link) s = .next (((s.taken r).bumpAcc 4).answer r.ref .wrongState)) ∧
    (∀ (c : CraneNo) (k : CraneRec), (s.entry e).kind = some .crane → (s.entry e).crane = some c → s.craneRec c = some k →
      ∃ t : State, exec (.subscribe r.ref.link) s = .next (t.reply r.ref .ok (.subscribed c k.cond (s.entry e).seg on)) ∧
        t.craneRec c = some { k with subs := put k.subs r.ref.link on } ∧
        (∀ d : CraneNo, d ≠ c → t.craneRec d = s.craneRec d) ∧
        t.cranes.counters =
          (if on = true ∧ look k.subs r.ref.link = false then bump s.cranes.counters 9
           else if on = false ∧ look k.subs r.ref.link = true then bump s.cranes.counters 10 else s.cranes.counters) ∧
        ((s.taken r).bumpAcc 4).KeepsAllBut t [.cranes]))

/-- SET INTEREST (R153), and ACKNOWLEDGE (R168) and CLEAR DOSE (R169) under a token that passes. -/
def Obligations.InterestAcknowledgeAndClearDose : Prop :=
  (∀ (r : Request) (s : State) (i : Interest), s.Asks .setInterest r → readInterest r.body = some i →
    exec (.setInterest r.ref.link) s = .next (State.reply { s.taken r with reefer := { s.reefer with
      interest := put s.reefer.interest r.ref.link i } } r.ref .ok (.interest i))) ∧
  (∀ (c : ReqCode) (r : Request) (s : State) (q : Token) (p : PlugNo) (e : EntryNo), c = .acknowledge ∨ c = .clearDose →
    s.Asks c r → readPlugReq r.body = some (q, p) → s.checkToken r.ref.link q true = .passed e →
    let u := (s.taken r).bumpAcc 4
    ((s.entry e).kind ≠ some .rack → exec (c.command r.ref.link) s = .next (u.answer r.ref .wrongState)) ∧
    (∀ (n : RackNo) (k : RackRec), (s.entry e).kind = some .rack → (s.entry e).rack = some n → s.rackRec n = some k →
      let x := s.slot n p
      (c = .acknowledge → ∃ t : State, exec (c.command r.ref.link) s = .next (t.reply r.ref .ok
          (.acknowledged n p x.grade (s.reefer.alarms.any (fun a => a.rack == n && a.plug == p)))) ∧
        t.slot n p = { x with ack := x.grade, queued := false, displaced := false } ∧
        (∀ (m : RackNo) (o : PlugNo), (m, o) ≠ (n, p) → t.slot m o = s.slot m o) ∧
        t.reefer.alarms = s.reefer.alarms.filter (fun a => !(a.rack == n && a.plug == p)) ∧
        t.reefer.racks = s.reefer.racks ∧ t.reefer.interest = s.reefer.interest ∧
        t.reefer.counters = bump s.reefer.counters 23 ∧ u.KeepsAllBut t [.reefer]) ∧
      (c = .clearDose → x.occupied = false → exec (c.command r.ref.link) s = .next (u.answer r.ref .wrongState)) ∧
      (c = .clearDose → x.occupied = true → ∃ (t : State) (y : Slot),
        exec (c.command r.ref.link) s = .next (t.reply r.ref .ok (.doseCleared x.dose y.grade)) ∧ t.slot n p = y ∧
        y = { x with
          dose := 0, residue := 0, unobserved := 0, ePrev := 0
          reasons := { x.reasons with doseWarn := false, doseAlarm := false }
          grade := y.reasons.grade, ack := (if y.grade.rank < x.ack.rank then y.grade else x.ack)
          queued := y.queued, displaced := y.displaced } ∧
        (x.queued = true → y.queued = true ∧ t.reefer.alarms = s.reefer.alarms.map (fun a =>
          if a.rack = n ∧ a.plug = p ∧ a.released = false then
            { a with grade := y.grade, dose := 0, raisedAt := if a.grade.rank < y.grade.rank then s.clock.sec else a.raisedAt }
          else a)) ∧
        (∀ (m : RackNo) (o : PlugNo), (m, o) ≠ (n, p) → ∀ z, z = s.slot m o →
          t.slot m o = { z with queued := (t.slot m o).queued, displaced := (t.slot m o).displaced }) ∧
        t.reefer.racks = s.reefer.racks ∧ t.reefer.interest = s.reefer.interest ∧
        look t.reefer.counters 24 = satInc (look s.reefer.counters 24) ∧ u.KeepsAllBut t [.links, .reefer])))

/-- The tables that give a cell's quality and state (R55, R59, R60), a crane's condition (R129) and a slot's grade (R163). -/
def Obligations.CellsConditionsAndGradesFollowTheirTables : Prop :=
  (∀ (c : Cell) (m k : Nat), c.state = .good ∨ c.state = .weak →
    let q := (c.q * (k - 1) + m + k / 2) / k
    let line := if c.state = .good then 128 else 160
    (q < 64 → c.sampled m k = { c with q := q, state := .retired, recovery := 0 }) ∧
    (64 ≤ q → q < line → c.sampled m k = { c with q := q, state := .weak }) ∧
    (64 ≤ q → line ≤ q → c.sampled m k = { c with q := q, state := .good })) ∧
  (∀ (c : Cell) (m k : Nat), c.q ≤ 255 → m ≤ 255 → 1 ≤ k → (c.sampled m k).q ≤ 255) ∧
  (∀ (c : Cell) (m : Nat), c.state = .retired →
    (m < 160 → c.recovering m = { c with recovery := 0 }) ∧
    (160 ≤ m → c.recovery = 0 → c.recovering m = { c with recovery := 1 }) ∧
    (160 ≤ m → 1 ≤ c.recovery → c.recovering m = { c with state := .good, q := m, recovery := 0 })) ∧
  (∀ g : Option SegClass, conditionOf .enrolled g = some .enrolled ∧ conditionOf .silent g = some .lost ∧
    (g = some .good → conditionOf .heard g = some .up) ∧ (g ≠ some .good → conditionOf .heard g = some .degraded)) ∧
  (∀ x : Slot,
    let alarm := x.reasons.doseAlarm = true
    let warn := x.reasons.silent = true ∨ x.reasons.unitCode = true ∨ x.reasons.doseWarn = true
    let watch := x.reasons.excursion = true ∨ x.reasons.probe = true ∨ x.reasons.dark = true ∨ x.reasons.unitOff = true
    let g : Grade := x.regraded.grade
    (alarm → g = .alarm) ∧ (¬alarm → warn → g = .warn) ∧ (¬alarm → ¬warn → watch → g = .watch) ∧
    (¬alarm → ¬warn → ¬watch → g = .noGrade) ∧
    x.regraded = { x with grade := g, ack := if g.rank < x.ack.rank then g else x.ack })

/-- What a reading does to a probe (R148), which temperature it gives (R149), its excess (R159), and the dose of an occupied slot
(R160 to R162): the trapezoid area with its residue, the gap, the saturation and the reasons; and how a reading puts these together
on its slot (R146): the flags afresh, the fields and reasons that it gives (R143, R147 to R149), a DEFROST reading of excess 0, and
one that is not usable, which leaves all that the dose arithmetic moves and EXCURSION. -/
def Obligations.ReadingsMoveProbesAndDose : Prop :=
  (∀ (x : Slot) (ps : Vector Nat 19) (now : Time) (q : Reading),
    let y := x.afterReading ps now q
    let setpoint := max (-400) (min 300 q.setpoint)
    let supply := x.supply.take q.supply
    let ret := x.ret.take q.ret
    let control := controlTemp setpoint supply ret q.supply q.ret
    let z : Slot := { x with
      plugState := q.plugState, code := q.code, setpoint := some setpoint, supply := supply, ret := ret
      temp := control.map Prod.fst
      flags := { gap := false, substituted := control.any Prod.snd, saturated := false
                 setpointClamped := decide (setpoint ≠ q.setpoint) }
      reasons := { x.reasons with
        unitOff := decide (q.plugState = .off), unitCode := decide (q.code ≠ 0)
        probe := decide (supply.health = .bad ∨ ret.health = .bad) } }
    let usable := if q.plugState = .defrost then some 0 else
      control.map (fun t => excess (look ps 12) (look ps 13) setpoint t.1)
    (∀ e : Nat, usable = some e →
      y = ((z.addExcess now (look ps 14) e).judgeExcursion (look ps 18) e).judgeDose (look ps 16) (look ps 17)) ∧
    (usable = none → y = z.judgeDose (look ps 16) (look ps 17) ∧ y.dose = x.dose ∧ y.residue = x.residue ∧
      y.ePrev = x.ePrev ∧ y.unobserved = x.unobserved ∧ y.inBand = x.inBand ∧ y.lastUsable = x.lastUsable ∧
      y.reasons.excursion = x.reasons.excursion)) ∧
  (∀ (p : Probe) (v : Int),
    p.take none = p ∧
    (-500 ≤ v → v ≤ 500 → p.take (some v) =
      { health := if p.valid + 1 < 3 then p.health else .good, invalid := 0, valid := min 3 (p.valid + 1) }) ∧
    (v < -500 ∨ 500 < v → p.take (some v) =
      { health := if p.invalid + 1 < 2 then p.health else .bad, invalid := min 2 (p.invalid + 1), valid := 0 })) ∧
  (∀ (setpoint : Int) (supply ret : Probe) (v w : Option Int),
    let control := if setpoint < -100 then ret else supply
    let own := if setpoint < -100 then w else v
    let other := if setpoint < -100 then v else w
    let usable := fun (o : Option Int) (t : Int) => o = some t ∧ -500 ≤ t ∧ t ≤ 500
    (∀ t : Int, control.health = .good → usable own t → controlTemp setpoint supply ret v w = some (t, false)) ∧
    (∀ t : Int, (control.health = .bad ∨ ∀ z, ¬usable own z) → usable other t →
      controlTemp setpoint supply ret v w = some (t, true)) ∧
    ((control.health = .bad ∨ ∀ z, ¬usable own z) → (∀ z, ¬usable other z) →
      controlTemp setpoint supply ret v w = none)) ∧
  (∀ (chilled frozenBand : Nat) (setpoint temp : Int),
    (-100 ≤ setpoint → (excess chilled frozenBand setpoint temp : Int) =
      min 600 (max 0 (max (temp - setpoint) (setpoint - temp) - chilled))) ∧
    (setpoint < -100 → (excess chilled frozenBand setpoint temp : Int) =
      min 600 (max 0 (temp - setpoint - frozenBand)))) ∧
  (∀ (x : Slot) (now : Time) (maxGap e : Nat),
    (x.lastUsable = none → x.addExcess now maxGap e = { x with ePrev := e, lastUsable := some now }) ∧
    (∀ since : Time, x.lastUsable = some since →
      let t := elapsed now since
      let area := (x.ePrev + e) * min t maxGap
      let d := x.dose + (x.residue + area) / 120
      let y := x.addExcess now maxGap e
      y.ePrev = e ∧ y.lastUsable = some now ∧
      (t ≤ maxGap → y.unobserved = min x.unobserved 4294967295 ∧ y.flags.gap = x.flags.gap) ∧
      (maxGap < t → y.unobserved = min (x.unobserved + (t - maxGap)) 4294967295 ∧ y.flags.gap = true) ∧
      (d < 1000000 → y.dose = d ∧ y.residue = (x.residue + area) % 120 ∧ y.flags.saturated = x.flags.saturated) ∧
      (1000000 ≤ d → y.dose = 1000000 ∧ y.residue = 0 ∧ y.flags.saturated = true) ∧ y.reasons = x.reasons)) ∧
  (∀ (x : Slot) (clear e : Nat),
    (0 < e → x.judgeExcursion clear e = { x with inBand := 0, reasons := { x.reasons with excursion := true } }) ∧
    (e = 0 → clear ≤ min 10 (x.inBand + 1) →
      x.judgeExcursion clear e = { x with inBand := min 10 (x.inBand + 1), reasons := { x.reasons with excursion := false } }) ∧
    (e = 0 → min 10 (x.inBand + 1) < clear → x.judgeExcursion clear e = { x with inBand := min 10 (x.inBand + 1) })) ∧
  (∀ (x : Slot) (warn alarm : Nat), x.judgeDose warn alarm = { x with
    reasons := { x.reasons with doseWarn := decide (warn ≤ x.dose), doseAlarm := decide (alarm ≤ x.dose) } })

/-- What the alarm queue does with a slot whose grade has just been derived (R165, R166): a queued slot, a displaced one, an arrival
with and without room; and that a derivation writes what the queue says and raises ALARM_RAISED where it says so. -/
def Obligations.TheAlarmQueueTakesGrades : Prop :=
  (∀ (as : List AlarmRec) (x : Slot) (r : RackNo) (p : PlugNo) (now : Time) (reading : Bool),
    let k := consult as x r p now reading
    let calls := 2 ≤ x.grade.rank ∧ x.ack.rank < x.grade.rank
    let fresh : AlarmRec := { rack := r, plug := p, grade := x.grade, dose := x.dose, raisedAt := now, released := false }
    let shown : Slot := { x with queued := true, displaced := false }
    let rest := as.filter (fun a => !(a.rack == r && a.plug == p && a.released))
    (x.queued = true →
      k.slot = x ∧ k.placed = false ∧ k.displacement = none ∧
      k.alarms = as.map (fun a => if a.rack = r ∧ a.plug = p ∧ a.released = false then
        { a with grade := x.grade, dose := x.dose, raisedAt := if a.grade.rank < x.grade.rank then now else a.raisedAt }
        else a) ∧
      (k.raised = true ↔
        ∃ a ∈ as, a.rack = r ∧ a.plug = p ∧ a.released = false ∧ a.grade.rank < x.grade.rank)) ∧
    (x.queued = false → x.displaced = true → reading = false → k = { alarms := as, slot := x }) ∧
    (x.queued = false → x.displaced = true → reading = true → ¬calls →
      k = { alarms := as, slot := { x with displaced := false } }) ∧
    (x.queued = false → x.displaced = true → reading = true → calls → as.length < 256 →
      k = { alarms := as ++ [fresh], slot := shown, raised := true, placed := true }) ∧
    (x.queued = false → x.displaced = true → reading = true → calls → 256 ≤ as.length → k = { alarms := as, slot := x }) ∧
    (x.queued = false → x.displaced = false → ¬calls → k = { alarms := as, slot := x }) ∧
    (x.queued = false → x.displaced = false → calls → rest.length < 256 →
      k = { alarms := rest ++ [fresh], slot := shown, raised := true, placed := true }) ∧
    (x.queued = false → x.displaced = false → calls → 256 ≤ rest.length →
      (∀ (before after : List AlarmRec) (a : AlarmRec), rest = before ++ a :: after → a.grade.rank < x.grade.rank →
        (∀ c ∈ before, a.grade.rank < c.grade.rank) → (∀ c ∈ after, a.grade.rank ≤ c.grade.rank) →
        k = { alarms := before ++ after ++ [fresh], slot := shown, raised := true, placed := true, displacement := some a }) ∧
      ((∀ a ∈ rest, x.grade.rank ≤ a.grade.rank) →
        k = { alarms := rest, slot := { x with displaced := true }, dropped := true }))) ∧
  (∀ (s : State) (r : RackNo) (p : PlugNo) (reading : Bool),
    let k := consult s.reefer.alarms (s.slot r p).regraded r p s.clock.sec reading
    let t := s.regrade r p reading
    t.reefer.alarms = k.alarms ∧
    (k.displacement = none → t.slot r p = k.slot) ∧
    (∀ a : AlarmRec, k.displacement = some a → (a.rack, a.plug) ≠ (r, p) → t.slot r p = k.slot ∧
      t.slot a.rack a.plug = (if a.released then s.slot a.rack a.plug else
        { s.slot a.rack a.plug with queued := false, displaced := true }) ∧
      look t.reefer.counters 20 = satInc (look s.reefer.counters 20)) ∧
    (k.raised = false → t.links = s.links) ∧
    (k.raised = true → look t.reefer.counters 18 = satInc (look s.reefer.counters 18) ∧
      ∀ l : LinkNo, t.link l = (if s.covers l r = true ∨ (look s.reefer.interest l).allAlarms = true then
        (s.link l).raise (.alarmRaised r p (t.slot r p).grade (t.slot r p).dose (t.slot r p).reasons) else s.link l)) ∧
    s.KeepsAllBut t [.links, .reefer])

/-! ### The settings unit -/

/-- TUNE (R174): the ranges, the clamping, the dependent raises, the pairs in list order, and the reply. -/
def Obligations.TuneClampsAndRaises : Prop :=
  (∀ ps : Vector Nat 19, (List.finRange 19).map (paramRange ps) =
    [(2, 50), (20, 500), (1, 60), (5, 500), (10, 1000), (50, 2000), (5, 200), (64, 2048), (look ps 7 + 64, 3072), (0, 15),
     (32, 256), (64, 2048), (5, 100), (5, 100), (60, 3600), (300, 7200), (10, 100000), (look ps 16 + 10, 500000), (1, 10)]) ∧
  (∀ body : List Byte, (∀ b ∈ body.head?, b.toNat = 0 ∨ 19 < b.toNat) → readTune body = none) ∧
  (∀ (n : Byte) (rest : List Byte), 19 ≤ n.toNat → readTune (1 :: n :: rest) = none) ∧
  (∀ (r : Request) (s : State) (ps : List (Fin 19 × Nat)), s.Asks .tune r → readTune r.body = some ps →
    ∃ (t : State) (applied raised : List (Fin 19 × Nat)),
      exec (.tune r.ref.link) s = .next (t.reply r.ref .ok (.tuned applied raised)) ∧
      applied.map Prod.fst = ps.map Prod.fst ∧
      t.settings.params = ps.foldl (fun v q => (applyPair v q.1 q.2).1) s.settings.params ∧
      look t.settings.counters 4 = satInc (look s.settings.counters 4) ∧
      t.settings.mem = s.settings.mem ∧ t.settings.store = s.settings.store ∧ t.settings.newest = s.settings.newest ∧
      t.settings.source = s.settings.source ∧ t.settings.restart = s.settings.restart ∧
      (∀ (i : Fin 19) (v : Nat), ps = [(i, v)] →
        let lo := (paramRange s.settings.params i).1
        let hi := (paramRange s.settings.params i).2
        let w := if v < lo then lo else if hi < v then hi else v
        let least := fun j : Fin 19 => if i = 7 ∧ j = 8 then w + 64 else if i = 16 ∧ j = 17 then w + 10 else 0
        applied = [(i, w)] ∧ t.param i = w ∧ (∀ j : Fin 19, j ≠ i → t.param j = max (s.param j) (least j)) ∧
        (∀ (j : Fin 19) (x : Nat), (j, x) ∈ raised ↔ j ≠ i ∧ s.param j < least j ∧ x = least j) ∧
        look t.settings.counters 5 = (if v = w then look s.settings.counters 5 else satInc (look s.settings.counters 5))) ∧
      (s.taken r).KeepsAllBut t
        [.links, .registry, .coverage, .beamCtl, .pool, .downlink, .cranes, .reefer, .settings])

/-- STORE SETTINGS and the end of its write (R175, R184): the snapshot, the area and the generation; the outcome. The snapshot reads
back as the load reads it: the link rows, the head rows, the parameters, and the MARKED cells in ascending head and segment order;
that the reach windows in force fit is the invariant `State.reachFits`. What the area then
holds is the event's operand (log 8); a write ends within 250 ms or at the timeout (log 30). -/
def Obligations.StoresWriteASnapshotToTheOtherArea : Prop :=
  (∀ (r : Request) (s : State) (links : Option (List (Fin 16 × Rights))) (heads : Option (List (Option Reach))),
    s.Asks .storeSettings r → readStore r.body = some (links, heads) →
    (s.settings.store ≠ none →
      exec (.storeSettings r.ref.link) s = .next (((s.taken r).bumpSet 8).answer r.ref .busy)) ∧
    (s.settings.store = none → ∃ j : StoreJob,
      exec (.storeSettings r.ref.link) s = .next { s.taken r with settings := { s.settings with store := some j } } ∧
      j.ref = r.ref ∧ j.startedAt = s.clock.ms ∧
      (s.settings.newest = none → j.area = .a ∧ j.generation = 1) ∧
      (∀ g : Word, s.settings.newest = some (.a, g) → j.area = .b ∧ j.generation = g + 1) ∧
      (∀ g : Word, s.settings.newest = some (.b, g) → j.area = .a ∧ j.generation = g + 1) ∧
      j.image.length = 1024 ∧ wordAt j.image 4 = j.generation ∧
      (∀ l : LinkNo, links = none → loadLink j.image l = (((s.link l).ax, (s.link l).rights), 0)) ∧
      (∀ (l : LinkNo) (v : List (Fin 16 × Rights)) (x : Fin 16 × Rights), links = some v → v[l.val]? = some x →
        loadLink j.image l = (x, 0)) ∧
      (∀ h : HeadNo, heads = none → s.reachFits → loadHead j.image h = (look s.coverage.reach h, 0)) ∧
      (∀ (h : HeadNo) (v : List (Option Reach)) (x : Option Reach), heads = some v → v[h.val]? = some x →
        loadHead j.image h = (x, 0)) ∧
      (∀ i : Fin 19, wordAt j.image (52 + 4 * i.val) = BitVec.ofNat 32 (s.param i)) ∧
      ∃ ms : List (HeadNo × SegNo),
        (∀ (h : HeadNo) (g : SegNo), (h, g) ∈ ms ↔ ∃ c : Cell, s.cell h g = some c ∧ c.state = .marked) ∧
        ms.Pairwise (fun a b => a.1 < b.1 ∨ (a.1 = b.1 ∧ a.2 < b.2)) ∧
        (ms.length ≤ 192 → copySound j.image = true ∧ markCount j.image = ms.length ∧
          ∀ (i : Nat) (m : HeadNo × SegNo), ms[i]? = some m → j.image[129 + 2 * i]? = some (BitVec.ofNat 8 m.1.val) ∧
            j.image[130 + 2 * i]? = some (BitVec.ofNat 8 m.2.val)))) ∧
  (∀ (failed : Bool) (contents : List Byte) (s : State), (s.settings.store = none →
    exec (.storeWriteEnd failed contents) s = .next s ∧ exec (.storeWriteTimeout contents) s = .next s)) ∧
  (∀ (failed : Bool) (contents : List Byte) (s : State) (j : StoreJob), s.memoryCanonical → contents.length = 1024 →
    s.settings.store = some j →
    let written := fun t : State => t.settings.store = none ∧ Memory.area t.settings.mem j.area = contents ∧
      (∀ v : Area, v ≠ j.area → Memory.area t.settings.mem v = Memory.area s.settings.mem v) ∧
      t.settings.params = s.settings.params ∧ t.settings.source = s.settings.source ∧
      t.settings.restart = s.settings.restart ∧ s.KeepsAllBut t [.settings]
    (250 < elapsed s.clock.ms j.startedAt → exec (.storeWriteEnd failed contents) s = .next s) ∧
    (elapsed s.clock.ms j.startedAt < 250 → exec (.storeWriteTimeout contents) s = .next s) ∧
    (elapsed s.clock.ms j.startedAt ≤ 250 → failed = false → contents = j.image →
      ∃ t : State, exec (.storeWriteEnd failed contents) s = .next (t.reply j.ref .ok (.stored j.area j.generation)) ∧
        written t ∧ t.settings.newest = some (j.area, j.generation) ∧ t.settings.counters = bump s.settings.counters 6) ∧
    (elapsed s.clock.ms j.startedAt ≤ 250 → failed = true ∨ contents ≠ j.image →
      ∃ t : State, exec (.storeWriteEnd failed contents) s = .next (t.answer j.ref .writeFailed) ∧
        written t ∧ t.settings.newest = s.settings.newest ∧ t.settings.counters = bump s.settings.counters 7) ∧
    (250 ≤ elapsed s.clock.ms j.startedAt →
      ∃ t : State, exec (.storeWriteTimeout contents) s = .next (t.answer j.ref .writeFailed) ∧
        written t ∧ t.settings.newest = s.settings.newest ∧ t.settings.counters = bump s.settings.counters 7))

/-- RESTART (R176): what each unit clears and what it keeps (R16, R33, R48, R66, R89, R104, R126, R140, R157), and RESTART_ANSWER. That
requests handed on and not yet taken are dropped is the model's reading (log 27), and so is that a rack whose withdrawal the
downlink queue block has dealt with is queued no POLL (log 17). -/
def Obligations.RestartClearsTrafficAndKeepsTheRest : Prop :=
  (∀ (r : Request) (s : State), s.Asks .restart r → r.body = [] → s.settings.restart ≠ none →
    exec (.restart r.ref.link) s = .next (((s.taken r).bumpSet 10).answer r.ref .busy)) ∧
  (∀ (r : Request) (s : State), s.Asks .restart r → r.body = [] → s.settings.restart = none →
    ∃ t : State, exec (.restart r.ref.link) s = .next t ∧
      t.settings = { s.settings with restart := some r.ref, counters := bump s.settings.counters 9 } ∧ t.handed = [] ∧
      (s.paramsInRange → ∀ l : LinkNo,
        let k := s.link l
        let own := fun w : Byte × Nat => decide (l = r.ref.link ∧ w.2 = r.ref.serial)
        (k.sending = false ∨ k.outQ = [] →
          t.link l = { k with window := k.window.filter own, refusal := none, outQ := [], lost := 0 }) ∧
        (∀ (n : Notice) (x : Nat) (q : List Msg), k.sending = true → k.outQ = .notice n x :: q →
          t.link l = { k with window := k.window.filter own, refusal := none, outQ := [.notice n x], lost := 0 }) ∧
        (∀ (p : Reply) (q : List Msg), k.sending = true → k.outQ = .reply p :: q →
          t.link l = { k with
            window := k.window.filter (fun w => own w || p.serial == some w.2)
            refusal := if p.serial = none then k.refusal else none
            outQ := [.reply p], lost := 0 })) ∧
      (∀ e : EntryNo, t.entry e = { s.entry e with
        silenceFrom := (if (s.entry e).state = .heard then
          (if (s.entry e).kind = some .rack then s.clock.sec else s.clock.ms) else (s.entry e).silenceFrom)
        lastReport := (if (s.entry e).kind = some .rack then none else (s.entry e).lastReport) }) ∧
      t.registry.addrMap = s.registry.addrMap ∧ t.registry.unknowns = s.registry.unknowns ∧
      t.registry.craneCount = s.registry.craneCount ∧ t.registry.rackCount = s.registry.rackCount ∧
      t.registry.counters = s.registry.counters ∧ t.beamCtl.waitList = [] ∧
      (∀ b : BeamNo, (t.beam b).burst = none ∧ ((s.beam b).state = .down → (t.beam b).state = .down) ∧
        ((s.beam b).state ≠ .down → t.beam b =
          { state := .idle, seg := none, holders := LinkSet.none, awaiting := [], oneShot := false, burst := none,
            releaseDeferred := false, closePending := none })) ∧
      (∀ h : HeadNo,
        ((s.head h).state = .offline → t.head h = s.head h) ∧
        ((s.head h).state = .fault → t.head h = { s.head h with queue := [], retryAt := none }) ∧
        ((s.head h).state = .ready → (t.head h).state = .ready ∧ (t.head h).survey = .due ∧
          (t.head h).restartProbe = true ∧ (t.head h).retryAt = none ∧
          ((s.head h).outstanding = none → (t.head h).queue = [] ∧ (t.head h).outstanding =
            some { cmd := .probe, number := (s.head h).nextNumber, sentAt := s.clock.ms, leftToFinish := false }) ∧
          (∀ o : Outstanding, (s.head h).outstanding = some o → (t.head h).queue = [.probe] ∧
            (t.head h).outstanding = some { o with leftToFinish := true }))) ∧
      (∀ l : LinkNo, look t.pool.queues l = [] ∧ look t.pool.dropped l = 0) ∧
      (s.paramsInRange → t.pool.paused = false ∧ t.pool.nextRepeat = none ∧ t.pool.repeatsSent = 0) ∧
      t.pool.free + framesBlocks t.downlink.waiting = 4096 ∧
      (∀ f ∈ t.downlink.waiting, f.origin = none ∧ f.cls = .bulk ∧ f.attempts = 0 ∧ f.accept = s.clock.ms ∧
        ∃ (n : RackNo) (k : RackRec), s.rackRec n = some k ∧ k.silence = .silent ∧ k.entry = f.terminal) ∧
      t.downlink.nextBurst = s.downlink.nextBurst ∧ t.downlink.rotation = s.downlink.rotation ∧
      (∀ c : CraneNo, t.craneRec c = (s.craneRec c).map (fun k => { k with watch := none, reported := [] })) ∧
      t.cranes.counters = s.cranes.counters ∧
      (∀ (n : RackNo) (k : RackRec), s.rackRec n = some k → ∃ p : PollState, t.rackRec n = some { k with poll := p } ∧
        (k.silence = .notSilent → p = k.poll) ∧ (k.silence = .dark → p = .noPoll) ∧
        (k.silence = .silent → p ≠ .noPoll ∧ (p = .queued → ∃ f ∈ t.downlink.waiting, f.terminal = k.entry) ∧
          (s.hasQueues k.entry = false → p = .notQueued))) ∧
      t.reefer.slots = s.reefer.slots ∧ t.reefer.alarms = s.reefer.alarms ∧ t.reefer.interest = s.reefer.interest ∧
      (s.taken r).KeepsAllBut t
        [.links, .handed, .registry, .beamCtl, .pool, .downlink, .cranes, .reefer, .settings]) ∧
  (∀ s : State, s.settings.restart = none → exec .restartAnswer s = .next s) ∧
  (∀ (s : State) (r : ReqRef), s.settings.restart = some r →
    ∃ t : State, exec .restartAnswer s = .next t ∧ t.settings = { s.settings with restart := none } ∧
      t.link r.link = (s.link r.link).reply r .ok (.times s.clock.ms s.clock.sec) ∧
      (∀ l : LinkNo, l ≠ r.link →
        t.link l = (s.link l).raise (.restarted s.clock.ms s.clock.sec s.settings.source r.link)) ∧
      s.KeepsAllBut t [.links, .settings])

/-! ### Invariants that every step keeps -/

/-- Every step keeps the links' bounds (R1, R5, R8, R9: an outgoing queue of at most 64 messages, at most 9 of them replies and 55
notices), with each request answered once at most (R7), the settings memory's form (log 8) and every parameter in its range
(R174). -/
def Obligations.StepsKeepLinksMemoryAndRanges : Prop :=
  ∀ s t : State, step s = .next t →
    (s.linksSound → t.linksSound) ∧ (s.memoryCanonical → t.memoryCanonical) ∧ (s.paramsInRange → t.paramsInRange)

/-- Every step keeps the sum of the pool's blocks at 4,096 (R92). -/
def Obligations.StepsKeepThePoolAccounted : Prop :=
  ∀ s t : State, s.poolAccounted → step s = .next t → t.poolAccounted

/-- Every step keeps each slot's numbers in their ranges, and a dose decreases only by CLEAR DOSE, a release (an EMPTY reading, which a
DELIVER brings), the withdrawal of the rack or a pin reset (R143, R161). -/
def Obligations.StepsKeepSlotsBoundedAndDosesRising : Prop :=
  (∀ s t : State, s.slotsBounded → step s = .next t → t.slotsBounded) ∧
  (∀ (c : Instr) (s t : State) (r : RackNo) (p : PlugNo), s.slotsBounded → exec c s = .next t →
    (t.slot r p).dose < (s.slot r p).dose →
    c = .pinReset ∨ (∃ l : LinkNo, c = .clearDose l) ∨ (∃ l : LinkNo, c = .deliver l) ∨
      ∃ e : EntryNo, c = .reeferWithdrawal e ∧ (s.entry e).rack = some r)

/-- Every step keeps the alarm queue and the slots' flags in agreement (R164). -/
def Obligations.StepsKeepAlarmsAgreeing : Prop :=
  ∀ s t : State, s.alarmsAgree → step s = .next t → t.alarmsAgree

/-- Every step keeps the registry's map, counts and numbers in agreement with its entries (R18, R21, R22, R29), and frames waiting or
flying, orphans apart, only for terminals that have queues (R20, R22; log 17). -/
def Obligations.StepsKeepTheRegistryAgreeing : Prop :=
  ∀ s t : State, step s = .next t →
    (s.registryAgrees → t.registryAgrees) ∧ (s.framesHaveTerminals → t.framesHaveTerminals)

/-- Every step keeps each segment's record at what its cells give (R51 to R53), and the reach windows within R51's limits (R173). -/
def Obligations.StepsKeepSegmentsFollowingCells : Prop :=
  ∀ s t : State, step s = .next t → (s.segmentsFollow → t.segmentsFollow) ∧ (s.reachFits → t.reachFits)

/-- Every step keeps at most one SAFETY frame of a terminal in flight (R117). -/
def Obligations.StepsKeepOneSafetyInFlight : Prop :=
  ∀ s t : State, s.oneSafety → step s = .next t → t.oneSafety

/-- Every step keeps the agreement of beams with their holders, bursts and heads (R68, R69, R70, R77, R78, R79, R85). -/
def Obligations.StepsKeepBeamsHeld : Prop :=
  ∀ s t : State, s.beamsHeld → step s = .next t → t.beamsHeld

/-- The state after a pin reset has every invariant. What the settings and the heads hold before the load ends is the model's choice
(log 7). -/
def Obligations.TheResetStateHasEveryInvariant : Prop :=
  State.reset.linksSound ∧ State.reset.memoryCanonical ∧ State.reset.paramsInRange ∧ State.reset.poolAccounted ∧
  State.reset.slotsBounded ∧ State.reset.alarmsAgree ∧ State.reset.registryAgrees ∧ State.reset.segmentsFollow ∧
  State.reset.oneSafety ∧ State.reset.beamsHeld ∧ State.reset.framesHaveTerminals ∧ State.reset.reachFits
end

