-- ==== Sys2Proof/Laws/State.lean ====
section
/-! SUPPORT. The field lemmas of State: for each elementary update, what every field of the state is after it, all by rfl, so
that no later proof unfolds a record update; and what reading a table gives after writing it. -/

namespace Sys2Proof.Machine

@[simp] theorem State.bumpReg_frame (s : State) (k : Fin 12) :
    (s.bumpReg k).clock = s.clock ∧ (s.bumpReg k).links = s.links ∧ (s.bumpReg k).handed = s.handed ∧
    (s.bumpReg k).access = s.access ∧ (s.bumpReg k).coverage = s.coverage ∧ (s.bumpReg k).beamCtl = s.beamCtl ∧
    (s.bumpReg k).pool = s.pool ∧ (s.bumpReg k).downlink = s.downlink ∧ (s.bumpReg k).cranes = s.cranes ∧
    (s.bumpReg k).reefer = s.reefer ∧ (s.bumpReg k).settings = s.settings ∧ (s.bumpReg k).pending = s.pending := by
  refine ⟨rfl, rfl, rfl, rfl, rfl, rfl, rfl, rfl, rfl, rfl, rfl, rfl⟩

@[simp] theorem State.bumpAcc_frame (s : State) (k : Fin 12) :
    (s.bumpAcc k).clock = s.clock ∧ (s.bumpAcc k).links = s.links ∧ (s.bumpAcc k).handed = s.handed ∧
    (s.bumpAcc k).registry = s.registry ∧ (s.bumpAcc k).coverage = s.coverage ∧ (s.bumpAcc k).beamCtl = s.beamCtl ∧
    (s.bumpAcc k).pool = s.pool ∧ (s.bumpAcc k).downlink = s.downlink ∧ (s.bumpAcc k).cranes = s.cranes ∧
    (s.bumpAcc k).reefer = s.reefer ∧ (s.bumpAcc k).settings = s.settings ∧ (s.bumpAcc k).pending = s.pending := by
  refine ⟨rfl, rfl, rfl, rfl, rfl, rfl, rfl, rfl, rfl, rfl, rfl, rfl⟩

@[simp] theorem State.bumpCov_frame (s : State) (k : Fin 24) :
    (s.bumpCov k).clock = s.clock ∧ (s.bumpCov k).links = s.links ∧ (s.bumpCov k).handed = s.handed ∧
    (s.bumpCov k).registry = s.registry ∧ (s.bumpCov k).access = s.access ∧ (s.bumpCov k).beamCtl = s.beamCtl ∧
    (s.bumpCov k).pool = s.pool ∧ (s.bumpCov k).downlink = s.downlink ∧ (s.bumpCov k).cranes = s.cranes ∧
    (s.bumpCov k).reefer = s.reefer ∧ (s.bumpCov k).settings = s.settings ∧ (s.bumpCov k).pending = s.pending := by
  refine ⟨rfl, rfl, rfl, rfl, rfl, rfl, rfl, rfl, rfl, rfl, rfl, rfl⟩

@[simp] theorem State.bumpPool_frame (s : State) (k : Fin 13) :
    (s.bumpPool k).clock = s.clock ∧ (s.bumpPool k).links = s.links ∧ (s.bumpPool k).handed = s.handed ∧
    (s.bumpPool k).registry = s.registry ∧ (s.bumpPool k).access = s.access ∧
    (s.bumpPool k).coverage = s.coverage ∧ (s.bumpPool k).beamCtl = s.beamCtl ∧
    (s.bumpPool k).downlink = s.downlink ∧ (s.bumpPool k).cranes = s.cranes ∧ (s.bumpPool k).reefer = s.reefer ∧
    (s.bumpPool k).settings = s.settings ∧ (s.bumpPool k).pending = s.pending := by
  refine ⟨rfl, rfl, rfl, rfl, rfl, rfl, rfl, rfl, rfl, rfl, rfl, rfl⟩

@[simp] theorem State.bumpDown_frame (s : State) (k : Fin 21) :
    (s.bumpDown k).clock = s.clock ∧ (s.bumpDown k).links = s.links ∧ (s.bumpDown k).handed = s.handed ∧
    (s.bumpDown k).registry = s.registry ∧ (s.bumpDown k).access = s.access ∧
    (s.bumpDown k).coverage = s.coverage ∧ (s.bumpDown k).beamCtl = s.beamCtl ∧ (s.bumpDown k).pool = s.pool ∧
    (s.bumpDown k).cranes = s.cranes ∧ (s.bumpDown k).reefer = s.reefer ∧ (s.bumpDown k).settings = s.settings ∧
    (s.bumpDown k).pending = s.pending := by
  refine ⟨rfl, rfl, rfl, rfl, rfl, rfl, rfl, rfl, rfl, rfl, rfl, rfl⟩

@[simp] theorem State.bumpDownBy_frame (s : State) (k : Fin 21) (n : Nat) :
    (s.bumpDownBy k n).clock = s.clock ∧ (s.bumpDownBy k n).links = s.links ∧
    (s.bumpDownBy k n).handed = s.handed ∧ (s.bumpDownBy k n).registry = s.registry ∧
    (s.bumpDownBy k n).access = s.access ∧ (s.bumpDownBy k n).coverage = s.coverage ∧
    (s.bumpDownBy k n).beamCtl = s.beamCtl ∧ (s.bumpDownBy k n).pool = s.pool ∧
    (s.bumpDownBy k n).cranes = s.cranes ∧ (s.bumpDownBy k n).reefer = s.reefer ∧
    (s.bumpDownBy k n).settings = s.settings ∧ (s.bumpDownBy k n).pending = s.pending := by
  refine ⟨rfl, rfl, rfl, rfl, rfl, rfl, rfl, rfl, rfl, rfl, rfl, rfl⟩

@[simp] theorem State.bumpCrane_frame (s : State) (k : Fin 11) :
    (s.bumpCrane k).clock = s.clock ∧ (s.bumpCrane k).links = s.links ∧ (s.bumpCrane k).handed = s.handed ∧
    (s.bumpCrane k).registry = s.registry ∧ (s.bumpCrane k).access = s.access ∧
    (s.bumpCrane k).coverage = s.coverage ∧ (s.bumpCrane k).beamCtl = s.beamCtl ∧ (s.bumpCrane k).pool = s.pool ∧
    (s.bumpCrane k).downlink = s.downlink ∧ (s.bumpCrane k).reefer = s.reefer ∧
    (s.bumpCrane k).settings = s.settings ∧ (s.bumpCrane k).pending = s.pending := by
  refine ⟨rfl, rfl, rfl, rfl, rfl, rfl, rfl, rfl, rfl, rfl, rfl, rfl⟩

@[simp] theorem State.bumpReef_frame (s : State) (k : Fin 25) :
    (s.bumpReef k).clock = s.clock ∧ (s.bumpReef k).links = s.links ∧ (s.bumpReef k).handed = s.handed ∧
    (s.bumpReef k).registry = s.registry ∧ (s.bumpReef k).access = s.access ∧
    (s.bumpReef k).coverage = s.coverage ∧ (s.bumpReef k).beamCtl = s.beamCtl ∧ (s.bumpReef k).pool = s.pool ∧
    (s.bumpReef k).downlink = s.downlink ∧ (s.bumpReef k).cranes = s.cranes ∧
    (s.bumpReef k).settings = s.settings ∧ (s.bumpReef k).pending = s.pending := by
  refine ⟨rfl, rfl, rfl, rfl, rfl, rfl, rfl, rfl, rfl, rfl, rfl, rfl⟩

@[simp] theorem State.bumpReefBy_frame (s : State) (k : Fin 25) (n : Nat) :
    (s.bumpReefBy k n).clock = s.clock ∧ (s.bumpReefBy k n).links = s.links ∧
    (s.bumpReefBy k n).handed = s.handed ∧ (s.bumpReefBy k n).registry = s.registry ∧
    (s.bumpReefBy k n).access = s.access ∧ (s.bumpReefBy k n).coverage = s.coverage ∧
    (s.bumpReefBy k n).beamCtl = s.beamCtl ∧ (s.bumpReefBy k n).pool = s.pool ∧
    (s.bumpReefBy k n).downlink = s.downlink ∧ (s.bumpReefBy k n).cranes = s.cranes ∧
    (s.bumpReefBy k n).settings = s.settings ∧ (s.bumpReefBy k n).pending = s.pending := by
  refine ⟨rfl, rfl, rfl, rfl, rfl, rfl, rfl, rfl, rfl, rfl, rfl, rfl⟩

@[simp] theorem State.bumpSet_frame (s : State) (k : Fin 11) :
    (s.bumpSet k).clock = s.clock ∧ (s.bumpSet k).links = s.links ∧ (s.bumpSet k).handed = s.handed ∧
    (s.bumpSet k).registry = s.registry ∧ (s.bumpSet k).access = s.access ∧ (s.bumpSet k).coverage = s.coverage ∧
    (s.bumpSet k).beamCtl = s.beamCtl ∧ (s.bumpSet k).pool = s.pool ∧ (s.bumpSet k).downlink = s.downlink ∧
    (s.bumpSet k).cranes = s.cranes ∧ (s.bumpSet k).reefer = s.reefer ∧ (s.bumpSet k).pending = s.pending := by
  refine ⟨rfl, rfl, rfl, rfl, rfl, rfl, rfl, rfl, rfl, rfl, rfl, rfl⟩

@[simp] theorem State.onLink_frame (s : State) (l : LinkNo) (f : Link → Link) :
    (s.onLink l f).clock = s.clock ∧ (s.onLink l f).handed = s.handed ∧ (s.onLink l f).registry = s.registry ∧
    (s.onLink l f).access = s.access ∧ (s.onLink l f).coverage = s.coverage ∧ (s.onLink l f).beamCtl = s.beamCtl ∧
    (s.onLink l f).pool = s.pool ∧ (s.onLink l f).downlink = s.downlink ∧ (s.onLink l f).cranes = s.cranes ∧
    (s.onLink l f).reefer = s.reefer ∧ (s.onLink l f).settings = s.settings ∧ (s.onLink l f).pending = s.pending := by
  refine ⟨rfl, rfl, rfl, rfl, rfl, rfl, rfl, rfl, rfl, rfl, rfl, rfl⟩

@[simp] theorem State.setEntry_frame (s : State) (e : EntryNo) (x : Entry) :
    (s.setEntry e x).clock = s.clock ∧ (s.setEntry e x).links = s.links ∧ (s.setEntry e x).handed = s.handed ∧
    (s.setEntry e x).access = s.access ∧ (s.setEntry e x).coverage = s.coverage ∧
    (s.setEntry e x).beamCtl = s.beamCtl ∧ (s.setEntry e x).pool = s.pool ∧
    (s.setEntry e x).downlink = s.downlink ∧ (s.setEntry e x).cranes = s.cranes ∧
    (s.setEntry e x).reefer = s.reefer ∧ (s.setEntry e x).settings = s.settings ∧
    (s.setEntry e x).pending = s.pending := by
  refine ⟨rfl, rfl, rfl, rfl, rfl, rfl, rfl, rfl, rfl, rfl, rfl, rfl⟩

@[simp] theorem State.setHead_frame (s : State) (h : HeadNo) (x : Head) :
    (s.setHead h x).clock = s.clock ∧ (s.setHead h x).links = s.links ∧ (s.setHead h x).handed = s.handed ∧
    (s.setHead h x).registry = s.registry ∧ (s.setHead h x).access = s.access ∧
    (s.setHead h x).coverage = s.coverage ∧ (s.setHead h x).pool = s.pool ∧ (s.setHead h x).downlink = s.downlink ∧
    (s.setHead h x).cranes = s.cranes ∧ (s.setHead h x).reefer = s.reefer ∧ (s.setHead h x).settings = s.settings ∧
    (s.setHead h x).pending = s.pending := by
  refine ⟨rfl, rfl, rfl, rfl, rfl, rfl, rfl, rfl, rfl, rfl, rfl, rfl⟩

@[simp] theorem State.setBeam_frame (s : State) (b : BeamNo) (x : Beam) :
    (s.setBeam b x).clock = s.clock ∧ (s.setBeam b x).links = s.links ∧ (s.setBeam b x).handed = s.handed ∧
    (s.setBeam b x).registry = s.registry ∧ (s.setBeam b x).access = s.access ∧
    (s.setBeam b x).coverage = s.coverage ∧ (s.setBeam b x).pool = s.pool ∧ (s.setBeam b x).downlink = s.downlink ∧
    (s.setBeam b x).cranes = s.cranes ∧ (s.setBeam b x).reefer = s.reefer ∧ (s.setBeam b x).settings = s.settings ∧
    (s.setBeam b x).pending = s.pending := by
  refine ⟨rfl, rfl, rfl, rfl, rfl, rfl, rfl, rfl, rfl, rfl, rfl, rfl⟩

@[simp] theorem State.setWaitList_frame (s : State) (w : List WaitEntry) :
    (s.setWaitList w).clock = s.clock ∧ (s.setWaitList w).links = s.links ∧ (s.setWaitList w).handed = s.handed ∧
    (s.setWaitList w).registry = s.registry ∧ (s.setWaitList w).access = s.access ∧
    (s.setWaitList w).coverage = s.coverage ∧ (s.setWaitList w).pool = s.pool ∧
    (s.setWaitList w).downlink = s.downlink ∧ (s.setWaitList w).cranes = s.cranes ∧
    (s.setWaitList w).reefer = s.reefer ∧ (s.setWaitList w).settings = s.settings ∧
    (s.setWaitList w).pending = s.pending := by
  refine ⟨rfl, rfl, rfl, rfl, rfl, rfl, rfl, rfl, rfl, rfl, rfl, rfl⟩

@[simp] theorem State.setCell_frame (s : State) (h : HeadNo) (g : SegNo) (c : Cell) :
    (s.setCell h g c).clock = s.clock ∧ (s.setCell h g c).links = s.links ∧ (s.setCell h g c).handed = s.handed ∧
    (s.setCell h g c).registry = s.registry ∧ (s.setCell h g c).access = s.access ∧
    (s.setCell h g c).beamCtl = s.beamCtl ∧ (s.setCell h g c).pool = s.pool ∧
    (s.setCell h g c).downlink = s.downlink ∧ (s.setCell h g c).cranes = s.cranes ∧
    (s.setCell h g c).reefer = s.reefer ∧ (s.setCell h g c).settings = s.settings ∧
    (s.setCell h g c).pending = s.pending := by
  refine ⟨rfl, rfl, rfl, rfl, rfl, rfl, rfl, rfl, rfl, rfl, rfl, rfl⟩

@[simp] theorem State.setSegRec_frame (s : State) (g : SegNo) (x : SegRec) :
    (s.setSegRec g x).clock = s.clock ∧ (s.setSegRec g x).links = s.links ∧ (s.setSegRec g x).handed = s.handed ∧
    (s.setSegRec g x).registry = s.registry ∧ (s.setSegRec g x).access = s.access ∧
    (s.setSegRec g x).beamCtl = s.beamCtl ∧ (s.setSegRec g x).pool = s.pool ∧
    (s.setSegRec g x).downlink = s.downlink ∧ (s.setSegRec g x).cranes = s.cranes ∧
    (s.setSegRec g x).reefer = s.reefer ∧ (s.setSegRec g x).settings = s.settings ∧
    (s.setSegRec g x).pending = s.pending := by
  refine ⟨rfl, rfl, rfl, rfl, rfl, rfl, rfl, rfl, rfl, rfl, rfl, rfl⟩

@[simp] theorem State.setCraneRec_frame (s : State) (c : CraneNo) (x : Option CraneRec) :
    (s.setCraneRec c x).clock = s.clock ∧ (s.setCraneRec c x).links = s.links ∧
    (s.setCraneRec c x).handed = s.handed ∧ (s.setCraneRec c x).registry = s.registry ∧
    (s.setCraneRec c x).access = s.access ∧ (s.setCraneRec c x).coverage = s.coverage ∧
    (s.setCraneRec c x).beamCtl = s.beamCtl ∧ (s.setCraneRec c x).pool = s.pool ∧
    (s.setCraneRec c x).downlink = s.downlink ∧ (s.setCraneRec c x).reefer = s.reefer ∧
    (s.setCraneRec c x).settings = s.settings ∧ (s.setCraneRec c x).pending = s.pending := by
  refine ⟨rfl, rfl, rfl, rfl, rfl, rfl, rfl, rfl, rfl, rfl, rfl, rfl⟩

@[simp] theorem State.setRackRec_frame (s : State) (r : RackNo) (x : Option RackRec) :
    (s.setRackRec r x).clock = s.clock ∧ (s.setRackRec r x).links = s.links ∧
    (s.setRackRec r x).handed = s.handed ∧ (s.setRackRec r x).registry = s.registry ∧
    (s.setRackRec r x).access = s.access ∧ (s.setRackRec r x).coverage = s.coverage ∧
    (s.setRackRec r x).beamCtl = s.beamCtl ∧ (s.setRackRec r x).pool = s.pool ∧
    (s.setRackRec r x).downlink = s.downlink ∧ (s.setRackRec r x).cranes = s.cranes ∧
    (s.setRackRec r x).settings = s.settings ∧ (s.setRackRec r x).pending = s.pending := by
  refine ⟨rfl, rfl, rfl, rfl, rfl, rfl, rfl, rfl, rfl, rfl, rfl, rfl⟩

@[simp] theorem State.setSlot_frame (s : State) (r : RackNo) (p : PlugNo) (x : Slot) :
    (s.setSlot r p x).clock = s.clock ∧ (s.setSlot r p x).links = s.links ∧ (s.setSlot r p x).handed = s.handed ∧
    (s.setSlot r p x).registry = s.registry ∧ (s.setSlot r p x).access = s.access ∧
    (s.setSlot r p x).coverage = s.coverage ∧ (s.setSlot r p x).beamCtl = s.beamCtl ∧
    (s.setSlot r p x).pool = s.pool ∧ (s.setSlot r p x).downlink = s.downlink ∧
    (s.setSlot r p x).cranes = s.cranes ∧ (s.setSlot r p x).settings = s.settings ∧
    (s.setSlot r p x).pending = s.pending := by
  refine ⟨rfl, rfl, rfl, rfl, rfl, rfl, rfl, rfl, rfl, rfl, rfl, rfl⟩

@[simp] theorem State.setAlarms_frame (s : State) (a : List AlarmRec) :
    (s.setAlarms a).clock = s.clock ∧ (s.setAlarms a).links = s.links ∧ (s.setAlarms a).handed = s.handed ∧
    (s.setAlarms a).registry = s.registry ∧ (s.setAlarms a).access = s.access ∧
    (s.setAlarms a).coverage = s.coverage ∧ (s.setAlarms a).beamCtl = s.beamCtl ∧ (s.setAlarms a).pool = s.pool ∧
    (s.setAlarms a).downlink = s.downlink ∧ (s.setAlarms a).cranes = s.cranes ∧
    (s.setAlarms a).settings = s.settings ∧ (s.setAlarms a).pending = s.pending := by
  refine ⟨rfl, rfl, rfl, rfl, rfl, rfl, rfl, rfl, rfl, rfl, rfl, rfl⟩

@[simp] theorem State.setFree_frame (s : State) (n : Nat) :
    (s.setFree n).clock = s.clock ∧ (s.setFree n).links = s.links ∧ (s.setFree n).handed = s.handed ∧
    (s.setFree n).registry = s.registry ∧ (s.setFree n).access = s.access ∧ (s.setFree n).coverage = s.coverage ∧
    (s.setFree n).beamCtl = s.beamCtl ∧ (s.setFree n).downlink = s.downlink ∧ (s.setFree n).cranes = s.cranes ∧
    (s.setFree n).reefer = s.reefer ∧ (s.setFree n).settings = s.settings ∧ (s.setFree n).pending = s.pending := by
  refine ⟨rfl, rfl, rfl, rfl, rfl, rfl, rfl, rfl, rfl, rfl, rfl, rfl⟩

@[simp] theorem State.setWaiting_frame (s : State) (w : List Frame) :
    (s.setWaiting w).clock = s.clock ∧ (s.setWaiting w).links = s.links ∧ (s.setWaiting w).handed = s.handed ∧
    (s.setWaiting w).registry = s.registry ∧ (s.setWaiting w).access = s.access ∧
    (s.setWaiting w).coverage = s.coverage ∧ (s.setWaiting w).beamCtl = s.beamCtl ∧
    (s.setWaiting w).pool = s.pool ∧ (s.setWaiting w).cranes = s.cranes ∧ (s.setWaiting w).reefer = s.reefer ∧
    (s.setWaiting w).settings = s.settings ∧ (s.setWaiting w).pending = s.pending := by
  refine ⟨rfl, rfl, rfl, rfl, rfl, rfl, rfl, rfl, rfl, rfl, rfl, rfl⟩

theorem State.entry_setEntry (s : State) (e i : EntryNo) (x : Entry) : (s.setEntry e x).entry i = if i = e then x else s.entry i := by
  simp [State.entry, State.setEntry, look_put]

@[simp] theorem State.entry_setEntry_self (s : State) (e : EntryNo) (x : Entry) : (s.setEntry e x).entry e = x := by
  simp [State.entry_setEntry]

theorem State.head_setHead (s : State) (h i : HeadNo) (x : Head) : (s.setHead h x).head i = if i = h then x else s.head i := by
  simp [State.head, State.setHead, look_put]

@[simp] theorem State.head_setHead_self (s : State) (h : HeadNo) (x : Head) : (s.setHead h x).head h = x := by
  simp [State.head_setHead]

theorem State.beam_setBeam (s : State) (b i : BeamNo) (x : Beam) : (s.setBeam b x).beam i = if i = b then x else s.beam i := by
  simp [State.beam, State.setBeam, look_put]

@[simp] theorem State.beam_setBeam_self (s : State) (b : BeamNo) (x : Beam) : (s.setBeam b x).beam b = x := by
  simp [State.beam_setBeam]

theorem State.segRec_setSegRec (s : State) (g i : SegNo) (x : SegRec) : (s.setSegRec g x).segRec i = if i = g then x else s.segRec i := by
  simp [State.segRec, State.setSegRec, look_put]

@[simp] theorem State.segRec_setSegRec_self (s : State) (g : SegNo) (x : SegRec) : (s.setSegRec g x).segRec g = x := by
  simp [State.segRec_setSegRec]

theorem State.craneRec_setCraneRec (s : State) (c i : CraneNo) (x : Option CraneRec) : (s.setCraneRec c x).craneRec i = if i = c then x else s.craneRec i := by
  simp [State.craneRec, State.setCraneRec, look_put]

@[simp] theorem State.craneRec_setCraneRec_self (s : State) (c : CraneNo) (x : Option CraneRec) : (s.setCraneRec c x).craneRec c = x := by
  simp [State.craneRec_setCraneRec]

theorem State.rackRec_setRackRec (s : State) (r i : RackNo) (x : Option RackRec) : (s.setRackRec r x).rackRec i = if i = r then x else s.rackRec i := by
  simp [State.rackRec, State.setRackRec, look_put]

@[simp] theorem State.rackRec_setRackRec_self (s : State) (r : RackNo) (x : Option RackRec) : (s.setRackRec r x).rackRec r = x := by
  simp [State.rackRec_setRackRec]

theorem State.link_onLink (s : State) (l i : LinkNo) (f : Link → Link) :
    (s.onLink l f).link i = if i = l then f (s.link l) else s.link i := by
  simp [State.link, State.onLink, look_tweak]

@[simp] theorem State.link_onLink_self (s : State) (l : LinkNo) (f : Link → Link) : (s.onLink l f).link l = f (s.link l) := by
  simp [State.link_onLink]

theorem State.slot_setSlot (s : State) (r i : RackNo) (p j : PlugNo) (x : Slot) :
    (s.setSlot r p x).slot i j = if i = r ∧ j = p then x else s.slot i j := by
  by_cases h : i = r
  · subst h; simp [State.slot, State.setSlot, look_put]
  · simp [State.slot, State.setSlot, h]

@[simp] theorem State.slot_setSlot_self (s : State) (r : RackNo) (p : PlugNo) (x : Slot) : (s.setSlot r p x).slot r p = x := by
  simp [State.slot_setSlot]

theorem State.cell_setCell (s : State) (h i : HeadNo) (g j : SegNo) (c : Cell) :
    (s.setCell h g c).cell i j = if i = h ∧ j = g then some c else s.cell i j := by
  by_cases e : i = h
  · subst e; simp [State.cell, State.setCell, look_put]
  · simp [State.cell, State.setCell, e]

@[simp] theorem State.cell_setCell_self (s : State) (h : HeadNo) (g : SegNo) (c : Cell) : (s.setCell h g c).cell h g = some c := by
  simp [State.cell_setCell]

/-! Readings that follow one field only -/

theorem State.entry_of_registry {s t : State} (h : t.registry = s.registry) (e : EntryNo) : t.entry e = s.entry e := by
  simp [State.entry, h]
theorem State.link_of_links {s t : State} (h : t.links = s.links) (l : LinkNo) : t.link l = s.link l := by
  simp [State.link, h]
theorem State.head_of_beamCtl {s t : State} (h : t.beamCtl = s.beamCtl) (i : HeadNo) : t.head i = s.head i := by
  simp [State.head, h]
theorem State.beam_of_beamCtl {s t : State} (h : t.beamCtl = s.beamCtl) (b : BeamNo) : t.beam b = s.beam b := by
  simp [State.beam, h]
theorem State.cell_of_coverage {s t : State} (h : t.coverage = s.coverage) (i : HeadNo) (g : SegNo) : t.cell i g = s.cell i g := by
  simp [State.cell, h]
theorem State.slot_of_reefer {s t : State} (h : t.reefer = s.reefer) (r : RackNo) (p : PlugNo) : t.slot r p = s.slot r p := by
  simp [State.slot, h]
theorem State.craneRec_of_cranes {s t : State} (h : t.cranes = s.cranes) (c : CraneNo) : t.craneRec c = s.craneRec c := by
  simp [State.craneRec, h]
theorem State.rackRec_of_reefer {s t : State} (h : t.reefer = s.reefer) (r : RackNo) : t.rackRec r = s.rackRec r := by
  simp [State.rackRec, h]
theorem State.param_of_settings {s t : State} (h : t.settings = s.settings) (i : Fin 19) : t.param i = s.param i := by
  simp [State.param, h]

end Sys2Proof.Machine
end

