-- ==== Sys2Proof/Laws/Frames.lean ====
section
/-! SUPPORT. What each shared operation leaves unchanged, one lemma an operation: every field of State that the operation does
not write. -/

namespace Sys2Proof.Machine

-- One proof text serves the fields of every operation, so some of its alternatives stand idle.
set_option linter.unusedTactic false
set_option linter.unreachableTactic false
set_option linter.unnecessarySeqFocus false

/-- What every step of a fold keeps, the fold keeps. -/
theorem foldl_keeps {α β : Type} (g : State → α) (f : State → β → State) (h : ∀ s b, g (f s b) = g s) (bs : List β) (s : State) :
    g (bs.foldl f s) = g s := by
  induction bs generalizing s with
  | nil => rfl
  | cons b bs ih => rw [List.foldl_cons, ih, h]


@[simp] theorem State.raise_frame (s : State) (l : LinkNo) (n : Notice) :
    (s.raise l n).clock = s.clock ∧ (s.raise l n).handed = s.handed ∧ (s.raise l n).registry = s.registry ∧
    (s.raise l n).access = s.access ∧ (s.raise l n).coverage = s.coverage ∧ (s.raise l n).beamCtl = s.beamCtl ∧
    (s.raise l n).pool = s.pool ∧ (s.raise l n).downlink = s.downlink ∧ (s.raise l n).cranes = s.cranes ∧
    (s.raise l n).reefer = s.reefer ∧ (s.raise l n).settings = s.settings ∧ (s.raise l n).pending = s.pending := by
  simp only [State.raise] <;> (repeat' split) <;> simp

@[simp] theorem State.raiseWhere_frame (s : State) (p : LinkNo → Link → Bool) (n : Notice) :
    (s.raiseWhere p n).clock = s.clock ∧ (s.raiseWhere p n).handed = s.handed ∧
    (s.raiseWhere p n).registry = s.registry ∧ (s.raiseWhere p n).access = s.access ∧
    (s.raiseWhere p n).coverage = s.coverage ∧ (s.raiseWhere p n).beamCtl = s.beamCtl ∧
    (s.raiseWhere p n).pool = s.pool ∧ (s.raiseWhere p n).downlink = s.downlink ∧
    (s.raiseWhere p n).cranes = s.cranes ∧ (s.raiseWhere p n).reefer = s.reefer ∧
    (s.raiseWhere p n).settings = s.settings ∧ (s.raiseWhere p n).pending = s.pending := by
  refine ⟨?_, ?_, ?_, ?_, ?_, ?_, ?_, ?_, ?_, ?_, ?_, ?_⟩ <;> simp only [State.raiseWhere]
  · repeat' first | with_reducible rfl | (simp; done) | split | refine (foldl_keeps State.clock _ ?_ _ _).trans ?_ | intro _ _ | simp
  · repeat' first | with_reducible rfl | (simp; done) | split | refine (foldl_keeps State.handed _ ?_ _ _).trans ?_ | intro _ _ | simp
  · repeat' first | with_reducible rfl | (simp; done) | split | refine (foldl_keeps State.registry _ ?_ _ _).trans ?_ | intro _ _ | simp
  · repeat' first | with_reducible rfl | (simp; done) | split | refine (foldl_keeps State.access _ ?_ _ _).trans ?_ | intro _ _ | simp
  · repeat' first | with_reducible rfl | (simp; done) | split | refine (foldl_keeps State.coverage _ ?_ _ _).trans ?_ | intro _ _ | simp
  · repeat' first | with_reducible rfl | (simp; done) | split | refine (foldl_keeps State.beamCtl _ ?_ _ _).trans ?_ | intro _ _ | simp
  · repeat' first | with_reducible rfl | (simp; done) | split | refine (foldl_keeps State.pool _ ?_ _ _).trans ?_ | intro _ _ | simp
  · repeat' first | with_reducible rfl | (simp; done) | split | refine (foldl_keeps State.downlink _ ?_ _ _).trans ?_ | intro _ _ | simp
  · repeat' first | with_reducible rfl | (simp; done) | split | refine (foldl_keeps State.cranes _ ?_ _ _).trans ?_ | intro _ _ | simp
  · repeat' first | with_reducible rfl | (simp; done) | split | refine (foldl_keeps State.reefer _ ?_ _ _).trans ?_ | intro _ _ | simp
  · repeat' first | with_reducible rfl | (simp; done) | split | refine (foldl_keeps State.settings _ ?_ _ _).trans ?_ | intro _ _ | simp
  · repeat' first | with_reducible rfl | (simp; done) | split | refine (foldl_keeps State.pending _ ?_ _ _).trans ?_ | intro _ _ | simp

@[simp] theorem State.reply_frame (s : State) (r : ReqRef) (st : Status) (b : ReplyBody) :
    (s.reply r st b).clock = s.clock ∧ (s.reply r st b).handed = s.handed ∧ (s.reply r st b).registry = s.registry ∧
    (s.reply r st b).access = s.access ∧ (s.reply r st b).coverage = s.coverage ∧
    (s.reply r st b).beamCtl = s.beamCtl ∧ (s.reply r st b).pool = s.pool ∧ (s.reply r st b).downlink = s.downlink ∧
    (s.reply r st b).cranes = s.cranes ∧ (s.reply r st b).reefer = s.reefer ∧ (s.reply r st b).settings = s.settings ∧
    (s.reply r st b).pending = s.pending := by
  simp only [State.reply] <;> (repeat' split) <;> simp

@[simp] theorem State.answer_frame (s : State) (r : ReqRef) (st : Status) :
    (s.answer r st).clock = s.clock ∧ (s.answer r st).handed = s.handed ∧ (s.answer r st).registry = s.registry ∧
    (s.answer r st).access = s.access ∧ (s.answer r st).coverage = s.coverage ∧ (s.answer r st).beamCtl = s.beamCtl ∧
    (s.answer r st).pool = s.pool ∧ (s.answer r st).downlink = s.downlink ∧ (s.answer r st).cranes = s.cranes ∧
    (s.answer r st).reefer = s.reefer ∧ (s.answer r st).settings = s.settings ∧ (s.answer r st).pending = s.pending := by
  simp only [State.answer] <;> (repeat' split) <;> simp

@[simp] theorem State.judge_frame (s : State) :
    (s.judge).clock = s.clock ∧ (s.judge).handed = s.handed ∧ (s.judge).registry = s.registry ∧
    (s.judge).access = s.access ∧ (s.judge).coverage = s.coverage ∧ (s.judge).beamCtl = s.beamCtl ∧
    (s.judge).downlink = s.downlink ∧ (s.judge).cranes = s.cranes ∧ (s.judge).reefer = s.reefer ∧
    (s.judge).settings = s.settings ∧ (s.judge).pending = s.pending := by
  simp only [State.judge] <;> (repeat' split) <;> simp

@[simp] theorem State.dropCopy_frame (s : State) (l : LinkNo) (k : Fin 13) :
    (s.dropCopy l k).clock = s.clock ∧ (s.dropCopy l k).links = s.links ∧ (s.dropCopy l k).handed = s.handed ∧
    (s.dropCopy l k).registry = s.registry ∧ (s.dropCopy l k).access = s.access ∧
    (s.dropCopy l k).coverage = s.coverage ∧ (s.dropCopy l k).beamCtl = s.beamCtl ∧
    (s.dropCopy l k).downlink = s.downlink ∧ (s.dropCopy l k).cranes = s.cranes ∧ (s.dropCopy l k).reefer = s.reefer ∧
    (s.dropCopy l k).settings = s.settings ∧ (s.dropCopy l k).pending = s.pending := by
  simp only [State.dropCopy] <;> (repeat' split) <;> simp

@[simp] theorem State.offerCopy_frame (s : State) (l : LinkNo) (c : Content) :
    (s.offerCopy l c).clock = s.clock ∧ (s.offerCopy l c).handed = s.handed ∧ (s.offerCopy l c).registry = s.registry ∧
    (s.offerCopy l c).access = s.access ∧ (s.offerCopy l c).coverage = s.coverage ∧
    (s.offerCopy l c).beamCtl = s.beamCtl ∧ (s.offerCopy l c).downlink = s.downlink ∧
    (s.offerCopy l c).cranes = s.cranes ∧ (s.offerCopy l c).reefer = s.reefer ∧
    (s.offerCopy l c).settings = s.settings ∧ (s.offerCopy l c).pending = s.pending := by
  simp only [State.offerCopy] <;> (repeat' split) <;> simp

@[simp] theorem State.reportFronts_frame (s : State) (w : List Frame) :
    (s.reportFronts w).clock = s.clock ∧ (s.reportFronts w).links = s.links ∧ (s.reportFronts w).handed = s.handed ∧
    (s.reportFronts w).registry = s.registry ∧ (s.reportFronts w).access = s.access ∧
    (s.reportFronts w).coverage = s.coverage ∧ (s.reportFronts w).beamCtl = s.beamCtl ∧
    (s.reportFronts w).pool = s.pool ∧ (s.reportFronts w).downlink = s.downlink ∧
    (s.reportFronts w).reefer = s.reefer ∧ (s.reportFronts w).settings = s.settings ∧
    (s.reportFronts w).pending = s.pending := by
  simp only [State.reportFronts] <;> (repeat' split) <;> simp

@[simp] theorem State.frameEnded_frame (s : State) (f : Frame) :
    (s.frameEnded f).clock = s.clock ∧ (s.frameEnded f).links = s.links ∧ (s.frameEnded f).handed = s.handed ∧
    (s.frameEnded f).registry = s.registry ∧ (s.frameEnded f).access = s.access ∧
    (s.frameEnded f).coverage = s.coverage ∧ (s.frameEnded f).beamCtl = s.beamCtl ∧ (s.frameEnded f).pool = s.pool ∧
    (s.frameEnded f).downlink = s.downlink ∧ (s.frameEnded f).reefer = s.reefer ∧
    (s.frameEnded f).settings = s.settings ∧ (s.frameEnded f).pending = s.pending := by
  simp only [State.frameEnded] <;> (repeat' split) <;> simp

@[simp] theorem State.frameResult_frame (s : State) (f : Frame) (x : FrameFate) :
    (s.frameResult f x).clock = s.clock ∧ (s.frameResult f x).handed = s.handed ∧
    (s.frameResult f x).registry = s.registry ∧ (s.frameResult f x).access = s.access ∧
    (s.frameResult f x).coverage = s.coverage ∧ (s.frameResult f x).beamCtl = s.beamCtl ∧
    (s.frameResult f x).pool = s.pool ∧ (s.frameResult f x).downlink = s.downlink ∧
    (s.frameResult f x).cranes = s.cranes ∧ (s.frameResult f x).reefer = s.reefer ∧
    (s.frameResult f x).settings = s.settings ∧ (s.frameResult f x).pending = s.pending := by
  simp only [State.frameResult] <;> (repeat' split) <;> simp

@[simp] theorem State.dropFrames_frame (s : State) (p : Frame → Bool) (x : FrameFate) (k : Fin 21) :
    (s.dropFrames p x k).clock = s.clock ∧ (s.dropFrames p x k).handed = s.handed ∧
    (s.dropFrames p x k).registry = s.registry ∧ (s.dropFrames p x k).access = s.access ∧
    (s.dropFrames p x k).coverage = s.coverage ∧ (s.dropFrames p x k).beamCtl = s.beamCtl ∧
    (s.dropFrames p x k).reefer = s.reefer ∧ (s.dropFrames p x k).settings = s.settings ∧
    (s.dropFrames p x k).pending = s.pending := by
  refine ⟨?_, ?_, ?_, ?_, ?_, ?_, ?_, ?_, ?_⟩ <;> simp only [State.dropFrames]
  · repeat' first | with_reducible rfl | (simp; done) | split | refine (foldl_keeps State.clock _ ?_ _ _).trans ?_ | intro _ _ | simp
  · repeat' first | with_reducible rfl | (simp; done) | split | refine (foldl_keeps State.handed _ ?_ _ _).trans ?_ | intro _ _ | simp
  · repeat' first | with_reducible rfl | (simp; done) | split | refine (foldl_keeps State.registry _ ?_ _ _).trans ?_ | intro _ _ | simp
  · repeat' first | with_reducible rfl | (simp; done) | split | refine (foldl_keeps State.access _ ?_ _ _).trans ?_ | intro _ _ | simp
  · repeat' first | with_reducible rfl | (simp; done) | split | refine (foldl_keeps State.coverage _ ?_ _ _).trans ?_ | intro _ _ | simp
  · repeat' first | with_reducible rfl | (simp; done) | split | refine (foldl_keeps State.beamCtl _ ?_ _ _).trans ?_ | intro _ _ | simp
  · repeat' first | with_reducible rfl | (simp; done) | split | refine (foldl_keeps State.reefer _ ?_ _ _).trans ?_ | intro _ _ | simp
  · repeat' first | with_reducible rfl | (simp; done) | split | refine (foldl_keeps State.settings _ ?_ _ _).trans ?_ | intro _ _ | simp
  · repeat' first | with_reducible rfl | (simp; done) | split | refine (foldl_keeps State.pending _ ?_ _ _).trans ?_ | intro _ _ | simp

@[simp] theorem State.queueFrame_frame (s : State) (f : Frame) :
    (s.queueFrame f).clock = s.clock ∧ (s.queueFrame f).links = s.links ∧ (s.queueFrame f).handed = s.handed ∧
    (s.queueFrame f).registry = s.registry ∧ (s.queueFrame f).access = s.access ∧
    (s.queueFrame f).coverage = s.coverage ∧ (s.queueFrame f).beamCtl = s.beamCtl ∧
    (s.queueFrame f).reefer = s.reefer ∧ (s.queueFrame f).settings = s.settings ∧
    (s.queueFrame f).pending = s.pending := by
  simp only [State.queueFrame] <;> (repeat' split) <;> simp

@[simp] theorem State.noteSettled_frame (s : State) (p : Frame × Settled) :
    (s.noteSettled p).clock = s.clock ∧ (s.noteSettled p).handed = s.handed ∧ (s.noteSettled p).registry = s.registry ∧
    (s.noteSettled p).access = s.access ∧ (s.noteSettled p).coverage = s.coverage ∧
    (s.noteSettled p).beamCtl = s.beamCtl ∧ (s.noteSettled p).pool = s.pool ∧ (s.noteSettled p).reefer = s.reefer ∧
    (s.noteSettled p).settings = s.settings ∧ (s.noteSettled p).pending = s.pending := by
  simp only [State.noteSettled] <;> (repeat' split) <;> simp

@[simp] theorem State.settleBurst_frame (s : State) (b : BeamNo) (u : Burst) (o : Nat → FrameOutcome) :
    (s.settleBurst b u o).clock = s.clock ∧ (s.settleBurst b u o).handed = s.handed ∧
    (s.settleBurst b u o).registry = s.registry ∧ (s.settleBurst b u o).access = s.access ∧
    (s.settleBurst b u o).coverage = s.coverage ∧ (s.settleBurst b u o).reefer = s.reefer ∧
    (s.settleBurst b u o).settings = s.settings ∧ (s.settleBurst b u o).pending = s.pending := by
  refine ⟨?_, ?_, ?_, ?_, ?_, ?_, ?_, ?_⟩ <;> simp only [State.settleBurst, State.reportFronts_frame, State.bumpDownBy_frame]
  · exact (foldl_keeps State.clock _ (fun s p => by simp) _ _).trans rfl
  · exact (foldl_keeps State.handed _ (fun s p => by simp) _ _).trans rfl
  · exact (foldl_keeps State.registry _ (fun s p => by simp) _ _).trans rfl
  · exact (foldl_keeps State.access _ (fun s p => by simp) _ _).trans rfl
  · exact (foldl_keeps State.coverage _ (fun s p => by simp) _ _).trans rfl
  · exact (foldl_keeps State.reefer _ (fun s p => by simp) _ _).trans rfl
  · exact (foldl_keeps State.settings _ (fun s p => by simp) _ _).trans rfl
  · exact (foldl_keeps State.pending _ (fun s p => by simp) _ _).trans rfl

@[simp] theorem State.deriveCondition_frame (s : State) (c : CraneNo) :
    (s.deriveCondition c).clock = s.clock ∧ (s.deriveCondition c).handed = s.handed ∧
    (s.deriveCondition c).registry = s.registry ∧ (s.deriveCondition c).access = s.access ∧
    (s.deriveCondition c).coverage = s.coverage ∧ (s.deriveCondition c).beamCtl = s.beamCtl ∧
    (s.deriveCondition c).reefer = s.reefer ∧ (s.deriveCondition c).settings = s.settings ∧
    (s.deriveCondition c).pending = s.pending := by
  simp only [State.deriveCondition] <;> (repeat' split) <;> simp

@[simp] theorem State.raiseAlarm_frame (s : State) (r : RackNo) (p : PlugNo) :
    (s.raiseAlarm r p).clock = s.clock ∧ (s.raiseAlarm r p).handed = s.handed ∧
    (s.raiseAlarm r p).registry = s.registry ∧ (s.raiseAlarm r p).access = s.access ∧
    (s.raiseAlarm r p).coverage = s.coverage ∧ (s.raiseAlarm r p).beamCtl = s.beamCtl ∧
    (s.raiseAlarm r p).pool = s.pool ∧ (s.raiseAlarm r p).downlink = s.downlink ∧
    (s.raiseAlarm r p).cranes = s.cranes ∧ (s.raiseAlarm r p).settings = s.settings ∧
    (s.raiseAlarm r p).pending = s.pending := by
  simp only [State.raiseAlarm] <;> (repeat' split) <;> simp

@[simp] theorem State.applyConsult_frame (s : State) (r : RackNo) (p : PlugNo) (k : Consult) :
    (s.applyConsult r p k).clock = s.clock ∧ (s.applyConsult r p k).handed = s.handed ∧
    (s.applyConsult r p k).registry = s.registry ∧ (s.applyConsult r p k).access = s.access ∧
    (s.applyConsult r p k).coverage = s.coverage ∧ (s.applyConsult r p k).beamCtl = s.beamCtl ∧
    (s.applyConsult r p k).pool = s.pool ∧ (s.applyConsult r p k).downlink = s.downlink ∧
    (s.applyConsult r p k).cranes = s.cranes ∧ (s.applyConsult r p k).settings = s.settings ∧
    (s.applyConsult r p k).pending = s.pending := by
  simp only [State.applyConsult] <;> (repeat' split) <;> simp

@[simp] theorem State.regrade_frame (s : State) (r : RackNo) (p : PlugNo) (d : Bool) :
    (s.regrade r p d).clock = s.clock ∧ (s.regrade r p d).handed = s.handed ∧ (s.regrade r p d).registry = s.registry ∧
    (s.regrade r p d).access = s.access ∧ (s.regrade r p d).coverage = s.coverage ∧
    (s.regrade r p d).beamCtl = s.beamCtl ∧ (s.regrade r p d).pool = s.pool ∧ (s.regrade r p d).downlink = s.downlink ∧
    (s.regrade r p d).cranes = s.cranes ∧ (s.regrade r p d).settings = s.settings ∧
    (s.regrade r p d).pending = s.pending := by
  simp only [State.regrade] <;> (repeat' split) <;> simp

@[simp] theorem State.silencePlug_frame (s : State) (r : RackNo) (v : Silence) (p : PlugNo) :
    (s.silencePlug r v p).clock = s.clock ∧ (s.silencePlug r v p).handed = s.handed ∧
    (s.silencePlug r v p).registry = s.registry ∧ (s.silencePlug r v p).access = s.access ∧
    (s.silencePlug r v p).coverage = s.coverage ∧ (s.silencePlug r v p).beamCtl = s.beamCtl ∧
    (s.silencePlug r v p).pool = s.pool ∧ (s.silencePlug r v p).downlink = s.downlink ∧
    (s.silencePlug r v p).cranes = s.cranes ∧ (s.silencePlug r v p).settings = s.settings ∧
    (s.silencePlug r v p).pending = s.pending := by
  simp only [State.silencePlug] <;> (repeat' split) <;> simp

@[simp] theorem State.setSilence_frame (s : State) (r : RackNo) (v : Silence) :
    (s.setSilence r v).clock = s.clock ∧ (s.setSilence r v).handed = s.handed ∧
    (s.setSilence r v).registry = s.registry ∧ (s.setSilence r v).access = s.access ∧
    (s.setSilence r v).coverage = s.coverage ∧ (s.setSilence r v).beamCtl = s.beamCtl ∧
    (s.setSilence r v).pool = s.pool ∧ (s.setSilence r v).downlink = s.downlink ∧
    (s.setSilence r v).cranes = s.cranes ∧ (s.setSilence r v).settings = s.settings ∧
    (s.setSilence r v).pending = s.pending := by
  refine ⟨?_, ?_, ?_, ?_, ?_, ?_, ?_, ?_, ?_, ?_, ?_⟩ <;> simp only [State.setSilence]
  · repeat' first | with_reducible rfl | (simp; done) | split | refine (foldl_keeps State.clock _ ?_ _ _).trans ?_ | intro _ _ | simp
  · repeat' first | with_reducible rfl | (simp; done) | split | refine (foldl_keeps State.handed _ ?_ _ _).trans ?_ | intro _ _ | simp
  · repeat' first | with_reducible rfl | (simp; done) | split | refine (foldl_keeps State.registry _ ?_ _ _).trans ?_ | intro _ _ | simp
  · repeat' first | with_reducible rfl | (simp; done) | split | refine (foldl_keeps State.access _ ?_ _ _).trans ?_ | intro _ _ | simp
  · repeat' first | with_reducible rfl | (simp; done) | split | refine (foldl_keeps State.coverage _ ?_ _ _).trans ?_ | intro _ _ | simp
  · repeat' first | with_reducible rfl | (simp; done) | split | refine (foldl_keeps State.beamCtl _ ?_ _ _).trans ?_ | intro _ _ | simp
  · repeat' first | with_reducible rfl | (simp; done) | split | refine (foldl_keeps State.pool _ ?_ _ _).trans ?_ | intro _ _ | simp
  · repeat' first | with_reducible rfl | (simp; done) | split | refine (foldl_keeps State.downlink _ ?_ _ _).trans ?_ | intro _ _ | simp
  · repeat' first | with_reducible rfl | (simp; done) | split | refine (foldl_keeps State.cranes _ ?_ _ _).trans ?_ | intro _ _ | simp
  · repeat' first | with_reducible rfl | (simp; done) | split | refine (foldl_keeps State.settings _ ?_ _ _).trans ?_ | intro _ _ | simp
  · repeat' first | with_reducible rfl | (simp; done) | split | refine (foldl_keeps State.pending _ ?_ _ _).trans ?_ | intro _ _ | simp

@[simp] theorem State.setPoll_frame (s : State) (r : RackNo) (v : PollState) :
    (s.setPoll r v).clock = s.clock ∧ (s.setPoll r v).links = s.links ∧ (s.setPoll r v).handed = s.handed ∧
    (s.setPoll r v).registry = s.registry ∧ (s.setPoll r v).access = s.access ∧ (s.setPoll r v).coverage = s.coverage ∧
    (s.setPoll r v).beamCtl = s.beamCtl ∧ (s.setPoll r v).pool = s.pool ∧ (s.setPoll r v).downlink = s.downlink ∧
    (s.setPoll r v).cranes = s.cranes ∧ (s.setPoll r v).settings = s.settings ∧ (s.setPoll r v).pending = s.pending := by
  simp only [State.setPoll] <;> (repeat' split) <;> simp

@[simp] theorem State.queuePoll_frame (s : State) (r : RackNo) (e : EntryNo) :
    ((s.queuePoll r e).1).clock = s.clock ∧ ((s.queuePoll r e).1).links = s.links ∧
    ((s.queuePoll r e).1).handed = s.handed ∧ ((s.queuePoll r e).1).registry = s.registry ∧
    ((s.queuePoll r e).1).access = s.access ∧ ((s.queuePoll r e).1).coverage = s.coverage ∧
    ((s.queuePoll r e).1).beamCtl = s.beamCtl ∧ ((s.queuePoll r e).1).reefer = s.reefer ∧
    ((s.queuePoll r e).1).settings = s.settings ∧ ((s.queuePoll r e).1).pending = s.pending := by
  simp only [State.queuePoll] <;> (repeat' split) <;> simp

@[simp] theorem State.askPoll_frame (s : State) (r : RackNo) :
    (s.askPoll r).clock = s.clock ∧ (s.askPoll r).links = s.links ∧ (s.askPoll r).handed = s.handed ∧
    (s.askPoll r).registry = s.registry ∧ (s.askPoll r).access = s.access ∧ (s.askPoll r).coverage = s.coverage ∧
    (s.askPoll r).beamCtl = s.beamCtl ∧ (s.askPoll r).settings = s.settings ∧ (s.askPoll r).pending = s.pending := by
  simp only [State.askPoll] <;> (repeat' split) <;> simp

@[simp] theorem State.rackSilent_frame (s : State) (r : RackNo) :
    (s.rackSilent r).clock = s.clock ∧ (s.rackSilent r).handed = s.handed ∧ (s.rackSilent r).registry = s.registry ∧
    (s.rackSilent r).access = s.access ∧ (s.rackSilent r).coverage = s.coverage ∧
    (s.rackSilent r).beamCtl = s.beamCtl ∧ (s.rackSilent r).settings = s.settings ∧
    (s.rackSilent r).pending = s.pending := by
  simp only [State.rackSilent] <;> (repeat' split) <;> simp

@[simp] theorem State.reevaluateRack_frame (s : State) (r : RackNo) :
    (s.reevaluateRack r).clock = s.clock ∧ (s.reevaluateRack r).handed = s.handed ∧
    (s.reevaluateRack r).registry = s.registry ∧ (s.reevaluateRack r).access = s.access ∧
    (s.reevaluateRack r).coverage = s.coverage ∧ (s.reevaluateRack r).beamCtl = s.beamCtl ∧
    (s.reevaluateRack r).settings = s.settings ∧ (s.reevaluateRack r).pending = s.pending := by
  simp only [State.reevaluateRack] <;> (repeat' split) <;> simp

@[simp] theorem State.goSilent_frame (s : State) (e : EntryNo) :
    (s.goSilent e).clock = s.clock ∧ (s.goSilent e).handed = s.handed ∧ (s.goSilent e).access = s.access ∧
    (s.goSilent e).coverage = s.coverage ∧ (s.goSilent e).beamCtl = s.beamCtl ∧ (s.goSilent e).settings = s.settings ∧
    (s.goSilent e).pending = s.pending := by
  simp only [State.goSilent] <;> (repeat' split) <;> simp

@[simp] theorem State.releaseEntry_frame (s : State) (e : EntryNo) :
    (s.releaseEntry e).clock = s.clock ∧ (s.releaseEntry e).links = s.links ∧ (s.releaseEntry e).handed = s.handed ∧
    (s.releaseEntry e).access = s.access ∧ (s.releaseEntry e).coverage = s.coverage ∧
    (s.releaseEntry e).beamCtl = s.beamCtl ∧ (s.releaseEntry e).pool = s.pool ∧
    (s.releaseEntry e).downlink = s.downlink ∧ (s.releaseEntry e).cranes = s.cranes ∧
    (s.releaseEntry e).reefer = s.reefer ∧ (s.releaseEntry e).settings = s.settings ∧
    (s.releaseEntry e).pending = s.pending := by
  simp only [State.releaseEntry] <;> (repeat' split) <;> simp

@[simp] theorem State.partDone_frame (s : State) (e : EntryNo) (f : Withdrawal → Withdrawal) :
    (s.partDone e f).clock = s.clock ∧ (s.partDone e f).links = s.links ∧ (s.partDone e f).handed = s.handed ∧
    (s.partDone e f).access = s.access ∧ (s.partDone e f).coverage = s.coverage ∧
    (s.partDone e f).beamCtl = s.beamCtl ∧ (s.partDone e f).pool = s.pool ∧ (s.partDone e f).downlink = s.downlink ∧
    (s.partDone e f).cranes = s.cranes ∧ (s.partDone e f).reefer = s.reefer ∧ (s.partDone e f).settings = s.settings ∧
    (s.partDone e f).pending = s.pending := by
  simp only [State.partDone] <;> (repeat' split) <;> simp

@[simp] theorem State.classChanged_frame (s : State) (g : SegNo) (x y : SegClass) :
    (s.classChanged g x y).clock = s.clock ∧ (s.classChanged g x y).handed = s.handed ∧
    (s.classChanged g x y).registry = s.registry ∧ (s.classChanged g x y).access = s.access ∧
    (s.classChanged g x y).beamCtl = s.beamCtl ∧ (s.classChanged g x y).settings = s.settings ∧
    (s.classChanged g x y).pending = s.pending := by
  refine ⟨?_, ?_, ?_, ?_, ?_, ?_, ?_⟩ <;> simp only [State.classChanged]
  · repeat' first | with_reducible rfl | (simp; done) | split | refine (foldl_keeps State.clock _ ?_ _ _).trans ?_ | intro _ _ | simp
  · repeat' first | with_reducible rfl | (simp; done) | split | refine (foldl_keeps State.handed _ ?_ _ _).trans ?_ | intro _ _ | simp
  · repeat' first | with_reducible rfl | (simp; done) | split | refine (foldl_keeps State.registry _ ?_ _ _).trans ?_ | intro _ _ | simp
  · repeat' first | with_reducible rfl | (simp; done) | split | refine (foldl_keeps State.access _ ?_ _ _).trans ?_ | intro _ _ | simp
  · repeat' first | with_reducible rfl | (simp; done) | split | refine (foldl_keeps State.beamCtl _ ?_ _ _).trans ?_ | intro _ _ | simp
  · repeat' first | with_reducible rfl | (simp; done) | split | refine (foldl_keeps State.settings _ ?_ _ _).trans ?_ | intro _ _ | simp
  · repeat' first | with_reducible rfl | (simp; done) | split | refine (foldl_keeps State.pending _ ?_ _ _).trans ?_ | intro _ _ | simp

@[simp] theorem State.rechoose_frame (s : State) (gs : List SegNo) :
    (s.rechoose gs).clock = s.clock ∧ (s.rechoose gs).handed = s.handed ∧ (s.rechoose gs).registry = s.registry ∧
    (s.rechoose gs).access = s.access ∧ (s.rechoose gs).beamCtl = s.beamCtl ∧ (s.rechoose gs).settings = s.settings ∧
    (s.rechoose gs).pending = s.pending := by
  refine ⟨?_, ?_, ?_, ?_, ?_, ?_, ?_⟩ <;> simp only [State.rechoose]
  · repeat' first | with_reducible rfl | (simp; done) | split | refine (foldl_keeps State.clock _ ?_ _ _).trans ?_ | intro _ _ | simp
  · repeat' first | with_reducible rfl | (simp; done) | split | refine (foldl_keeps State.handed _ ?_ _ _).trans ?_ | intro _ _ | simp
  · repeat' first | with_reducible rfl | (simp; done) | split | refine (foldl_keeps State.registry _ ?_ _ _).trans ?_ | intro _ _ | simp
  · repeat' first | with_reducible rfl | (simp; done) | split | refine (foldl_keeps State.access _ ?_ _ _).trans ?_ | intro _ _ | simp
  · repeat' first | with_reducible rfl | (simp; done) | split | refine (foldl_keeps State.beamCtl _ ?_ _ _).trans ?_ | intro _ _ | simp
  · repeat' first | with_reducible rfl | (simp; done) | split | refine (foldl_keeps State.settings _ ?_ _ _).trans ?_ | intro _ _ | simp
  · repeat' first | with_reducible rfl | (simp; done) | split | refine (foldl_keeps State.pending _ ?_ _ _).trans ?_ | intro _ _ | simp

@[simp] theorem State.sendNext_frame (s : State) (h : HeadNo) :
    (s.sendNext h).clock = s.clock ∧ (s.sendNext h).links = s.links ∧ (s.sendNext h).handed = s.handed ∧
    (s.sendNext h).registry = s.registry ∧ (s.sendNext h).access = s.access ∧ (s.sendNext h).pool = s.pool ∧
    (s.sendNext h).downlink = s.downlink ∧ (s.sendNext h).cranes = s.cranes ∧ (s.sendNext h).reefer = s.reefer ∧
    (s.sendNext h).settings = s.settings ∧ (s.sendNext h).pending = s.pending := by
  simp only [State.sendNext] <;> (repeat' split) <;> simp

@[simp] theorem State.pushCmd_frame (s : State) (h : HeadNo) (c : HeadCmd) :
    (s.pushCmd h c).clock = s.clock ∧ (s.pushCmd h c).links = s.links ∧ (s.pushCmd h c).handed = s.handed ∧
    (s.pushCmd h c).registry = s.registry ∧ (s.pushCmd h c).access = s.access ∧ (s.pushCmd h c).pool = s.pool ∧
    (s.pushCmd h c).downlink = s.downlink ∧ (s.pushCmd h c).cranes = s.cranes ∧ (s.pushCmd h c).reefer = s.reefer ∧
    (s.pushCmd h c).settings = s.settings ∧ (s.pushCmd h c).pending = s.pending := by
  simp only [State.pushCmd] <;> (repeat' split) <;> simp

@[simp] theorem State.endOutstanding_frame (s : State) (h : HeadNo) :
    (s.endOutstanding h).clock = s.clock ∧ (s.endOutstanding h).links = s.links ∧
    (s.endOutstanding h).handed = s.handed ∧ (s.endOutstanding h).registry = s.registry ∧
    (s.endOutstanding h).access = s.access ∧ (s.endOutstanding h).pool = s.pool ∧
    (s.endOutstanding h).downlink = s.downlink ∧ (s.endOutstanding h).cranes = s.cranes ∧
    (s.endOutstanding h).reefer = s.reefer ∧ (s.endOutstanding h).settings = s.settings ∧
    (s.endOutstanding h).pending = s.pending := by
  simp only [State.endOutstanding] <;> (repeat' split) <;> simp

@[simp] theorem State.steer_frame (s : State) (b : BeamNo) (r : OpenReq) (g : SegNo) (o : Bool) :
    (s.steer b r g o).clock = s.clock ∧ (s.steer b r g o).links = s.links ∧ (s.steer b r g o).handed = s.handed ∧
    (s.steer b r g o).registry = s.registry ∧ (s.steer b r g o).access = s.access ∧ (s.steer b r g o).pool = s.pool ∧
    (s.steer b r g o).downlink = s.downlink ∧ (s.steer b r g o).cranes = s.cranes ∧
    (s.steer b r g o).reefer = s.reefer ∧ (s.steer b r g o).settings = s.settings ∧
    (s.steer b r g o).pending = s.pending := by
  simp only [State.steer] <;> (repeat' split) <;> simp

@[simp] theorem State.join_frame (s : State) (b : BeamNo) (r : OpenReq) (g : SegNo) :
    (s.join b r g).clock = s.clock ∧ (s.join b r g).handed = s.handed ∧ (s.join b r g).registry = s.registry ∧
    (s.join b r g).access = s.access ∧ (s.join b r g).pool = s.pool ∧ (s.join b r g).downlink = s.downlink ∧
    (s.join b r g).cranes = s.cranes ∧ (s.join b r g).reefer = s.reefer ∧ (s.join b r g).settings = s.settings ∧
    (s.join b r g).pending = s.pending := by
  simp only [State.join] <;> (repeat' split) <;> simp

@[simp] theorem State.joinWaiting_frame (s : State) (b : BeamNo) (g : SegNo) :
    (s.joinWaiting b g).clock = s.clock ∧ (s.joinWaiting b g).handed = s.handed ∧
    (s.joinWaiting b g).registry = s.registry ∧ (s.joinWaiting b g).access = s.access ∧
    (s.joinWaiting b g).pool = s.pool ∧ (s.joinWaiting b g).downlink = s.downlink ∧
    (s.joinWaiting b g).cranes = s.cranes ∧ (s.joinWaiting b g).reefer = s.reefer ∧
    (s.joinWaiting b g).settings = s.settings ∧ (s.joinWaiting b g).pending = s.pending := by
  refine ⟨?_, ?_, ?_, ?_, ?_, ?_, ?_, ?_, ?_, ?_⟩ <;> simp only [State.joinWaiting]
  · repeat' first | with_reducible rfl | (simp; done) | split | refine (foldl_keeps State.clock _ ?_ _ _).trans ?_ | intro _ _ | simp
  · repeat' first | with_reducible rfl | (simp; done) | split | refine (foldl_keeps State.handed _ ?_ _ _).trans ?_ | intro _ _ | simp
  · repeat' first | with_reducible rfl | (simp; done) | split | refine (foldl_keeps State.registry _ ?_ _ _).trans ?_ | intro _ _ | simp
  · repeat' first | with_reducible rfl | (simp; done) | split | refine (foldl_keeps State.access _ ?_ _ _).trans ?_ | intro _ _ | simp
  · repeat' first | with_reducible rfl | (simp; done) | split | refine (foldl_keeps State.pool _ ?_ _ _).trans ?_ | intro _ _ | simp
  · repeat' first | with_reducible rfl | (simp; done) | split | refine (foldl_keeps State.downlink _ ?_ _ _).trans ?_ | intro _ _ | simp
  · repeat' first | with_reducible rfl | (simp; done) | split | refine (foldl_keeps State.cranes _ ?_ _ _).trans ?_ | intro _ _ | simp
  · repeat' first | with_reducible rfl | (simp; done) | split | refine (foldl_keeps State.reefer _ ?_ _ _).trans ?_ | intro _ _ | simp
  · repeat' first | with_reducible rfl | (simp; done) | split | refine (foldl_keeps State.settings _ ?_ _ _).trans ?_ | intro _ _ | simp
  · repeat' first | with_reducible rfl | (simp; done) | split | refine (foldl_keeps State.pending _ ?_ _ _).trans ?_ | intro _ _ | simp

@[simp] theorem State.serveIdle_frame (s : State) (b : BeamNo) :
    (s.serveIdle b).clock = s.clock ∧ (s.serveIdle b).handed = s.handed ∧ (s.serveIdle b).registry = s.registry ∧
    (s.serveIdle b).access = s.access ∧ (s.serveIdle b).pool = s.pool ∧ (s.serveIdle b).downlink = s.downlink ∧
    (s.serveIdle b).cranes = s.cranes ∧ (s.serveIdle b).reefer = s.reefer ∧ (s.serveIdle b).settings = s.settings ∧
    (s.serveIdle b).pending = s.pending := by
  simp only [State.serveIdle] <;> (repeat' split) <;> simp

@[simp] theorem State.serveOpen_frame (s : State) (b : BeamNo) :
    (s.serveOpen b).clock = s.clock ∧ (s.serveOpen b).handed = s.handed ∧ (s.serveOpen b).registry = s.registry ∧
    (s.serveOpen b).access = s.access ∧ (s.serveOpen b).pool = s.pool ∧ (s.serveOpen b).downlink = s.downlink ∧
    (s.serveOpen b).cranes = s.cranes ∧ (s.serveOpen b).reefer = s.reefer ∧ (s.serveOpen b).settings = s.settings ∧
    (s.serveOpen b).pending = s.pending := by
  simp only [State.serveOpen] <;> (repeat' split) <;> simp

@[simp] theorem State.trySweep_frame (s : State) (h : HeadNo) :
    (s.trySweep h).clock = s.clock ∧ (s.trySweep h).links = s.links ∧ (s.trySweep h).handed = s.handed ∧
    (s.trySweep h).registry = s.registry ∧ (s.trySweep h).access = s.access ∧ (s.trySweep h).pool = s.pool ∧
    (s.trySweep h).downlink = s.downlink ∧ (s.trySweep h).cranes = s.cranes ∧ (s.trySweep h).reefer = s.reefer ∧
    (s.trySweep h).settings = s.settings ∧ (s.trySweep h).pending = s.pending := by
  simp only [State.trySweep] <;> (repeat' split) <;> simp

@[simp] theorem State.becameIdle_frame (s : State) (b : BeamNo) :
    (s.becameIdle b).clock = s.clock ∧ (s.becameIdle b).handed = s.handed ∧ (s.becameIdle b).registry = s.registry ∧
    (s.becameIdle b).access = s.access ∧ (s.becameIdle b).pool = s.pool ∧ (s.becameIdle b).downlink = s.downlink ∧
    (s.becameIdle b).cranes = s.cranes ∧ (s.becameIdle b).reefer = s.reefer ∧ (s.becameIdle b).settings = s.settings ∧
    (s.becameIdle b).pending = s.pending := by
  simp only [State.becameIdle] <;> (repeat' split) <;> simp

@[simp] theorem State.raiseLost_frame (s : State) (b : BeamNo) (r : LossReason) :
    (s.raiseLost b r).clock = s.clock ∧ (s.raiseLost b r).handed = s.handed ∧ (s.raiseLost b r).registry = s.registry ∧
    (s.raiseLost b r).access = s.access ∧ (s.raiseLost b r).beamCtl = s.beamCtl ∧ (s.raiseLost b r).pool = s.pool ∧
    (s.raiseLost b r).downlink = s.downlink ∧ (s.raiseLost b r).cranes = s.cranes ∧
    (s.raiseLost b r).reefer = s.reefer ∧ (s.raiseLost b r).settings = s.settings ∧
    (s.raiseLost b r).pending = s.pending := by
  simp only [State.raiseLost] <;> (repeat' split) <;> simp

@[simp] theorem State.closeBeam_frame (s : State) (b : BeamNo) (r : Option LossReason) :
    (s.closeBeam b r).clock = s.clock ∧ (s.closeBeam b r).handed = s.handed ∧ (s.closeBeam b r).registry = s.registry ∧
    (s.closeBeam b r).access = s.access ∧ (s.closeBeam b r).pool = s.pool ∧ (s.closeBeam b r).downlink = s.downlink ∧
    (s.closeBeam b r).cranes = s.cranes ∧ (s.closeBeam b r).reefer = s.reefer ∧
    (s.closeBeam b r).settings = s.settings ∧ (s.closeBeam b r).pending = s.pending := by
  simp only [State.closeBeam] <;> (repeat' split) <;> simp

@[simp] theorem State.burstEnded_frame (s : State) (b : BeamNo) (l : LinkNo) :
    (s.burstEnded b l).clock = s.clock ∧ (s.burstEnded b l).handed = s.handed ∧
    (s.burstEnded b l).registry = s.registry ∧ (s.burstEnded b l).access = s.access ∧
    (s.burstEnded b l).pool = s.pool ∧ (s.burstEnded b l).downlink = s.downlink ∧
    (s.burstEnded b l).cranes = s.cranes ∧ (s.burstEnded b l).reefer = s.reefer ∧
    (s.burstEnded b l).settings = s.settings ∧ (s.burstEnded b l).pending = s.pending := by
  simp only [State.burstEnded] <;> (repeat' split) <;> simp

@[simp] theorem State.endBurst_frame (s : State) (b : BeamNo) (u : Burst) (o : Nat → FrameOutcome) :
    (s.endBurst b u o).clock = s.clock ∧ (s.endBurst b u o).handed = s.handed ∧
    (s.endBurst b u o).registry = s.registry ∧ (s.endBurst b u o).access = s.access ∧
    (s.endBurst b u o).reefer = s.reefer ∧ (s.endBurst b u o).settings = s.settings ∧
    (s.endBurst b u o).pending = s.pending := by
  simp only [State.endBurst] <;> (repeat' split) <;> simp

@[simp] theorem State.forcedReturn_frame (s : State) (b : BeamNo) (u : Burst) :
    (s.forcedReturn b u).clock = s.clock ∧ (s.forcedReturn b u).handed = s.handed ∧
    (s.forcedReturn b u).registry = s.registry ∧ (s.forcedReturn b u).access = s.access ∧
    (s.forcedReturn b u).coverage = s.coverage ∧ (s.forcedReturn b u).reefer = s.reefer ∧
    (s.forcedReturn b u).settings = s.settings ∧ (s.forcedReturn b u).pending = s.pending := by
  simp only [State.forcedReturn] <;> (repeat' split) <;> simp

@[simp] theorem State.loseBeam_frame (s : State) (b : BeamNo) (g : SegNo) (r : LossReason) :
    (s.loseBeam b g r).clock = s.clock ∧ (s.loseBeam b g r).handed = s.handed ∧
    (s.loseBeam b g r).registry = s.registry ∧ (s.loseBeam b g r).access = s.access ∧
    (s.loseBeam b g r).pool = s.pool ∧ (s.loseBeam b g r).downlink = s.downlink ∧
    (s.loseBeam b g r).cranes = s.cranes ∧ (s.loseBeam b g r).reefer = s.reefer ∧
    (s.loseBeam b g r).settings = s.settings ∧ (s.loseBeam b g r).pending = s.pending := by
  simp only [State.loseBeam] <;> (repeat' split) <;> simp

@[simp] theorem State.cellLost_frame (s : State) (h : HeadNo) (g : SegNo) (r : LossReason) :
    (s.cellLost h g r).clock = s.clock ∧ (s.cellLost h g r).handed = s.handed ∧
    (s.cellLost h g r).registry = s.registry ∧ (s.cellLost h g r).access = s.access ∧
    (s.cellLost h g r).pool = s.pool ∧ (s.cellLost h g r).downlink = s.downlink ∧
    (s.cellLost h g r).cranes = s.cranes ∧ (s.cellLost h g r).reefer = s.reefer ∧
    (s.cellLost h g r).settings = s.settings ∧ (s.cellLost h g r).pending = s.pending := by
  simp only [State.cellLost] <;> (repeat' split) <;> simp

@[simp] theorem State.sample_frame (s : State) (h : HeadNo) (g : SegNo) (m k : Nat) (c : Fin 24) :
    (s.sample h g m k c).clock = s.clock ∧ (s.sample h g m k c).handed = s.handed ∧
    (s.sample h g m k c).registry = s.registry ∧ (s.sample h g m k c).access = s.access ∧
    (s.sample h g m k c).settings = s.settings ∧ (s.sample h g m k c).pending = s.pending := by
  simp only [State.sample] <;> (repeat' split) <;> simp

@[simp] theorem State.burstSample_frame (s : State) (b : BeamNo) (g : Option SegNo) (x y : Nat) :
    (s.burstSample b g x y).clock = s.clock ∧ (s.burstSample b g x y).handed = s.handed ∧
    (s.burstSample b g x y).registry = s.registry ∧ (s.burstSample b g x y).access = s.access ∧
    (s.burstSample b g x y).settings = s.settings ∧ (s.burstSample b g x y).pending = s.pending := by
  simp only [State.burstSample] <;> (repeat' split) <;> simp

@[simp] theorem State.raiseHeadState_frame (s : State) (h : HeadNo) :
    (s.raiseHeadState h).clock = s.clock ∧ (s.raiseHeadState h).handed = s.handed ∧
    (s.raiseHeadState h).registry = s.registry ∧ (s.raiseHeadState h).access = s.access ∧
    (s.raiseHeadState h).coverage = s.coverage ∧ (s.raiseHeadState h).beamCtl = s.beamCtl ∧
    (s.raiseHeadState h).pool = s.pool ∧ (s.raiseHeadState h).downlink = s.downlink ∧
    (s.raiseHeadState h).cranes = s.cranes ∧ (s.raiseHeadState h).reefer = s.reefer ∧
    (s.raiseHeadState h).settings = s.settings ∧ (s.raiseHeadState h).pending = s.pending := by
  simp only [State.raiseHeadState] <;> (repeat' split) <;> simp

@[simp] theorem State.beamFault_frame (s : State) (b : BeamNo) :
    (s.beamFault b).clock = s.clock ∧ (s.beamFault b).handed = s.handed ∧ (s.beamFault b).registry = s.registry ∧
    (s.beamFault b).access = s.access ∧ (s.beamFault b).reefer = s.reefer ∧ (s.beamFault b).settings = s.settings ∧
    (s.beamFault b).pending = s.pending := by
  refine ⟨?_, ?_, ?_, ?_, ?_, ?_, ?_⟩ <;> simp only [State.beamFault]
  · repeat' first | with_reducible rfl | (simp; done) | split | refine (foldl_keeps State.clock _ ?_ _ _).trans ?_ | intro _ _ | simp
  · repeat' first | with_reducible rfl | (simp; done) | split | refine (foldl_keeps State.handed _ ?_ _ _).trans ?_ | intro _ _ | simp
  · repeat' first | with_reducible rfl | (simp; done) | split | refine (foldl_keeps State.registry _ ?_ _ _).trans ?_ | intro _ _ | simp
  · repeat' first | with_reducible rfl | (simp; done) | split | refine (foldl_keeps State.access _ ?_ _ _).trans ?_ | intro _ _ | simp
  · repeat' first | with_reducible rfl | (simp; done) | split | refine (foldl_keeps State.reefer _ ?_ _ _).trans ?_ | intro _ _ | simp
  · repeat' first | with_reducible rfl | (simp; done) | split | refine (foldl_keeps State.settings _ ?_ _ _).trans ?_ | intro _ _ | simp
  · repeat' first | with_reducible rfl | (simp; done) | split | refine (foldl_keeps State.pending _ ?_ _ _).trans ?_ | intro _ _ | simp

@[simp] theorem State.headFault_frame (s : State) (h : HeadNo) :
    (s.headFault h).clock = s.clock ∧ (s.headFault h).handed = s.handed ∧ (s.headFault h).registry = s.registry ∧
    (s.headFault h).access = s.access ∧ (s.headFault h).settings = s.settings ∧ (s.headFault h).pending = s.pending := by
  simp only [State.headFault] <;> (repeat' split) <;> simp

@[simp] theorem State.decodeRequest_frame (s : State) (r : ReqRef) (q : RawRequest) :
    (s.decodeRequest r q).clock = s.clock ∧ (s.decodeRequest r q).registry = s.registry ∧
    (s.decodeRequest r q).access = s.access ∧ (s.decodeRequest r q).coverage = s.coverage ∧
    (s.decodeRequest r q).beamCtl = s.beamCtl ∧ (s.decodeRequest r q).pool = s.pool ∧
    (s.decodeRequest r q).downlink = s.downlink ∧ (s.decodeRequest r q).cranes = s.cranes ∧
    (s.decodeRequest r q).reefer = s.reefer ∧ (s.decodeRequest r q).settings = s.settings ∧
    (s.decodeRequest r q).pending = s.pending := by
  simp only [State.decodeRequest] <;> (repeat' split) <;> simp [State.onLink]

@[simp] theorem State.takeRequest_frame (s : State) (l : LinkNo) (q : RawRequest) :
    (s.takeRequest l q).clock = s.clock ∧ (s.takeRequest l q).registry = s.registry ∧
    (s.takeRequest l q).access = s.access ∧ (s.takeRequest l q).coverage = s.coverage ∧
    (s.takeRequest l q).beamCtl = s.beamCtl ∧ (s.takeRequest l q).pool = s.pool ∧
    (s.takeRequest l q).downlink = s.downlink ∧ (s.takeRequest l q).cranes = s.cranes ∧
    (s.takeRequest l q).reefer = s.reefer ∧ (s.takeRequest l q).settings = s.settings ∧
    (s.takeRequest l q).pending = s.pending := by
  simp only [State.takeRequest] <;> (repeat' split) <;> simp

@[simp] theorem State.setAccessEntry_frame (s : State) (l : LinkNo) (n : ListName) (i : Fin 128) (x : AccessEntry) :
    (s.setAccessEntry l n i x).clock = s.clock ∧ (s.setAccessEntry l n i x).links = s.links ∧
    (s.setAccessEntry l n i x).handed = s.handed ∧ (s.setAccessEntry l n i x).registry = s.registry ∧
    (s.setAccessEntry l n i x).coverage = s.coverage ∧ (s.setAccessEntry l n i x).beamCtl = s.beamCtl ∧
    (s.setAccessEntry l n i x).pool = s.pool ∧ (s.setAccessEntry l n i x).downlink = s.downlink ∧
    (s.setAccessEntry l n i x).cranes = s.cranes ∧ (s.setAccessEntry l n i x).reefer = s.reefer ∧
    (s.setAccessEntry l n i x).settings = s.settings ∧ (s.setAccessEntry l n i x).pending = s.pending := by
  simp only [State.setAccessEntry] <;> (repeat' split) <;> simp

@[simp] theorem State.invalidateOwn_frame (s : State) (l : LinkNo) :
    (s.invalidateOwn l).clock = s.clock ∧ (s.invalidateOwn l).links = s.links ∧ (s.invalidateOwn l).handed = s.handed ∧
    (s.invalidateOwn l).registry = s.registry ∧ (s.invalidateOwn l).coverage = s.coverage ∧
    (s.invalidateOwn l).beamCtl = s.beamCtl ∧ (s.invalidateOwn l).pool = s.pool ∧
    (s.invalidateOwn l).downlink = s.downlink ∧ (s.invalidateOwn l).cranes = s.cranes ∧
    (s.invalidateOwn l).reefer = s.reefer ∧ (s.invalidateOwn l).settings = s.settings ∧
    (s.invalidateOwn l).pending = s.pending := by
  simp only [State.invalidateOwn] <;> (repeat' split) <;> simp

@[simp] theorem State.placeCrane_frame (s : State) (e : EntryNo) (g : Half) :
    (s.placeCrane e g).clock = s.clock ∧ (s.placeCrane e g).links = s.links ∧ (s.placeCrane e g).handed = s.handed ∧
    (s.placeCrane e g).access = s.access ∧ (s.placeCrane e g).coverage = s.coverage ∧
    (s.placeCrane e g).beamCtl = s.beamCtl ∧ (s.placeCrane e g).pool = s.pool ∧
    (s.placeCrane e g).downlink = s.downlink ∧ (s.placeCrane e g).reefer = s.reefer ∧
    (s.placeCrane e g).settings = s.settings ∧ (s.placeCrane e g).pending = s.pending := by
  simp only [State.placeCrane] <;> (repeat' split) <;> simp

@[simp] theorem State.copyTelemetry_frame (s : State) (m : LinkSet) (t : TelemetryCopy) :
    (s.copyTelemetry m t).clock = s.clock ∧ (s.copyTelemetry m t).handed = s.handed ∧
    (s.copyTelemetry m t).registry = s.registry ∧ (s.copyTelemetry m t).access = s.access ∧
    (s.copyTelemetry m t).coverage = s.coverage ∧ (s.copyTelemetry m t).beamCtl = s.beamCtl ∧
    (s.copyTelemetry m t).downlink = s.downlink ∧ (s.copyTelemetry m t).reefer = s.reefer ∧
    (s.copyTelemetry m t).settings = s.settings ∧ (s.copyTelemetry m t).pending = s.pending := by
  refine ⟨?_, ?_, ?_, ?_, ?_, ?_, ?_, ?_, ?_, ?_⟩ <;> simp only [State.copyTelemetry]
  · repeat' first | with_reducible rfl | (simp; done) | split | refine (foldl_keeps State.clock _ ?_ _ _).trans ?_ | intro _ _ | simp
  · repeat' first | with_reducible rfl | (simp; done) | split | refine (foldl_keeps State.handed _ ?_ _ _).trans ?_ | intro _ _ | simp
  · repeat' first | with_reducible rfl | (simp; done) | split | refine (foldl_keeps State.registry _ ?_ _ _).trans ?_ | intro _ _ | simp
  · repeat' first | with_reducible rfl | (simp; done) | split | refine (foldl_keeps State.access _ ?_ _ _).trans ?_ | intro _ _ | simp
  · repeat' first | with_reducible rfl | (simp; done) | split | refine (foldl_keeps State.coverage _ ?_ _ _).trans ?_ | intro _ _ | simp
  · repeat' first | with_reducible rfl | (simp; done) | split | refine (foldl_keeps State.beamCtl _ ?_ _ _).trans ?_ | intro _ _ | simp
  · repeat' first | with_reducible rfl | (simp; done) | split | refine (foldl_keeps State.downlink _ ?_ _ _).trans ?_ | intro _ _ | simp
  · repeat' first | with_reducible rfl | (simp; done) | split | refine (foldl_keeps State.reefer _ ?_ _ _).trans ?_ | intro _ _ | simp
  · repeat' first | with_reducible rfl | (simp; done) | split | refine (foldl_keeps State.settings _ ?_ _ _).trans ?_ | intro _ _ | simp
  · repeat' first | with_reducible rfl | (simp; done) | split | refine (foldl_keeps State.pending _ ?_ _ _).trans ?_ | intro _ _ | simp

@[simp] theorem State.takeTelemetry_frame (s : State) (e : EntryNo) (c : CraneNo) (b : Bool) (f : List Byte) :
    (s.takeTelemetry e c b f).clock = s.clock ∧ (s.takeTelemetry e c b f).handed = s.handed ∧
    (s.takeTelemetry e c b f).access = s.access ∧ (s.takeTelemetry e c b f).coverage = s.coverage ∧
    (s.takeTelemetry e c b f).beamCtl = s.beamCtl ∧ (s.takeTelemetry e c b f).reefer = s.reefer ∧
    (s.takeTelemetry e c b f).settings = s.settings ∧ (s.takeTelemetry e c b f).pending = s.pending := by
  simp only [State.takeTelemetry] <;> (repeat' split) <;> simp

@[simp] theorem State.expireWatch_frame (s : State) (c : CraneNo) :
    (s.expireWatch c).clock = s.clock ∧ (s.expireWatch c).handed = s.handed ∧ (s.expireWatch c).registry = s.registry ∧
    (s.expireWatch c).access = s.access ∧ (s.expireWatch c).coverage = s.coverage ∧
    (s.expireWatch c).beamCtl = s.beamCtl ∧ (s.expireWatch c).pool = s.pool ∧ (s.expireWatch c).downlink = s.downlink ∧
    (s.expireWatch c).reefer = s.reefer ∧ (s.expireWatch c).settings = s.settings ∧
    (s.expireWatch c).pending = s.pending := by
  simp only [State.expireWatch] <;> (repeat' split) <;> simp

@[simp] theorem State.endCrane_frame (s : State) (c : CraneNo) :
    (s.endCrane c).clock = s.clock ∧ (s.endCrane c).links = s.links ∧ (s.endCrane c).handed = s.handed ∧
    (s.endCrane c).registry = s.registry ∧ (s.endCrane c).access = s.access ∧ (s.endCrane c).coverage = s.coverage ∧
    (s.endCrane c).beamCtl = s.beamCtl ∧ (s.endCrane c).pool = s.pool ∧ (s.endCrane c).downlink = s.downlink ∧
    (s.endCrane c).reefer = s.reefer ∧ (s.endCrane c).settings = s.settings ∧ (s.endCrane c).pending = s.pending := by
  simp only [State.endCrane] <;> (repeat' split) <;> simp

@[simp] theorem State.endSubscriptions_frame (s : State) (l : LinkNo) :
    (s.endSubscriptions l).clock = s.clock ∧ (s.endSubscriptions l).links = s.links ∧
    (s.endSubscriptions l).handed = s.handed ∧ (s.endSubscriptions l).registry = s.registry ∧
    (s.endSubscriptions l).access = s.access ∧ (s.endSubscriptions l).coverage = s.coverage ∧
    (s.endSubscriptions l).beamCtl = s.beamCtl ∧ (s.endSubscriptions l).pool = s.pool ∧
    (s.endSubscriptions l).downlink = s.downlink ∧ (s.endSubscriptions l).reefer = s.reefer ∧
    (s.endSubscriptions l).settings = s.settings ∧ (s.endSubscriptions l).pending = s.pending := by
  simp only [State.endSubscriptions] <;> (repeat' split) <;> simp

@[simp] theorem State.countReading_frame (s : State) (x y : Slot) :
    (s.countReading x y).clock = s.clock ∧ (s.countReading x y).links = s.links ∧
    (s.countReading x y).handed = s.handed ∧ (s.countReading x y).registry = s.registry ∧
    (s.countReading x y).access = s.access ∧ (s.countReading x y).coverage = s.coverage ∧
    (s.countReading x y).beamCtl = s.beamCtl ∧ (s.countReading x y).pool = s.pool ∧
    (s.countReading x y).downlink = s.downlink ∧ (s.countReading x y).cranes = s.cranes ∧
    (s.countReading x y).settings = s.settings ∧ (s.countReading x y).pending = s.pending := by
  have h : ∀ (t : State) (c : Bool) (k : Fin 25),
      (t.clock = s.clock ∧ t.links = s.links ∧ t.handed = s.handed ∧ t.registry = s.registry ∧ t.access = s.access ∧ t.coverage = s.coverage ∧ t.beamCtl = s.beamCtl ∧ t.pool = s.pool ∧ t.downlink = s.downlink ∧ t.cranes = s.cranes ∧ t.settings = s.settings ∧ t.pending = s.pending) →
      ((fun t : State => t.clock = s.clock ∧ t.links = s.links ∧ t.handed = s.handed ∧ t.registry = s.registry ∧ t.access = s.access ∧ t.coverage = s.coverage ∧ t.beamCtl = s.beamCtl ∧ t.pool = s.pool ∧ t.downlink = s.downlink ∧ t.cranes = s.cranes ∧ t.settings = s.settings ∧ t.pending = s.pending)
        (if c then t.bumpReef k else t)) := by
    intro t c k ht; cases c <;> simpa using ht
  exact h _ _ _ (h _ _ _ (h _ _ _ (h _ _ _ (h _ _ _ (h _ _ _ (h _ _ _ (h _ _ _ (h s _ _ (by simp)))))))))

@[simp] theorem State.releaseSlot_frame (s : State) (r : RackNo) (p : PlugNo) :
    (s.releaseSlot r p).clock = s.clock ∧ (s.releaseSlot r p).links = s.links ∧ (s.releaseSlot r p).handed = s.handed ∧
    (s.releaseSlot r p).registry = s.registry ∧ (s.releaseSlot r p).access = s.access ∧
    (s.releaseSlot r p).coverage = s.coverage ∧ (s.releaseSlot r p).beamCtl = s.beamCtl ∧
    (s.releaseSlot r p).pool = s.pool ∧ (s.releaseSlot r p).downlink = s.downlink ∧
    (s.releaseSlot r p).cranes = s.cranes ∧ (s.releaseSlot r p).settings = s.settings ∧
    (s.releaseSlot r p).pending = s.pending := by
  simp only [State.releaseSlot] <;> (repeat' split) <;> simp

@[simp] theorem State.applyReading_frame (s : State) (r : RackNo) (q : Reading) :
    (s.applyReading r q).clock = s.clock ∧ (s.applyReading r q).handed = s.handed ∧
    (s.applyReading r q).registry = s.registry ∧ (s.applyReading r q).access = s.access ∧
    (s.applyReading r q).coverage = s.coverage ∧ (s.applyReading r q).beamCtl = s.beamCtl ∧
    (s.applyReading r q).pool = s.pool ∧ (s.applyReading r q).downlink = s.downlink ∧
    (s.applyReading r q).cranes = s.cranes ∧ (s.applyReading r q).settings = s.settings ∧
    (s.applyReading r q).pending = s.pending := by
  simp only [State.applyReading] <;> (repeat' split) <;> simp

@[simp] theorem State.offerDigests_frame (s : State) (r : RackNo) (d : Digest) (c : Bool) :
    (s.offerDigests r d c).clock = s.clock ∧ (s.offerDigests r d c).handed = s.handed ∧
    (s.offerDigests r d c).registry = s.registry ∧ (s.offerDigests r d c).access = s.access ∧
    (s.offerDigests r d c).coverage = s.coverage ∧ (s.offerDigests r d c).beamCtl = s.beamCtl ∧
    (s.offerDigests r d c).downlink = s.downlink ∧ (s.offerDigests r d c).cranes = s.cranes ∧
    (s.offerDigests r d c).settings = s.settings ∧ (s.offerDigests r d c).pending = s.pending := by
  refine ⟨?_, ?_, ?_, ?_, ?_, ?_, ?_, ?_, ?_, ?_⟩ <;> simp only [State.offerDigests]
  · repeat' first | with_reducible rfl | (simp; done) | split | refine (foldl_keeps State.clock _ ?_ _ _).trans ?_ | intro _ _ | simp
  · repeat' first | with_reducible rfl | (simp; done) | split | refine (foldl_keeps State.handed _ ?_ _ _).trans ?_ | intro _ _ | simp
  · repeat' first | with_reducible rfl | (simp; done) | split | refine (foldl_keeps State.registry _ ?_ _ _).trans ?_ | intro _ _ | simp
  · repeat' first | with_reducible rfl | (simp; done) | split | refine (foldl_keeps State.access _ ?_ _ _).trans ?_ | intro _ _ | simp
  · repeat' first | with_reducible rfl | (simp; done) | split | refine (foldl_keeps State.coverage _ ?_ _ _).trans ?_ | intro _ _ | simp
  · repeat' first | with_reducible rfl | (simp; done) | split | refine (foldl_keeps State.beamCtl _ ?_ _ _).trans ?_ | intro _ _ | simp
  · repeat' first | with_reducible rfl | (simp; done) | split | refine (foldl_keeps State.downlink _ ?_ _ _).trans ?_ | intro _ _ | simp
  · repeat' first | with_reducible rfl | (simp; done) | split | refine (foldl_keeps State.cranes _ ?_ _ _).trans ?_ | intro _ _ | simp
  · repeat' first | with_reducible rfl | (simp; done) | split | refine (foldl_keeps State.settings _ ?_ _ _).trans ?_ | intro _ _ | simp
  · repeat' first | with_reducible rfl | (simp; done) | split | refine (foldl_keeps State.pending _ ?_ _ _).trans ?_ | intro _ _ | simp

@[simp] theorem State.acceptReport_frame (s : State) (e : EntryNo) (r : RackNo) (k : RackRec) (c : Byte) (q : List Reading) :
    (s.acceptReport e r k c q).clock = s.clock ∧ (s.acceptReport e r k c q).handed = s.handed ∧
    (s.acceptReport e r k c q).access = s.access ∧ (s.acceptReport e r k c q).coverage = s.coverage ∧
    (s.acceptReport e r k c q).beamCtl = s.beamCtl ∧ (s.acceptReport e r k c q).downlink = s.downlink ∧
    (s.acceptReport e r k c q).cranes = s.cranes ∧ (s.acceptReport e r k c q).settings = s.settings ∧
    (s.acceptReport e r k c q).pending = s.pending := by
  refine ⟨?_, ?_, ?_, ?_, ?_, ?_, ?_, ?_, ?_⟩ <;> simp only [State.acceptReport]
  · repeat' first | with_reducible rfl | (simp; done) | split | refine (foldl_keeps State.clock _ ?_ _ _).trans ?_ | intro _ _ | simp
  · repeat' first | with_reducible rfl | (simp; done) | split | refine (foldl_keeps State.handed _ ?_ _ _).trans ?_ | intro _ _ | simp
  · repeat' first | with_reducible rfl | (simp; done) | split | refine (foldl_keeps State.access _ ?_ _ _).trans ?_ | intro _ _ | simp
  · repeat' first | with_reducible rfl | (simp; done) | split | refine (foldl_keeps State.coverage _ ?_ _ _).trans ?_ | intro _ _ | simp
  · repeat' first | with_reducible rfl | (simp; done) | split | refine (foldl_keeps State.beamCtl _ ?_ _ _).trans ?_ | intro _ _ | simp
  · repeat' first | with_reducible rfl | (simp; done) | split | refine (foldl_keeps State.downlink _ ?_ _ _).trans ?_ | intro _ _ | simp
  · repeat' first | with_reducible rfl | (simp; done) | split | refine (foldl_keeps State.cranes _ ?_ _ _).trans ?_ | intro _ _ | simp
  · repeat' first | with_reducible rfl | (simp; done) | split | refine (foldl_keeps State.settings _ ?_ _ _).trans ?_ | intro _ _ | simp
  · repeat' first | with_reducible rfl | (simp; done) | split | refine (foldl_keeps State.pending _ ?_ _ _).trans ?_ | intro _ _ | simp

@[simp] theorem State.takeReport_frame (s : State) (e : EntryNo) (r : RackNo) (f : List Byte) :
    (s.takeReport e r f).clock = s.clock ∧ (s.takeReport e r f).handed = s.handed ∧
    (s.takeReport e r f).access = s.access ∧ (s.takeReport e r f).coverage = s.coverage ∧
    (s.takeReport e r f).beamCtl = s.beamCtl ∧ (s.takeReport e r f).downlink = s.downlink ∧
    (s.takeReport e r f).cranes = s.cranes ∧ (s.takeReport e r f).settings = s.settings ∧
    (s.takeReport e r f).pending = s.pending := by
  simp only [State.takeReport] <;> (repeat' split) <;> simp

@[simp] theorem State.endRack_frame (s : State) (r : RackNo) :
    (s.endRack r).clock = s.clock ∧ (s.endRack r).links = s.links ∧ (s.endRack r).handed = s.handed ∧
    (s.endRack r).registry = s.registry ∧ (s.endRack r).access = s.access ∧ (s.endRack r).coverage = s.coverage ∧
    (s.endRack r).beamCtl = s.beamCtl ∧ (s.endRack r).pool = s.pool ∧ (s.endRack r).downlink = s.downlink ∧
    (s.endRack r).cranes = s.cranes ∧ (s.endRack r).settings = s.settings ∧ (s.endRack r).pending = s.pending := by
  simp only [State.endRack] <;> (repeat' split) <;> simp

@[simp] theorem State.acknowledgeSlot_frame (s : State) (r : RackNo) (p : PlugNo) :
    (s.acknowledgeSlot r p).clock = s.clock ∧ (s.acknowledgeSlot r p).links = s.links ∧
    (s.acknowledgeSlot r p).handed = s.handed ∧ (s.acknowledgeSlot r p).registry = s.registry ∧
    (s.acknowledgeSlot r p).access = s.access ∧ (s.acknowledgeSlot r p).coverage = s.coverage ∧
    (s.acknowledgeSlot r p).beamCtl = s.beamCtl ∧ (s.acknowledgeSlot r p).pool = s.pool ∧
    (s.acknowledgeSlot r p).downlink = s.downlink ∧ (s.acknowledgeSlot r p).cranes = s.cranes ∧
    (s.acknowledgeSlot r p).settings = s.settings ∧ (s.acknowledgeSlot r p).pending = s.pending := by
  simp only [State.acknowledgeSlot] <;> (repeat' split) <;> simp

@[simp] theorem State.enrollEntry_frame (s : State) (e : EntryNo) (q : EnrollReq) (n : Option RackNo) :
    (s.enrollEntry e q n).clock = s.clock ∧ (s.enrollEntry e q n).links = s.links ∧
    (s.enrollEntry e q n).handed = s.handed ∧ (s.enrollEntry e q n).access = s.access ∧
    (s.enrollEntry e q n).coverage = s.coverage ∧ (s.enrollEntry e q n).beamCtl = s.beamCtl ∧
    (s.enrollEntry e q n).pool = s.pool ∧ (s.enrollEntry e q n).downlink = s.downlink ∧
    (s.enrollEntry e q n).cranes = s.cranes ∧ (s.enrollEntry e q n).reefer = s.reefer ∧
    (s.enrollEntry e q n).settings = s.settings ∧ (s.enrollEntry e q n).pending = s.pending := by
  simp only [State.enrollEntry] <;> (repeat' split) <;> simp

@[simp] theorem State.startRecord_frame (s : State) (e : EntryNo) (q : EnrollReq) (n : Option RackNo) :
    (s.startRecord e q n).clock = s.clock ∧ (s.startRecord e q n).links = s.links ∧
    (s.startRecord e q n).handed = s.handed ∧ (s.startRecord e q n).registry = s.registry ∧
    (s.startRecord e q n).access = s.access ∧ (s.startRecord e q n).coverage = s.coverage ∧
    (s.startRecord e q n).beamCtl = s.beamCtl ∧ (s.startRecord e q n).pool = s.pool ∧
    (s.startRecord e q n).downlink = s.downlink ∧ (s.startRecord e q n).settings = s.settings ∧
    (s.startRecord e q n).pending = s.pending := by
  simp only [State.startRecord] <;> (repeat' split) <;> simp

@[simp] theorem State.withdrawEntry_frame (s : State) (e : EntryNo) :
    (s.withdrawEntry e).clock = s.clock ∧ (s.withdrawEntry e).links = s.links ∧ (s.withdrawEntry e).handed = s.handed ∧
    (s.withdrawEntry e).access = s.access ∧ (s.withdrawEntry e).coverage = s.coverage ∧
    (s.withdrawEntry e).beamCtl = s.beamCtl ∧ (s.withdrawEntry e).pool = s.pool ∧
    (s.withdrawEntry e).downlink = s.downlink ∧ (s.withdrawEntry e).cranes = s.cranes ∧
    (s.withdrawEntry e).reefer = s.reefer ∧ (s.withdrawEntry e).settings = s.settings ∧
    (s.withdrawEntry e).pending = s.pending := by
  simp only [State.withdrawEntry] <;> (repeat' split) <;> simp

@[simp] theorem State.moveEntry_frame (s : State) (e : EntryNo) (g : SegNo) :
    (s.moveEntry e g).clock = s.clock ∧ (s.moveEntry e g).handed = s.handed ∧ (s.moveEntry e g).access = s.access ∧
    (s.moveEntry e g).coverage = s.coverage ∧ (s.moveEntry e g).beamCtl = s.beamCtl ∧
    (s.moveEntry e g).settings = s.settings ∧ (s.moveEntry e g).pending = s.pending := by
  simp only [State.moveEntry] <;> (repeat' split) <;> simp

@[simp] theorem State.takeUnknown_frame (s : State) (l : LinkNo) (a : Word) :
    (s.takeUnknown l a).clock = s.clock ∧ (s.takeUnknown l a).handed = s.handed ∧
    (s.takeUnknown l a).access = s.access ∧ (s.takeUnknown l a).coverage = s.coverage ∧
    (s.takeUnknown l a).beamCtl = s.beamCtl ∧ (s.takeUnknown l a).pool = s.pool ∧
    (s.takeUnknown l a).downlink = s.downlink ∧ (s.takeUnknown l a).cranes = s.cranes ∧
    (s.takeUnknown l a).reefer = s.reefer ∧ (s.takeUnknown l a).settings = s.settings ∧
    (s.takeUnknown l a).pending = s.pending := by
  simp only [State.takeUnknown] <;> (repeat' split) <;> simp

@[simp] theorem State.markCell_frame (s : State) (h : HeadNo) (g : SegNo) (c : Cell) :
    (s.markCell h g c).clock = s.clock ∧ (s.markCell h g c).handed = s.handed ∧
    (s.markCell h g c).registry = s.registry ∧ (s.markCell h g c).access = s.access ∧
    (s.markCell h g c).settings = s.settings ∧ (s.markCell h g c).pending = s.pending := by
  simp only [State.markCell] <;> (repeat' split) <;> simp

@[simp] theorem State.unmarkCell_frame (s : State) (h : HeadNo) (g : SegNo) (c : Cell) :
    (s.unmarkCell h g c).clock = s.clock ∧ (s.unmarkCell h g c).handed = s.handed ∧
    (s.unmarkCell h g c).registry = s.registry ∧ (s.unmarkCell h g c).access = s.access ∧
    (s.unmarkCell h g c).beamCtl = s.beamCtl ∧ (s.unmarkCell h g c).settings = s.settings ∧
    (s.unmarkCell h g c).pending = s.pending := by
  simp only [State.unmarkCell] <;> (repeat' split) <;> simp

@[simp] theorem State.steerOrWait_frame (s : State) (q : OpenReq) (g : SegNo) (o : Bool) :
    (s.steerOrWait q g o).clock = s.clock ∧ (s.steerOrWait q g o).handed = s.handed ∧
    (s.steerOrWait q g o).registry = s.registry ∧ (s.steerOrWait q g o).access = s.access ∧
    (s.steerOrWait q g o).pool = s.pool ∧ (s.steerOrWait q g o).downlink = s.downlink ∧
    (s.steerOrWait q g o).cranes = s.cranes ∧ (s.steerOrWait q g o).reefer = s.reefer ∧
    (s.steerOrWait q g o).settings = s.settings ∧ (s.steerOrWait q g o).pending = s.pending := by
  simp only [State.steerOrWait] <;> (repeat' split) <;> simp

@[simp] theorem State.leaveBeam_frame (s : State) (b : BeamNo) (l : LinkNo) :
    (s.leaveBeam b l).clock = s.clock ∧ (s.leaveBeam b l).handed = s.handed ∧ (s.leaveBeam b l).registry = s.registry ∧
    (s.leaveBeam b l).access = s.access ∧ (s.leaveBeam b l).pool = s.pool ∧ (s.leaveBeam b l).downlink = s.downlink ∧
    (s.leaveBeam b l).cranes = s.cranes ∧ (s.leaveBeam b l).reefer = s.reefer ∧
    (s.leaveBeam b l).settings = s.settings ∧ (s.leaveBeam b l).pending = s.pending := by
  refine ⟨?_, ?_, ?_, ?_, ?_, ?_, ?_, ?_, ?_, ?_⟩ <;> simp only [State.leaveBeam]
  · repeat' first | with_reducible rfl | (simp; done) | split | refine (foldl_keeps State.clock _ ?_ _ _).trans ?_ | intro _ _ | simp
  · repeat' first | with_reducible rfl | (simp; done) | split | refine (foldl_keeps State.handed _ ?_ _ _).trans ?_ | intro _ _ | simp
  · repeat' first | with_reducible rfl | (simp; done) | split | refine (foldl_keeps State.registry _ ?_ _ _).trans ?_ | intro _ _ | simp
  · repeat' first | with_reducible rfl | (simp; done) | split | refine (foldl_keeps State.access _ ?_ _ _).trans ?_ | intro _ _ | simp
  · repeat' first | with_reducible rfl | (simp; done) | split | refine (foldl_keeps State.pool _ ?_ _ _).trans ?_ | intro _ _ | simp
  · repeat' first | with_reducible rfl | (simp; done) | split | refine (foldl_keeps State.downlink _ ?_ _ _).trans ?_ | intro _ _ | simp
  · repeat' first | with_reducible rfl | (simp; done) | split | refine (foldl_keeps State.cranes _ ?_ _ _).trans ?_ | intro _ _ | simp
  · repeat' first | with_reducible rfl | (simp; done) | split | refine (foldl_keeps State.reefer _ ?_ _ _).trans ?_ | intro _ _ | simp
  · repeat' first | with_reducible rfl | (simp; done) | split | refine (foldl_keeps State.settings _ ?_ _ _).trans ?_ | intro _ _ | simp
  · repeat' first | with_reducible rfl | (simp; done) | split | refine (foldl_keeps State.pending _ ?_ _ _).trans ?_ | intro _ _ | simp

@[simp] theorem State.setSurvey_frame (s : State) (h : HeadNo) (v : SurveyStatus) :
    (s.setSurvey h v).clock = s.clock ∧ (s.setSurvey h v).links = s.links ∧ (s.setSurvey h v).handed = s.handed ∧
    (s.setSurvey h v).registry = s.registry ∧ (s.setSurvey h v).access = s.access ∧
    (s.setSurvey h v).coverage = s.coverage ∧ (s.setSurvey h v).pool = s.pool ∧
    (s.setSurvey h v).downlink = s.downlink ∧ (s.setSurvey h v).cranes = s.cranes ∧
    (s.setSurvey h v).reefer = s.reefer ∧ (s.setSurvey h v).settings = s.settings ∧
    (s.setSurvey h v).pending = s.pending := by
  simp only [State.setSurvey] <;> (repeat' split) <;> simp

@[simp] theorem State.makeDue_frame (s : State) (h : HeadNo) :
    (s.makeDue h).clock = s.clock ∧ (s.makeDue h).links = s.links ∧ (s.makeDue h).handed = s.handed ∧
    (s.makeDue h).registry = s.registry ∧ (s.makeDue h).access = s.access ∧ (s.makeDue h).pool = s.pool ∧
    (s.makeDue h).downlink = s.downlink ∧ (s.makeDue h).cranes = s.cranes ∧ (s.makeDue h).reefer = s.reefer ∧
    (s.makeDue h).settings = s.settings ∧ (s.makeDue h).pending = s.pending := by
  simp only [State.makeDue] <;> (repeat' split) <;> simp

@[simp] theorem State.answerOpened_frame (s : State) (b : BeamNo) (g : SegNo) (q : List OpenReq) :
    (s.answerOpened b g q).clock = s.clock ∧ (s.answerOpened b g q).handed = s.handed ∧
    (s.answerOpened b g q).registry = s.registry ∧ (s.answerOpened b g q).access = s.access ∧
    (s.answerOpened b g q).coverage = s.coverage ∧ (s.answerOpened b g q).beamCtl = s.beamCtl ∧
    (s.answerOpened b g q).pool = s.pool ∧ (s.answerOpened b g q).downlink = s.downlink ∧
    (s.answerOpened b g q).cranes = s.cranes ∧ (s.answerOpened b g q).reefer = s.reefer ∧
    (s.answerOpened b g q).settings = s.settings ∧ (s.answerOpened b g q).pending = s.pending := by
  refine ⟨?_, ?_, ?_, ?_, ?_, ?_, ?_, ?_, ?_, ?_, ?_, ?_⟩ <;> simp only [State.answerOpened]
  · repeat' first | with_reducible rfl | (simp; done) | split | refine (foldl_keeps State.clock _ ?_ _ _).trans ?_ | intro _ _ | simp
  · repeat' first | with_reducible rfl | (simp; done) | split | refine (foldl_keeps State.handed _ ?_ _ _).trans ?_ | intro _ _ | simp
  · repeat' first | with_reducible rfl | (simp; done) | split | refine (foldl_keeps State.registry _ ?_ _ _).trans ?_ | intro _ _ | simp
  · repeat' first | with_reducible rfl | (simp; done) | split | refine (foldl_keeps State.access _ ?_ _ _).trans ?_ | intro _ _ | simp
  · repeat' first | with_reducible rfl | (simp; done) | split | refine (foldl_keeps State.coverage _ ?_ _ _).trans ?_ | intro _ _ | simp
  · repeat' first | with_reducible rfl | (simp; done) | split | refine (foldl_keeps State.beamCtl _ ?_ _ _).trans ?_ | intro _ _ | simp
  · repeat' first | with_reducible rfl | (simp; done) | split | refine (foldl_keeps State.pool _ ?_ _ _).trans ?_ | intro _ _ | simp
  · repeat' first | with_reducible rfl | (simp; done) | split | refine (foldl_keeps State.downlink _ ?_ _ _).trans ?_ | intro _ _ | simp
  · repeat' first | with_reducible rfl | (simp; done) | split | refine (foldl_keeps State.cranes _ ?_ _ _).trans ?_ | intro _ _ | simp
  · repeat' first | with_reducible rfl | (simp; done) | split | refine (foldl_keeps State.reefer _ ?_ _ _).trans ?_ | intro _ _ | simp
  · repeat' first | with_reducible rfl | (simp; done) | split | refine (foldl_keeps State.settings _ ?_ _ _).trans ?_ | intro _ _ | simp
  · repeat' first | with_reducible rfl | (simp; done) | split | refine (foldl_keeps State.pending _ ?_ _ _).trans ?_ | intro _ _ | simp

@[simp] theorem State.steered_frame (s : State) (b : BeamNo) :
    (s.steered b).clock = s.clock ∧ (s.steered b).handed = s.handed ∧ (s.steered b).registry = s.registry ∧
    (s.steered b).access = s.access ∧ (s.steered b).pool = s.pool ∧ (s.steered b).downlink = s.downlink ∧
    (s.steered b).cranes = s.cranes ∧ (s.steered b).reefer = s.reefer ∧ (s.steered b).settings = s.settings ∧
    (s.steered b).pending = s.pending := by
  simp only [State.steered] <;> (repeat' split) <;> simp

@[simp] theorem State.requeue_frame (s : State) (w : List WaitEntry) :
    (s.requeue w).clock = s.clock ∧ (s.requeue w).handed = s.handed ∧ (s.requeue w).registry = s.registry ∧
    (s.requeue w).access = s.access ∧ (s.requeue w).pool = s.pool ∧ (s.requeue w).downlink = s.downlink ∧
    (s.requeue w).cranes = s.cranes ∧ (s.requeue w).reefer = s.reefer ∧ (s.requeue w).settings = s.settings ∧
    (s.requeue w).pending = s.pending := by
  refine ⟨?_, ?_, ?_, ?_, ?_, ?_, ?_, ?_, ?_, ?_⟩ <;> simp only [State.requeue]
  · repeat' first | with_reducible rfl | (simp; done) | split | refine (foldl_keeps State.clock _ ?_ _ _).trans ?_ | intro _ _ | simp
  · repeat' first | with_reducible rfl | (simp; done) | split | refine (foldl_keeps State.handed _ ?_ _ _).trans ?_ | intro _ _ | simp
  · repeat' first | with_reducible rfl | (simp; done) | split | refine (foldl_keeps State.registry _ ?_ _ _).trans ?_ | intro _ _ | simp
  · repeat' first | with_reducible rfl | (simp; done) | split | refine (foldl_keeps State.access _ ?_ _ _).trans ?_ | intro _ _ | simp
  · repeat' first | with_reducible rfl | (simp; done) | split | refine (foldl_keeps State.pool _ ?_ _ _).trans ?_ | intro _ _ | simp
  · repeat' first | with_reducible rfl | (simp; done) | split | refine (foldl_keeps State.downlink _ ?_ _ _).trans ?_ | intro _ _ | simp
  · repeat' first | with_reducible rfl | (simp; done) | split | refine (foldl_keeps State.cranes _ ?_ _ _).trans ?_ | intro _ _ | simp
  · repeat' first | with_reducible rfl | (simp; done) | split | refine (foldl_keeps State.reefer _ ?_ _ _).trans ?_ | intro _ _ | simp
  · repeat' first | with_reducible rfl | (simp; done) | split | refine (foldl_keeps State.settings _ ?_ _ _).trans ?_ | intro _ _ | simp
  · repeat' first | with_reducible rfl | (simp; done) | split | refine (foldl_keeps State.pending _ ?_ _ _).trans ?_ | intro _ _ | simp

@[simp] theorem State.steerRefused_frame (s : State) (b : BeamNo) (g : SegNo) :
    (s.steerRefused b g).clock = s.clock ∧ (s.steerRefused b g).handed = s.handed ∧
    (s.steerRefused b g).registry = s.registry ∧ (s.steerRefused b g).access = s.access ∧
    (s.steerRefused b g).settings = s.settings ∧ (s.steerRefused b g).pending = s.pending := by
  simp only [State.steerRefused] <;> (repeat' split) <;> simp

@[simp] theorem State.released_frame (s : State) (b : BeamNo) (r : Bool) :
    (s.released b r).clock = s.clock ∧ (s.released b r).handed = s.handed ∧ (s.released b r).registry = s.registry ∧
    (s.released b r).access = s.access ∧ (s.released b r).pool = s.pool ∧ (s.released b r).downlink = s.downlink ∧
    (s.released b r).cranes = s.cranes ∧ (s.released b r).reefer = s.reefer ∧ (s.released b r).settings = s.settings ∧
    (s.released b r).pending = s.pending := by
  simp only [State.released] <;> (repeat' split) <;> simp

@[simp] theorem State.sweepEntry_frame (s : State) (h : HeadNo) (g : SegNo) (m : Option Nat) :
    (s.sweepEntry h g m).clock = s.clock ∧ (s.sweepEntry h g m).links = s.links ∧
    (s.sweepEntry h g m).handed = s.handed ∧ (s.sweepEntry h g m).registry = s.registry ∧
    (s.sweepEntry h g m).access = s.access ∧ (s.sweepEntry h g m).beamCtl = s.beamCtl ∧
    (s.sweepEntry h g m).pool = s.pool ∧ (s.sweepEntry h g m).downlink = s.downlink ∧
    (s.sweepEntry h g m).cranes = s.cranes ∧ (s.sweepEntry h g m).reefer = s.reefer ∧
    (s.sweepEntry h g m).settings = s.settings ∧ (s.sweepEntry h g m).pending = s.pending := by
  simp only [State.sweepEntry] <;> (repeat' split) <;> simp

@[simp] theorem State.applySweep_frame (s : State) (h : HeadNo) (m : List (Option Nat)) :
    (s.applySweep h m).clock = s.clock ∧ (s.applySweep h m).handed = s.handed ∧
    (s.applySweep h m).registry = s.registry ∧ (s.applySweep h m).access = s.access ∧
    (s.applySweep h m).settings = s.settings ∧ (s.applySweep h m).pending = s.pending := by
  refine ⟨?_, ?_, ?_, ?_, ?_, ?_⟩ <;> simp only [State.applySweep]
  · repeat' first | with_reducible rfl | (simp; done) | split | refine (foldl_keeps State.clock _ ?_ _ _).trans ?_ | intro _ _ | simp
  · repeat' first | with_reducible rfl | (simp; done) | split | refine (foldl_keeps State.handed _ ?_ _ _).trans ?_ | intro _ _ | simp
  · repeat' first | with_reducible rfl | (simp; done) | split | refine (foldl_keeps State.registry _ ?_ _ _).trans ?_ | intro _ _ | simp
  · repeat' first | with_reducible rfl | (simp; done) | split | refine (foldl_keeps State.access _ ?_ _ _).trans ?_ | intro _ _ | simp
  · repeat' first | with_reducible rfl | (simp; done) | split | refine (foldl_keeps State.settings _ ?_ _ _).trans ?_ | intro _ _ | simp
  · repeat' first | with_reducible rfl | (simp; done) | split | refine (foldl_keeps State.pending _ ?_ _ _).trans ?_ | intro _ _ | simp

@[simp] theorem State.swept_frame (s : State) (h : HeadNo) (m : List (Option Nat)) :
    (s.swept h m).clock = s.clock ∧ (s.swept h m).handed = s.handed ∧ (s.swept h m).registry = s.registry ∧
    (s.swept h m).access = s.access ∧ (s.swept h m).settings = s.settings ∧ (s.swept h m).pending = s.pending := by
  simp only [State.swept] <;> (repeat' split) <;> simp

@[simp] theorem State.recoverHead_frame (s : State) (h : HeadNo) :
    (s.recoverHead h).clock = s.clock ∧ (s.recoverHead h).handed = s.handed ∧ (s.recoverHead h).registry = s.registry ∧
    (s.recoverHead h).access = s.access ∧ (s.recoverHead h).settings = s.settings ∧
    (s.recoverHead h).pending = s.pending := by
  simp only [State.recoverHead] <;> (repeat' split) <;> simp

@[simp] theorem State.probed_frame (s : State) (h : HeadNo) :
    (s.probed h).clock = s.clock ∧ (s.probed h).handed = s.handed ∧ (s.probed h).registry = s.registry ∧
    (s.probed h).access = s.access ∧ (s.probed h).settings = s.settings ∧ (s.probed h).pending = s.pending := by
  simp only [State.probed] <;> (repeat' split) <;> simp

@[simp] theorem State.answerRunsOut_frame (s : State) (h : HeadNo) :
    (s.answerRunsOut h).clock = s.clock ∧ (s.answerRunsOut h).handed = s.handed ∧
    (s.answerRunsOut h).registry = s.registry ∧ (s.answerRunsOut h).access = s.access ∧
    (s.answerRunsOut h).settings = s.settings ∧ (s.answerRunsOut h).pending = s.pending := by
  simp only [State.answerRunsOut] <;> (repeat' split) <;> simp

@[simp] theorem State.overdueBeam_frame (s : State) (b : BeamNo) :
    (s.overdueBeam b).clock = s.clock ∧ (s.overdueBeam b).handed = s.handed ∧ (s.overdueBeam b).registry = s.registry ∧
    (s.overdueBeam b).access = s.access ∧ (s.overdueBeam b).pool = s.pool ∧ (s.overdueBeam b).downlink = s.downlink ∧
    (s.overdueBeam b).cranes = s.cranes ∧ (s.overdueBeam b).reefer = s.reefer ∧
    (s.overdueBeam b).settings = s.settings ∧ (s.overdueBeam b).pending = s.pending := by
  simp only [State.overdueBeam] <;> (repeat' split) <;> simp

@[simp] theorem State.makeOverdue_frame (s : State) (h : HeadNo) :
    (s.makeOverdue h).clock = s.clock ∧ (s.makeOverdue h).handed = s.handed ∧ (s.makeOverdue h).registry = s.registry ∧
    (s.makeOverdue h).access = s.access ∧ (s.makeOverdue h).pool = s.pool ∧ (s.makeOverdue h).downlink = s.downlink ∧
    (s.makeOverdue h).cranes = s.cranes ∧ (s.makeOverdue h).reefer = s.reefer ∧
    (s.makeOverdue h).settings = s.settings ∧ (s.makeOverdue h).pending = s.pending := by
  simp only [State.makeOverdue] <;> (repeat' split) <;> simp

@[simp] theorem State.expireWait_frame (s : State) (w : WaitEntry) :
    (s.expireWait w).clock = s.clock ∧ (s.expireWait w).handed = s.handed ∧ (s.expireWait w).registry = s.registry ∧
    (s.expireWait w).access = s.access ∧ (s.expireWait w).pool = s.pool ∧ (s.expireWait w).downlink = s.downlink ∧
    (s.expireWait w).cranes = s.cranes ∧ (s.expireWait w).reefer = s.reefer ∧ (s.expireWait w).settings = s.settings ∧
    (s.expireWait w).pending = s.pending := by
  simp only [State.expireWait] <;> (repeat' split) <;> simp

@[simp] theorem State.takeDeliveries_frame (s : State) (l : LinkNo) (n : Nat) :
    (s.takeDeliveries l n).clock = s.clock ∧ (s.takeDeliveries l n).links = s.links ∧
    (s.takeDeliveries l n).handed = s.handed ∧ (s.takeDeliveries l n).registry = s.registry ∧
    (s.takeDeliveries l n).access = s.access ∧ (s.takeDeliveries l n).coverage = s.coverage ∧
    (s.takeDeliveries l n).beamCtl = s.beamCtl ∧ (s.takeDeliveries l n).downlink = s.downlink ∧
    (s.takeDeliveries l n).cranes = s.cranes ∧ (s.takeDeliveries l n).reefer = s.reefer ∧
    (s.takeDeliveries l n).settings = s.settings ∧ (s.takeDeliveries l n).pending = s.pending := by
  simp only [State.takeDeliveries] <;> (repeat' split) <;> simp

@[simp] theorem State.repeatPause_frame (s : State) (t : Time) :
    (s.repeatPause t).clock = s.clock ∧ (s.repeatPause t).handed = s.handed ∧ (s.repeatPause t).registry = s.registry ∧
    (s.repeatPause t).access = s.access ∧ (s.repeatPause t).coverage = s.coverage ∧
    (s.repeatPause t).beamCtl = s.beamCtl ∧ (s.repeatPause t).downlink = s.downlink ∧
    (s.repeatPause t).cranes = s.cranes ∧ (s.repeatPause t).reefer = s.reefer ∧
    (s.repeatPause t).settings = s.settings ∧ (s.repeatPause t).pending = s.pending := by
  simp only [State.repeatPause] <;> (repeat' split) <;> simp

@[simp] theorem State.emptyDeliveries_frame (s : State) (l : LinkNo) :
    (s.emptyDeliveries l).clock = s.clock ∧ (s.emptyDeliveries l).links = s.links ∧
    (s.emptyDeliveries l).handed = s.handed ∧ (s.emptyDeliveries l).registry = s.registry ∧
    (s.emptyDeliveries l).access = s.access ∧ (s.emptyDeliveries l).coverage = s.coverage ∧
    (s.emptyDeliveries l).beamCtl = s.beamCtl ∧ (s.emptyDeliveries l).downlink = s.downlink ∧
    (s.emptyDeliveries l).cranes = s.cranes ∧ (s.emptyDeliveries l).reefer = s.reefer ∧
    (s.emptyDeliveries l).settings = s.settings ∧ (s.emptyDeliveries l).pending = s.pending := by
  simp only [State.emptyDeliveries] <;> (repeat' split) <;> simp

@[simp] theorem State.restartPool_frame (s : State) :
    (s.restartPool).clock = s.clock ∧ (s.restartPool).links = s.links ∧ (s.restartPool).handed = s.handed ∧
    (s.restartPool).registry = s.registry ∧ (s.restartPool).access = s.access ∧ (s.restartPool).coverage = s.coverage ∧
    (s.restartPool).beamCtl = s.beamCtl ∧ (s.restartPool).downlink = s.downlink ∧ (s.restartPool).cranes = s.cranes ∧
    (s.restartPool).reefer = s.reefer ∧ (s.restartPool).settings = s.settings ∧ (s.restartPool).pending = s.pending := by
  simp only [State.restartPool] <;> (repeat' split) <;> simp

@[simp] theorem State.acceptFrame_frame (s : State) (a : AllocKind) (f : Frame) :
    (s.acceptFrame a f).clock = s.clock ∧ (s.acceptFrame a f).handed = s.handed ∧
    (s.acceptFrame a f).registry = s.registry ∧ (s.acceptFrame a f).access = s.access ∧
    (s.acceptFrame a f).coverage = s.coverage ∧ (s.acceptFrame a f).beamCtl = s.beamCtl ∧
    (s.acceptFrame a f).reefer = s.reefer ∧ (s.acceptFrame a f).settings = s.settings ∧
    (s.acceptFrame a f).pending = s.pending := by
  simp only [State.acceptFrame] <;> (repeat' split) <;> simp

@[simp] theorem State.purgeClass_frame (s : State) (e : EntryNo) (c : FrameClass) (b : Bool) :
    (s.purgeClass e c b).clock = s.clock ∧ (s.purgeClass e c b).handed = s.handed ∧
    (s.purgeClass e c b).registry = s.registry ∧ (s.purgeClass e c b).access = s.access ∧
    (s.purgeClass e c b).coverage = s.coverage ∧ (s.purgeClass e c b).beamCtl = s.beamCtl ∧
    (s.purgeClass e c b).reefer = s.reefer ∧ (s.purgeClass e c b).settings = s.settings ∧
    (s.purgeClass e c b).pending = s.pending := by
  simp only [State.purgeClass] <;> (repeat' split) <;> simp

@[simp] theorem State.purge_frame (s : State) (e : EntryNo) (b : Byte) :
    (s.purge e b).clock = s.clock ∧ (s.purge e b).handed = s.handed ∧ (s.purge e b).registry = s.registry ∧
    (s.purge e b).access = s.access ∧ (s.purge e b).coverage = s.coverage ∧ (s.purge e b).beamCtl = s.beamCtl ∧
    (s.purge e b).reefer = s.reefer ∧ (s.purge e b).settings = s.settings ∧ (s.purge e b).pending = s.pending := by
  simp only [State.purge] <;> (repeat' split) <;> simp

@[simp] theorem State.discardTerminal_frame (s : State) (e : EntryNo) :
    (s.discardTerminal e).clock = s.clock ∧ (s.discardTerminal e).handed = s.handed ∧
    (s.discardTerminal e).registry = s.registry ∧ (s.discardTerminal e).access = s.access ∧
    (s.discardTerminal e).coverage = s.coverage ∧ (s.discardTerminal e).reefer = s.reefer ∧
    (s.discardTerminal e).settings = s.settings ∧ (s.discardTerminal e).pending = s.pending := by
  simp only [State.discardTerminal] <;> (repeat' split) <;> simp

@[simp] theorem State.beginBurst_frame (s : State) (b : BeamNo) (l : LinkNo) (x y : List Frame) :
    (s.beginBurst b l x y).clock = s.clock ∧ (s.beginBurst b l x y).links = s.links ∧
    (s.beginBurst b l x y).handed = s.handed ∧ (s.beginBurst b l x y).registry = s.registry ∧
    (s.beginBurst b l x y).access = s.access ∧ (s.beginBurst b l x y).coverage = s.coverage ∧
    (s.beginBurst b l x y).pool = s.pool ∧ (s.beginBurst b l x y).reefer = s.reefer ∧
    (s.beginBurst b l x y).settings = s.settings ∧ (s.beginBurst b l x y).pending = s.pending := by
  simp only [State.beginBurst] <;> (repeat' split) <;> simp

@[simp] theorem State.reportBurst_frame (s : State) (b : BeamNo) (u : Burst) (o : Nat → FrameOutcome) (k : Fin 21) :
    (s.reportBurst b u o k).clock = s.clock ∧ (s.reportBurst b u o k).handed = s.handed ∧
    (s.reportBurst b u o k).registry = s.registry ∧ (s.reportBurst b u o k).access = s.access ∧
    (s.reportBurst b u o k).settings = s.settings ∧ (s.reportBurst b u o k).pending = s.pending := by
  simp only [State.reportBurst] <;> (repeat' split) <;> simp

@[simp] theorem State.expireBurst_frame (s : State) (b : BeamNo) :
    (s.expireBurst b).clock = s.clock ∧ (s.expireBurst b).handed = s.handed ∧ (s.expireBurst b).registry = s.registry ∧
    (s.expireBurst b).access = s.access ∧ (s.expireBurst b).reefer = s.reefer ∧
    (s.expireBurst b).settings = s.settings ∧ (s.expireBurst b).pending = s.pending := by
  simp only [State.expireBurst] <;> (repeat' split) <;> simp

@[simp] theorem State.forgetOrigin_frame (s : State) (l : LinkNo) :
    (s.forgetOrigin l).clock = s.clock ∧ (s.forgetOrigin l).links = s.links ∧ (s.forgetOrigin l).handed = s.handed ∧
    (s.forgetOrigin l).registry = s.registry ∧ (s.forgetOrigin l).access = s.access ∧
    (s.forgetOrigin l).coverage = s.coverage ∧ (s.forgetOrigin l).pool = s.pool ∧
    (s.forgetOrigin l).cranes = s.cranes ∧ (s.forgetOrigin l).reefer = s.reefer ∧
    (s.forgetOrigin l).settings = s.settings ∧ (s.forgetOrigin l).pending = s.pending := by
  simp only [State.forgetOrigin] <;> (repeat' split) <;> simp

@[simp] theorem State.restartDownlink_frame (s : State) :
    (s.restartDownlink).clock = s.clock ∧ (s.restartDownlink).links = s.links ∧ (s.restartDownlink).handed = s.handed ∧
    (s.restartDownlink).registry = s.registry ∧ (s.restartDownlink).access = s.access ∧
    (s.restartDownlink).coverage = s.coverage ∧ (s.restartDownlink).pool = s.pool ∧
    (s.restartDownlink).cranes = s.cranes ∧ (s.restartDownlink).reefer = s.reefer ∧
    (s.restartDownlink).settings = s.settings ∧ (s.restartDownlink).pending = s.pending := by
  simp only [State.restartDownlink] <;> (repeat' split) <;> simp

@[simp] theorem State.returnOwned_frame (s : State) (b : BeamNo) (l : LinkNo) :
    (s.returnOwned b l).clock = s.clock ∧ (s.returnOwned b l).handed = s.handed ∧
    (s.returnOwned b l).registry = s.registry ∧ (s.returnOwned b l).access = s.access ∧
    (s.returnOwned b l).reefer = s.reefer ∧ (s.returnOwned b l).settings = s.settings ∧
    (s.returnOwned b l).pending = s.pending := by
  simp only [State.returnOwned] <;> (repeat' split) <;> simp

@[simp] theorem State.closeIfEmpty_frame (s : State) (b : BeamNo) :
    (s.closeIfEmpty b).clock = s.clock ∧ (s.closeIfEmpty b).handed = s.handed ∧
    (s.closeIfEmpty b).registry = s.registry ∧ (s.closeIfEmpty b).access = s.access ∧
    (s.closeIfEmpty b).pool = s.pool ∧ (s.closeIfEmpty b).downlink = s.downlink ∧
    (s.closeIfEmpty b).cranes = s.cranes ∧ (s.closeIfEmpty b).reefer = s.reefer ∧
    (s.closeIfEmpty b).settings = s.settings ∧ (s.closeIfEmpty b).pending = s.pending := by
  simp only [State.closeIfEmpty] <;> (repeat' split) <;> simp

@[simp] theorem State.downBeams_frame (s : State) (l : LinkNo) :
    (s.downBeams l).clock = s.clock ∧ (s.downBeams l).handed = s.handed ∧ (s.downBeams l).registry = s.registry ∧
    (s.downBeams l).access = s.access ∧ (s.downBeams l).reefer = s.reefer ∧ (s.downBeams l).settings = s.settings ∧
    (s.downBeams l).pending = s.pending := by
  refine ⟨?_, ?_, ?_, ?_, ?_, ?_, ?_⟩ <;> simp only [State.downBeams]
  · repeat' first | with_reducible rfl | (simp; done) | split | refine (foldl_keeps State.clock _ ?_ _ _).trans ?_ | intro _ _ | simp
  · repeat' first | with_reducible rfl | (simp; done) | split | refine (foldl_keeps State.handed _ ?_ _ _).trans ?_ | intro _ _ | simp
  · repeat' first | with_reducible rfl | (simp; done) | split | refine (foldl_keeps State.registry _ ?_ _ _).trans ?_ | intro _ _ | simp
  · repeat' first | with_reducible rfl | (simp; done) | split | refine (foldl_keeps State.access _ ?_ _ _).trans ?_ | intro _ _ | simp
  · repeat' first | with_reducible rfl | (simp; done) | split | refine (foldl_keeps State.reefer _ ?_ _ _).trans ?_ | intro _ _ | simp
  · repeat' first | with_reducible rfl | (simp; done) | split | refine (foldl_keeps State.settings _ ?_ _ _).trans ?_ | intro _ _ | simp
  · repeat' first | with_reducible rfl | (simp; done) | split | refine (foldl_keeps State.pending _ ?_ _ _).trans ?_ | intro _ _ | simp

@[simp] theorem State.clearInterest_frame (s : State) (l : LinkNo) :
    (s.clearInterest l).clock = s.clock ∧ (s.clearInterest l).links = s.links ∧ (s.clearInterest l).handed = s.handed ∧
    (s.clearInterest l).registry = s.registry ∧ (s.clearInterest l).access = s.access ∧
    (s.clearInterest l).coverage = s.coverage ∧ (s.clearInterest l).beamCtl = s.beamCtl ∧
    (s.clearInterest l).pool = s.pool ∧ (s.clearInterest l).downlink = s.downlink ∧
    (s.clearInterest l).cranes = s.cranes ∧ (s.clearInterest l).settings = s.settings ∧
    (s.clearInterest l).pending = s.pending := by
  simp only [State.clearInterest] <;> (repeat' split) <;> simp

@[simp] theorem State.tearDown_frame (s : State) (l : LinkNo) :
    (s.tearDown l).clock = s.clock ∧ (s.tearDown l).registry = s.registry ∧ (s.tearDown l).settings = s.settings ∧
    (s.tearDown l).pending = s.pending := by
  simp only [State.tearDown] <;> (repeat' split) <;> simp

@[simp] theorem State.restartRack_frame (s : State) (r : RackNo) :
    (s.restartRack r).clock = s.clock ∧ (s.restartRack r).links = s.links ∧ (s.restartRack r).handed = s.handed ∧
    (s.restartRack r).registry = s.registry ∧ (s.restartRack r).access = s.access ∧
    (s.restartRack r).coverage = s.coverage ∧ (s.restartRack r).beamCtl = s.beamCtl ∧
    (s.restartRack r).settings = s.settings ∧ (s.restartRack r).pending = s.pending := by
  simp only [State.restartRack] <;> (repeat' split) <;> simp

@[simp] theorem State.restartReefer_frame (s : State) :
    s.restartReefer.clock = s.clock ∧ s.restartReefer.links = s.links ∧ s.restartReefer.handed = s.handed ∧
    s.restartReefer.registry = s.registry ∧ s.restartReefer.access = s.access ∧ s.restartReefer.coverage = s.coverage ∧
    s.restartReefer.beamCtl = s.beamCtl ∧ s.restartReefer.settings = s.settings ∧ s.restartReefer.pending = s.pending := by
  refine ⟨foldl_keeps State.clock _ (fun s r => by simp) _ _, foldl_keeps State.links _ (fun s r => by simp) _ _, foldl_keeps State.handed _ (fun s r => by simp) _ _,
    foldl_keeps State.registry _ (fun s r => by simp) _ _, foldl_keeps State.access _ (fun s r => by simp) _ _, foldl_keeps State.coverage _ (fun s r => by simp) _ _,
    foldl_keeps State.beamCtl _ (fun s r => by simp) _ _, foldl_keeps State.settings _ (fun s r => by simp) _ _, foldl_keeps State.pending _ (fun s r => by simp) _ _⟩

end Sys2Proof.Machine
end

