-- ==== Sys2Proof/Laws/Ops.lean ====
section
/-! SUPPORT. What the shared operations do, one lemma an operation, for the provers to cite: the taking of a request, the reading
of its body, the token check's two ways, the links after a reply, a raise and a raise at several links, the counters. -/

namespace Sys2Proof.Machine

/-! ### Counters -/

@[simp] theorem look_bump_self {n : Nat} (v : Vector Nat n) (i : Fin n) : look (bump v i) i = satInc (look v i) := by
  simp [bump, bumpBy, satInc]

@[simp] theorem look_bump_ne {n : Nat} (v : Vector Nat n) {i j : Fin n} (h : j ≠ i) : look (bump v i) j = look v j := by
  simp [bump, bumpBy, h]

@[simp] theorem look_bumpBy_self {n : Nat} (v : Vector Nat n) (i : Fin n) (k : Nat) :
    look (bumpBy v i k) i = min (look v i + k) 65535 := by
  simp [bumpBy]

@[simp] theorem look_bumpBy_ne {n : Nat} (v : Vector Nat n) {i j : Fin n} (k : Nat) (h : j ≠ i) :
    look (bumpBy v i k) j = look v j := by
  simp [bumpBy, h]

/-- A count never exceeds 65,535 once it has been incremented. -/
theorem satInc_le (n : Nat) : satInc n ≤ 65535 := by simp [satInc]

/-! ### Time -/

theorem elapsed_self (t : Time) : elapsed t t = 0 := by simp [elapsed]

theorem elapsed_lt (now t : Time) : elapsed now t < 2 ^ 32 := (now - t).isLt

/-! ### Links -/

theorem State.reply_link (s : State) (r : ReqRef) (st : Status) (b : ReplyBody) (l : LinkNo) :
    (s.reply r st b).link l = if l = r.link then (s.link l).reply r st b else s.link l := by
  unfold State.reply
  rw [State.link_onLink]
  split
  · rename_i h; subst h; rfl
  · rfl

theorem State.raise_link (s : State) (l m : LinkNo) (n : Notice) :
    (s.raise l n).link m = if m = l then (s.link m).raise n else s.link m := by
  unfold State.raise
  rw [State.link_onLink]
  split
  · rename_i h; subst h; rfl
  · rfl

/-- A notice raised at the links that `p` names reaches each of them once, and no other. -/
theorem State.raiseWhere_link (s : State) (p : LinkNo → Link → Bool) (n : Notice) (l : LinkNo) :
    (s.raiseWhere p n).link l = if p l (s.link l) then (s.link l).raise n else s.link l := by
  have fold : ∀ (ls : List LinkNo) (t : State), ls.Nodup →
      (ls.foldl (fun t a => if p a (t.link a) then t.raise a n else t) t).link l =
        if l ∈ ls ∧ p l (t.link l) = true then (t.link l).raise n else t.link l := by
    intro ls
    induction ls with
    | nil => intro t _; simp
    | cons a ls ih =>
      intro t hd
      rw [List.foldl_cons, ih _ (List.nodup_cons.mp hd).2]
      have ha := (List.nodup_cons.mp hd).1
      by_cases hla : l = a
      · subst hla
        by_cases hp : p l (t.link l) = true <;> simp [hp, ha, State.raise_link]
      · by_cases hp : p a (t.link a) = true <;> simp [hp, hla, State.raise_link]
  have hl : l ∈ allLinks := by fin_cases l <;> decide
  simp [State.raiseWhere, fold allLinks s (by decide), hl]

/-- A link's own operations leave its index and its rights. -/
theorem Link.beginSend_keeps (k : Link) :
    k.beginSend.ax = k.ax ∧ k.beginSend.rights = k.rights ∧ k.beginSend.up = k.up ∧ k.beginSend.window = k.window ∧
    k.beginSend.refusal = k.refusal ∧ k.beginSend.nextSerial = k.nextSerial ∧ k.beginSend.counters = k.counters := by
  unfold Link.beginSend
  split
  · split <;> simp
  · simp

theorem Link.place_keeps (k : Link) (m : Msg) :
    (k.place m).ax = k.ax ∧ (k.place m).rights = k.rights ∧ (k.place m).up = k.up ∧ (k.place m).window = k.window ∧
    (k.place m).refusal = k.refusal ∧ (k.place m).nextSerial = k.nextSerial ∧ (k.place m).counters = k.counters := by
  unfold Link.place
  simpa using Link.beginSend_keeps { k with outQ := k.outQ ++ [m] }

theorem Link.reply_keeps (k : Link) (r : ReqRef) (st : Status) (b : ReplyBody) :
    (k.reply r st b).ax = k.ax ∧ (k.reply r st b).rights = k.rights ∧ (k.reply r st b).up = k.up ∧
    (k.reply r st b).window = k.window ∧ (k.reply r st b).refusal = k.refusal ∧
    (k.reply r st b).nextSerial = k.nextSerial := by
  unfold Link.reply
  split
  · have h := Link.place_keeps k (.reply { tag := r.tag, serial := some r.serial, status := st, body := b })
    exact ⟨h.1, h.2.1, h.2.2.1, h.2.2.2.1, h.2.2.2.2.1, h.2.2.2.2.2.1⟩
  · simp

theorem Link.raise_keeps (k : Link) (n : Notice) :
    (k.raise n).ax = k.ax ∧ (k.raise n).rights = k.rights ∧ (k.raise n).up = k.up ∧ (k.raise n).window = k.window ∧
    (k.raise n).refusal = k.refusal ∧ (k.raise n).nextSerial = k.nextSerial := by
  unfold Link.raise
  split
  · simp
  · split
    · have h := Link.place_keeps k (.notice n 0)
      exact ⟨h.1, h.2.1, h.2.2.1, h.2.2.2.1, h.2.2.2.2.1, h.2.2.2.2.2.1⟩
    · simp

/-! ### Notices raised in turn -/

@[simp] theorem Link.raiseAll_nil (k : Link) : k.raiseAll [] = k := rfl

@[simp] theorem Link.raiseAll_cons (k : Link) (n : Notice) (ns : List Notice) : k.raiseAll (n :: ns) = (k.raise n).raiseAll ns := rfl

theorem Link.raiseAll_append (k : Link) (ns ms : List Notice) : k.raiseAll (ns ++ ms) = (k.raiseAll ns).raiseAll ms :=
  List.foldl_append

theorem Link.raise_down {k : Link} (h : k.up = false) (n : Notice) : k.raise n = k := by simp [Link.raise, h]

/-- A DOWN link is told nothing. -/
theorem Link.raiseAll_down {k : Link} (h : k.up = false) (ns : List Notice) : k.raiseAll ns = k := by
  induction ns with
  | nil => rfl
  | cons n ns ih => rw [Link.raiseAll_cons, Link.raise_down h, ih]

theorem Link.raiseAll_keeps (k : Link) (ns : List Notice) :
    (k.raiseAll ns).ax = k.ax ∧ (k.raiseAll ns).rights = k.rights ∧ (k.raiseAll ns).up = k.up ∧
    (k.raiseAll ns).window = k.window ∧ (k.raiseAll ns).refusal = k.refusal ∧ (k.raiseAll ns).nextSerial = k.nextSerial := by
  induction ns generalizing k with
  | nil => simp
  | cons n ns ih =>
    have h := Link.raise_keeps k n
    simpa [h] using ih (k.raise n)

@[simp] theorem State.tell_link (s : State) (ns : LinkNo → List Notice) (l : LinkNo) :
    (s.tell ns).link l = (s.link l).raiseAll (ns l) := by
  simp [State.tell, State.link, look]

theorem State.tell_keeps (s : State) (ns : LinkNo → List Notice) : s.KeepsAllBut (s.tell ns) [.links] := by
  intro p hp
  cases p <;> first | rfl | exact absurd (by simp) hp

/-- Two link tables agree where every link does. -/
theorem State.links_ext {s t : State} (h : ∀ l : LinkNo, t.link l = s.link l) : t.links = s.links := by
  apply Vector.ext
  intro i hi
  simpa [State.link, look] using h ⟨i, hi⟩

/-- A change of the links alone, given by what it does to each. -/
theorem State.eq_tell {s t : State} {ns : LinkNo → List Notice} (hk : s.KeepsAllBut t [.links])
    (h : ∀ l : LinkNo, t.link l = (s.link l).raiseAll (ns l)) : t = s.tell ns := by
  have hl : t.links = (s.tell ns).links := State.links_ext (fun l => by rw [h l, State.tell_link])
  have part : ∀ p : Part, p ≠ .links → p.same s t := fun p hp => hk p (by simpa using hp)
  have h1 := part .clock (by decide)
  have h2 := part .handed (by decide)
  have h3 := part .registry (by decide)
  have h4 := part .access (by decide)
  have h5 := part .coverage (by decide)
  have h6 := part .beamCtl (by decide)
  have h7 := part .pool (by decide)
  have h8 := part .downlink (by decide)
  have h9 := part .cranes (by decide)
  have h10 := part .reefer (by decide)
  have h11 := part .settings (by decide)
  have h12 := part .pending (by decide)
  cases s
  cases t
  simp_all [Part.same, State.tell]

/-- No notice changes nothing. -/
@[simp] theorem State.tell_none (s : State) : s.tell noNotices = s :=
  (State.eq_tell (fun p _ => by cases p <;> rfl) (fun l => by simp [noNotices])).symm

/-- Notices told in two goes are told one behind the other. -/
theorem State.tell_tell (s : State) (ns ms : LinkNo → List Notice) :
    (s.tell ns).tell ms = s.tell (fun l => ns l ++ ms l) :=
  State.eq_tell (fun p hp => by cases p <;> first | rfl | exact absurd (by simp) hp)
    (fun l => by simp [Link.raiseAll_append])

/-- A notice raised at the links that `p` names, as one telling. -/
theorem State.raiseWhere_eq_tell (s : State) (p : LinkNo → Link → Bool) (n : Notice) :
    s.raiseWhere p n = s.tell (fun l => if p l (s.link l) then [n] else []) := by
  refine State.eq_tell (fun q hq => ?_) (fun l => ?_)
  · have h := State.raiseWhere_frame s p n
    cases q <;> first | (simp at hq; done) | simp only [Part.same, h]
  · rw [State.raiseWhere_link]
    split <;> simp

/-- Nothing is raised where no link changes. -/
theorem State.Raises.of_links {s t : State} (h : ∀ l : LinkNo, t.link l = s.link l) (quiet : Prop) :
    s.Raises t noNotices noNotices quiet := fun l => ⟨[], [], fun _ => rfl, by simp, by simp [noNotices, h l]⟩

/-- The comparison with the marks raises at most the pool's own notice (R95, R97). -/
theorem State.judge_link (s : State) (l : LinkNo) :
    ∃ ns : List Notice, (∀ n ∈ ns, n.ofPool = true) ∧ s.judge.link l = (s.link l).raiseAll ns := by
  have counted : ∀ (t : State) (i : Fin 13), (t.bumpPool i).link l = t.link l := fun _ _ => rfl
  have pooled : ∀ p : Pool, ({ s with pool := p } : State).link l = s.link l := fun _ => rfl
  have told : ∀ (k : Link) (n : Notice), n.ofPool = true →
      ∃ ns : List Notice, (∀ m ∈ ns, m.ofPool = true) ∧ (if k.rights.command = true then k.raise n else k) = k.raiseAll ns := by
    intro k n hn
    by_cases hc : k.rights.command = true
    · exact ⟨[n], by simpa using hn, by simp [hc]⟩
    · exact ⟨[], by simp, by simp [hc]⟩
  unfold State.judge
  split
  · simp only [counted, State.raiseWhere_link, pooled]
    exact told _ _ rfl
  · split
    · simp only [counted, State.raiseWhere_link, pooled]
      exact told _ _ rfl
    · exact ⟨[], by simp, rfl⟩

theorem State.judge_raises (s : State) : s.Raises s.judge noNotices noNotices True := by
  intro l
  obtain ⟨ns, h, e⟩ := State.judge_link s l
  exact ⟨[], ns, fun _ => rfl, h, by simpa [noNotices] using e⟩

/-- What a comparison adds behind a change that raises notices. -/
theorem State.Raises.judge {s t : State} {first last : LinkNo → List Notice} {quiet : Prop}
    (h : s.Raises t first last quiet) : s.Raises t.judge first last quiet := by
  intro l
  obtain ⟨between, pool, hq, hp, e⟩ := h l
  obtain ⟨ns, hn, f⟩ := State.judge_link t l
  refine ⟨between, pool ++ ns, hq, ?_, by rw [f, e, ← Link.raiseAll_append]; simp⟩
  intro n hm
  rcases List.mem_append.mp hm with hm | hm
  · exact hp n hm
  · exact hn n hm

/-! ### Requests -/

/-- An owner that takes the request it is asked for serves it. -/
theorem State.taking_of_asks {s : State} {c : ReqCode} {r : Request} (h : s.Asks c r) (f : State → Request → State) :
    s.taking c r.ref.link f = f (s.taken r) r := by
  unfold State.taking
  rw [h.1]
  simp only [if_pos h.2]
  rfl

/-- An owner whose next request from the link is of another code, or that has none, takes nothing. -/
theorem State.taking_of_not {s : State} {c : ReqCode} {l : LinkNo}
    (h : ∀ r, s.nextRequest c.owner l = some r → r.code ≠ c) (f : State → Request → State) : s.taking c l f = s := by
  unfold State.taking
  split
  · rfl
  · rename_i r hr
    rw [if_neg (h r hr)]

theorem State.reading_some {α : Type} (s : State) (r : Request) (v : α) (f : α → State) : s.reading r (some v) f = f v := rfl

theorem State.reading_none {α : Type} (s : State) (r : Request) (f : α → State) :
    s.reading r none f = s.answer r.ref .badRequest := rfl

theorem State.withToken_passed {s : State} {r : Request} {t : Token} {writing : Bool} {e : EntryNo}
    (h : s.checkToken r.ref.link t writing = .passed e) (f : State → EntryNo → State) :
    s.withToken r t writing f = f (s.bumpAcc 4) e := by
  unfold State.withToken
  rw [h]

theorem State.withToken_failed {s : State} {r : Request} {t : Token} {writing : Bool} {st : Status} {k : Fin 12}
    (h : s.checkToken r.ref.link t writing = .failed st k) (f : State → EntryNo → State) :
    s.withToken r t writing f = (s.bumpAcc k).answer r.ref st := by
  unfold State.withToken
  rw [h]

/-- The token check reads the access lists, the link's index and the registry entries alone. -/
theorem State.checkToken_congr {s t : State} (ha : t.access = s.access) (hl : t.links = s.links) (hr : t.registry = s.registry)
    (l : LinkNo) (k : Token) (writing : Bool) : t.checkToken l k writing = s.checkToken l k writing := by
  simp [State.checkToken, State.accessList, State.entryCurrent, State.entry, State.link, ha, hl, hr]

/-! ### Keeping all but some parts -/

theorem State.KeepsAllBut.refl (s : State) (ps : List Part) : s.KeepsAllBut s ps := by
  intro p _
  cases p <;> rfl

theorem State.KeepsAllBut.mono {s t : State} {ps qs : List Part} (h : s.KeepsAllBut t ps) (hsub : ∀ p ∈ ps, p ∈ qs) :
    s.KeepsAllBut t qs := fun p hp => h p (fun hq => hp (hsub p hq))

theorem State.KeepsAllBut.trans {s t u : State} {ps : List Part} (h : s.KeepsAllBut t ps) (g : t.KeepsAllBut u ps) :
    s.KeepsAllBut u ps := by
  intro p hp
  have h1 := h p hp
  have h2 := g p hp
  cases p <;> simp_all [Part.same]

end Sys2Proof.Machine
end

