-- ==== Sys2Proof/Laws/Bursts.lean ====
section
/-! SUPPORT. Assembling a burst (R116, R117): the part of the order that fits, what leaves the waiting frames, the rounds of step 3 in
closed form, and the choice of step 2. -/

namespace Sys2Proof.Machine

/-- What fits is a part from the front of the order. -/
theorem takeFitting_prefix (n b : Nat) (fs : List Frame) : (takeFitting n b fs).IsPrefix fs := by
  induction fs generalizing n b with
  | nil => exact List.prefix_rfl
  | cons f fs ih =>
    unfold takeFitting
    split
    · exact List.cons_prefix_cons.mpr ⟨rfl, ih _ _⟩
    · exact List.nil_prefix

/-- The two limits hold of what fits, and the frame behind it would break one of them. -/
theorem takeFitting_limits (n b : Nat) (fs : List Frame) :
    (takeFitting n b fs).length ≤ n ∧ ((takeFitting n b fs).map (fun f => f.payload.length)).sum ≤ b ∧
    ∀ (f : Frame) (rest : List Frame), fs = takeFitting n b fs ++ f :: rest →
      (takeFitting n b fs).length = n ∨ b < ((takeFitting n b fs).map (fun f => f.payload.length)).sum + f.payload.length := by
  induction fs generalizing n b with
  | nil => simp [takeFitting]
  | cons g fs ih =>
    unfold takeFitting
    by_cases h : 1 ≤ n ∧ g.payload.length ≤ b
    · rw [if_pos h]
      obtain ⟨h1, h2, h3⟩ := ih (n - 1) (b - g.payload.length)
      refine ⟨by simp only [List.length_cons]; omega, by simp only [List.map_cons, List.sum_cons]; omega, ?_⟩
      intro f rest e
      rw [List.cons_append, List.cons.injEq] at e
      have := h3 f rest e.2
      simp only [List.length_cons, List.map_cons, List.sum_cons]
      omega
    · rw [if_neg h]
      refine ⟨Nat.zero_le _, Nat.zero_le _, ?_⟩
      intro f rest e
      rw [List.nil_append, List.cons.injEq] at e
      rw [e.1] at h
      simp only [List.length_nil, List.map_nil, List.sum_nil]
      omega

/-- Frames that all stand among the waiting ones are all placed, and the rest stays in its order. -/
theorem moveOut_of_subperm (fs w : List Frame) (h : fs.Subperm w) :
    (moveOut fs w).1 = fs ∧ (moveOut fs w).2.Sublist w ∧ (fs ++ (moveOut fs w).2).Perm w := by
  induction fs generalizing w with
  | nil => exact ⟨rfl, List.Sublist.refl _, List.Perm.refl _⟩
  | cons f fs ih =>
    have hf : f ∈ w := h.subset List.mem_cons_self
    have hs : fs.Subperm (w.erase f) := by
      have := h.erase f
      rwa [List.erase_cons_head] at this
    obtain ⟨h1, h2, h3⟩ := ih _ hs
    unfold moveOut
    rw [if_pos hf]
    refine ⟨by dsimp only; rw [h1], h2.trans List.erase_sublist, ?_⟩
    exact (h3.cons f).trans (List.perm_cons_erase hf).symm

/-- Step 3 of R117 in closed form: round i places the i-th frame of each queue that has one. -/
theorem rounds_eq (n : Nat) (qs : List (List Frame)) :
    rounds n qs = (List.range n).flatMap (fun i => qs.filterMap (fun q => q[i]?)) := by
  induction n generalizing qs with
  | zero => rfl
  | succ n ih =>
    have ht : ∀ (i : Nat), (qs.map List.tail).filterMap (fun q => q[i]?) = qs.filterMap (fun q => q[i + 1]?) := by
      intro i
      rw [List.filterMap_map]
      congr 1
      funext q
      simp
    rw [rounds, ih, List.range_succ_eq_map, List.flatMap_cons, List.flatMap_map]
    congr 1
    · congr 1
      funext q
      cases q <;> rfl
    · congr 1
      funext i
      exact ht i

/-- Step 2 of R117, one choice: the frame comes from the front of a queue; no front of an earlier queue has as little time remaining,
and none of a later one less. -/
theorem takeEarliest_spec (now : Time) (qs : List (List Frame)) :
    (takeEarliest now qs = none ∧ ∀ q ∈ qs, q = []) ∨
    ∃ (before after : List (List Frame)) (f : Frame) (q : List Frame), qs = before ++ (f :: q) :: after ∧
      takeEarliest now qs = some (f, before ++ q :: after) ∧
      (∀ p ∈ before, ∀ g ∈ p.head?, f.remaining now < g.remaining now) ∧
      ∀ p ∈ after, ∀ g ∈ p.head?, f.remaining now ≤ g.remaining now := by
  induction qs with
  | nil => exact Or.inl ⟨rfl, by simp⟩
  | cons p qs ih =>
    cases p with
    | nil =>
      rcases ih with ⟨h1, h2⟩ | ⟨before, after, f, q, h1, h2, h3, h4⟩
      · exact Or.inl ⟨by simp [takeEarliest, h1], by simpa using h2⟩
      · exact Or.inr ⟨[] :: before, after, f, q, by simp [h1], by simp [takeEarliest, h2], by simpa using h3, h4⟩
    | cons g p =>
      rcases ih with ⟨h1, h2⟩ | ⟨before, after, f, q, h1, h2, h3, h4⟩
      · refine Or.inr ⟨[], qs, g, p, rfl, by simp [takeEarliest, h1], by simp, ?_⟩
        intro r hr i hi
        rw [h2 r hr] at hi
        cases hi
      · by_cases c : f.remaining now < g.remaining now
        · refine Or.inr ⟨(g :: p) :: before, after, f, q, by simp [h1], by simp [takeEarliest, h2, c], ?_, h4⟩
          intro r hr i hi
          rcases List.mem_cons.mp hr with rfl | hr
          · cases hi
            exact c
          · exact h3 r hr i hi
        · refine Or.inr ⟨[], qs, g, p, rfl, by simp [takeEarliest, h2, c], by simp, ?_⟩
          intro r hr i hi
          rw [h1] at hr
          rcases List.mem_append.mp hr with hr | hr
          · exact le_trans (Nat.le_of_not_lt c) (Nat.le_of_lt (h3 r hr i hi))
          · rcases List.mem_cons.mp hr with rfl | hr
            · cases hi
              exact Nat.le_of_not_lt c
            · exact le_trans (Nat.le_of_not_lt c) (h4 r hr i hi)

end Sys2Proof.Machine
end

