-- ==== Sys2Proof/Laws/Memory.lean ====
section
/-! SUPPORT. The settings memory: every write keeps its canonical form, and what a read gives after a write (log 8). -/

namespace Sys2Proof.Machine

theorem Memory.wf_cons (a : Nat) (b : Byte) (m : Memory) :
    Memory.wf ((a, b) :: m) = true ↔
      a < 2048 ∧ b ≠ unlistedByte ∧ (∀ d ∈ m.head?, a < d.1) ∧ Memory.wf m = true := by
  cases m with
  | nil => simp [Memory.wf]
  | cons d rest => simp [Memory.wf]; tauto

/-- Every address of a well-formed memory lies above what its first address lies above. -/
theorem Memory.above_of_wf {a : Nat} {m : Memory} (hm : Memory.wf m = true) (ha : ∀ d ∈ m.head?, a < d.1) :
    ∀ d ∈ m, a < d.1 := by
  induction m generalizing a with
  | nil => simp
  | cons c rest ih =>
    obtain ⟨x, y⟩ := c
    rw [Memory.wf_cons] at hm
    have hx : a < x := by simpa using ha
    intro d hd
    rcases List.mem_cons.mp hd with h | h
    · subst h; exact hx
    · exact lt_trans hx (ih hm.2.2.2 hm.2.2.1 d h)

/-- A write above a bound keeps the first address above it. -/
theorem Memory.write_head {a x : Nat} {v : Byte} {m : Memory} (hm : Memory.wf m = true)
    (ha : ∀ d ∈ m.head?, a < d.1) (hx : a < x) : ∀ d ∈ (Memory.write m x v).head?, a < d.1 := by
  cases m with
  | nil => simp only [Memory.write]; split <;> simp [hx]
  | cons c rest =>
    obtain ⟨y, b⟩ := c
    rw [Memory.wf_cons] at hm
    have hy : a < y := by simpa using ha
    simp only [Memory.write]
    split
    · split <;> simp [hx, hy]
    · split
      · split
        · intro d hd
          exact lt_trans hy (hm.2.2.1 d hd)
        · simpa using hy
      · simpa using hy

/-- A write keeps the canonical form. -/
theorem Memory.write_wf {m : Memory} (hm : Memory.wf m = true) (x : Nat) (v : Byte) :
    Memory.wf (Memory.write m x v) = true := by
  induction m with
  | nil =>
    simp only [Memory.write]
    split
    · rfl
    · rename_i h
      rw [Memory.wf_cons]
      simp only [not_or, not_le] at h
      exact ⟨h.2, h.1, by simp, rfl⟩
  | cons c rest ih =>
    obtain ⟨y, b⟩ := c
    have hc := (Memory.wf_cons y b rest).mp hm
    simp only [Memory.write]
    split
    · rename_i hxy
      split
      · exact hm
      · rename_i h
        rw [Memory.wf_cons]
        simp only [not_or, not_le] at h
        exact ⟨h.2, h.1, by simpa using hxy, hm⟩
    · rename_i hxy
      split
      · split
        · exact hc.2.2.2
        · rename_i h
          exact (Memory.wf_cons _ _ _).mpr ⟨hc.1, h, hc.2.2.1, hc.2.2.2⟩
      · rename_i hne
        exact (Memory.wf_cons _ _ _).mpr
          ⟨hc.1, hc.2.1, Memory.write_head hc.2.2.2 hc.2.2.1 (by omega), ih hc.2.2.2⟩

/-- A run of writes keeps the canonical form. -/
theorem Memory.writeBytes_wf {m : Memory} (hm : Memory.wf m = true) (x : Nat) (bs : List Byte) :
    Memory.wf (Memory.writeBytes m x bs) = true := by
  induction bs generalizing m x with
  | nil => exact hm
  | cons b bs ih => exact ih (Memory.write_wf hm x b) (x + 1)

/-- An address below every listed one reads as unlisted. -/
theorem Memory.read_below {m : Memory} {x : Nat} (h : ∀ d ∈ m, x < d.1) : Memory.read m x = unlistedByte := by
  induction m with
  | nil => rfl
  | cons c rest ih =>
    obtain ⟨y, b⟩ := c
    have hy : x < y := h (y, b) (by simp)
    simp only [Memory.read]
    rw [if_neg (by omega)]
    exact ih (fun d hd => h d (by simp [hd]))

/-- A byte written within the memory is the byte read there. -/
theorem Memory.read_write_self {m : Memory} (hm : Memory.wf m = true) {x : Nat} (hx : x < 2048) (v : Byte) :
    Memory.read (Memory.write m x v) x = v := by
  induction m with
  | nil =>
    simp only [Memory.write]
    split
    · rename_i h
      rcases h with h | h
      · simp [Memory.read, h]
      · omega
    · simp [Memory.read]
  | cons c rest ih =>
    obtain ⟨y, b⟩ := c
    have hc := (Memory.wf_cons y b rest).mp hm
    simp only [Memory.write]
    split
    · rename_i hxy
      split
      · rename_i h
        rcases h with h | h
        · rw [h]
          apply Memory.read_below
          exact Memory.above_of_wf hm (by simpa using hxy)
        · omega
      · simp [Memory.read]
    · split
      · rename_i hxy
        subst hxy
        split
        · rename_i h
          rw [h]
          exact Memory.read_below (Memory.above_of_wf hc.2.2.2 hc.2.2.1)
        · simp [Memory.read]
      · rename_i hne
        simp only [Memory.read]
        rw [if_neg (by omega)]
        exact ih hc.2.2.2

/-- A write leaves every other address as it reads. -/
theorem Memory.read_write_ne {m : Memory} {x y : Nat} (hxy : y ≠ x) (v : Byte) :
    Memory.read (Memory.write m x v) y = Memory.read m y := by
  induction m with
  | nil =>
    simp only [Memory.write]
    split
    · rfl
    · simp [Memory.read, Ne.symm hxy]
  | cons c rest ih =>
    obtain ⟨z, b⟩ := c
    simp only [Memory.write]
    split
    · split
      · rfl
      · simp [Memory.read, Ne.symm hxy]
    · split
      · rename_i h
        subst h
        split
        · simp [Memory.read, Ne.symm hxy]
        · simp [Memory.read, Ne.symm hxy]
      · simp only [Memory.read, ih]

/-- A run of writes leaves every address outside it as it reads. -/
theorem Memory.read_writeBytes_ne {m : Memory} {x y : Nat} {bs : List Byte} (h : y < x ∨ x + bs.length ≤ y) :
    Memory.read (Memory.writeBytes m x bs) y = Memory.read m y := by
  induction bs generalizing m x with
  | nil => rfl
  | cons b bs ih =>
    simp only [List.length_cons] at h
    have h' : y < x + 1 ∨ x + 1 + bs.length ≤ y := by omega
    have hne : y ≠ x := by omega
    simp only [Memory.writeBytes]
    rw [ih h', Memory.read_write_ne hne]

/-- A run of writes within the memory reads back. -/
theorem Memory.read_writeBytes {m : Memory} (hm : Memory.wf m = true) {x : Nat} {bs : List Byte}
    (hx : x + bs.length ≤ 2048) (i : Nat) (hi : i < bs.length) :
    Memory.read (Memory.writeBytes m x bs) (x + i) = bs[i] := by
  induction bs generalizing m x i with
  | nil => simp at hi
  | cons b bs ih =>
    simp only [List.length_cons] at hx hi
    simp only [Memory.writeBytes]
    cases i with
    | zero =>
      rw [Memory.read_writeBytes_ne (by omega)]
      simpa using Memory.read_write_self hm (x := x) (by omega) b
    | succ i =>
      have := ih (Memory.write_wf hm x b) (x := x + 1) (by omega) i (by omega)
      rw [← Nat.add_assoc, Nat.add_right_comm]
      simpa using this

/-- An area written whole reads back. -/
theorem Memory.area_writeBytes {m : Memory} (hm : Memory.wf m = true) (r : Area) {bs : List Byte} (hl : bs.length = areaSize) :
    Memory.area (Memory.writeBytes m r.base bs) r = bs := by
  have hr : r.base + bs.length ≤ 2048 := by
    rw [hl]
    cases r <;> decide
  apply List.ext_getElem
  · simp [Memory.area, hl]
  · intro i _ hi
    simpa [Memory.area] using Memory.read_writeBytes hm hr i hi

/-- The other area reads as before. -/
theorem Memory.area_writeBytes_ne (m : Memory) {r v : Area} (hv : v ≠ r) {bs : List Byte} (hl : bs.length = areaSize) :
    Memory.area (Memory.writeBytes m r.base bs) v = Memory.area m v := by
  unfold Memory.area
  refine List.map_congr_left (fun i hi => Memory.read_writeBytes_ne ?_)
  have hlt : i < areaSize := List.mem_range.mp hi
  rw [hl]
  simp only [areaSize] at hlt ⊢
  cases r <;> cases v <;> simp_all [Area.base]

/-- The settings memory after a pin reset from nothing is in its form. -/
theorem State.reset_memory_wf : Memory.wf State.reset.settings.mem = true := rfl

end Sys2Proof.Machine
end

