-- ==== Sys2Proof/Laws/Slots.lean ====
section
/-! SUPPORT. What the alarm queue, a silence state and a reading leave of the slots, up to the queued and displaced flags, and what
delivery copies depend on. -/

namespace Sys2Proof.Machine

/-! ### Slots up to the alarm queue's flags -/

theorem Slot.Like.refl (x : Slot) : x.Like x := rfl

theorem Slot.Like.trans {x y z : Slot} (h : x.Like y) (g : y.Like z) : x.Like z := by
  unfold Slot.Like at *
  rw [g, h]

/-- A slot that is like another one is it with some value of the two flags. -/
theorem Slot.Like.exists {x y : Slot} (h : x.Like y) : ∃ a b : Bool, y = { x with queued := a, displaced := b } := ⟨_, _, h⟩

/-- Deriving the grade heeds neither flag. -/
theorem Slot.Like.regraded {x y : Slot} (h : x.Like y) : x.regraded.Like y.regraded := by
  obtain ⟨a, b, rfl⟩ := h.exists
  rfl

theorem Slot.Like.silenced {x y : Slot} (h : x.Like y) (v : Silence) : (x.silenced v).Like (y.silenced v) := by
  obtain ⟨a, b, rfl⟩ := h.exists
  unfold Slot.silenced
  by_cases c : x.occupied = true ∧ x.reasons.underSilence v ≠ x.reasons
  · rw [if_pos c, if_pos c]; rfl
  · rw [if_neg c, if_neg c]; rfl

theorem Slot.Like.written {x y : Slot} (h : x.Like y) (q : Reading) : (x.written q).Like (y.written q) := by
  obtain ⟨a, b, rfl⟩ := h.exists
  rfl

theorem Slot.Like.probed {x y : Slot} (h : x.Like y) (q : Reading) : (x.probed q).Like (y.probed q) := by
  obtain ⟨a, b, rfl⟩ := h.exists
  rfl

theorem Slot.Like.controlled {x y : Slot} (h : x.Like y) (q : Reading) : (x.controlled q).Like (y.controlled q) := by
  obtain ⟨a, b, rfl⟩ := h.exists
  unfold Slot.controlled
  dsimp only
  cases controlTemp (clampSetpoint q.setpoint) x.supply x.ret q.supply q.ret with
  | none => rfl
  | some v => rfl

theorem Slot.Like.addExcess {x y : Slot} (h : x.Like y) (now : Time) (gap e : Nat) :
    (x.addExcess now gap e).Like (y.addExcess now gap e) := by
  obtain ⟨a, b, rfl⟩ := h.exists
  unfold Slot.addExcess
  dsimp only
  cases x.lastUsable with
  | none => rfl
  | some v => rfl

theorem Slot.Like.judgeExcursion {x y : Slot} (h : x.Like y) (n e : Nat) : (x.judgeExcursion n e).Like (y.judgeExcursion n e) := by
  obtain ⟨a, b, rfl⟩ := h.exists
  unfold Slot.judgeExcursion
  by_cases c : 0 < e
  · rw [if_pos c, if_pos c]; rfl
  · rw [if_neg c, if_neg c]; rfl

theorem Slot.Like.dosed {x y : Slot} (h : x.Like y) (ps : Vector Nat 19) (now : Time) (q : Reading) :
    (x.dosed ps now q).Like (y.dosed ps now q) := by
  have he : y.excessOf ps q = x.excessOf ps q := by
    obtain ⟨a, b, rfl⟩ := h.exists
    rfl
  have hj : ∀ u v : Slot, u.Like v → (u.judgeDose (look ps pDoseWarn) (look ps pDoseAlarm)).Like
      (v.judgeDose (look ps pDoseWarn) (look ps pDoseAlarm)) := by
    intro u v g
    obtain ⟨a, b, rfl⟩ := g.exists
    rfl
  unfold Slot.dosed
  rw [he]
  cases x.excessOf ps q with
  | none => exact hj _ _ h
  | some e => exact hj _ _ ((h.addExcess _ _ _).judgeExcursion _ _)

/-- A reading heeds neither flag. -/
theorem Slot.Like.afterReading {x y : Slot} (h : x.Like y) (ps : Vector Nat 19) (now : Time) (q : Reading) :
    (x.afterReading ps now q).Like (y.afterReading ps now q) := (((h.written q).probed q).controlled q).dosed ps now q

/-- The alarm queue writes nothing of the consulted slot but its flags. -/
theorem consult_slot_like (as : List AlarmRec) (x : Slot) (r : RackNo) (p : PlugNo) (now : Time) (reading : Bool) :
    x.Like (consult as x r p now reading).slot := by
  unfold consult Consult.full Consult.place
  simp only
  (repeat' split) <;> rfl

@[simp] theorem State.slot_setAlarms (s : State) (as : List AlarmRec) (r : RackNo) (p : PlugNo) :
    (s.setAlarms as).slot r p = s.slot r p := rfl

@[simp] theorem State.slot_bumpReef (s : State) (k : Fin 25) (r : RackNo) (p : PlugNo) : (s.bumpReef k).slot r p = s.slot r p := rfl

/-- Raising an alarm writes no slot. -/
@[simp] theorem State.slot_raiseAlarm (s : State) (r : RackNo) (p : PlugNo) (i : RackNo) (j : PlugNo) :
    (s.raiseAlarm r p).slot i j = s.slot i j := by
  unfold State.raiseAlarm
  rw [State.slot_bumpReef]
  exact State.slot_of_reefer (by simp) i j

/-- What a displacement writes of the slot that lost its record (R166). -/
theorem State.displace_slot (s : State) (a : AlarmRec) (i : RackNo) (j : PlugNo) :
    (s.slot i j).Like ((s.setSlot a.rack a.plug { s.slot a.rack a.plug with queued := false, displaced := true }).slot i j) := by
  rw [State.slot_setSlot]
  split
  · rename_i h
    rw [h.1, h.2]
    rfl
  · exact Slot.Like.refl _

/-- What a consulting of the alarm queue writes: the consulted slot, and of another one the flags alone. -/
theorem State.applyConsult_slot (s : State) (r : RackNo) (p : PlugNo) (k : Consult) (i : RackNo) (j : PlugNo) :
    (if i = r ∧ j = p then k.slot else s.slot i j).Like ((s.applyConsult r p k).slot i j) := by
  have h0 : (if i = r ∧ j = p then k.slot else s.slot i j) = ((s.setAlarms k.alarms).setSlot r p k.slot).slot i j := by
    rw [State.slot_setSlot]
    rfl
  rw [h0]
  generalize hu : (s.setAlarms k.alarms).setSlot r p k.slot = u
  have tail : ∀ w : State, (State.slot (if k.raised then State.raiseAlarm (if k.dropped then
      State.bumpReef (if k.placed then w.bumpReef 19 else w) 21 else if k.placed then w.bumpReef 19 else w) r p else
      if k.dropped then State.bumpReef (if k.placed then w.bumpReef 19 else w) 21 else if k.placed then w.bumpReef 19 else w) i j) =
      w.slot i j := by
    intro w
    cases k.raised <;> cases k.dropped <;> cases k.placed <;> simp
  unfold State.applyConsult
  dsimp only
  rw [hu, tail]
  cases k.displacement with
  | none => exact Slot.Like.refl _
  | some a =>
    dsimp only
    cases a.released with
    | true => exact Slot.Like.refl _
    | false => exact (u.bumpReef 20).displace_slot a i j

/-- Deriving a grade: the slot has its grade afresh, and no other slot changes but for the flags. -/
theorem State.regrade_slot (s : State) (r : RackNo) (p : PlugNo) (reading : Bool) (i : RackNo) (j : PlugNo) :
    (if i = r ∧ j = p then (s.slot r p).regraded else s.slot i j).Like ((s.regrade r p reading).slot i j) := by
  refine Slot.Like.trans ?_ (s.applyConsult_slot r p _ i j)
  split
  · exact consult_slot_like _ _ _ _ _ _
  · exact Slot.Like.refl _

theorem State.silencePlug_slot (s : State) (r : RackNo) (v : Silence) (p : PlugNo) (i : RackNo) (j : PlugNo) :
    (if i = r ∧ j = p then (s.slot r p).silenced v else s.slot i j).Like ((s.silencePlug r v p).slot i j) := by
  unfold State.silencePlug Slot.silenced
  dsimp only
  by_cases c : (s.slot r p).occupied = true ∧ (s.slot r p).reasons.underSilence v ≠ (s.slot r p).reasons
  · have cb : ((s.slot r p).occupied && (s.slot r p).reasons.underSilence v != (s.slot r p).reasons) = true := by simpa using c
    rw [if_pos c, if_pos cb]
    have h := State.regrade_slot (s.setSlot r p { s.slot r p with reasons := (s.slot r p).reasons.underSilence v }) r p false i j
    rw [State.slot_setSlot_self, State.slot_setSlot] at h
    by_cases e : i = r ∧ j = p
    · rw [if_pos e] at h ⊢
      exact h
    · rw [if_neg e] at h ⊢
      rw [if_neg e] at h
      exact h
  · have cb : ¬((s.slot r p).occupied && (s.slot r p).reasons.underSilence v != (s.slot r p).reasons) = true := by simpa using c
    rw [if_neg c, if_neg cb]
    split
    · rename_i e
      rw [e.1, e.2]
      exact Slot.Like.refl _
    · exact Slot.Like.refl _

theorem State.silencePlugs_slot (ps : List PlugNo) (s : State) (r : RackNo) (v : Silence) (i : RackNo) (j : PlugNo)
    (hn : ps.Nodup) :
    (if i = r ∧ j ∈ ps then (s.slot i j).silenced v else s.slot i j).Like
      ((ps.foldl (fun s p => s.silencePlug r v p) s).slot i j) := by
  induction ps generalizing s with
  | nil =>
    rw [if_neg (by simp)]
    exact Slot.Like.refl _
  | cons p ps ih =>
    rw [List.foldl_cons]
    have hp := s.silencePlug_slot r v p i j
    refine Slot.Like.trans ?_ (ih (s.silencePlug r v p) (List.nodup_cons.mp hn).2)
    by_cases hi : i = r
    · subst hi
      by_cases hj : j = p
      · subst hj
        rw [if_pos ⟨rfl, rfl⟩] at hp
        rw [if_pos ⟨rfl, List.mem_cons_self⟩, if_neg (fun h => (List.nodup_cons.mp hn).1 h.2)]
        exact hp
      · rw [if_neg (fun h => hj h.2)] at hp
        by_cases hm : j ∈ ps
        · rw [if_pos ⟨rfl, List.mem_cons_of_mem _ hm⟩, if_pos ⟨rfl, hm⟩]
          exact hp.silenced v
        · rw [if_neg (fun h => (List.mem_cons.mp h.2).elim hj hm), if_neg (fun h => hm h.2)]
          exact hp
    · rw [if_neg (fun h => hi h.1)] at hp ⊢
      rw [if_neg (fun h => hi h.1)]
      exact hp

/-- A rack takes a silence state: each of its slots is the silenced one, and no other slot changes but for the flags. -/
theorem State.setSilence_slot (s : State) (r : RackNo) (v : Silence) (k : RackRec) (hk : s.rackRec r = some k)
    (i : RackNo) (j : PlugNo) :
    (if i = r then (s.slot i j).silenced v else s.slot i j).Like ((s.setSilence r v).slot i j) := by
  have h := State.silencePlugs_slot allPlugs (s.setRackRec r (some { k with silence := v })) r v i j (List.nodup_finRange 24)
  have hs : (s.setRackRec r (some { k with silence := v })).slot i j = s.slot i j := rfl
  have hm : (i = r ∧ j ∈ allPlugs) ↔ i = r := ⟨fun h => h.1, fun h => ⟨h, List.mem_finRange j⟩⟩
  rw [hs] at h
  simp only [hm] at h
  unfold State.setSilence
  rw [hk]
  exact h

/-! ### Readings -/

/-- The counters that a reading moves are no slot's. -/
theorem State.countReading_slot (s : State) (x y : Slot) (i : RackNo) (j : PlugNo) : (s.countReading x y).slot i j = s.slot i j := by
  have h : ∀ (b : Bool) (u : State) (k : Fin 25), (State.slot (if b then u.bumpReef k else u) i j) = u.slot i j := by
    intro b u k
    cases b <;> rfl
  simp only [State.countReading, h]

/-- A reading applied: its slot is released, or is what the reading gives with the grade derived; of another slot the alarm queue's
flags alone change. -/
theorem State.applyReading_slot (s : State) (r : RackNo) (q : Reading) (i : RackNo) (j : PlugNo) :
    (if i = r ∧ j = q.plug then
      (if q.plugState = .empty then (if (s.slot r q.plug).occupied then Slot.clear else s.slot r q.plug)
       else ((if (s.slot r q.plug).occupied then s.slot r q.plug else { Slot.clear with occupied := true }).afterReading
         s.settings.params s.nowSec q).regraded)
     else s.slot i j).Like ((s.applyReading r q).slot i j) := by
  unfold State.applyReading
  dsimp only
  by_cases he : q.plugState = .empty
  · rw [if_pos he, if_pos he]
    by_cases ho : (s.slot r q.plug).occupied = true
    · rw [if_pos ho, if_pos ho]
      unfold State.releaseSlot
      rw [State.slot_bumpReef, State.slot_setSlot]
      split
      · exact Slot.Like.refl _
      · exact Slot.Like.refl _
    · rw [if_neg ho, if_neg ho]
      split
      · rename_i h
        rw [h.1, h.2]
        exact Slot.Like.refl _
      · exact Slot.Like.refl _
  · rw [if_neg he, if_neg he]
    by_cases ho : (s.slot r q.plug).occupied = true
    · rw [if_pos ho, if_pos ho]
      refine Slot.Like.trans ?_ (State.regrade_slot _ r q.plug true i j)
      rw [State.slot_setSlot_self, State.slot_setSlot, State.countReading_slot]
      split
      · exact Slot.Like.refl _
      · exact Slot.Like.refl _
    · rw [if_neg ho, if_neg ho]
      refine Slot.Like.trans ?_ (State.regrade_slot _ r q.plug true i j)
      rw [State.slot_setSlot_self, State.slot_setSlot, State.countReading_slot, State.slot_bumpReef, State.slot_bumpReef,
        State.slot_setSlot_self, State.slot_setSlot]
      by_cases h : i = r ∧ j = q.plug
      · rw [if_pos h, if_pos h]
        exact Slot.Like.refl _
      · rw [if_neg h, if_neg h, if_neg h, if_neg h]
        exact Slot.Like.refl _

/-! ### Delivery copies -/

/-- A notice leaves which links are UP. -/
theorem State.raise_up (s : State) (l : LinkNo) (n : Notice) (m : LinkNo) : ((s.raise l n).link m).up = (s.link m).up := by
  rw [State.raise, State.link_onLink]
  split
  · rename_i e
    rw [e]
    exact (Link.raise_keeps _ n).2.2.1
  · rfl

/-- What an offered copy does to the queues, the dropped counts and the free blocks follows from these, from which links are UP, from
the parameters and from the clock alone; no link changes between UP and DOWN. -/
theorem State.offerCopy_same {s t : State} (h : s.SameDeliveries t) (hu : ∀ l, (t.link l).up = (s.link l).up)
    (hp : t.settings.params = s.settings.params) (hc : t.clock = s.clock) (l : LinkNo) (c : Content) :
    (s.offerCopy l c).SameDeliveries (t.offerCopy l c) ∧ ∀ m, ((t.offerCopy l c).link m).up = ((s.offerCopy l c).link m).up := by
  obtain ⟨hq, hd, hf⟩ := h
  have pool_raise : ∀ (u : State) (n : Notice), (u.raise l n).pool = u.pool := fun u n => (u.raise_frame l n).2.2.2.2.2.2.1
  have e1 : t.param pQuota = s.param pQuota := by rw [State.param, State.param, hp]
  have e2 : t.param pReserve = s.param pReserve := by rw [State.param, State.param, hp]
  unfold State.offerCopy
  dsimp only
  by_cases a : (s.link l).up = true
  · have na : ¬(!(s.link l).up) = true := by simp [a]
    have nb : ¬(!(t.link l).up) = true := by rw [hu]; exact na
    rw [if_neg na, if_neg nb]
    by_cases b : s.param pQuota < deliveriesBlocks (look s.pool.queues l) + c.blocks
    · have b' : t.param pQuota < deliveriesBlocks (look t.pool.queues l) + c.blocks := by rw [e1, hq]; exact b
      rw [if_pos b, if_pos b']
      exact ⟨⟨hq, congrArg (fun d => tweak d l satInc) hd, hf⟩, hu⟩
    · have b' : ¬t.param pQuota < deliveriesBlocks (look t.pool.queues l) + c.blocks := by rw [e1, hq]; exact b
      rw [if_neg b, if_neg b']
      by_cases d : s.pool.free < s.param pReserve + c.blocks
      · have d' : t.pool.free < t.param pReserve + c.blocks := by rw [e2, hf]; exact d
        rw [if_pos d, if_pos d']
        exact ⟨⟨hq, congrArg (fun d => tweak d l satInc) hd, hf⟩, hu⟩
      · have d' : ¬t.pool.free < t.param pReserve + c.blocks := by rw [e2, hf]; exact d
        rw [if_neg d, if_neg d', hq, hd, hf, State.now, State.now, hc]
        cases (look s.pool.queues l).isEmpty with
        | true =>
          refine ⟨?_, fun m => ?_⟩
          · unfold State.SameDeliveries
            simp only [if_true, pool_raise, and_self]
          · simp only [if_true, State.raise_up]
            exact hu m
        | false => exact ⟨⟨rfl, rfl, rfl⟩, hu⟩
  · have na : (!(s.link l).up) = true := by simpa using a
    have nb : (!(t.link l).up) = true := by rw [hu]; exact na
    rw [if_pos na, if_pos nb]
    exact ⟨⟨hq, hd, hf⟩, hu⟩

/-- The same of copies offered to several links in turn. -/
theorem State.offerEach_same {s t : State} (h : s.SameDeliveries t) (hu : ∀ l, (t.link l).up = (s.link l).up)
    (hp : t.settings.params = s.settings.params) (hc : t.clock = s.clock) (ls : List LinkNo) (c : Content) :
    (s.offerEach ls c).SameDeliveries (t.offerEach ls c) := by
  induction ls generalizing s t with
  | nil => exact h
  | cons l ls ih =>
    have g := State.offerCopy_same h hu hp hc l c
    have fs := s.offerCopy_frame l c
    have ft := t.offerCopy_frame l c
    refine ih g.1 g.2 ?_ ?_
    · rw [ft.2.2.2.2.2.2.2.2.2.1, fs.2.2.2.2.2.2.2.2.2.1, hp]
    · rw [ft.1, fs.1, hc]

end Sys2Proof.Machine
end

