-- ==== Sys2Proof/Tests/Slice0.lean ====
section
/-! SUPPORT. The model's own tests: the WellFormed smoke test, and for every obligation with hypotheses a witness: a concrete small
state and operands that meet them, clause by clause, at the boundary values of each, with the reply that the command then gives. -/

namespace Sys2Proof.Tests

open Sys2Proof Sys2Proof.Machine

/- One theorem at a time: as many kernel evaluations side by side want more thread stacks than the memory limit allows. -/
set_option Elab.async false

/-! ### Well-formedness -/

theorem test_wellFormed_refuses :
    Instr.wellFormed (.fillMarkReceived 0 2) = false ∧ Instr.wellFormed (.messageReceived 0 []) = false ∧
    Instr.wellFormed (.messageReceived 0 (0xC3 :: 0x5B :: List.replicate 10 0)) = false ∧
    Instr.wellFormed (.messageReceived 0 (0xC3 :: 0x5A :: List.replicate 9 0)) = false ∧
    Instr.wellFormed (.storeWriteEnd false (List.replicate 1023 0)) = false ∧
    Instr.wellFormed (.storeWriteTimeout (List.replicate 1025 0)) = false := by decide +kernel

theorem test_wellFormed_accepts :
    Instr.wellFormed (.fillMarkReceived 0 1) = true ∧
    Instr.wellFormed (.messageReceived 0 (0xC3 :: 0x5A :: List.replicate 10 0)) = true ∧
    Instr.wellFormed (.storeWriteEnd false (List.replicate 1024 0)) = true ∧ Instr.wellFormed .pinReset = true := by
  decide +kernel

/-! ### A small state and how to ask it for something -/

/-- An UP link with every right, one request (tag 1, identity 0) outstanding and nothing queued. -/
def anyLink : Link :=
  { Link.reset with up := true, ax := 1, rights := { traffic := true, command := true, admin := true }, window := [(1, 0)],
                    nextSerial := 1 }

def goodCell : Cell := { state := .good, q := 200, recovery := 0, sweep := none }

/-- Entry 0: crane 3 at address 5. -/
def craneEntry : Entry :=
  { Entry.reset with kind := some .crane, state := .heard, addr := some 5, seq := 1, seg := some 20, auth := 2,
                     crane := some 3 }

/-- Entry 1: rack 7 at address 6. -/
def rackEntry : Entry :=
  { Entry.reset with kind := some .rack, state := .heard, addr := some 6, seq := 1, seg := some 20, auth := 2,
                     rack := some 7, yard := some 0 }

def grantTo (e : EntryNo) (readOnly : Bool) : AccessEntry :=
  { valid := true, readOnly := readOnly, priv := false, seq := 4, ax := some 1, terminal := some e, snapshot := some 1 }

/-- The load has ended: head 4 is READY and CURRENT with GOOD cells for segments 20 and 21 and both beams (8 and 9) IDLE; crane 3
and rack 7 are enrolled; common tokens 0 and 1 name them, 2 reads crane 3 only, 127 names an entry that is FREE. -/
def base : State :=
  { State.reset with
    links := Vector.replicate 4 anyLink
    settings := { Settings.reset with loaded := true }
    coverage := { Coverage.reset with
      segs := put (put Coverage.reset.segs 20 { cls := .good, serving := some 4 }) 21 { cls := .good, serving := some 4 }
      reach := put Coverage.reset.reach 4 (some { first := 20, len := 2 })
      cells := put Coverage.reset.cells 4 (put (put (look Coverage.reset.cells 4) 20 (some goodCell)) 21 (some goodCell)) }
    beamCtl := { BeamCtl.reset with
      heads := put BeamCtl.reset.heads 4 { Head.reset with state := .ready }
      beams := put (put BeamCtl.reset.beams 8 { Beam.reset with state := .idle }) 9 { Beam.reset with state := .idle } }
    registry := { Registry.reset with
      entries := put (put Registry.reset.entries 0 craneEntry) 1 rackEntry
      addrMap := [(5, 0), (6, 1)], craneCount := 1, rackCount := 1 }
    access := { Access.reset with
      common := put (put (put (put Access.reset.common 0 (grantTo 0 false)) 1 (grantTo 1 false)) 2 (grantTo 0 true)) 127
        (grantTo 9 false) }
    cranes := { Cranes.reset with records := put Cranes.reset.records 3 (some (CraneRec.start 0)) }
    reefer := { Reefer.reset with racks := put Reefer.reset.racks 7 (some (RackRec.start 1)) } }

/-- A request with tag 1 and identity 0. -/
def ask (c : ReqCode) (l : LinkNo) (body : List Byte) : Request := { ref := { link := l, serial := 0, tag := 1 }, code := c, body := body }

/-- The state in which an owner is asked for one thing. -/
def asked (s : State) (c : ReqCode) (l : LinkNo) (body : List Byte) : State := { s with handed := [ask c l body] }

/-- The token of the common entry `e`. -/
def tok (e : Byte) : List Byte := [0, e, 4]

/-- The status of the last reply on a link after a command. -/
def statusOf (l : LinkNo) : Host.Outcome State Fault Refusal → Option Status
  | .next t =>
    match (t.link l).outQ.getLast? with
    | some (.reply p) => some p.status
    | _ => none
  | _ => none

/-- What a command asked for on `s` answers. -/
def answer (s : State) (c : ReqCode) (l : LinkNo) (body : List Byte) : Option Status :=
  statusOf l (exec (c.command l) (asked s c l body))

/-- Whether a command leaves the state as it is (the largest tables aside, for the sake of the test's cost). -/
def idle (c : Instr) (s : State) : Bool :=
  match exec c s with
  | .next t =>
    t.clock == s.clock && t.links == s.links && t.handed == s.handed && t.pool == s.pool && t.downlink == s.downlink &&
      t.beamCtl == s.beamCtl && t.cranes == s.cranes && t.settings == s.settings
  | _ => false

/-- The state after a command. -/
def after (c : Instr) (s : State) : State :=
  match exec c s with
  | .next t => t
  | _ => s

/-- The messages in a link's outgoing queue after a command. -/
def queueAfter (l : LinkNo) (c : Instr) (s : State) : List Msg := ((after c s).link l).outQ

/-- A notice as it stands in a queue while it has not begun sending with a lost-notice count. -/
def note (n : Notice) : Msg := .notice n 0

def atMs (s : State) (t : Time) : State := { s with clock := { s.clock with ms := t } }
def atSec (s : State) (t : Time) : State := { s with clock := { s.clock with sec := t } }

/-! ### The block as a whole -/

theorem test_witness_UnaskedIdlesAndMalformedIsBadRequest :
    base.pending = [] ∧ (∀ r, base.nextRequest (ReqCode.owner .take) 0 = some r → r.code ≠ .take) ∧
    (asked base .identify 2 [0]).Asks .identify (ask .identify 2 [0]) ∧ ReqCode.bodyOk [0] .identify = false ∧
    answer base .identify 2 [0] = some .badRequest := by
  refine ⟨by decide +kernel, ?_, by decide +kernel⟩
  intro r h
  have hn : base.nextRequest (ReqCode.owner .take) 0 = none := by decide +kernel
  rw [hn] at h
  cases h

theorem test_witness_OnlyTicksMoveTheTimeCounts :
    (after .secondTick { base with clock := { ms := 7, sec := 0xFFFFFFFF, sinceSecond := 1000 } }).clock =
      { ms := 7, sec := 0, sinceSecond := 0 } ∧
    idle .secondTick { base with clock := { ms := 7, sec := 0, sinceSecond := 999 } } = true ∧
    (after .millisecondTick (atMs base 0xFFFFFFFF)).clock.ms = 0 ∧ Instr.pauseRepeat ≠ .pinReset ∧
    idle .pauseRepeat base = true := by decide +kernel

/-- The cyclic check byte by byte, each partial value reduced before the next byte, so that the kernel stays shallow. -/
def crcStrict : List Byte → Nat → Nat
  | [], n => n
  | b :: bs, n =>
    match (crcByte (BitVec.ofNat 16 n) b).toNat with
    | 0 => crcStrict bs 0
    | m + 1 => crcStrict bs (m + 1)

theorem crcStrict_eq (bs : List Byte) (n : Nat) (h : n < 2 ^ 16) :
    crcStrict bs n = (bs.foldl crcByte (BitVec.ofNat 16 n)).toNat := by
  induction bs generalizing n with
  | nil => simpa [crcStrict] using (Nat.mod_eq_of_lt h).symm
  | cons b bs ih =>
    have hlt := (crcByte (BitVec.ofNat 16 n) b).isLt
    have hof : BitVec.ofNat 16 (crcByte (BitVec.ofNat 16 n) b).toNat = crcByte (BitVec.ofNat 16 n) b := by simp
    simp only [crcStrict, List.foldl_cons]
    split
    · rename_i h0
      rw [h0] at hlt hof
      rw [ih 0 hlt, hof]
    · rename_i m hm
      rw [hm] at hlt hof
      rw [ih (m + 1) hlt, hof]

theorem copySound_strict (bs : List Byte) :
    copySound bs = (wordAt bs 0 == 0x4B51F0A1 && (half (byteAt bs (129 + 2 * markCount bs))
      (byteAt bs (129 + 2 * markCount bs + 1))).toNat == crcStrict (bs.take (129 + 2 * markCount bs)) 0xFFFF) := by
  rw [crcStrict_eq _ _ (by decide)]
  have hb : ∀ a b : Half, (a == b) = (a.toNat == b.toNat) := by
    intro a b
    by_cases h : a = b
    · simp [h]
    · simp [h, BitVec.toNat_inj]
  simp only [copySound, checkValue]
  rw [hb (half _ _)]
  rfl

/-- A sound copy of the settings image with a generation and its check value, as cells from an address on. -/
def imageCells (start : Nat) (generation check : Nat) : Memory :=
  let bytes := [0x4B, 0x51, 0xF0, 0xA1] ++ out4 generation ++ (List.replicate 4 [1, 7]).flatten ++ List.replicate 36 0 ++
    paramDefaults.toList.flatMap out4 ++ [0] ++ out2 check
  (bytes.zipIdx.filter (fun p => p.1 != 0)).map (fun p => (start + p.2, p.1))

/-- Before the load, with a copy of generation 1 in area A and one of generation 2 in area B. -/
def beforeLoad : State :=
  { State.reset with settings := { Settings.reset with mem := imageCells 0 1 30724 ++ imageCells 1024 2 48635 } }

theorem test_witness_SettingsLoadStartsEveryUnit :
    beforeLoad.settings.loaded = false ∧ copySound (Memory.area beforeLoad.settings.mem .a) = true ∧
    copySound (Memory.area beforeLoad.settings.mem .b) = true ∧
    newer (wordAt (Memory.area beforeLoad.settings.mem .b) 4) (wordAt (Memory.area beforeLoad.settings.mem .a) 4) = true ∧
    base.settings.loaded = true ∧ copySound (Memory.area State.reset.settings.mem .a) = false := by
  rw [copySound_strict, copySound_strict, copySound_strict]
  decide +kernel

/-- An area that needs a correction of each kind: link 0's index and rights, head 5's reach row, parameter 0, the second mark; head 4
is configured and the first mark is its cell's. -/
def flawedBytes : List Byte :=
  [0x4B, 0x51, 0xF0, 0xA1] ++ out4 1 ++ [16, 15] ++ (List.replicate 3 [1, 7]).flatten ++ List.replicate 12 0 ++ [1, 20, 2] ++
    [1, 60, 16] ++ List.replicate 18 0 ++ out4 51 ++ paramDefaults.toList.tail.flatMap out4 ++ [2, 4, 20, 0, 0] ++ out2 33427

def flawedArea : List Byte := flawedBytes ++ List.replicate 889 0

def flawed : State :=
  { State.reset with settings := { Settings.reset with mem := Memory.writeBytes [] Area.a.base flawedArea } }

def flawedLoad : Load := loadCopy flawedArea .a 1

/-- Area A's copy is taken where it is good and area B's cannot be read. -/
theorem choose_first {m : Memory} {a : List Byte} (sound : copySound a = true) (reads : Memory.area m .a = a) :
    chooseSettings m true false = loadCopy a .a 1 := by
  simp only [chooseSettings, reads, sound, Bool.and_self, Bool.false_and]

/-- The load of that area, its check value judged by the strict reading. -/
theorem flawed_loads :
    exec (.settingsLoadEnd true false) flawed = .next ((flawed.handOut flawedLoad).firstChoice).firstSweeps := by
  have sound : copySound flawedArea = true := by
    rw [copySound_strict]
    decide +kernel
  have long : flawedArea.length = areaSize := by decide +kernel
  have reads : Memory.area flawed.settings.mem .a = flawedArea := by
    simp only [flawed]
    exact Memory.area_writeBytes rfl .a long
  have chosen : chooseSettings flawed.settings.mem true false = flawedLoad := choose_first sound reads
  have loading : flawed.settings.loaded = false := rfl
  have whole : flawed.settings.cutOffA = false := rfl
  simp [exec, execSettingsLoadEnd, loading, whole, chosen]

theorem test_a_flawed_copy_is_corrected :
    flawedLoad.corrected = 5 ∧ look flawedLoad.links 0 = (0, ⟨true, true, true⟩) ∧
    look flawedLoad.heads 4 = some { first := 20, len := 2 } ∧ look flawedLoad.heads 5 = none ∧ flawedLoad.marks = [(4, 20)] ∧
    look flawedLoad.params 0 = 50 ∧ look flawedLoad.params 1 = 100 ∧
    (flawed.handOut flawedLoad).settings.counters.toList = [1, 0, 1, 5, 0, 0, 0, 0, 0, 0, 0] ∧
    ((flawed.handOut flawedLoad).cell 4 20).map Cell.state = some .marked ∧
    ((flawed.handOut flawedLoad).cell 4 21).map Cell.state = some .weak := by decide +kernel

/-! ### The agent links -/

def aReply : Reply := { tag := 1, serial := some 0, status := .ok, body := .empty }

def fiftyFive : List Msg := List.replicate 55 (.notice (.resume 0) 0)

theorem test_witness_RepliesAndNoticesArePlaced :
    anyLink.up = true ∧ anyLink.sending = false ∧ anyLink.outQ = [] ∧ anyLink.holds 0 = true ∧ anyLink.holds 1 = false ∧
    Link.reset.up = false ∧ anyLink.noticeCount < 55 ∧
    55 ≤ ({ anyLink with outQ := fiftyFive } : Link).noticeCount ∧
    ({ anyLink with outQ := fiftyFive.tail } : Link).noticeCount = 54 ∧
    ({ anyLink with outQ := [.reply aReply] } : Link).beginSend.sending = true ∧
    ({ anyLink with outQ := fiftyFive, lost := 3 } : Link).beginSend.lost = 0 := by decide +kernel

/-- Link 0 DOWN after the load, in a run of fill marks that began at 0. -/
def rising : State := base.onLink 0 (fun _ => { Link.reset with ax := 1, runStart := some 0, lastMark := 6 })

theorem test_witness_TenMillisecondsOfFillMarksBringALinkUp :
    (rising.settings.loaded && (rising.link 0).ax != 0 && !(rising.link 0).up) = true ∧
    (base.settings.loaded && (base.link 0).ax != 0 && !(base.link 0).up) = false ∧
    (rising.link 0).runStart = some 0 ∧ (rising.link 1).runStart = none ∧
    elapsed (atMs rising 10).clock.ms (rising.link 0).lastMark < 5 ∧
    5 ≤ elapsed (atMs rising 11).clock.ms (rising.link 0).lastMark ∧ 10 ≤ elapsed (atMs rising 10).clock.ms 0 ∧
    elapsed (atMs rising 9).clock.ms 0 < 10 ∧
    ((after (.linkUp 0) (atMs rising 10)).link 0).up = true ∧ ((after (.linkUp 0) (atMs rising 9)).link 0).up = false ∧
    ((after (.linkUp 0) (atMs rising 11)).link 0).up = false ∧
    ((after (.fillMarkReceived 0 1) (atMs rising 11)).link 0).runStart = some 11 ∧
    ((after (.fillMarkReceived 0 2) rising).link 0).discarding = true ∧
    ((after (.fillMarkGap { link := 0, receiving := false }) (atMs rising 11)).link 0).runStart = none ∧
    ((after (.fillMarkGap { link := 0, receiving := true }) (atMs rising 11)).link 0).runStart = some 0 ∧
    idle (.fillMarkGap { link := 0, receiving := false }) (atMs rising 10) = true ∧
    ((after (.lineFramingFault 0) rising).link 0).runStart = none := by decide +kernel

theorem test_witness_LinkDownTearsDownEveryUnit :
    (base.link 0).up = true ∧ 20 ≤ elapsed (atMs base 20).clock.ms (base.link 0).lastValid ∧
    elapsed (atMs base 19).clock.ms (base.link 0).lastValid < 20 ∧ (rising.link 0).up = false ∧
    ((after (.linkDown 0 false) (atMs base 20)).link 0).up = false ∧ idle (.linkDown 0 false) (atMs base 19) = true ∧
    idle (.linkDown 0 true) (atMs base 20) = true := by decide +kernel

/-- FRAME_RESULT at link 1 for a frame of `waits` or of `inBurst`. -/
def result (f : Frame) (v : FrameFate) : Msg := note (.frameResult f.handle f.terminal f.cls 9 v f.attempts)

/-- A full window. -/
def fullWindow : Link := { anyLink with window := (List.range 8).map (fun n => (BitVec.ofNat 8 n, n)), nextSerial := 8 }

theorem test_witness_MessagesAreCheckedAndTaken :
    readMessage [] = none ∧ readMessage (requestMessage 9 2 []) = some { tag := 9, code := 2, body := [] } ∧
    (rising.link 0).up = false ∧ anyLink.holdsTag 1 = true ∧ anyLink.holdsTag 9 = false ∧
    8 ≤ fullWindow.window.length ∧ fullWindow.refusal = none ∧ fullWindow.holdsTag 9 = false ∧
    ({ fullWindow with refusal := some 8 } : Link).holdsTag 9 = false ∧ anyLink.window.length < 8 ∧
    requestOfCode 0 = none ∧ requestOfCode 36 = none ∧ requestOfCode 1 = some .identify ∧ requestOfCode 35 = some .restart ∧
    rightNeeded .grant [2] = .unreadable ∧ Rights.empty.satisfy (rightNeeded .restart []) = false ∧
    rightNeeded .restart [] ≠ .unreadable ∧ Rights.empty.satisfy (rightNeeded .readTime []) = true ∧
    ((after (.messageReceived 0 (requestMessage 9 2 [])) base).handed.map Request.code) = [.readTime] ∧
    statusOf 0 (exec (.messageReceived 0 (requestMessage 9 36 [])) base) = some .badRequest ∧
    ((after (.messageAbandoned 0 .gap) (atMs base 3)).link 0).lastValid = -2 ∧
    ((after (.messageReceived 0 (requestMessage 9 2 [])) (atMs rising 13)).link 0).lastMark = 13 ∧
    ((after (.messageReceived 0 (requestMessage 9 2 [])) (atMs rising 13)).link 0).runStart = some 0 ∧
    ((after (.messageReceived 0 []) (atMs rising 13)).link 0).runStart = none := by decide +kernel

theorem test_witness_TheFrontMessageLeavesAndFreesItsTag :
    ((after (.messageSent 0) (base.onLink 0 (fun k => { k with outQ := [.reply aReply], sending := true }))).link 0).window = [] ∧
    ((after (.messageSent 0) (base.onLink 0 (fun k => { k with
      refusal := some 2, sending := true,
      outQ := [.reply { tag := 2, serial := none, status := .busy, body := .empty }] }))).link 0).refusal = none ∧
    look ((after (.messageSent 0) (base.onLink 0 (fun k => { k with
      outQ := [.notice (.resume 0) 0], sending := true }))).link 0).counters 7 = 1 ∧
    idle (.messageSent 0) base = true := by decide +kernel

def extremeReading : Reading :=
  { plug := 23, plugState := .off, setpoint := -32768, supply := some (-32767), ret := none, code := 255 }

def fullSweep : Answer := { number := 0, kind := .sweepResult (some 255 :: List.replicate 15 none) }

theorem test_witness_EncodedMessagesReadBack :
    readAnswer (Answer.bytes { number := 255, kind := .done }) = some { number := 255, kind := .done } ∧
    readAnswer fullSweep.bytes = some fullSweep ∧ extremeReading.carried ∧
    readReport (reportBytes 1 [extremeReading]) = some (1, [extremeReading]) := by
  refine ⟨by decide +kernel, by decide +kernel, ⟨by decide, ?_, ?_⟩, by decide +kernel⟩
  · intro v h
    cases h
    exact ⟨by decide, by decide⟩
  · intro v h
    cases h

theorem test_witness_IdentifyAndReadCountersAnswer :
    (asked base .identify 2 []).Asks .identify (ask .identify 2 []) ∧
    (asked base .readCounters 2 [11, 1]).Asks .readCounters (ask .readCounters 2 [11, 1]) ∧
    readCountersBody [11, 1] = some (11, true) ∧ readCountersBody [12] = some (12, false) ∧
    base.counterGroup 11 = some (List.replicate 11 0) ∧ answer base .readCounters 2 [11, 1] = some .ok ∧
    answer base .readCounters 2 [12] = some .badRequest ∧ base.counterGroup 0 = some (List.replicate 12 0) ∧
    base.counterGroup 12 = none := by decide +kernel

theorem test_fillMarkOut :
    State.reset.fillMarkOut 0 = none ∧ base.fillMarkOut 0 = some [0x3C, 1] ∧
    (base.onLink 0 Link.goDown).fillMarkOut 0 = some [0x3C, 0] := by decide +kernel

theorem test_identify : answer base .identify 0 [] = some .ok := by decide +kernel

/-! ### The registry -/

/-- A waiting frame for a terminal. -/
def waits (e : EntryNo) (c : FrameClass) : Frame :=
  { handle := 1, terminal := e, cls := c, origin := some { link := 1, tag := 9 }, accept := 0,
    deadline := if c = .control then some 50 else none, attempts := 0, payload := [1], orphaned := false }

def queued (s : State) (fs : List Frame) : State := s.setWaiting fs

/-- One waiting frame of each class for crane 3. -/
def threeWait : State := queued { base with pool := { base.pool with free := 4093 } } [waits 0 .safety, waits 0 .control, waits 0 .bulk]

theorem threeWait_framesHaveTerminals : threeWait.framesHaveTerminals := by
  unfold State.framesHaveTerminals
  decide +kernel

/-- The body of an ENROLL of crane `c` at address `a`. -/
def enrollCrane (a : Word) (c : Byte) : List Byte := [0] ++ be32 a ++ [0, 2, 20, 1, c, 0]
/-- The body of an ENROLL of a rack at address `a`. -/
def enrollRack (a : Word) : List Byte := [1] ++ be32 a ++ [0, 2, 20, 0, 1, 31]
/-- The base with another count of cranes. -/
def withCranes (n : Nat) : State := { base with registry := { base.registry with craneCount := n } }

theorem test_witness_EnrollIsRefusedOrFillsTheLowestFreeEntry :
    (asked base .enroll 0 (enrollCrane 9 15)).Asks .enroll (ask .enroll 0 (enrollCrane 9 15)) ∧
    (readEnroll (enrollCrane 9 15)).isSome = true ∧ (readEnroll (enrollRack 9)).isSome = true ∧
    base.registry.addrMap.any (fun p => p.1 == 5) = true ∧ base.registry.addrMap.any (fun p => p.1 == 9) = false ∧
    answer base .enroll 0 (enrollCrane 5 15) = some .duplicate ∧
    answer (withCranes 16) .enroll 0 (enrollCrane 9 15) = some .tableFull ∧
    (base.entry 0).crane = some 3 ∧ answer base .enroll 0 (enrollCrane 9 3) = some .duplicate ∧
    answer (withCranes 15) .enroll 0 (enrollCrane 9 15) = some .ok ∧
    (base.entry 2).state = .free ∧ (base.entry 2).withdrawal = none ∧ (base.entry 1).state ≠ .free ∧
    (base.entry 1).rack = some 7 := by decide +kernel

theorem test_enroll_rack :
    ((after (.enroll 0) (asked threeWait .enroll 0 (enrollRack 9))).entry 2).rack = some 0 ∧
    answer threeWait .enroll 0 (enrollRack 9) = some .ok ∧
    (after (.enroll 0) (asked threeWait .enroll 0 (enrollRack 9))).inFlightOf 2 = [] := by decide +kernel

/-- The base with its rack in a silence state, in the slot 23 of a container that carries the reason. -/
def quiet (v : Silence) (p : PollState) : State :=
  (base.setRackRec 7 (some { RackRec.start 1 with silence := v, poll := p })).setSlot 7 23
    { Slot.clear with occupied := true, reasons := Reasons.empty.underSilence v, grade := (Reasons.empty.underSilence v).grade }

/-- What a MOVE of the rack to a segment leaves of its record and slot. -/
def movedRack (s : State) (g : Byte) : Option (Silence × PollState × Grade) :=
  let t := after (.move 0) (asked s .move 0 [1, 0, 1, g])
  (t.rackRec 7).map (fun k => (k.silence, k.poll, (t.slot 7 23).grade))

theorem test_witness_WithdrawAndMoveChangeTheEntryNamed :
    (asked base .withdraw 0 [0, 0, 1]).Asks .withdraw (ask .withdraw 0 [0, 0, 1]) ∧
    readWithdraw [255, 0, 1] = some (255, 1) ∧ readMove [0, 0, 1, 63] = some (0, 1, 63) ∧
    answer base .withdraw 0 [255, 0, 0] = some .wrongState ∧ answer base .withdraw 0 [0, 0, 2] = some .wrongState ∧
    answer base .withdraw 0 [0, 0, 1] = some .ok ∧ answer base .move 0 [0, 0, 2, 21] = some .wrongState ∧
    answer base .move 0 [0, 0, 1, 20] = some .ok ∧ answer base .move 0 [0, 0, 1, 63] = some .ok ∧
    base.craneRec 3 = some (CraneRec.start 0) ∧
    ((after (.move 0) (asked base .move 0 [0, 0, 1, 63])).craneRec 3).map CraneRec.cond = some .degraded ∧
    answer base .move 0 [1, 0, 1, 63] = some .ok := by decide +kernel

theorem test_witness_MoveIsSpreadToItsUnit :
    ((after (.move 0) (asked base .move 0 [0, 0, 1, 63])).link 3).outQ =
      [.notice (.craneState 3 .enrolled .degraded (some 63) (some .dark)) 0] ∧ (base.link 3).noticeCount < 55 ∧
    (base.entry 1).kind = some .rack ∧ (base.entry 1).rack = some 7 ∧ (base.entry 1).seg = some 20 ∧
    movedRack base 63 = some (.notSilent, .noPoll, .noGrade) ∧
    movedRack (quiet .silent .queued) 63 = some (.dark, .queued, .watch) ∧
    movedRack (quiet .silent .queued) 21 = some (.silent, .queued, .warn) ∧
    movedRack (quiet .dark .noPoll) 63 = some (.dark, .noPoll, .watch) ∧
    movedRack (quiet .dark .noPoll) 21 = some (.silent, .queued, .warn) := by decide +kernel

/-- The base with the withdrawal of an entry in hand. -/
def leaving (e : EntryNo) (w : Withdrawal) : State := base.setEntry e { (base.entry e).withdrawn with withdrawal := some w }

theorem test_witness_EachUnitDealsOnceWithAWithdrawal :
    ((leaving 0 ⟨false, false⟩).entry 0).withdrawal = some ⟨false, false⟩ ∧
    ((after (.downlinkWithdrawal 0) (leaving 0 ⟨false, false⟩)).entry 0).withdrawal = some ⟨true, false⟩ ∧
    ((after (.downlinkWithdrawal 0) (leaving 0 ⟨false, true⟩)).entry 0).kind = none ∧
    ((after (.downlinkWithdrawal 0) (leaving 0 ⟨false, true⟩)).entry 0).crane = none ∧
    (after (.downlinkWithdrawal 0) (leaving 0 ⟨false, true⟩)).registry.craneCount = 0 ∧
    (after (.downlinkWithdrawal 0) (leaving 0 ⟨false, false⟩)).registry.craneCount = 1 ∧
    (after (.downlinkWithdrawal 1) (leaving 1 ⟨false, true⟩)).registry.rackCount = 0 ∧
    ((after (.downlinkWithdrawal 1) (leaving 1 ⟨false, true⟩)).entry 1).yard = none ∧
    ((after (.reeferWithdrawal 1) (leaving 1 ⟨false, false⟩)).entry 1).yard = some 0 ∧
    ((after (.craneWithdrawal 0) (leaving 0 ⟨false, false⟩)).entry 0).withdrawal = some ⟨false, true⟩ ∧
    (after (.craneWithdrawal 0) (leaving 0 ⟨true, false⟩)).registry.craneCount = 0 ∧
    (after (.craneWithdrawal 0) (leaving 0 ⟨true, false⟩)).craneRec 3 = none ∧
    ((after (.reeferWithdrawal 1) (leaving 1 ⟨true, false⟩)).entry 1).rack = none ∧
    (after (.reeferWithdrawal 1) (leaving 1 ⟨false, false⟩)).rackRec 7 = none ∧
    idle (.downlinkWithdrawal 0) (leaving 0 ⟨true, false⟩) = true ∧ idle (.craneWithdrawal 0) (leaving 0 ⟨false, true⟩) = true ∧
    idle (.reeferWithdrawal 1) base = true := by decide +kernel

theorem test_withdrawal_tells_the_originators :
    queueAfter 1 (.downlinkWithdrawal 0) (queued (leaving 0 ⟨false, false⟩) [waits 0 .safety, waits 1 .bulk, waits 0 .bulk]) =
      [result (waits 0 .safety) .withdrawn, result (waits 0 .bulk) .withdrawn] ∧
    look (after (.downlinkWithdrawal 0) (queued (leaving 0 ⟨false, false⟩) [waits 0 .safety, waits 1 .bulk, waits 0 .bulk])
      ).downlink.counters 18 = 2 := by decide +kernel

/-- One uplink frame as DELIVER carries it. -/
def uplink (a : Word) (bytes : List Byte) : List Byte := be32 a ++ out2 bytes.length ++ bytes

/-- The base with nothing enrolled. -/
def bare : State := { base with
  registry := Registry.reset, access := Access.reset, cranes := Cranes.reset, reefer := Reefer.reset }

theorem bare_entry (e : EntryNo) : bare.entry e = Entry.reset := by
  simp [bare, State.entry, Registry.reset]

theorem bare_registryAgrees : bare.registryAgrees := by
  have h0 : ∀ k, bare.holding k = 0 := by
    intro k
    simp only [State.holding, bare_entry]
    cases k <;> decide +kernel
  refine ⟨?_, ?_, ?_, ?_, ?_, ?_, ?_, ?_, ?_, ?_, ?_⟩
  · intro e
    rw [bare_entry]
    refine ⟨?_, ?_, ?_, ?_, ?_⟩ <;> simp [Entry.reset]
  · exact List.nodup_nil
  · intro a e
    rw [bare_entry]
    simp [bare, Registry.reset, Entry.reset]
  · intro e f c h
    rw [bare_entry] at h
    cases h
  · intro e f c h
    rw [bare_entry] at h
    cases h
  · rw [h0]; rfl
  · rw [h0]; rfl
  · exact Nat.zero_le _
  · exact Nat.zero_le _
  · exact Nat.zero_le _
  · exact List.nodup_nil

/-- A list of eight unknown sources, the oldest 100. -/
def eightUnknown : State := { bare with registry := { bare.registry with
  unknowns := (List.range 8).map (fun n => { addr := BitVec.ofNat 32 (100 + n), first := 0, last := 0, count := 1 }) } }

theorem test_witness_DeliverDisposesOfEachFrameByItsAddress :
    (asked bare .deliver 0 ([1] ++ uplink 9 [])).Asks .deliver (ask .deliver 0 ([1] ++ uplink 9 [])) ∧
    readDeliver ([1] ++ uplink 9 []) = some [(9, [])] ∧ (readDeliver ([16] ++ (List.replicate 16 (uplink 9 [])).flatten)).isSome = true ∧
    readDeliver [0] = none ∧ bare.registry.lookup 9 = none ∧ base.registry.lookup 5 = some 0 ∧
    answer bare .deliver 0 ([1] ++ uplink 9 []) = some .ok ∧
    (eightUnknown.registry.unknowns.find? (fun v => v.addr == 100)).isSome = true ∧
    eightUnknown.registry.unknowns.any (fun v => v.addr == 9) = false ∧ 8 ≤ eightUnknown.registry.unknowns.length ∧
    ((after (.deliver 0) (asked eightUnknown .deliver 0 ([1] ++ uplink 9 []))).registry.unknowns.map UnknownRec.addr) =
      [101, 102, 103, 104, 105, 106, 107, 9] := by decide +kernel

/-- The base with links 1 and 2 subscribed to crane 3, link 2's quota used up. -/
def subscribed : State :=
  let s := base.setCraneRec 3 (some { CraneRec.start 0 with subs := put (put LinkSet.none 1 true) 2 true })
  { s with settings := { s.settings with params := put s.settings.params pQuota 64 }
           pool := { s.pool with free := 4032, queues := put s.pool.queues 2 (List.replicate 64
             { content := .digest { rack := 7, yard := some 0, seg := none, cls := none, counter := 1, second := 0, entries := [] },
               placed := 0, dropsBefore := 0 }) } }

/-- A DELIVER of one telemetry frame with a gantry value and a payload of `n` bytes. -/
def gantryAt (s : State) (g : Byte) (n : Nat) : State :=
  after (.deliver 0) (asked s .deliver 0 ([1] ++ uplink 5 ([0, g] ++ List.replicate n 0)))

theorem test_witness_TelemetryUpdatesTheCraneAndItsEntry :
    readDeliver ([1] ++ uplink 5 [0, 63]) = some [(5, [0, 63])] ∧ base.registry.lookup 5 = some 0 ∧
    (base.entry 0).kind = some .crane ∧ (base.entry 0).crane = some 3 ∧ base.craneRec 3 = some (CraneRec.start 0) ∧
    (half 0 63).toNat = 63 ∧ 64 ≤ (half 0 64).toNat ∧ ([1] : List Byte).length < 2 ∧
    ((after (.deliver 0) (asked base .deliver 0 ([1] ++ uplink 5 [0, 63]))).entry 0).seg = some 63 ∧
    ((after (.deliver 0) (asked base .deliver 0 ([1] ++ uplink 5 [0, 64]))).entry 0).seg = some 20 ∧
    look (after (.deliver 0) (asked base .deliver 0 ([1] ++ uplink 5 [1]))).cranes.counters 1 = 1 ∧
    (look (gantryAt subscribed 63 1).pool.queues 1).map Delivery.content = [.telemetry
      { crane := 3, truncated := false, positionHeld := false, seg := some 63, time := 0, gantry := 63, received := 1,
        payload := [0] }] ∧
    (look (gantryAt subscribed 63 1).pool.queues 2).length = 64 ∧ look (gantryAt subscribed 63 1).pool.dropped 2 = 1 ∧
    look (gantryAt subscribed 63 1).pool.queues 0 = [] ∧ look (gantryAt subscribed 63 1).cranes.counters 4 = 2 ∧
    look (gantryAt base 63 1).cranes.counters 4 = 0 ∧ look subscribed.cranes.counters 4 ≤ 65535 := by decide +kernel

/-- A report of one reading: plug 23 RUNNING, setpoint 0, supply 5.0 degrees. -/
def report (c : Byte) : List Byte := [c, 1, 23, 1, 0, 0, 0, 50, 128, 0, 0]

/-- The base with a last accepted report counter for the rack. -/
def reported (c : Byte) : State := base.setEntry 1 { rackEntry with lastReport := some c }

/-- What a DELIVER of one frame from the rack does. -/
def delivered (s : State) (frame : List Byte) : State := after (.deliver 0) (asked s .deliver 0 ([1] ++ uplink 6 frame))

/-- A state in which links 0 to 2 cover the rack in the modes CHANGES, ALL and NONE, and link 3 takes all digests of another yard. -/
def interested (s : State) (paused : Bool) : State := { s with
  reefer := { s.reefer with interest := #v[{ yards := 1, allAlarms := false, mode := .changes },
    { yards := 1, allAlarms := false, mode := .all }, { yards := 1, allAlarms := true, mode := .noInterest },
    { yards := 2, allAlarms := false, mode := .all }] }
  pool := { s.pool with paused := paused, free := 1000 } }

/-- The deliveries of each link after a report. -/
def digests (s : State) (frame : List Byte) : List Nat :=
  (delivered s frame).pool.queues.toList.map List.length

/-- A report that plug 23 is EMPTY. -/
def emptyReport : List Byte := [9, 1, 23, 0, 0, 0, 128, 0, 128, 0, 0]

theorem test_witness_RackReportsAreJudgedByTheirCounter :
    readDeliver ([1] ++ uplink 6 (report 9)) = some [(6, report 9)] ∧ base.registry.lookup 6 = some 1 ∧
    (base.entry 1).kind = some .rack ∧ (base.entry 1).rack = some 7 ∧ base.rackRec 7 = some (RackRec.start 1) ∧
    readReport [] = none ∧ (readReport (report 9)).isSome = true ∧ (base.entry 1).lastReport = none ∧
    look (delivered base []).reefer.counters 1 = 1 ∧ look (delivered (reported 9) (report 9)).reefer.counters 3 = 1 ∧
    ((9 : Byte) - 137).toNat = 128 ∧ look (delivered (reported 137) (report 9)).reefer.counters 4 = 1 ∧
    ((9 : Byte) - 138).toNat = 127 ∧ look (delivered (reported 138) (report 9)).reefer.counters 2 = 1 ∧
    ((9 : Byte) - 8).toNat = 1 ∧ look (delivered (reported 8) (report 9)).reefer.counters 2 = 1 ∧
    look (delivered base (report 9)).reefer.counters 2 = 1 ∧ ((delivered base (report 9)).slot 7 23).temp = some 50 ∧
    (delivered (quiet .silent .queued) (report 9)).slot 7 23 = (delivered base (report 9)).slot 7 23 ∧
    ((delivered (quiet .silent .queued) [9, 1, 22, 1, 0, 0, 0, 50, 128, 0, 0]).slot 7 23).reasons = Reasons.empty ∧
    (delivered (quiet .dark .noPoll) emptyReport).slot 7 23 = Slot.clear ∧ (delivered base emptyReport).slot 7 23 = Slot.clear ∧
    digests (interested base false) (report 9) = [1, 1, 0, 0] ∧ digests (interested base true) (report 9) = [1, 1, 0, 0] ∧
    digests (interested base false) emptyReport = [0, 1, 0, 0] ∧ digests (interested base true) emptyReport = [0, 0, 0, 0] ∧
    look (delivered (interested base false) (report 9)).reefer.counters 15 = 2 := by
  decide +kernel

theorem test_reading_raises :
    ((delivered ((interested base false).setSlot 7 23 { Slot.clear with occupied := true, dose := 1200 }) (report 9)).slot 7 23).grade =
      .alarm ∧
    (delivered ((interested base false).setSlot 7 23 { Slot.clear with occupied := true, dose := 1200 }) (report 9)
      ).reefer.alarms.length = 1 := by decide +kernel

/-- The base with segment 20 DARK. -/
def darkened : State := base.setSegRec 20 { cls := .dark, serving := none }

theorem test_witness_AHeardEntryPastItsLimitFallsSilent :
    (base.entry 0).state = .heard ∧ base.param pCraneSilence ≤ elapsed (atMs base 300).clock.ms (base.entry 0).silenceFrom ∧
    elapsed (atMs base 299).clock.ms (base.entry 0).silenceFrom < base.param pCraneSilence ∧
    base.param pRackSilence ≤ elapsed (atSec base 1800).clock.sec (base.entry 1).silenceFrom ∧
    elapsed (atSec base 1799).clock.sec (base.entry 1).silenceFrom < base.param pRackSilence ∧ (base.entry 2).state ≠ .heard ∧
    idle (.silenceExpiry 0) (atMs base 299) = true ∧
    ((after (.silenceExpiry 0) (atMs base 300)).craneRec 3).map CraneRec.cond = some .lost ∧
    base.classOf (some 20) = some .good ∧ darkened.classOf (some 20) = some .dark ∧
    ((after (.silenceExpiry 1) (atSec base 1800)).rackRec 7).map RackRec.silence = some .silent ∧
    ((after (.silenceExpiry 1) (atSec darkened 1800)).rackRec 7).map RackRec.silence = some .dark ∧
    idle (.silenceExpiry 255) base = true := by decide +kernel

theorem test_a_lost_crane_is_told :
    queueAfter 1 (.silenceExpiry 0) (atMs threeWait 300) =
      [note (.craneState 3 .enrolled .lost (some 20) (some .good)), result (waits 0 .control) .linkLost] ∧
    (after (.silenceExpiry 0) (atMs threeWait 300)).downlink.waiting.map Frame.cls = [.safety, .bulk] := by decide +kernel

theorem test_witness_TimeUnknownsAndAlarmsAreOnlyRead :
    (asked base .readTime 3 []).Asks .readTime (ask .readTime 3 []) ∧ answer base .readTime 3 [] = some .ok ∧
    answer base .readTime 3 [0] = some .badRequest ∧
    (asked base .listUnknown 3 []).Asks .listUnknown (ask .listUnknown 3 []) ∧ answer base .listUnknown 3 [] = some .ok ∧
    answer base .listUnknown 3 [0] = some .badRequest ∧
    (asked base .readAlarms 3 [255, 64]).Asks .readAlarms (ask .readAlarms 3 [255, 64]) ∧
    answer base .readAlarms 3 [255, 64] = some .ok ∧ answer base .readAlarms 3 [0, 1] = some .ok ∧
    answer base .readAlarms 3 [0, 0] = some .badRequest ∧ answer base .readAlarms 3 [0, 65] = some .badRequest ∧
    answer base .readAlarms 3 [] = some .badRequest := by decide +kernel

/-! ### Access lists and tokens -/

/-- The base with a private common entry 3 for authority index 5, and a crane whose authority set is empty. -/
def closed : State := { base with
  access := { base.access with common := put base.access.common 3 { grantTo 0 false with priv := true, ax := some 5 } }
  registry := { base.registry with entries := put base.registry.entries 0 { craneEntry with auth := 0 } } }

theorem test_witness_TokensPassSixStagesOrAreRefused :
    base.checkToken 0 { list := .common, entry := 128, seq := 4 } true = .failed .tokenRange 5 ∧
    (look (base.accessList 0 .common) 126).valid = false ∧
    base.checkToken 0 { list := .common, entry := 126, seq := 4 } true = .failed .entryInvalid 6 ∧
    (look (base.accessList 0 .common) 0).valid = true ∧
    base.checkToken 0 { list := .common, entry := 0, seq := 5 } true = .failed .entryStale 7 ∧
    base.checkToken 0 { list := .common, entry := 127, seq := 4 } true = .failed .terminalGone 8 ∧
    closed.checkToken 0 { list := .common, entry := 3, seq := 4 } true = .failed .notAuthorised 9 ∧
    base.checkToken 0 { list := .common, entry := 2, seq := 4 } true = .failed .readOnly 10 ∧
    base.checkToken 0 { list := .common, entry := 2, seq := 4 } false = .passed 0 ∧
    base.checkToken 0 { list := .common, entry := 0, seq := 4 } true = .passed 0 ∧
    (asked base .send 0 (tok 2 ++ [0, 0, 0, 1, 7])).Asks .send (ask .send 0 (tok 2 ++ [0, 0, 0, 1, 7])) ∧
    ReqCode.token (tok 2 ++ [0, 0, 0, 1, 7]) .send = some ({ list := .common, entry := 2, seq := 4 }, true) ∧
    answer base .send 0 (tok 2 ++ [0, 0, 0, 1, 7]) = some .readOnly := by decide +kernel

/-- The base with every entry of the common list valid. -/
def fullList : State := { base with access := { base.access with common := Vector.replicate 128 (grantTo 0 false) } }

theorem test_witness_GrantIsRefusedOrFillsTheLowestInvalidEntry :
    (asked base .grant 0 [0, 0, 0, 0, 0, 1, 15]).Asks .grant (ask .grant 0 [0, 0, 0, 0, 0, 1, 15]) ∧
    (readGrant [0, 0, 0, 0, 0, 1, 15]).isSome = true ∧ (readGrant [1, 0, 1, 0, 1, 0, 1, 0]).isSome = true ∧
    answer base .grant 0 [0, 0, 0, 0, 0, 1, 0] = some .badRequest ∧ answer base .grant 0 [0, 0, 0, 0, 0, 1, 16] = some .badRequest ∧
    answer base .grant 0 [0, 0, 0, 0, 0, 0] = some .badRequest ∧ answer base .grant 0 [1, 0, 0, 0, 0, 1, 2] = some .badRequest ∧
    answer base .grant 0 [0, 255, 0, 0, 0, 1, 15] = some .terminalGone ∧
    answer base .grant 0 [0, 0, 1, 0, 2, 0, 0, 1, 15] = some .terminalGone ∧
    answer closed .grant 0 [1, 0, 0, 0, 0, 0] = some .notAuthorised ∧
    (∀ i : Fin 128, (look (fullList.accessList 0 .common) i).valid = true) ∧
    answer fullList .grant 0 [0, 0, 0, 0, 0, 1, 15] = some .tableFull ∧
    (look (base.accessList 0 .common) 3).valid = false ∧
    answer base .grant 0 [0, 0, 0, 0, 0, 1, 15] = some .ok ∧ answer base .grant 0 [1, 0, 1, 0, 1, 0, 0, 1, 1] = some .ok := by
  decide +kernel

theorem test_witness_RevokeAndReadEntryActOnTheEntryNamed :
    (asked base .revoke 0 (tok 0)).Asks .revoke (ask .revoke 0 (tok 0)) ∧ (readToken (tok 0)).isSome = true ∧
    answer base .revoke 0 (tok 128) = some .tokenRange ∧ answer base .revoke 0 (tok 126) = some .entryInvalid ∧
    answer base .revoke 0 [0, 0, 5] = some .entryStale ∧ answer base .revoke 0 (tok 127) = some .ok ∧
    (asked base .readEntry 0 [0, 0]).Asks .readEntry (ask .readEntry 0 [0, 0]) ∧ readReadEntry [2, 0] = none ∧
    readReadEntry [1, 127] = some (.own, 127) ∧ answer base .readEntry 0 [2, 0] = some .badRequest ∧
    answer base .readEntry 0 [0, 128] = some .tokenRange ∧ answer base .readEntry 0 [0, 126] = some .ok ∧
    answer base .readEntry 0 [0, 127] = some .ok ∧ (look (base.accessList 0 .common) 127).terminal = some 9 := by decide +kernel

theorem test_witness_ReadsUnderATokenGiveTheTerminal :
    (asked base .readTerminal 3 (tok 2)).Asks .readTerminal (ask .readTerminal 3 (tok 2)) ∧
    readToken (tok 2) = some { list := .common, entry := 2, seq := 4 } ∧
    base.checkToken 3 { list := .common, entry := 2, seq := 4 } false = .passed 0 ∧
    base.checkToken 3 { list := .common, entry := 1, seq := 4 } false = .passed 1 ∧
    answer base .readTerminal 3 (tok 2) = some .ok ∧ answer base .readCrane 3 (tok 2) = some .ok ∧
    answer threeWait .readCrane 3 (tok 2) = some .ok ∧ (CraneRec.start 0).lastTelemetry = none ∧
    answer base .readCrane 3 (tok 1) = some .wrongState ∧ answer base .readRack 3 (tok 2 ++ [0]) = some .wrongState ∧
    base.rackRec 7 = some (RackRec.start 1) ∧
    answer base .readRack 3 (tok 1 ++ [0]) = some .ok ∧ answer base .readRack 3 (tok 1 ++ [1, 23, 1]) = some .ok ∧
    answer base .readRack 3 (tok 1 ++ [1, 24, 1]) = some .badRequest ∧
    answer base .readRack 3 (tok 1 ++ [1, 0, 0]) = some .badRequest ∧
    answer base .readRack 3 (tok 1 ++ [1, 23, 2]) = some .badRequest := by decide +kernel

/-! ### The coverage block -/

theorem test_witness_ReadCoverageGivesSegmentsAndCells :
    (asked base .readCoverage 3 [63, 1]).Asks .readCoverage (ask .readCoverage 3 [63, 1]) ∧
    answer base .readCoverage 3 [63, 1] = some .ok ∧ answer base .readCoverage 3 [0, 64] = some .ok ∧
    answer base .readCoverage 3 [64, 1] = some .badRequest ∧ answer base .readCoverage 3 [0, 0] = some .badRequest ∧
    answer base .readCoverage 3 [0, 65] = some .badRequest ∧ answer base .readCoverage 3 [63, 2] = some .badRequest ∧
    answer base .readCoverage 3 [0] = some .badRequest := by decide +kernel

/-- Beam 8 OPEN on segment 20 for link 0. -/
def openBeam8 : Beam := { Beam.reset with state := .opened, seg := some 20, holders := LinkSet.only 0 }
def opened : State := base.setBeam 8 openBeam8

/-- The base with segment 20 DARK for want of a cell that is not MARKED, and its rack DARK. -/
def marked20 : State :=
  ((quiet .dark .noPoll).setCell 4 20 { goodCell with state := .marked }).setSegRec 20 { cls := .dark, serving := none }

/-- A cell of a head that is OFFLINE, which serves no segment. -/
def sideCell : State := base.setCell 5 20 goodCell

theorem test_witness_MarkAndUnmarkChangeOneCell :
    (asked opened .markCell 0 [4, 20]).Asks .markCell (ask .markCell 0 [4, 20]) ∧ readCellBody [4, 20] = some (4, 20) ∧
    base.cell 4 22 = none ∧ answer base .markCell 0 [4, 22] = some .badRequest ∧ base.cell 4 20 = some goodCell ∧
    answer (base.setCell 4 20 { goodCell with state := .marked }) .markCell 0 [4, 20] = some .ok ∧
    (opened.beam 8).state = .opened ∧ (opened.beam 8).burst = none ∧ (opened.beam 8).holders ≠ LinkSet.none ∧
    answer (base.setCell 4 20 { goodCell with state := .retired }) .markCell 0 [4, 20] = some .ok ∧
    answer base .unmarkCell 0 [4, 22] = some .badRequest ∧ answer base .unmarkCell 0 [4, 20] = some .ok ∧
    answer (base.setCell 4 20 { goodCell with state := .marked }) .unmarkCell 0 [4, 20] = some .ok := by decide +kernel

/-- Beam 8 is OPEN on segment 20, crane 3 and a SILENT rack stand on it. -/
def busySegment : State :=
  opened.setRackRec 7 (some { RackRec.start 1 with silence := .silent, poll := .queued })

def busyMarked : State := after (.markCell 0) (asked busySegment .markCell 0 [4, 20])

/-- Segment 20 goes DARK, its beam closes, its crane is DEGRADED, its rack DARK with the POLL state kept. -/
theorem test_mark_is_spread :
    (busySegment.segRec 20).cls = .good ∧ (busyMarked.segRec 20).cls = .dark ∧ (busyMarked.beam 8).state = .closing ∧
    (busyMarked.link 3).outQ.head? = some (.notice (.coverageChanged 20 .good .dark) 0) ∧
    (busyMarked.craneRec 3).map CraneRec.cond = some .degraded ∧
    (busyMarked.rackRec 7).map (fun k => (k.silence, k.poll)) = some (.dark, .queued) ∧
    (busyMarked.link 0).outQ.take 3 = [note (.coverageChanged 20 .good .dark),
      note (.craneState 3 .enrolled .degraded (some 20) (some .dark)), note (.beamLost 8 (some 20) .marked)] ∧
    look busyMarked.coverage.counters 23 = 1 ∧
    ((after (.markCell 0) (asked sideCell .markCell 0 [5, 20])).segRec 20).cls = .good ∧
    look (after (.markCell 0) (asked sideCell .markCell 0 [5, 20])).coverage.counters 6 = 0 := by decide +kernel

def unmarked20 : State := after (.unmarkCell 0) (asked marked20 .unmarkCell 0 [4, 20])

theorem test_unmark_is_spread :
    (unmarked20.segRec 20).cls = .weak ∧
    (unmarked20.rackRec 7).map (fun k => (k.silence, k.poll)) = some (.silent, .queued) := by decide +kernel

/-! ### Heads and beams -/

/-- Beam 8 STEERING to segment 20 for link 0, whose OPEN awaits it. -/
def steering : State := base.setBeam 8
  { Beam.reset with
    state := .steering, seg := some 20, holders := LinkSet.only 0
    awaiting := [{ ref := { link := 0, serial := 0, tag := 1 }, arrival := 0 }] }

/-- A base whose head is OVERDUE: no beam may be steered. -/
def overdue : State := base.setHead 4 { base.head 4 with survey := .overdue }

/-- The wait list holds `n` entries of link 1 for segment 20. -/
def waiting (s : State) (n : Nat) : State :=
  s.setWaitList (List.replicate n { req := { ref := { link := 1, serial := 0, tag := 1 }, arrival := 0 }, seg := 20, oneShot := true })

theorem test_witness_OpenIsRefusedJoinsSteersOrWaits :
    (asked base .openBeam 0 [20, 0]).Asks .openBeam (ask .openBeam 0 [20, 0]) ∧ readOpen [20, 0] = some (20, false) ∧
    base.cell 4 20 = some goodCell ∧ (∀ h : HeadNo, base.cell h 22 = none) ∧
    answer base .openBeam 0 [22, 0] = some .cellUnusable ∧ (opened.beam 8).seg = some 20 ∧
    answer opened .openBeam 1 [20, 0] = some .ok ∧
    ((after (.openBeam 1) (asked steering .openBeam 1 [20, 0])).beam 8).awaiting.length = 2 ∧
    base.servingOrder 20 = [] ++ 4 :: [] ∧ (base.head 4).state = .ready ∧ (base.head 4).survey = .current ∧
    ((after (.openBeam 0) (asked base .openBeam 0 [20, 1])).beam 8).state = .steering ∧
    ((after (.openBeam 0) (asked opened .openBeam 0 [20, 1])).beam 9).state = .steering ∧
    (waiting overdue 15).beamCtl.waitList.length = 15 ∧
    (after (.openBeam 0) (asked (waiting overdue 15) .openBeam 0 [20, 0])).beamCtl.waitList.length = 16 ∧
    answer (waiting overdue 16) .openBeam 0 [20, 0] = some .noBeam := by decide +kernel

/-- Beam 8 OPEN on segment 20 with a burst of one frame (number 3) that link 0 owns. -/
def burstFrames : List Frame :=
  [{ handle := 0, terminal := 0, cls := .control, origin := some { link := 1, tag := 9 }, accept := 0, deadline := some 50,
     attempts := 0, payload := [1], orphaned := false }]
def inBurst : State := base.setBeam 8 { openBeam8 with burst := some { number := 3, owner := 0, frames := burstFrames, start := 0 } }

/-- The steering beam with its STEER still queued behind a PROBE. -/
def steerWaits (s : State) : State :=
  let s := s.setBeam 8 (steering.beam 8)
  s.setHead 4 { s.head 4 with
    queue := [.steer .a 20], outstanding := some { cmd := .probe, number := 9, sentAt := 0, leftToFinish := false } }

/-- The state after link 0 has released beam 8. -/
def released (s : State) : State := after (.release 0) (asked s .release 0 [8])

theorem test_witness_ReleaseTakesTheLinkOffTheBeam :
    (asked opened .release 0 [8]).Asks .release (ask .release 0 [8]) ∧ readBeamNo [8] = some 8 ∧ readBeamNo [24] = none ∧
    look (opened.beam 8).holders 1 = false ∧ answer opened .release 1 [8] = some .notHolder ∧
    look (inBurst.beam 8).holders 0 = true ∧
    ((after (.release 0) (asked inBurst .release 0 [8])).beam 8).releaseDeferred = true ∧
    answer (opened.setBeam 8 { openBeam8 with holders := put (LinkSet.only 0) 1 true }) .release 0 [8] = some .ok ∧
    ((after (.release 0) (asked opened .release 0 [8])).beam 8).state = .closing ∧
    ((after (.release 0) (asked steering .release 0 [8])).beam 8).state = .closing ∧
    ((steerWaits base).head 4).steerQueued (sideOf 8) = true ∧ (released (steerWaits base)).beam 8 = { Beam.reset with state := .idle } ∧
    ((released (steerWaits base)).head 4).queue = [] ∧ ((released (steerWaits overdue)).beam 8).state = .idle ∧
    (waiting (steerWaits base) 1).beamCtl.waitList.length = 1 ∧
    ((released (waiting (steerWaits base) 1)).beam 8).holders = LinkSet.only 1 ∧
    ((released (waiting (steerWaits base) 1)).beam 8).state = .steering := by decide +kernel

/-- Beam 8 in its burst, held by link 1 as well, with a loss that waits for the burst's end. -/
def burstShared : State :=
  inBurst.setBeam 8 { inBurst.beam 8 with holders := put (LinkSet.only 0) 1 true, closePending := some .marked }

/-- Link 0, which owns the burst, goes DOWN: its frame returns, or is late from 50 on; the beam closes. -/
theorem test_link_down_returns_bursts :
    (after (.linkDown 0 false) (atMs inBurst 20)).downlink.waiting = burstFrames ∧
    look (after (.linkDown 0 false) (atMs inBurst 20)).downlink.counters 9 = 1 ∧
    (after (.linkDown 0 false) (atMs inBurst 20)).beam 8 = Beam.closing (some 20) ∧
    ((after (.linkDown 0 false) (atMs inBurst 20)).head 4).outstanding =
      some { cmd := .release .a, number := 0, sentAt := 20, leftToFinish := false } ∧
    queueAfter 1 (.linkDown 0 false) (atMs inBurst 20) = [] := by decide +kernel

theorem test_link_down_tells_the_others :
    queueAfter 1 (.linkDown 0 false) (atMs inBurst 50) = [note (.frameResult 0 0 .control 9 .expired 0)] ∧
    (after (.linkDown 0 false) (atMs inBurst 50)).pool.free = 4097 ∧
    queueAfter 1 (.linkDown 0 false) (atMs burstShared 20) = [note (.beamLost 8 (some 20) .marked)] ∧
    (after (.linkDown 0 false) (atMs burstShared 20)).beam 8 = Beam.closing (some 20) := by decide +kernel

theorem test_link_down_frees_beams :
    (after (.linkDown 0 false) (atMs (steerWaits base) 20)).beam 8 = { Beam.reset with state := .idle } ∧
    ((after (.linkDown 0 false) (atMs (waiting (steerWaits base) 1) 20)).beam 8).holders = LinkSet.only 1 ∧
    (after (.linkDown 0 false) (atMs (opened.setBeam 8 { openBeam8 with holders := put (LinkSet.only 0) 1 true }) 20)).beam 8 =
      { openBeam8 with holders := LinkSet.only 1 } := by decide +kernel

/-- The base with its head in another state. -/
def headIs (v : HeadState) : State := base.setHead 4 { base.head 4 with state := v }

theorem test_witness_ReadBeamsReadsAndSurveyMakesDue :
    (asked base .readBeams 0 []).Asks .readBeams (ask .readBeams 0 []) ∧ answer base .readBeams 0 [] = some .ok ∧
    answer base .readBeams 0 [0] = some .badRequest ∧
    (asked base .survey 0 [4]).Asks .survey (ask .survey 0 [4]) ∧ readHeadNo [11] = some 11 ∧ readHeadNo [12] = none ∧
    answer base .survey 0 [0] = some .wrongState ∧ answer (headIs .fault) .survey 0 [4] = some .headFault ∧
    answer overdue .survey 0 [4] = some .ok ∧ answer base .survey 0 [4] = some .ok ∧
    ((after (.survey 0) (asked base .survey 0 [4])).beam 9).state = .surveying ∧
    ((after (.survey 0) (asked opened .survey 0 [4])).beam 9).state = .idle := by decide +kernel

/-- A state whose head 4 has a command outstanding under number 9. -/
def sent (s : State) (c : HeadCmd) (left : Bool) : State :=
  s.setHead 4 { s.head 4 with outstanding := some { cmd := c, number := 9, sentAt := 0, leftToFinish := left } }

def doneAnswer : List Byte := Answer.bytes { number := 9, kind := .done }
def refusedAnswer : List Byte := Answer.bytes { number := 9, kind := .refused }
def sweepAnswer (es : List (Option Nat)) : List Byte := Answer.bytes { number := 9, kind := .sweepResult es }

theorem test_witness_AnswersMatchByNumberKindAndCount :
    readAnswer [9, 1, 0, 0] = none ∧ (base.head 4).outstanding = none ∧ base.matched 4 doneAnswer = none ∧
    (sent base .probe false).matched 4 doneAnswer = some ({ cmd := .probe, number := 9, sentAt := 0, leftToFinish := false }, .done) ∧
    (sent base .sweep false).matched 4 doneAnswer = none ∧
    (sent base .sweep false).matched 4 (sweepAnswer [some 0]) = none ∧
    ((sent base .sweep false).matched 4 (sweepAnswer [some 0, none])).isSome = true ∧
    ((sent base .sweep false).matched 4 refusedAnswer).isSome = true ∧
    look (after (.unmatchedAnswer 4 [9, 1, 0, 0]) base).coverage.counters 18 = 1 ∧
    idle (.unmatchedAnswer 4 doneAnswer) (sent base .probe false) = true ∧
    ((sent steering (.steer .a 20) true).matched 4 doneAnswer).isSome = true ∧
    ((after (.steerDone 4 doneAnswer) (sent steering (.steer .a 20) true)).beam 8).state = .steering ∧
    ((after (.steerRefused 4 refusedAnswer) (sent steering (.steer .a 20) true)).beam 8).state = .steering ∧
    ((after (.sweepResult 4 (sweepAnswer [some 0, none])) (sent base .sweep true)).head 4).outstanding = none ∧
    ((after (.sweepRefused 4 refusedAnswer) (sent base .sweep true)).head 4).retryAt = none ∧
    ((after (.releaseAnswered 4 doneAnswer) (sent opened (.release .a) true)).beam 8).state = .opened ∧
    ((after (.probeAnswered 4 doneAnswer) (sent base .probe true)).head 4).survey = .current := by decide +kernel

/-- The steering beam with a loss that waits for its answer. -/
def steeringLost : State := steering.setBeam 8 { steering.beam 8 with closePending := some .marked }
/-- A beam that is CLOSING. -/
def closing : State := base.setBeam 8 { Beam.reset with state := .closing, seg := some 20 }

theorem test_witness_SteerAnswersOpenOrFreeTheBeam :
    ((sent steering (.steer .a 20) false).matched 4 doneAnswer).isSome = true ∧ (steering.beam 8).closePending = none ∧
    statusOf 0 (exec (.steerDone 4 doneAnswer) (sent steering (.steer .a 20) false)) = some .ok ∧
    ((after (.steerDone 4 doneAnswer) (sent steering (.steer .a 20) false)).beam 8).state = .opened ∧
    ((after (.steerDone 4 doneAnswer) (sent steeringLost (.steer .a 20) false)).beam 8).state = .closing ∧
    ((after (.steerDone 4 doneAnswer) (sent closing (.steer .a 20) false)).beam 8).state = .closing ∧
    ((sent steering (.steer .a 20) false).matched 4 refusedAnswer).isSome = true ∧ steering.beamCtl.waitList = [] ∧
    steering.param pWaitLimit ≤ elapsed (50 : Time) 0 ∧
    statusOf 0 (exec (.steerRefused 4 refusedAnswer) (atMs (sent steering (.steer .a 20) false) 50)) = some .noBeam ∧
    ((after (.steerRefused 4 refusedAnswer) (atMs (sent steering (.steer .a 20) false) 50)).beam 8).state = .idle ∧
    (after (.steerRefused 4 refusedAnswer) (atMs (sent steering (.steer .a 20) false) 50)).cell 4 20 =
      some { goodCell with state := .weak, q := 100 } ∧
    look (after (.steerRefused 4 refusedAnswer)
      (sent (steering.setCell 4 20 { goodCell with state := .marked }) (.steer .a 20) false)).coverage.counters 3 = 1 := by
  decide +kernel

/-- The state after a refused STEER of beam 8, `age` ms after the requests arrived. -/
def refused (s : State) (age : Time) : State := after (.steerRefused 4 refusedAnswer) (atMs (sent s (.steer .a 20) false) age)

/-- The steering beam of a head that is OVERDUE. -/
def steeringOverdue : State := overdue.setBeam 8 (steering.beam 8)

/-- A young request returns to the wait list, or steers the beam anew. -/
theorem test_refused_steers_requeue :
    (waiting steeringOverdue 16).beamCtl.waitList.Pairwise (fun v w => elapsed 49 w.req.arrival ≤ elapsed 49 v.req.arrival) ∧
    (refused steeringOverdue 49).beamCtl.waitList.map WaitEntry.req = (steering.beam 8).awaiting ∧
    ((refused steeringOverdue 49).beam 8).state = .surveying ∧ (refused steering 49).beam 8 = steering.beam 8 := by
  decide +kernel

/-- The newest of 17 is answered NO_BEAM and counted. -/
theorem test_refused_steers_overflow :
    (refused (waiting steeringOverdue 16) 49).beamCtl.waitList = (waiting steeringOverdue 16).beamCtl.waitList ∧
    look (refused (waiting steeringOverdue 16) 49).coverage.counters 21 = 1 ∧
    ((refused (waiting steeringOverdue 16) 49).link 0).outQ.getLast? =
      some (.reply { tag := 1, serial := some 0, status := .noBeam, body := .empty }) := by decide +kernel

theorem test_a_lost_steer_is_told :
    queueAfter 0 (.steerDone 4 doneAnswer) (sent steeringLost (.steer .a 20) false) =
      [.reply { tag := 1, serial := some 0, status := .ok, body := .opened 8 4 20 }, note (.beamLost 8 (some 20) .marked)] := by
  decide +kernel

/-- The base with both beams SURVEYING. -/
def surveying : State := (base.setBeam 8 { Beam.reset with state := .surveying }).setBeam 9 { Beam.reset with state := .surveying }

theorem test_witness_ReleaseAndSweepAnswersFreeTheBeams :
    (closing.beam 8).state = .closing ∧ ((sent closing (.release .a) false).matched 4 refusedAnswer).isSome = true ∧
    ((after (.releaseAnswered 4 doneAnswer) (sent closing (.release .a) false)).beam 8).state = .idle ∧
    look (after (.releaseAnswered 4 refusedAnswer) (sent closing (.release .a) false)).coverage.counters 11 = 1 ∧
    ((sent surveying .sweep false).matched 4 (sweepAnswer [some 255, none])).isSome = true ∧
    (after (.sweepResult 4 (sweepAnswer [some 255, none])) (sent surveying .sweep false)).cell 4 20 =
      some { goodCell with q := 228, sweep := some 255 } ∧
    ((after (.sweepResult 4 (sweepAnswer [some 0, some 0])) (sent surveying .sweep false)).head 4).survey = .current ∧
    ((after (.sweepRefused 4 refusedAnswer) (sent surveying .sweep false)).head 4).retryAt = some 1000 ∧
    ((after (.sweepRefused 4 refusedAnswer) (sent surveying .sweep false)).beam 8).state = .surveying := by decide +kernel

/-- Head 4 in FAULT with its PROBE time at 1,000, its beams DOWN. -/
def faulty : State :=
  ((base.setHead 4 { Head.reset with state := .fault, probeAt := some 1000 }).setBeam 8 Beam.reset).setBeam 9 Beam.reset

theorem test_witness_ProbesRecoverAHeadAndLimitsFaultIt :
    (faulty.head 4).state = .fault ∧ ((sent faulty .probe false).matched 4 refusedAnswer).isSome = true ∧
    ((after (.probeAnswered 4 doneAnswer) (sent faulty .probe false)).head 4).state = .ready ∧
    ((after (.probeAnswered 4 doneAnswer) (sent faulty .probe false)).beam 8).state = .surveying ∧
    ((after (.probeAnswered 4 doneAnswer) (sent base .probe false)).head 4).survey = .due ∧
    idle (.answerLimitExpiry 4) base = true ∧ base.param pSteerLimit ≤ elapsed (10 : Time) 0 ∧
    elapsed (9 : Time) 0 < base.param pSteerLimit ∧ base.param pSweepLimit ≤ elapsed (100 : Time) 0 ∧
    elapsed (99 : Time) 0 < base.param pSweepLimit ∧
    idle (.answerLimitExpiry 4) (atMs (sent base .sweep false) 99) = true := by decide +kernel

theorem test_limits_fault_a_head :
    ((after (.answerLimitExpiry 4) (atMs (sent surveying .sweep false) 100)).head 4).state = .fault := by decide +kernel

theorem test_limit_frees_the_line_of_a_faulty_head :
    ((after (.answerLimitExpiry 4) (atMs (sent faulty .probe false) 10)).head 4).outstanding = none := by decide +kernel

/-- A head FAULT returns the burst, tells the holders, answers the awaiting requests and raises HEAD_STATE. -/
theorem test_head_fault_is_told :
    queueAfter 0 (.answerLimitExpiry 4) (atMs (sent inBurst (.release .a) false) 10) =
      [note (.beamLost 8 (some 20) .headFault), note (.coverageChanged 20 .good .dark),
       note (.craneState 3 .enrolled .degraded (some 20) (some .dark)), note (.coverageChanged 21 .good .dark),
       note (.headState 4 .fault .current)] ∧
    (after (.answerLimitExpiry 4) (atMs (sent inBurst (.release .a) false) 10)).downlink.waiting = burstFrames ∧
    (after (.answerLimitExpiry 4) (atMs (sent inBurst (.release .a) false) 10)).beam 8 = Beam.reset := by
  decide +kernel

theorem test_head_fault_answers_and_recovery_is_told :
    (queueAfter 0 (.answerLimitExpiry 4) (atMs (sent steering (.steer .a 20) false) 10)).head? =
      some (.reply { tag := 1, serial := some 0, status := .headFault, body := .empty }) ∧
    queueAfter 3 (.probeAnswered 4 doneAnswer) (sent faulty .probe false) = [note (.headState 4 .ready .due)] ∧
    queueAfter 0 (.surveyOverdue 4) (atMs opened 20000) = [note (.beamLost 8 (some 20) .survey)] := by decide +kernel

theorem test_witness_HeadAndWaitTimersActWhenReached :
    reached 999 1000 = false ∧ reached 1000 1000 = true ∧ idle (.probeTime 4) (atMs faulty 999) = true ∧
    ((after (.probeTime 4) (atMs faulty 1000)).head 4).probeAt = some 2000 ∧
    ((after (.probeTime 4) (atMs (sent faulty .probe false) 1000)).head 4).queue = [.probe] ∧
    idle (.sweepRetryTime 4) base = true ∧
    (((after (.sweepRetryTime 4) (atMs (surveying.setHead 4 { base.head 4 with retryAt := some 5 }) 5)).head 4).outstanding.map
      Outstanding.cmd) = some .sweep ∧
    base.param pSurveyPeriod * 1000 = 10000 ∧ idle (.surveyDue 4) (atMs base 9999) = true ∧
    ((after (.surveyDue 4) (atMs base 10000)).head 4).survey = .due ∧
    idle (.surveyOverdue 4) (atMs base 19999) = true ∧
    ((after (.surveyOverdue 4) (atMs opened 20000)).beam 8).state = .closing ∧
    ((after (.surveyOverdue 4) (atMs inBurst 20000)).beam 8).closePending = some .survey ∧
    ((after (.surveyOverdue 4) (atMs steeringLost 20000)).beam 8).closePending = some .marked ∧
    idle (.waitExpiry 15) (waiting base 15) = true ∧ idle (.waitExpiry 0) (atMs (waiting base 1) 49) = true ∧
    statusOf 1 (exec (.waitExpiry 15) (atMs (waiting base 16) 50)) = some .noBeam := by decide +kernel

/-! ### The frame buffer pool -/

def aDigest : Content := .digest
  { rack := 7, yard := some 0, seg := some 20, cls := some .good, counter := 1, second := 0, entries := [] }

/-- Link 0 holds `n` deliveries of one block each. -/
def holding (n : Nat) : State := { base with pool := { base.pool with
  free := 4096 - n, queues := put base.pool.queues 0 (List.replicate n { content := aDigest, placed := 0, dropsBefore := 0 }) } }

theorem test_witness_TakeRemovesDeliveriesFromTheFront :
    (asked (holding 17) .take 0 [16]).Asks .take (ask .take 0 [16]) ∧ answer (holding 17) .take 0 [0] = some .badRequest ∧
    answer (holding 17) .take 0 [17] = some .badRequest ∧ answer base .take 0 [1] = some .ok ∧
    answer base .take 0 [] = some .badRequest ∧
    (look (after (.take 0) (asked (holding 17) .take 0 [16])).pool.queues 0).length = 1 ∧
    (after (.take 0) (asked (holding 17) .take 0 [16])).pool.free = 4095 := by decide +kernel

/-- The base with a free count and a pool state. -/
def freeIs (n : Nat) (paused : Bool) : State := { base with pool := { base.pool with free := n, paused := paused } }

theorem test_witness_MarksPauseAndRepeatsFollow :
    (freeIs 511 false).pool.free < (freeIs 511 false).param pPauseMark ∧ (freeIs 511 false).judge.pool.paused = true ∧
    (freeIs 512 false).judge.pool.paused = false ∧ (freeIs 1025 true).judge.pool.paused = false ∧
    (freeIs 1024 true).judge.pool.paused = true ∧ ((freeIs 511 false).judge.link 3).outQ.length = 1 ∧
    idle .pauseRepeat base = true ∧ idle .pauseRepeat (atMs (freeIs 511 false).judge 99) = true ∧
    (after .pauseRepeat (atMs (freeIs 511 false).judge 100)).pool.nextRepeat = some 200 ∧
    (after .pauseRepeat (atMs (freeIs 511 false).judge 100)).pool.repeatsSent = 1 ∧
    (let s := (freeIs 511 false).judge
     (after .pauseRepeat (atMs { s with pool := { s.pool with repeatsSent := 4 } } 100)).pool.repeatsSent = 4) := by
  decide +kernel

theorem test_witness_TheReserveAndTheQuotaAdmitFramesAndCopies :
    (base.link 0).up = true ∧ (rising.link 0).up = false ∧ aDigest.blocks = 1 ∧
    base.param pQuota < deliveriesBlocks (look (holding 1024).pool.queues 0) + aDigest.blocks ∧
    ¬(base.param pQuota < deliveriesBlocks (look (holding 1023).pool.queues 0) + aDigest.blocks) ∧
    (freeIs 128 false).pool.free < base.param pReserve + aDigest.blocks ∧
    ¬((freeIs 129 false).pool.free < base.param pReserve + aDigest.blocks) ∧
    look ((freeIs 128 false).offerCopy 0 aDigest).pool.dropped 0 = 1 ∧
    look ((holding 1024).offerCopy 0 aDigest).pool.counters 6 = 1 ∧
    (((freeIs 129 false).offerCopy 0 aDigest).link 0).outQ.length = 1 ∧
    (((holding 1).offerCopy 0 aDigest).link 0).outQ = [] := by decide +kernel

/-! ### Downlink queues and bursts -/

/-- A SEND body under a common token. -/
def sendBody (e cls : Byte) (life : Nat) (n : Nat) : List Byte := tok e ++ [cls, 1] ++ out2 life ++ out2 n ++ List.replicate n 7

theorem test_witness_SendIsRefusedOrQueued :
    (asked base .send 1 (sendBody 0 1 1000 1)).Asks .send (ask .send 1 (sendBody 0 1 1000 1)) ∧
    (readSend (sendBody 0 1 1000 1)).isSome = true ∧ (base.entry 0).kind = some .crane ∧
    answer base .send 1 (sendBody 1 2 0 257) = some .tooLong ∧ answer base .send 1 (sendBody 1 2 0 256) = some .ok ∧
    answer (queued base (List.replicate 4 (waits 1 .bulk))) .send 1 (sendBody 1 0 0 1) = some .queueFull ∧
    answer (queued base (List.replicate 3 (waits 1 .bulk))) .send 1 (sendBody 1 0 0 1) = some .ok ∧
    answer (queued base (List.replicate 64 (waits 0 .bulk))) .send 1 (sendBody 0 2 0 1) = some .queueFull ∧
    answer (freeIs 600 true) .send 1 (sendBody 0 2 0 1) = some .paused ∧
    answer (freeIs 128 true) .send 1 (sendBody 0 1 0 1) = some .noBuffer ∧
    answer (freeIs 129 true) .send 1 (sendBody 0 1 0 1) = some .ok ∧ answer (freeIs 0 true) .send 1 (sendBody 0 0 0 1) = some .noBuffer ∧
    answer (freeIs 1 true) .send 1 (sendBody 0 0 0 1) = some .ok ∧
    ((after (.send 1) (asked base .send 1 (sendBody 0 0 0 1))).craneRec 3).bind CraneRec.watch =
      some ({ handle := 0, accept := 0 }, 0) ∧
    ((after (.send 1) (asked base .send 1 (sendBody 0 1 2000 1))).downlink.waiting.map Frame.deadline) = [some 1000] := by
  decide +kernel

theorem test_send_longest : answer base .send 1 (sendBody 0 2 0 1024) = some .ok ∧
    answer base .send 1 (sendBody 0 2 0 1025) = some .tooLong := by decide +kernel

theorem test_witness_PurgeAndDeadlineDropWaitingFrames :
    (asked threeWait .purgeQueue 1 (tok 0 ++ [7])).Asks .purgeQueue (ask .purgeQueue 1 (tok 0 ++ [7])) ∧
    (readPurge (tok 0 ++ [7])).isSome = true ∧ readPurge (tok 0 ++ [0]) = none ∧ readPurge (tok 0 ++ [8]) = none ∧
    answer threeWait .purgeQueue 1 (tok 0 ++ [7]) = some .ok ∧
    (after (.purgeQueue 1) (asked threeWait .purgeQueue 1 (tok 0 ++ [7]))).pool.free = 4096 ∧
    ((after (.purgeQueue 1) (asked threeWait .purgeQueue 1 (tok 0 ++ [1]))).downlink.waiting.map Frame.cls) = [.control, .bulk] ∧
    look threeWait.downlink.counters 17 ≤ 65535 ∧
    idle (.deadlineExpiry { handle := 1, accept := 0 }) (atMs threeWait 49) = true ∧
    ((after (.deadlineExpiry { handle := 1, accept := 0 }) (atMs threeWait 50)).downlink.waiting.map Frame.cls) =
      [.safety, .bulk] := by decide +kernel

theorem test_dropped_frames_are_told :
    (queueAfter 1 (.purgeQueue 1) (asked (queued threeWait [waits 0 .bulk, waits 0 .control, waits 0 .safety]) .purgeQueue 1
      (tok 0 ++ [7]))).take 3 =
      [result (waits 0 .safety) .purged, result (waits 0 .control) .purged, result (waits 0 .bulk) .purged] ∧
    queueAfter 1 (.deadlineExpiry { handle := 1, accept := 0 }) (atMs threeWait 50) = [result (waits 0 .control) .expired] := by
  decide +kernel

/-- Beam 8 OPEN with three frames waiting on its segment. -/
def fetchable (s : State) : State := queued (s.setBeam 8 openBeam8) [waits 0 .safety, waits 0 .control, waits 1 .bulk]

/-- A CONTROL frame of crane `e` with a handle and a deadline, for the order of R117. -/
def control (e : EntryNo) (n : Half) (d : Time) : Frame := { waits e .control with handle := n, deadline := some d }

/-- Cranes at entries 0, 2 and 3 on segment 20, each with CONTROL frames waiting; the rotation point of beam 8 is 0. -/
def controls : State :=
  let s := (base.setEntry 2 { craneEntry with crane := some 4 }).setEntry 3 { craneEntry with crane := some 5 }
  let s := queued (s.setBeam 8 openBeam8)
    [control 0 1 30, control 2 2 40, control 3 3 30, control 2 4 20, waits 1 .bulk, waits 1 .bulk, waits 2 .bulk]
  { s with downlink := { s.downlink with rotation := put s.downlink.rotation 8 0 } }

/-- The terminals and handles of the frames that a FETCH with a frame limit places. -/
def fetched (limit : Byte) : Option (List (EntryNo × Half)) :=
  ((after (.fetch 0) (asked controls .fetch 0 [8, limit, 32, 0])).beam 8).burst.map
    (fun u => u.frames.map (fun f => (f.terminal, f.handle)))

theorem test_fetch_order : fetched 32 = some [(3, 3), (0, 1), (2, 2), (2, 4), (1, 1), (2, 1), (1, 1)] := by decide +kernel

theorem test_witness_FetchIsRefusedOrBeginsABurst :
    (asked opened .fetch 0 [8, 255, 0, 0]).Asks .fetch (ask .fetch 0 [8, 255, 0, 0]) ∧
    readFetch [8, 255, 0, 0] = some (8, 255, 0) ∧ answer opened .fetch 1 [8, 1, 0, 0] = some .notHolder ∧
    answer steering .fetch 0 [8, 1, 0, 0] = some .notHolder ∧ answer (fetchable overdue) .fetch 0 [8, 1, 0, 0] = some .surveyPending ∧
    answer (opened.setCell 4 20 { goodCell with state := .retired }) .fetch 0 [8, 1, 0, 0] = some .cellUnusable ∧
    answer inBurst .fetch 0 [8, 1, 0, 0] = some .burstActive ∧ answer opened .fetch 0 [8, 0, 0, 0] = some .ok := by decide +kernel

theorem test_fetch_takes_what_may_fly :
    (((after (.fetch 0) (asked (fetchable base) .fetch 0 [8, 32, 32, 0])).beam 8).burst.map
      (fun u => u.frames.map Frame.cls)) = some [.safety, .bulk] ∧
    ((after (.fetch 0) (asked (fetchable base) .fetch 0 [8, 32, 32, 0])).downlink.waiting.map Frame.cls) = [.control] ∧
    (opened.beam 8).seg = some 20 ∧
    (((after (.fetch 0) (asked (fetchable base) .fetch 0 [8, 1, 32, 0])).beam 8).burst.map
      (fun u => u.frames.map Frame.cls)) = some [.safety] := by
  decide +kernel

theorem test_witness_DoneAndCutEndTheBurst :
    (asked inBurst .done 0 [8, 3, 1, 0]).Asks .done (ask .done 0 [8, 3, 1, 0]) ∧
    readDone [8, 3, 1, 0] = some (8, 3, [.sentOk]) ∧ (asked inBurst .cut 0 [8, 3, 1, 0, 1]).Asks .cut (ask .cut 0 [8, 3, 1, 0, 1]) ∧
    readCut [8, 3, 1, 0, 1] = some (8, 3, [(0, .sentFailed)]) ∧ readCut [8, 3, 2, 0, 1, 0, 1] = none ∧
    answer opened .done 0 [8, 3, 0] = some .noBurst ∧ answer inBurst .done 0 [8, 4, 0] = some .noBurst ∧
    answer inBurst .cut 1 [8, 3, 0] = some .notHolder ∧ answer inBurst .done 0 [8, 3, 0] = some .ok ∧
    ((after (.done 0) (asked inBurst .done 0 [8, 3, 0])).downlink.waiting.length) = 1 ∧
    (after (.cut 0) (asked inBurst .cut 0 [8, 3, 1, 0, 1])).cell 4 20 = some { goodCell with q := 175 } ∧
    (after (.done 0) (asked inBurst .done 0 [8, 3, 1, 0])).pool.free = 4097 := by decide +kernel

/-- The burst on beam 8 with the beam otherwise as given. -/
def burstOn (f : Beam → Beam) : State := inBurst.setBeam 8 (f (inBurst.beam 8))

/-- Beam 8 and link 0's queue after the burst has ended with its one frame NOT_SENT. -/
def endedOn (f : Beam → Beam) : Beam × List Msg :=
  let t := after (.done 0) (asked (burstOn f) .done 0 [8, 3, 0])
  (t.beam 8, (t.link 0).outQ.dropLast)

/-- What the beam controller does at a burst's end: a deferred release, a pending close, a one-shot beam, and none of these. -/
theorem test_beams_at_a_burst_end :
    endedOn (fun x => { x with releaseDeferred := true }) = (Beam.closing (some 20), []) ∧
    endedOn (fun x => { x with closePending := some .marked }) =
      (Beam.closing (some 20), [note (.beamLost 8 (some 20) .marked)]) ∧
    endedOn (fun x => { x with oneShot := true }) = (Beam.closing (some 20), []) ∧
    endedOn id = (openBeam8, []) ∧
    (endedOn (fun x => { x with releaseDeferred := true, holders := put (LinkSet.only 0) 1 true })).1 =
      { openBeam8 with holders := LinkSet.only 1 } := by decide +kernel

/-- The burst's beam on a cell whose quality its failed frame brings below 64. -/
def worn : State := inBurst.setCell 4 20 { goodCell with state := .weak, q := 64 }

theorem test_a_burst_end_is_told :
    queueAfter 1 (.done 0) (asked inBurst .done 0 [8, 3, 1, 0]) = [note (.frameResult 0 0 .control 9 .delivered 0)] ∧
    ((after (.cut 0) (asked worn .cut 0 [8, 3, 1, 0, 1])).cell 4 20).map Cell.state = some .retired ∧
    (after (.cut 0) (asked worn .cut 0 [8, 3, 1, 0, 1])).beam 8 = Beam.closing (some 20) ∧
    (queueAfter 0 (.cut 0) (asked worn .cut 0 [8, 3, 1, 0, 1])).contains (note (.beamLost 8 (some 20) .retired)) = true := by
  decide +kernel

theorem test_an_overrun_burst_is_told :
    queueAfter 1 (.burstLimitExpiry 8) (atMs inBurst 100) = [note (.frameResult 0 0 .control 9 .expired 1)] ∧
    (after (.burstLimitExpiry 8) (atMs inBurst 100)).beam 8 = openBeam8 := by decide +kernel

theorem test_witness_FramesOfAnEndedBurstSettle :
    (settle 50 { waits 0 .control with orphaned := true } .sentOk).2 = .orphan ∧ (settle 50 (waits 0 .control) .sentOk).2 = .delivered ∧
    (settle 0 { waits 0 .bulk with attempts := 15 } .sentFailed).2 = .excess ∧
    (settle 0 { waits 0 .bulk with attempts := 14 } .sentFailed).2 = .returned ∧
    (settle 50 (waits 0 .control) .sentFailed).2 = .expired ∧ (settle 49 (waits 0 .control) .notSent).2 = .returned ∧
    (settle 50 (waits 0 .control) .notSent).2 = .expired ∧
    idle (.burstLimitExpiry 8) opened = true ∧ idle (.burstLimitExpiry 8) (atMs inBurst 99) = true ∧
    inBurst.param pBurstLimit ≤ elapsed (100 : Time) 0 ∧
    ((after (.burstLimitExpiry 8) (atMs inBurst 100)).beam 8).burst = none := by decide +kernel

/-! ### Cranes and reefers -/

/-- Crane 3 with a stall watch that began at 0; `told`: its frame has raised SAFETY_STALL before. -/
def watched (told : Bool) : State := base.setCraneRec 3 (some { CraneRec.start 0 with
  watch := some ({ handle := 1, accept := 0 }, 0), reported := if told then [{ handle := 1, accept := 0 }] else [] })

theorem test_witness_StallsAreRaisedOnceAndSubscriptionsHeld :
    idle (.stallExpiry 3) base = true ∧ idle (.stallExpiry 3) (atMs (watched false) 19) = true ∧
    base.param pStallLimit ≤ elapsed (20 : Time) 0 ∧
    look (after (.stallExpiry 3) (atMs (watched false) 20)).cranes.counters 8 = 1 ∧
    look (after (.stallExpiry 3) (atMs (watched true) 20)).cranes.counters 8 = 0 ∧
    (asked base .subscribe 2 (tok 0 ++ [1])).Asks .subscribe (ask .subscribe 2 (tok 0 ++ [1])) ∧
    (readSubscribe (tok 0 ++ [1])).isSome = true ∧ answer base .subscribe 2 (tok 1 ++ [1]) = some .wrongState ∧
    answer base .subscribe 2 (tok 0 ++ [1]) = some .ok ∧
    look (after (.subscribe 2) (asked base .subscribe 2 (tok 0 ++ [1]))).cranes.counters 9 = 1 ∧
    look (after (.subscribe 2) (asked base .subscribe 2 (tok 0 ++ [0]))).cranes.counters 10 = 0 := by decide +kernel

/-- Slot 23 of rack 7 with a container whose dose is at the ceiling, queued with its record. -/
def spoiled : State :=
  (base.setSlot 7 23 { Slot.clear with
    occupied := true, dose := 1000000, queued := true, grade := .alarm
    reasons := { Reasons.empty with doseWarn := true, doseAlarm := true } }).setAlarms
  [{ rack := 7, plug := 23, grade := .alarm, dose := 1000000, raisedAt := 0, released := false }]

theorem test_witness_InterestAcknowledgeAndClearDose :
    (asked base .setInterest 2 [0, 0, 0, 1, 1, 2]).Asks .setInterest (ask .setInterest 2 [0, 0, 0, 1, 1, 2]) ∧
    readInterest [0, 0, 0, 1, 1, 2] = some { yards := 1, allAlarms := true, mode := .all } ∧ readInterest [0, 0, 0, 1, 1, 3] = none ∧
    answer base .setInterest 2 [0, 0, 0, 1, 1, 2] = some .ok ∧
    (asked spoiled .acknowledge 1 (tok 1 ++ [23])).Asks .acknowledge (ask .acknowledge 1 (tok 1 ++ [23])) ∧
    (asked spoiled .clearDose 1 (tok 1 ++ [23])).Asks .clearDose (ask .clearDose 1 (tok 1 ++ [23])) ∧
    (readPlugReq (tok 1 ++ [23])).isSome = true ∧ readPlugReq (tok 1 ++ [24]) = none ∧
    answer base .acknowledge 1 (tok 0 ++ [0]) = some .wrongState ∧ answer spoiled .acknowledge 1 (tok 1 ++ [23]) = some .ok ∧
    (after (.acknowledge 1) (asked spoiled .acknowledge 1 (tok 1 ++ [23]))).reefer.alarms = [] ∧
    answer base .clearDose 1 (tok 1 ++ [0]) = some .wrongState ∧ answer spoiled .clearDose 1 (tok 1 ++ [23]) = some .ok ∧
    ((after (.clearDose 1) (asked spoiled .clearDose 1 (tok 1 ++ [23]))).reefer.alarms.map AlarmRec.dose) = [0] := by decide +kernel

theorem test_witness_CellsConditionsAndGradesFollowTheirTables :
    ({ goodCell with q := 126 }.sampled 0 2).state = .retired ∧ ({ goodCell with q := 127 }.sampled 0 2).state = .weak ∧
    ({ goodCell with q := 255 }.sampled 0 2).q = 128 ∧ ({ goodCell with q := 255 }.sampled 0 2).state = .good ∧
    ({ goodCell with state := .weak, q := 159 }.sampled 159 2).state = .weak ∧
    ({ goodCell with state := .weak, q := 160 }.sampled 160 2).state = .good ∧
    ({ goodCell with state := .retired, recovery := 1 }.recovering 159).recovery = 0 ∧
    ({ goodCell with state := .retired }.recovering 160).recovery = 1 ∧
    ({ goodCell with state := .retired, recovery := 1 }.recovering 160).state = .good ∧
    ({ Slot.clear with reasons := { Reasons.empty with doseAlarm := true } }.regraded).grade = .alarm ∧
    ({ Slot.clear with reasons := { Reasons.empty with silent := true } }.regraded).grade = .warn ∧
    ({ Slot.clear with reasons := { Reasons.empty with dark := true } }.regraded).grade = .watch ∧
    ({ Slot.clear with ack := .warn }.regraded).ack = .noGrade := by decide +kernel

/-- An occupied slot with one usable reading behind it, at second 0 with excess 600. -/
def doseSlot : Slot := { Slot.clear with occupied := true, ePrev := 600, lastUsable := some 0, residue := 119 }

theorem test_witness_ReadingsMoveProbesAndDose :
    (({ health := .bad, invalid := 2, valid := 2 } : Probe).take (some 500)).health = .good ∧
    (({ health := .good, invalid := 1, valid := 0 } : Probe).take (some 501)).health = .bad ∧
    (({ health := .good, invalid := 0, valid := 0 } : Probe).take (some (-501))).invalid = 1 ∧
    controlTemp (-100) Probe.clear Probe.clear (some 5) (some 9) = some (5, false) ∧
    controlTemp (-101) Probe.clear Probe.clear (some 5) (some 9) = some (9, false) ∧
    controlTemp 0 Probe.clear Probe.clear (some 501) (some 9) = some (9, true) ∧
    controlTemp 0 Probe.clear Probe.clear none (some (-501)) = none ∧
    excess 20 30 0 20 = 0 ∧ excess 20 30 0 (-21) = 1 ∧ excess 20 30 (-400) 500 = 600 ∧ excess 20 30 (-101) (-500) = 0 ∧
    (doseSlot.addExcess 900 900 600).dose = 9000 ∧ (doseSlot.addExcess 900 900 600).residue = 119 ∧
    (doseSlot.addExcess 901 900 600).flags.gap = true ∧ (doseSlot.addExcess 901 900 600).unobserved = 1 ∧
    ({ doseSlot with dose := 999999 }.addExcess 1 900 1).dose = 1000000 ∧ ({ doseSlot with lastUsable := none }.addExcess 1 900 1).ePrev = 1 ∧
    ({ doseSlot with inBand := 2 }.judgeExcursion 3 0).inBand = 3 ∧ (doseSlot.judgeExcursion 3 1).reasons.excursion = true ∧
    ({ doseSlot with dose := 300 }.judgeDose 300 1200).reasons.doseWarn = true ∧
    ({ doseSlot with dose := 299 }.judgeDose 300 1200).reasons.doseWarn = false := by decide +kernel

/-- A reading of plug 0 with a setpoint of 301 and 6.0 degrees at the supply probe. -/
def warm : Reading := { plug := 0, plugState := .running, setpoint := 301, supply := some 60, ret := none, code := 7 }

theorem test_witness_ReadingsAreComposed :
    (doseSlot.afterReading paramDefaults 900 warm).setpoint = some 300 ∧
    (doseSlot.afterReading paramDefaults 900 warm).flags.setpointClamped = true ∧
    (doseSlot.afterReading paramDefaults 900 warm).ePrev = 220 ∧
    (doseSlot.afterReading paramDefaults 900 warm).reasons.unitCode = true ∧
    (doseSlot.afterReading paramDefaults 900 { warm with plugState := .defrost }).ePrev = 0 ∧
    (doseSlot.afterReading paramDefaults 900 { warm with supply := none, ret := some 60 }).flags.substituted = true ∧
    (doseSlot.afterReading paramDefaults 900 { warm with supply := none }).temp = none ∧
    (doseSlot.afterReading paramDefaults 900 { warm with supply := none }).ePrev = 600 ∧
    (doseSlot.afterReading paramDefaults 900 { warm with supply := none, plugState := .off }).reasons.unitOff = true := by
  decide +kernel

/-- A slot that calls for a record. -/
def callingSlot : Slot := { Slot.clear with occupied := true, grade := .alarm }

/-- A queue of 256 records of other slots, the first two at WARN. -/
def fullQueue : List AlarmRec := (List.range 256).map (fun n =>
  { rack := ⟨8 + n / 24 % 24, by omega⟩, plug := ⟨n % 24, by omega⟩, grade := if n < 2 then .warn else .alarm, dose := 0,
    raisedAt := 0, released := false })

theorem test_witness_TheAlarmQueueTakesGrades :
    (consult spoiled.reefer.alarms (spoiled.slot 7 23) 7 23 5 true).raised = false ∧
    (consult [{ rack := 7, plug := 23, grade := .warn, dose := 0, raisedAt := 0, released := false }] { callingSlot with queued := true } 7 23
      5 true).raised = true ∧
    (consult [] { callingSlot with displaced := true } 7 23 5 false).placed = false ∧
    (consult [] { callingSlot with displaced := true } 7 23 5 true).placed = true ∧
    (consult [] { callingSlot with displaced := true, ack := .alarm } 7 23 5 true).slot.displaced = false ∧
    (consult fullQueue { callingSlot with displaced := true } 7 23 5 true).slot.displaced = true ∧
    (consult [] { callingSlot with ack := .alarm } 7 23 5 true).placed = false ∧
    (consult fullQueue.tail callingSlot 7 23 5 true).placed = true ∧ fullQueue.tail.length = 255 ∧ fullQueue.length = 256 ∧
    (consult fullQueue callingSlot 7 23 5 true).displacement = fullQueue.head? ∧
    (consult fullQueue { callingSlot with grade := .warn } 7 23 5 true).dropped = true ∧
    ((spoiled.setAlarms []).regrade 7 23 true).reefer.alarms = [] ∧
    (((spoiled.setAlarms []).setSlot 7 23 { callingSlot with reasons := { Reasons.empty with silent := true } }).regrade 7 23 true
      ).reefer.alarms.length = 1 ∧
    ((((spoiled.setAlarms fullQueue).setSlot 7 23 { spoiled.slot 7 23 with queued := false }).regrade 7 23 true).slot 8 0).displaced =
      true := by decide +kernel

/-! ### The settings unit -/

theorem test_witness_TuneClampsAndRaises :
    (asked base .tune 0 [1, 7, 0, 0, 8, 0]).Asks .tune (ask .tune 0 [1, 7, 0, 0, 8, 0]) ∧
    readTune [1, 7, 0, 0, 8, 0] = some [(7, 2048)] ∧ readTune [] = none ∧ readTune [0] = none ∧ readTune [20] = none ∧
    readTune [1, 19, 0, 0, 0, 0] = none ∧ answer base .tune 0 [1, 7, 0, 0, 8, 0] = some .ok ∧
    (after (.tune 0) (asked base .tune 0 [1, 7, 0, 0, 8, 0])).param 8 = 2112 ∧
    (after (.tune 0) (asked base .tune 0 [1, 7, 0, 0, 8, 1])).param 7 = 2048 ∧
    (after (.tune 0) (asked base .tune 0 [1, 7, 0, 0, 0, 0])).param 7 = 64 ∧
    (after (.tune 0) (asked base .tune 0 [1, 16, 0, 0, 4, 176])).param 17 = 1210 ∧
    look (after (.tune 0) (asked base .tune 0 [1, 7, 0, 0, 8, 1])).settings.counters 5 = 1 := by decide +kernel

/-- A store of zeros into area A, in progress since 0. -/
def zeroJob : StoreJob :=
  { ref := { link := 0, serial := 0, tag := 1 }, area := .a, image := List.replicate 1024 0, generation := 1, startedAt := 0 }
def storing : State := { base with settings := { base.settings with store := some zeroJob } }

theorem test_witness_StoresWriteASnapshotToTheOtherArea :
    (asked base .storeSettings 0 [0, 0]).Asks .storeSettings (ask .storeSettings 0 [0, 0]) ∧ readStore [0, 0] = some (none, none) ∧
    readStore [1, 15, 7, 16, 0, 0, 0, 0, 0, 0] = none ∧ (readStore [1, 15, 7, 0, 0, 0, 0, 0, 0, 0]).isSome = true ∧
    answer storing .storeSettings 0 [0, 0] = some .busy ∧
    (after (.storeSettings 0) (asked base .storeSettings 0 [0, 0])).settings.store.isSome = true ∧
    base.markedCells.length ≤ 192 ∧ Memory.wf storing.settings.mem = true ∧
    idle (.storeWriteEnd false []) base = true ∧ idle (.storeWriteTimeout []) base = true ∧
    idle (.storeWriteEnd false (List.replicate 1024 0)) (atMs storing 251) = true ∧
    idle (.storeWriteTimeout (List.replicate 1024 0)) (atMs storing 249) = true := by decide +kernel

/-- The image that a STORE SETTINGS of what is in force writes. -/
def storedImage (s : State) : List Byte :=
  ((after (.storeSettings 0) (asked s .storeSettings 0 [0, 0])).settings.store.map StoreJob.image).getD []

/-- The base with a MARKED cell on each of its two segments. -/
def twoMarked : State :=
  (base.setCell 4 20 { goodCell with state := .marked }).setCell 4 21 { goodCell with state := .marked }

theorem test_the_snapshot_reads_back :
    loadHead (storedImage twoMarked) 4 = (look base.coverage.reach 4, 0) ∧ loadHead (storedImage twoMarked) 0 = (none, 0) ∧
    twoMarked.markedCells = [(4, 20), (4, 21)] ∧ markCount (storedImage twoMarked) = 2 ∧
    ((storedImage twoMarked).drop 129).take 4 = [4, 20, 4, 21] := by decide +kernel

theorem test_store_outcomes :
    statusOf 0 (exec (.storeWriteEnd false (List.replicate 1024 0)) (atMs storing 250)) = some .ok ∧
    statusOf 0 (exec (.storeWriteEnd true (List.replicate 1024 0)) (atMs storing 250)) = some .writeFailed ∧
    statusOf 0 (exec (.storeWriteTimeout (List.replicate 1024 0)) (atMs storing 250)) = some .writeFailed := by decide +kernel

/-- The base while a warm restart that link 0 asked for is in hand. -/
def restarting : State := { base with settings := { base.settings with restart := some { link := 0, serial := 0, tag := 1 } } }

/-- A queue of messages on a link, the front one being sent. -/
def sendingOn (l : LinkNo) (m : Msg) (s : State) : State :=
  s.onLink l (fun k => { k with outQ := [m, .notice (.resume 0) 0], sending := true })

/-- Rack `r` enrolled at entry `e`, in a silence state. -/
def withRack (e : EntryNo) (r : RackNo) (v : Silence) (p : PollState) (s : State) : State :=
  (s.setEntry e { rackEntry with rack := some r }).setRackRec r (some { RackRec.start e with silence := v, poll := p })

/-- Link 1 is sending a reply and link 2 a notice; beam 8 has a burst; head 5 is in FAULT; rack 7 is SILENT, rack 8 DARK with the POLL
state it had when SILENT, and rack 9, SILENT, belongs to a withdrawal that the downlink queue block has dealt with. -/
def crowded : State :=
  let s := sendingOn 1 (.reply aReply) (sendingOn 2 (.notice (.resume 0) 0) inBurst)
  let u := withRack 4 9 .silent .queued (withRack 3 8 .dark .queued (withRack 1 7 .silent .notQueued s))
  (u.setEntry 4 { u.entry 4 with state := .free, addr := none, withdrawal := some { downlinkDone := true, kindDone := false } }).setHead 5
    { Head.reset with state := .fault }

def crowdedRestarted : State := after (.restart 0) (asked crowded .restart 0 [])

theorem test_restart_of_a_crowded_state :
    crowdedRestarted.settings.restart = some { link := 0, serial := 0, tag := 1 } ∧
    (crowdedRestarted.beam 8).state = .idle ∧ (crowdedRestarted.head 4).restartProbe = true ∧
    (crowdedRestarted.head 5).state = .fault ∧ (crowdedRestarted.link 0).window = [(1, 0)] ∧
    (crowdedRestarted.link 1).window = [(1, 0)] ∧ (crowdedRestarted.link 2).window = [] ∧
    (crowdedRestarted.link 2).outQ.length = 1 ∧
    ([7, 8, 9].map (fun r => (crowdedRestarted.rackRec r).map RackRec.poll)) = [some .queued, some .noPoll, some .notQueued] ∧
    crowdedRestarted.downlink.waiting.map Frame.terminal = [1] := by decide +kernel

theorem test_witness_RestartClearsTrafficAndKeepsTheRest :
    (asked crowded .restart 0 []).Asks .restart (ask .restart 0 []) ∧ answer restarting .restart 0 [] = some .busy ∧
    crowded.hasQueues 4 = false ∧ crowded.hasQueues 1 = true ∧ (crowded.rackRec 8).map RackRec.silence = some .dark ∧
    base.settings.restart = none ∧ idle .restartAnswer base = true ∧ statusOf 0 (exec .restartAnswer restarting) = some .ok ∧
    ((after .restartAnswer restarting).link 3).outQ.length = 1 := by decide +kernel

/-! ### The invariants hold in states with something in them, from which a step answers a next state -/

/-- Link 0 has an OPEN that awaits a STEER; link 1 sends the reply to its request, a notice behind it. -/
def owing : State := sendingOn 1 (.reply aReply) steering

/-- A link's bounds, the identities of its replies taken one by one. -/
theorem sound_of_replies {k : Link} (h : ∀ p ∈ k.replies, ∀ n ∈ p, n ∈ k.window.map Prod.snd) :
    ∀ n : Nat, some n ∈ k.replies → n ∈ k.window.map Prod.snd := fun n hn => h (some n) hn n rfl

theorem test_witness_StepsKeepLinksMemoryAndRanges :
    owing.linksSound ∧ owing.owed = [{ link := 0, serial := 0, tag := 1 }] ∧ (owing.link 1).replies = [some 0] ∧
    base.paramsInRange ∧ beforeLoad.memoryCanonical ∧ step owing = .next owing ∧ step beforeLoad = .next beforeLoad := by
  refine ⟨⟨?_, ?_, ?_⟩, by decide +kernel, by decide +kernel, ?_, ?_, rfl, rfl⟩
  · intro l
    refine ⟨?_, ?_, ?_, ?_, ?_, ?_, sound_of_replies ?_, ?_, ?_, ?_, ?_, ?_, ?_, ?_⟩ <;> revert l <;> decide +kernel
  · decide +kernel
  · decide +kernel
  · unfold State.paramsInRange
    decide +kernel
  · unfold State.memoryCanonical
    decide +kernel

theorem test_witness_StepsKeepThePoolAccounted :
    (holding 17).poolAccounted ∧ step (holding 17) = .next (holding 17) ∧ ¬(freeIs 4095 false).poolAccounted := by
  refine ⟨⟨by decide +kernel, ?_⟩, rfl, ?_⟩
  · intro h
    exact absurd h (by decide)
  · intro h
    exact absurd h.1 (by decide +kernel)

theorem test_witness_StepsKeepSlotsBoundedAndDosesRising :
    base.slotsBounded ∧ step base = .next base ∧ (spoiled.slot 7 23).dose = 1000000 ∧
    ((after (.clearDose 1) (asked spoiled .clearDose 1 (tok 1 ++ [23]))).slot 7 23).dose = 0 := by
  refine ⟨?_, rfl, by decide +kernel, by decide +kernel⟩
  intro r p
  have h : base.slot r p = Slot.clear := by simp [base, State.slot, Reefer.reset]
  rw [h]
  refine ⟨by decide, by decide, by decide, by decide, by decide, by decide, by decide, by decide, by decide, ?_, ?_⟩
  · intro v hv
    cases hv
  · intro v hv
    cases hv

theorem test_witness_StepsKeepAlarmsAgreeing : base.alarmsAgree ∧ step base = .next base := by
  have hs : ∀ r p, base.slot r p = Slot.clear := by
    intro r p
    simp [base, State.slot, Reefer.reset]
  have ha : base.reefer.alarms = [] := rfl
  refine ⟨⟨by rw [ha]; exact Nat.zero_le _, by rw [ha]; exact List.nodup_nil, ?_, ?_, ?_⟩, rfl⟩ <;> intro r p <;>
    simp [hs, ha, Slot.clear]

theorem test_witness_StepsKeepTheRegistryAgreeing : bare.registryAgrees ∧ step bare = .next bare ∧
    threeWait.framesHaveTerminals ∧ step threeWait = .next threeWait :=
  ⟨bare_registryAgrees, rfl, threeWait_framesHaveTerminals, rfl⟩

theorem base_reachFits : base.reachFits := by
  have h : ∀ h : HeadNo, ∀ w ∈ look base.coverage.reach h, 1 ≤ w.len ∧ w.len ≤ 16 ∧ w.first + w.len ≤ 64 := by decide +kernel
  exact fun i w hw => h i w hw

theorem test_witness_StepsKeepSegmentsFollowingCells :
    base.segmentsFollow ∧ base.reachFits ∧ look base.coverage.reach 4 = some { first := 20, len := 2 } ∧
    step base = .next base := by
  refine ⟨?_, base_reachFits, by decide +kernel, rfl⟩
  intro _
  decide +kernel

theorem test_witness_StepsKeepOneSafetyInFlight : inBurst.oneSafety ∧ step inBurst = .next inBurst := by
  refine ⟨?_, rfl⟩
  have h : inBurst.inFlight = burstFrames := by decide +kernel
  intro e
  simp only [State.inFlightOf, h, burstFrames]
  exact le_trans (List.length_filter_le _ _) (List.length_filter_le _ _)

theorem inBurst_beamsHeld : inBurst.beamsHeld := by
  unfold State.beamsHeld Beam.heldState
  decide +kernel

theorem test_witness_StepsKeepBeamsHeld : inBurst.beamsHeld ∧ step inBurst = .next inBurst := ⟨inBurst_beamsHeld, rfl⟩

end Sys2Proof.Tests
end

section
/-! PROOFS. Requests that only read (R11, R30, R170): how the readers of a body run, which bodies are readable, and what READ TIME,
LIST UNKNOWN and READ ALARMS answer. -/

namespace Sys2Proof.Machine

/-! ### Running a reader over a body (R179) -/

theorem Reader.run_bind {α β : Type} (p : Reader α) (g : α → Reader β) (bs : List Byte) :
    (p >>= g) bs = (p bs).bind (fun q => g q.1 q.2) := rfl

theorem Reader.run_map {α β : Type} (g : α → β) (p : Reader α) (bs : List Byte) :
    (g <$> p) bs = (p bs).map (fun q => (g q.1, q.2)) :=
  Option.map_eq_bind.symm

theorem Reader.num1_nil : Reader.num1 [] = none := rfl

theorem Reader.num1_cons (b : Byte) (bs : List Byte) : Reader.num1 (b :: bs) = some (b.toNat, bs) := rfl

/-- A condition on the fields read so far refuses the body or leaves the rest of it to the next reader. -/
theorem Reader.run_require (c : Bool) (bs : List Byte) : Reader.require c bs = if c then some ((), bs) else none := rfl

/-- A reader that takes the whole body gives its value. -/
theorem Reader.whole_eq_some {α : Type} {p : Reader α} {body : List Byte} {v : α} (h : p body = some (v, [])) :
    Reader.whole p body = some v := by
  unfold Reader.whole
  rw [h]

/-- A reader that fails on the body, or leaves some of it, reads nothing. -/
theorem Reader.whole_eq_none {α : Type} {p : Reader α} {body : List Byte} (h : ∀ v, p body ≠ some (v, [])) :
    Reader.whole p body = none := by
  unfold Reader.whole
  split
  · rename_i v hv
    exact absurd hv (h v)
  · rfl

/-! ### A body that is to be empty -/

theorem readNothing_nil : readNothing [] = some () := rfl

theorem readNothing_cons (b : Byte) (bs : List Byte) : readNothing (b :: bs) = none := rfl

/-- A request that carries no field goes on with an empty body. -/
theorem State.reading_nothing_of_nil (s : State) {r : Request} (h : r.body = []) (f : Unit → State) :
    s.reading r (readNothing r.body) f = f () := by
  rw [h, readNothing_nil, State.reading_some]

/-- A request that carries no field refuses every other body. -/
theorem State.reading_nothing_of_ne_nil (s : State) {r : Request} (h : r.body ≠ []) (f : Unit → State) :
    s.reading r (readNothing r.body) f = s.answer r.ref .badRequest := by
  obtain ⟨b, bs, hbody⟩ := List.exists_cons_of_ne_nil h
  rw [hbody, readNothing_cons, State.reading_none]

/-! ### The body of READ ALARMS (R170) -/

/-- What the two bytes of a READ ALARMS body give: a position and a count of 1 to 64. -/
theorem readReadAlarms_pair (f n : Byte) :
    readReadAlarms [f, n] = if 1 ≤ n.toNat ∧ n.toNat ≤ 64 then some (f.toNat, n.toNat) else none := by
  by_cases h : 1 ≤ n.toNat ∧ n.toNat ≤ 64
  · rw [if_pos h]
    exact Reader.whole_eq_some (by simp [Reader.run_bind, Reader.run_map, Reader.num1_cons, Reader.run_require, h])
  · rw [if_neg h]
    exact Reader.whole_eq_none (by simp [Reader.run_bind, Reader.run_map, Reader.num1_cons, Reader.run_require, h])

/-- A body of another length than two is malformed: a field is missing, or bytes are left over. -/
theorem readReadAlarms_of_length_ne {body : List Byte} (h : body.length ≠ 2) : readReadAlarms body = none := by
  apply Reader.whole_eq_none
  intro v
  match body, h with
  | [], _ => simp [Reader.run_bind, Reader.num1_nil]
  | [f], _ => simp [Reader.run_bind, Reader.num1_nil, Reader.num1_cons]
  | [_, _], h => exact absurd rfl h
  | f :: n :: b :: bs, _ =>
    simp [Reader.run_bind, Reader.run_map, Reader.num1_cons, Reader.run_require]

/-! ### The three commands serve the request that is asked -/

theorem exec_readTime_of_asks {s : State} {r : Request} (h : s.Asks .readTime r) :
    exec (.readTime r.ref.link) s = .next (serveReadTime (s.taken r) r) :=
  congrArg _ (State.taking_of_asks h serveReadTime)

theorem exec_listUnknown_of_asks {s : State} {r : Request} (h : s.Asks .listUnknown r) :
    exec (.listUnknown r.ref.link) s = .next (serveListUnknown (s.taken r) r) :=
  congrArg _ (State.taking_of_asks h serveListUnknown)

theorem exec_readAlarms_of_asks {s : State} {r : Request} (h : s.Asks .readAlarms r) :
    exec (.readAlarms r.ref.link) s = .next (serveReadAlarms (s.taken r) r) :=
  congrArg _ (State.taking_of_asks h serveReadAlarms)

/-! ### What each of them answers -/

/-- READ TIME (R11): both counts of the moment at which it is taken, for an empty body alone. -/
theorem exec_readTime_answers {s : State} {r : Request} (h : s.Asks .readTime r) :
    (r.body = [] → exec (.readTime r.ref.link) s = .next ((s.taken r).reply r.ref .ok (.times s.clock.ms s.clock.sec))) ∧
    (r.body ≠ [] → exec (.readTime r.ref.link) s = .next ((s.taken r).answer r.ref .badRequest)) := by
  rw [exec_readTime_of_asks h, serveReadTime]
  exact ⟨fun hbody => congrArg _ (State.reading_nothing_of_nil _ hbody _),
    fun hbody => congrArg _ (State.reading_nothing_of_ne_nil _ hbody _)⟩

/-- LIST UNKNOWN (R30): the unknown-source list, for an empty body alone. -/
theorem exec_listUnknown_answers {s : State} {r : Request} (h : s.Asks .listUnknown r) :
    (r.body = [] → exec (.listUnknown r.ref.link) s = .next ((s.taken r).reply r.ref .ok (.unknowns s.registry.unknowns))) ∧
    (r.body ≠ [] → exec (.listUnknown r.ref.link) s = .next ((s.taken r).answer r.ref .badRequest)) := by
  rw [exec_listUnknown_of_asks h, serveListUnknown]
  exact ⟨fun hbody => congrArg _ (State.reading_nothing_of_nil _ hbody _),
    fun hbody => congrArg _ (State.reading_nothing_of_ne_nil _ hbody _)⟩

/-- READ ALARMS (R170) with a count of 1 to 64: the records from the first position on, as many as asked for or left. -/
theorem exec_readAlarms_of_count {s : State} {r : Request} {f n : Byte} (h : s.Asks .readAlarms r) (hbody : r.body = [f, n])
    (hlow : 1 ≤ n.toNat) (hhigh : n.toNat ≤ 64) :
    exec (.readAlarms r.ref.link) s = .next ((s.taken r).reply r.ref .ok
      (.alarms s.reefer.alarms.length f.toNat ((s.reefer.alarms.drop f.toNat).take n.toNat))) := by
  have hread : readReadAlarms r.body = some (f.toNat, n.toNat) := by
    rw [hbody, readReadAlarms_pair, if_pos ⟨hlow, hhigh⟩]
  rw [exec_readAlarms_of_asks h, serveReadAlarms, hread, State.reading_some]
  rfl

/-- READ ALARMS refuses a body it cannot read. -/
theorem exec_readAlarms_of_unreadable {s : State} {r : Request} (h : s.Asks .readAlarms r) (hread : readReadAlarms r.body = none) :
    exec (.readAlarms r.ref.link) s = .next ((s.taken r).answer r.ref .badRequest) := by
  rw [exec_readAlarms_of_asks h, serveReadAlarms, hread, State.reading_none]

/-- Settles O21: the three requests are taken and their bodies read, and the reply is all that they place. -/
theorem timeUnknownsAndAlarmsAreOnlyRead : Obligations.TimeUnknownsAndAlarmsAreOnlyRead := by
  refine ⟨fun r s h => exec_readTime_answers h, fun r s h => exec_listUnknown_answers h, fun us => rfl, ?_, ?_⟩
  · intro r s f n h hbody
    refine ⟨exec_readAlarms_of_count h hbody, fun hcount => exec_readAlarms_of_unreadable h ?_⟩
    rw [hbody, readReadAlarms_pair, if_neg (by omega)]
  · intro r s h hlength
    exact exec_readAlarms_of_unreadable h (readReadAlarms_of_length_ne hlength)

end Sys2Proof.Machine
end

section
/-! PROOFS. GRANT (R36, R37): which authority index fits a request, which entry of a list is filled, and what GRANT answers. -/

namespace Sys2Proof.Machine

/-! ### What a GRANT is judged by -/

/-- The index `ax` is fit for the list named: 1 to 15 and given for COMMON; for OWN the link's own, whether given or not (R36). -/
def GrantReq.Fits (q : GrantReq) (own ax : Fin 16) : Prop :=
  (q.list = .common ∧ ax ≠ 0 ∧ ∃ a : Byte, q.ax = some a ∧ a.toNat = ax.val) ∨
  (q.list = .own ∧ ax = own ∧ ∀ a : Byte, q.ax = some a → a.toNat = ax.val)

/-- The terminal's entry is FREE, or has another sequence than the request expects (R36). -/
def GrantReq.Gone (q : GrantReq) (x : Entry) : Prop := x.state = .free ∨ ∃ v : Half, q.expected = some v ∧ v ≠ x.seq

/-- A GRANT for COMMON writes the index given, where that is 1 to 15. -/
theorem grantIndex_common {q : GrantReq} {own ax : Fin 16} (hlist : q.list = .common) :
    grantIndex q own = some ax ↔ ax ≠ 0 ∧ ∃ a : Byte, q.ax = some a ∧ a.toNat = ax.val := by
  cases hax : q.ax with
  | none => simp [grantIndex, hlist, hax]
  | some a =>
    have hzero : a = 0 ↔ a.toNat = 0 := by simp [← BitVec.toNat_inj]
    by_cases hlt : a.toNat < 16
    · simp only [grantIndex, hlist, hax, hzero, dif_pos hlt, Option.ite_none_left_eq_some, Option.some.injEq, exists_eq_left',
        Fin.ext_iff, ne_eq]
      exact ⟨fun ⟨hne, heq⟩ => ⟨heq ▸ hne, heq⟩, fun ⟨hne, heq⟩ => ⟨heq ▸ hne, heq⟩⟩
    · simp only [grantIndex, hlist, hax, dif_neg hlt, reduceCtorEq, Option.some.injEq, exists_eq_left', false_iff, not_and]
      omega

/-- A GRANT for OWN writes the link's index, which may be given but must then be that one. -/
theorem grantIndex_own {q : GrantReq} {own ax : Fin 16} (hlist : q.list = .own) :
    grantIndex q own = some ax ↔ ax = own ∧ ∀ a : Byte, q.ax = some a → a.toNat = ax.val := by
  cases hax : q.ax with
  | none => simp [grantIndex, hlist, hax, eq_comm]
  | some a =>
    simp only [grantIndex, hlist, hax, Option.ite_none_right_eq_some, Option.some.injEq, forall_eq']
    exact ⟨fun ⟨hval, heq⟩ => ⟨heq.symm, heq ▸ hval⟩, fun ⟨heq, hval⟩ => ⟨heq ▸ hval, heq.symm⟩⟩

/-- The index that a GRANT writes is the one that fits it. -/
theorem grantIndex_eq_some_iff {q : GrantReq} {own ax : Fin 16} : grantIndex q own = some ax ↔ q.Fits own ax := by
  cases hlist : q.list with
  | common => simp [GrantReq.Fits, grantIndex_common, hlist]
  | own => simp [GrantReq.Fits, grantIndex_own, hlist]

theorem grantIndex_eq_none_iff {q : GrantReq} {own : Fin 16} : grantIndex q own = none ↔ ¬∃ ax, q.Fits own ax := by
  simp only [Option.eq_none_iff_forall_ne_some, ne_eq, grantIndex_eq_some_iff, not_exists]

theorem GrantReq.gone_iff (q : GrantReq) (x : Entry) :
    (x.state = .free ∨ (q.expected.isSome ∧ q.expected ≠ some x.seq)) ↔ q.Gone x := by
  cases hv : q.expected <;> simp [GrantReq.Gone, hv]

/-! ### The lowest-numbered invalid entry of a list -/

theorem firstInvalid_eq_none_iff {v : Vector AccessEntry 128} : firstInvalid v = none ↔ ∀ i, (look v i).valid = true := by
  rw [firstInvalid, ← Fin.find?_eq_find?_finRange, Fin.find?_eq_none_iff]
  simp only [Bool.not_eq_false']

theorem firstInvalid_eq_some_iff {v : Vector AccessEntry 128} {i : Fin 128} :
    firstInvalid v = some i ↔ (look v i).valid = false ∧ ∀ j < i, (look v j).valid = true := by
  rw [firstInvalid, ← Fin.find?_eq_find?_finRange, Fin.find?_eq_some_iff]
  simp only [Bool.not_eq_true', Bool.not_eq_false']

/-! ### What GRANT does -/

/-- The entry that an accepted GRANT writes (R37): the fields asked for, private in every own list, the sequence it had, and the
terminal's sequence as the snapshot. -/
def GrantReq.written (q : GrantReq) (ax : Fin 16) (old : AccessEntry) (x : Entry) : AccessEntry :=
  { valid := true, readOnly := q.readOnly, priv := q.priv || q.list == .own, seq := old.seq, ax := some ax,
    terminal := some q.terminal, snapshot := some x.seq }

/-- An accepted GRANT (R37): entry `i` of the list is written and counted, and the reply gives its token and snapshot. -/
def State.granted (s : State) (r : Request) (q : GrantReq) (ax : Fin 16) (i : Fin 128) : State :=
  let old := look (s.accessList r.ref.link q.list) i
  ((s.setAccessEntry r.ref.link q.list i (q.written ax old (s.entry q.terminal))).bumpAcc 0).reply r.ref .ok
    (.granted { list := q.list, entry := BitVec.ofNat 8 i.val, seq := old.seq } (s.entry q.terminal).seq)

/-- A GRANT whose index is unfit is refused before its terminal is looked at. -/
theorem serveGrant_of_unfit {s : State} {r : Request} {q : GrantReq} (hread : readGrant r.body = some q)
    (hunfit : ¬∃ ax, q.Fits (s.link r.ref.link).ax ax) : serveGrant s r = s.answer r.ref .badRequest := by
  simp only [serveGrant, hread, State.reading_some, grantIndex_eq_none_iff.mpr hunfit]

section Fit

variable {s : State} {r : Request} {q : GrantReq} {ax : Fin 16}
  (hread : readGrant r.body = some q) (hfits : q.Fits (s.link r.ref.link).ax ax)

include hread hfits

/-- A GRANT whose index is fit: its terminal, its right to it and its list are judged, in this order (R36). -/
theorem serveGrant_of_fits :
    serveGrant s r =
      if (s.entry q.terminal).state = .free ∨ (q.expected.isSome ∧ q.expected ≠ some (s.entry q.terminal).seq) then
        (s.bumpAcc 2).answer r.ref .terminalGone
      else if q.list = .own ∧ (s.entry q.terminal).auth.getLsbD (s.link r.ref.link).ax.val = false then
        (s.bumpAcc 2).answer r.ref .notAuthorised
      else (firstInvalid (s.accessList r.ref.link q.list)).elim ((s.bumpAcc 1).answer r.ref .tableFull) (s.granted r q ax) := by
  simp only [serveGrant, hread, State.reading_some, grantIndex_eq_some_iff.mpr hfits]
  cases firstInvalid (s.accessList r.ref.link q.list) <;> rfl

theorem serveGrant_of_gone (hgone : q.Gone (s.entry q.terminal)) :
    serveGrant s r = (s.bumpAcc 2).answer r.ref .terminalGone := by
  rw [serveGrant_of_fits hread hfits, if_pos ((q.gone_iff _).mpr hgone)]

variable (hthere : ¬q.Gone (s.entry q.terminal))

include hthere

theorem serveGrant_of_barred (hbarred : q.list = .own ∧ (s.entry q.terminal).auth.getLsbD (s.link r.ref.link).ax.val = false) :
    serveGrant s r = (s.bumpAcc 2).answer r.ref .notAuthorised := by
  rw [serveGrant_of_fits hread hfits, if_neg (mt (q.gone_iff _).mp hthere), if_pos hbarred]

variable (hopen : ¬(q.list = .own ∧ (s.entry q.terminal).auth.getLsbD (s.link r.ref.link).ax.val = false))

include hopen

theorem serveGrant_of_full (hfull : ∀ i, (look (s.accessList r.ref.link q.list) i).valid = true) :
    serveGrant s r = (s.bumpAcc 1).answer r.ref .tableFull := by
  rw [serveGrant_of_fits hread hfits, if_neg (mt (q.gone_iff _).mp hthere), if_neg hopen, firstInvalid_eq_none_iff.mpr hfull,
    Option.elim_none]

theorem serveGrant_of_lowest_invalid {i : Fin 128} (hinvalid : (look (s.accessList r.ref.link q.list) i).valid = false)
    (hlower : ∀ j < i, (look (s.accessList r.ref.link q.list) j).valid = true) : serveGrant s r = s.granted r q ax i := by
  rw [serveGrant_of_fits hread hfits, if_neg (mt (q.gone_iff _).mp hthere), if_neg hopen,
    firstInvalid_eq_some_iff.mpr ⟨hinvalid, hlower⟩, Option.elim_some]

end Fit

theorem exec_grant_of_asks {s : State} {r : Request} (h : s.Asks .grant r) :
    exec (.grant r.ref.link) s = .next (serveGrant (s.taken r) r) :=
  congrArg _ (State.taking_of_asks h serveGrant)

/-- Settles O23: the request is taken, which changes no list, link or terminal, and its index, its terminal, its right to that and
its list are judged in turn. -/
theorem grantIsRefusedOrFillsTheLowestInvalidEntry : Obligations.GrantIsRefusedOrFillsTheLowestInvalidEntry := by
  intro r s q h hread
  simp only [exec_grant_of_asks h]
  refine ⟨fun hunfit => congrArg _ (serveGrant_of_unfit hread hunfit), fun ax hfits => ⟨?gone, ?barred, ?full, ?filled⟩⟩
  case gone => exact fun hgone => congrArg _ (serveGrant_of_gone (s := s.taken r) hread hfits hgone)
  case barred => exact fun hthere hbarred => congrArg _ (serveGrant_of_barred (s := s.taken r) hread hfits hthere hbarred)
  case full => exact fun hthere hopen hfull => congrArg _ (serveGrant_of_full (s := s.taken r) hread hfits hthere hopen hfull)
  case filled =>
    exact fun i hthere hopen hinvalid hlower =>
      congrArg _ (serveGrant_of_lowest_invalid (s := s.taken r) hread hfits hthere hopen hinvalid hlower)

end Sys2Proof.Machine
end

section
/-! PROOFS. READ COVERAGE (R64): which bodies ask for a range of segments, and what is answered. -/

namespace Sys2Proof.Machine

/-! ### The body of READ COVERAGE (R64, R179) -/

theorem Reader.whole_eq_some_iff {α : Type} {p : Reader α} {body : List Byte} {v : α} :
    Reader.whole p body = some v ↔ p body = some (v, []) := by
  refine ⟨fun h => ?_, Reader.whole_eq_some⟩
  by_contra hp
  unfold Reader.whole at h
  split at h
  · exact hp (Option.some.inj h ▸ ‹_›)
  · cases h

/-- A one-byte number is read off the front of the body. -/
theorem Reader.num1_eq_some_iff {body rest : List Byte} {n : Nat} :
    Reader.num1 body = some (n, rest) ↔ ∃ b : Byte, b.toNat = n ∧ body = b :: rest := by
  cases body with
  | nil => simp [Reader.num1_nil]
  | cons b bs => simp [Reader.num1_cons]

theorem Reader.require_eq_some_iff {c : Bool} {body rest : List Byte} :
    Reader.require c body = some ((), rest) ↔ c = true ∧ body = rest := by
  simp [Reader.run_require]

/-- A body is readable exactly when it holds two bytes, a first segment and a count, that name a range of the 64 segments. -/
theorem readCoverageBody_eq_some_iff {body : List Byte} {q : Nat × Nat} :
    readCoverageBody body = some q ↔
      ∃ f n : Byte, body = [f, n] ∧ (f.toNat, n.toNat) = q ∧ f.toNat < 64 ∧ 1 ≤ n.toNat ∧ f.toNat + n.toNat ≤ 64 := by
  rw [readCoverageBody, Reader.whole_eq_some_iff]
  simp only [Reader.run_bind, Option.bind_eq_some_iff, Prod.exists]
  constructor
  · rintro ⟨_, _, hf, _, _, hn, ⟨⟩, _, hrequire, hq⟩
    obtain ⟨f, rfl, rfl⟩ := Reader.num1_eq_some_iff.mp hf
    obtain ⟨n, rfl, rfl⟩ := Reader.num1_eq_some_iff.mp hn
    obtain ⟨hrange, rfl⟩ := Reader.require_eq_some_iff.mp hrequire
    cases hq
    simp only [Bool.and_eq_true, decide_eq_true_eq] at hrange
    exact ⟨f, n, rfl, rfl, by omega⟩
  · rintro ⟨f, n, rfl, rfl, hfirst, hcount, hsum⟩
    have hrange : (f.toNat < 64 && 1 ≤ n.toNat && n.toNat ≤ 64 && f.toNat + n.toNat ≤ 64) = true := by
      simp only [Bool.and_eq_true, decide_eq_true_eq]
      omega
    exact ⟨_, _, Reader.num1_cons f [n], _, _, Reader.num1_cons n [], (), [], Reader.require_eq_some_iff.mpr ⟨hrange, rfl⟩, rfl⟩

/-! ### What READ COVERAGE answers -/

theorem exec_readCoverage_of_asks {s : State} {r : Request} (h : s.Asks .readCoverage r) :
    exec (.readCoverage r.ref.link) s = .next (serveReadCoverage (s.taken r) r) :=
  congrArg _ (State.taking_of_asks h serveReadCoverage)

/-- The taking of a request changes nothing that a segment's view shows. -/
theorem State.segView_taken (s : State) (r : Request) (g : SegNo) : (s.taken r).segView g = s.segView g := rfl

/-- READ COVERAGE of a range: its segments in ascending order, as they stand before the request is taken. -/
theorem exec_readCoverage_of_readable {s : State} {r : Request} {first count : Nat} (h : s.Asks .readCoverage r)
    (hread : readCoverageBody r.body = some (first, count)) :
    exec (.readCoverage r.ref.link) s = .next ((s.taken r).reply r.ref .ok (.coverage
      ((allSegs.filter (fun g => first ≤ g.val && g.val < first + count)).map s.segView))) := by
  simp only [exec_readCoverage_of_asks h, serveReadCoverage, hread, State.reading_some, funext (State.segView_taken s r)]

/-- READ COVERAGE refuses a body it cannot read. -/
theorem exec_readCoverage_of_unreadable {s : State} {r : Request} (h : s.Asks .readCoverage r)
    (hread : ¬∃ q, readCoverageBody r.body = some q) :
    exec (.readCoverage r.ref.link) s = .next ((s.taken r).answer r.ref .badRequest) := by
  have hnone : readCoverageBody r.body = none := Option.eq_none_iff_forall_ne_some.mpr (not_exists.mp hread)
  rw [exec_readCoverage_of_asks h, serveReadCoverage, hnone, State.reading_none]

/-- Settles O26: the body names a range of the quay or is refused, and the reply with the views of that range is all that is
placed. -/
theorem readCoverageGivesSegmentsAndCells : Obligations.ReadCoverageGivesSegmentsAndCells := by
  refine ⟨fun r s f n h hbody => ⟨fun hout => ?outside, fun hfirst hcount hsum => ?inside⟩, fun r s h hlength => ?length⟩
  case outside =>
    refine exec_readCoverage_of_unreadable h fun ⟨q, hread⟩ => ?_
    obtain ⟨f', n', hpair, -, hrange⟩ := readCoverageBody_eq_some_iff.mp hread
    obtain ⟨rfl, rfl⟩ : f = f' ∧ n = n' := by simpa using hbody.symm.trans hpair
    omega
  case inside =>
    exact exec_readCoverage_of_readable h (readCoverageBody_eq_some_iff.mpr ⟨f, n, hbody, rfl, hfirst, hcount, hsum⟩)
  case length =>
    refine exec_readCoverage_of_unreadable h fun ⟨q, hread⟩ => ?_
    obtain ⟨f, n, hpair, -⟩ := readCoverageBody_eq_some_iff.mp hread
    exact hlength (congrArg List.length hpair)

end Sys2Proof.Machine
end

section
/-! PROOFS. TAKE (R101): which bodies carry a maximum count, what leaving deliveries and the comparison with the marks do to the
pool, and what TAKE answers. -/

namespace Sys2Proof.Machine

/-! ### The body of TAKE (R101, R179) -/

/-- A body is readable exactly when it is one byte, a maximum count of 1 to 16. -/
theorem readTake_eq_some_iff {body : List Byte} {count : Nat} :
    readTake body = some count ↔ ∃ n : Byte, body = [n] ∧ n.toNat = count ∧ 1 ≤ n.toNat ∧ n.toNat ≤ 16 := by
  rw [readTake, Reader.whole_eq_some_iff]
  simp only [Reader.run_bind, Option.bind_eq_some_iff, Prod.exists]
  constructor
  · rintro ⟨_, _, hn, _, _, hrequire, hcount⟩
    obtain ⟨n, rfl, rfl⟩ := Reader.num1_eq_some_iff.mp hn
    obtain ⟨hrange, rfl⟩ := Reader.require_eq_some_iff.mp hrequire
    cases hcount
    simp only [Bool.and_eq_true, decide_eq_true_eq] at hrange
    exact ⟨n, rfl, rfl, hrange⟩
  · rintro ⟨n, rfl, rfl, hlow, hhigh⟩
    have hrange : (1 ≤ n.toNat && n.toNat ≤ 16) = true := by simp [hlow, hhigh]
    exact ⟨_, _, Reader.num1_cons n [], (), [], Reader.require_eq_some_iff.mpr ⟨hrange, rfl⟩, rfl⟩

/-! ### What the pool holds after its marks are compared and after deliveries have left -/

@[simp] theorem State.bumpPool_pool (s : State) (k : Fin 13) :
    (s.bumpPool k).pool = { s.pool with counters := bump s.pool.counters k } := rfl

/-- The comparison with the marks (R95, R97) moves no block and no delivery, and counts only in counters 9 to 11. -/
theorem State.judge_pool_keeps (s : State) :
    s.judge.pool.queues = s.pool.queues ∧ s.judge.pool.free = s.pool.free ∧ s.judge.pool.dropped = s.pool.dropped ∧
    ∀ i : Fin 13, i < 9 ∨ 11 < i → look s.judge.pool.counters i = look s.pool.counters i := by
  unfold State.judge
  split
  case isTrue =>
    refine ⟨by simp, by simp, by simp, fun i hi => ?_⟩
    have h9 : i ≠ 9 := by omega
    have h10 : i ≠ 10 := by omega
    simp [h9, h10]
  case isFalse =>
    split
    case isTrue =>
      refine ⟨by simp, by simp, by simp, fun i hi => ?_⟩
      have h11 : i ≠ 11 := by omega
      simp [h11]
    case isFalse => exact ⟨rfl, rfl, rfl, fun _ _ => rfl⟩

theorem State.judge_keepsAllBut (s : State) : s.KeepsAllBut s.judge [.links, .pool] := by
  intro p hp
  have hframe := State.judge_frame s
  cases p <;> simp_all [Part.same]

theorem State.takeDeliveries_keepsAllBut (s : State) (l : LinkNo) (n : Nat) :
    s.KeepsAllBut (s.takeDeliveries l n) [.pool] := by
  intro p hp
  have hframe := State.takeDeliveries_frame s l n
  cases p <;> simp_all [Part.same]

theorem State.takeDeliveries_pool (s : State) (l : LinkNo) (n : Nat) :
    (s.takeDeliveries l n).pool = { s.pool with
      queues := put s.pool.queues l ((look s.pool.queues l).drop n),
      free := s.pool.free + deliveriesBlocks ((look s.pool.queues l).take n),
      counters := bumpBy s.pool.counters 8 ((look s.pool.queues l).take n).length } := rfl

/-! ### What TAKE answers -/

theorem exec_take_of_asks {s : State} {r : Request} (h : s.Asks .take r) :
    exec (.take r.ref.link) s = .next (serveTake (s.taken r) r) :=
  congrArg _ (State.taking_of_asks h serveTake)

/-- TAKE refuses a body it cannot read. -/
theorem exec_take_of_unreadable {s : State} {r : Request} (h : s.Asks .take r) (hread : ¬∃ count, readTake r.body = some count) :
    exec (.take r.ref.link) s = .next ((s.taken r).answer r.ref .badRequest) := by
  have hnone : readTake r.body = none := Option.eq_none_iff_forall_ne_some.mpr (not_exists.mp hread)
  rw [exec_take_of_asks h, serveTake, hnone, State.reading_none]

/-- The state in which the reply to TAKE is placed: the deliveries have left, and the free count has been compared. -/
def State.tookDeliveries (s : State) (r : Request) (count : Nat) : State :=
  ((s.taken r).takeDeliveries r.ref.link count).judge

/-- TAKE with a readable count places one reply, with what left the queue, what is left in it and the quota. -/
theorem exec_take_of_readable {s : State} {r : Request} {count : Nat} (h : s.Asks .take r)
    (hread : readTake r.body = some count) :
    exec (.take r.ref.link) s = .next ((s.tookDeliveries r count).reply r.ref .ok
      (.taken ((look s.pool.queues r.ref.link).take count) ((look s.pool.queues r.ref.link).drop count).length
        (deliveriesBlocks ((look s.pool.queues r.ref.link).drop count)) (s.param pQuota))) := by
  have hquota : (s.tookDeliveries r count).param pQuota = s.param pQuota := by
    simp [State.tookDeliveries, State.param, State.taken]
  rw [exec_take_of_asks h, serveTake, hread, State.reading_some, ← hquota]
  rfl

theorem State.tookDeliveries_keepsAllBut (s : State) (r : Request) (count : Nat) :
    (s.taken r).KeepsAllBut (s.tookDeliveries r count) [.links, .pool] :=
  ((State.takeDeliveries_keepsAllBut _ _ _).mono (by simp)).trans (State.judge_keepsAllBut _)

/-- What TAKE does to the pool (R101). -/
theorem State.tookDeliveries_pool (s : State) (r : Request) (count : Nat) :
    let out := (look s.pool.queues r.ref.link).take count
    let p := (s.tookDeliveries r count).pool
    p.queues = put s.pool.queues r.ref.link ((look s.pool.queues r.ref.link).drop count) ∧
    p.free = s.pool.free + deliveriesBlocks out ∧ p.dropped = s.pool.dropped ∧
    look p.counters 8 = min (look s.pool.counters 8 + out.length) 65535 := by
  obtain ⟨hqueues, hfree, hdropped, hcounters⟩ := State.judge_pool_keeps ((s.taken r).takeDeliveries r.ref.link count)
  refine ⟨hqueues, hfree, hdropped, (hcounters 8 (by decide)).trans ?_⟩
  rw [State.takeDeliveries_pool]
  exact look_bumpBy_self s.pool.counters 8 _

/-- Settles O36: the body gives a maximum count or is refused, the deliveries leave the front of the link's queue, and the
comparison with the marks that follows moves neither a block nor a delivery. -/
theorem takeRemovesDeliveriesFromTheFront : Obligations.TakeRemovesDeliveriesFromTheFront := by
  refine ⟨fun r s n h hbody => ⟨fun hout => ?outside, fun hlow hhigh => ?inside⟩, fun r s h hlength => ?length⟩
  case outside =>
    refine exec_take_of_unreadable h fun ⟨count, hread⟩ => ?_
    obtain ⟨n', hone, -, hrange⟩ := readTake_eq_some_iff.mp hread
    obtain rfl : n = n' := by simpa using hbody.symm.trans hone
    omega
  case inside =>
    have hread : readTake r.body = some n.toNat := readTake_eq_some_iff.mpr ⟨n, hbody, rfl, hlow, hhigh⟩
    obtain ⟨hqueues, hfree, hdropped, hcounter⟩ := State.tookDeliveries_pool s r n.toNat
    refine ⟨s.tookDeliveries r n.toNat, exec_take_of_readable h hread, ?_, fun l hl => ?_, hfree, hdropped, hcounter,
      State.tookDeliveries_keepsAllBut s r n.toNat⟩
    · rw [hqueues, look_put_self]
    · rw [hqueues, look_put_ne _ _ hl]
  case length =>
    refine exec_take_of_unreadable h fun ⟨count, hread⟩ => ?_
    obtain ⟨n, hone, -⟩ := readTake_eq_some_iff.mp hread
    exact hlength (congrArg List.length hone)

end Sys2Proof.Machine
end

section
/-! PROOFS. What the plumbing of a request, and the operations that the laws leave out, write of the state. -/

namespace Sys2Proof.Machine

/-! ### What the plumbing of a request writes -/

theorem State.taken_keepsAllBut (s : State) (r : Request) : s.KeepsAllBut (s.taken r) [.handed] := by
  intro p hp
  cases p <;> first | rfl | simp at hp

theorem State.reply_keepsAllBut (s : State) (r : ReqRef) (st : Status) (b : ReplyBody) :
    s.KeepsAllBut (s.reply r st b) [.links] := by
  intro p hp
  cases p <;> first | rfl | simp at hp

theorem State.answer_keepsAllBut (s : State) (r : ReqRef) (st : Status) : s.KeepsAllBut (s.answer r st) [.links] :=
  s.reply_keepsAllBut r st .empty

theorem State.bumpAcc_keepsAllBut (s : State) (k : Fin 12) : s.KeepsAllBut (s.bumpAcc k) [.access] := by
  intro p hp
  cases p <;> first | rfl | simp at hp

theorem State.KeepsAllBut.step {s t u : State} {ps qs : List Part} (h : s.KeepsAllBut t ps) (g : t.KeepsAllBut u qs)
    (hsub : ∀ p ∈ qs, p ∈ ps) : s.KeepsAllBut u ps := h.trans (g.mono hsub)

/-- A request's command writes what its service writes, and the list of handed requests. -/
theorem State.taking_keepsAllBut {s : State} {c : ReqCode} {l : LinkNo} {f : State → Request → State} {ps : List Part}
    (hf : ∀ (u : State) (r : Request), u.KeepsAllBut (f u r) ps) (hps : Part.handed ∈ ps) :
    s.KeepsAllBut (s.taking c l f) ps := by
  unfold State.taking
  split
  · exact .refl _ _
  · split
    · exact ((s.taken_keepsAllBut _).mono (by simpa using hps)).trans (hf _ _)
    · exact .refl _ _

theorem State.reading_keepsAllBut {α : Type} {s : State} {r : Request} {o : Option α} {f : α → State} {ps : List Part}
    (hf : ∀ v, o = some v → s.KeepsAllBut (f v) ps) (hps : Part.links ∈ ps) : s.KeepsAllBut (s.reading r o f) ps := by
  unfold State.reading
  split
  · exact (s.answer_keepsAllBut _ _).mono (by simpa using hps)
  · exact hf _ rfl

theorem State.withToken_keepsAllBut {s : State} {r : Request} {t : Token} {w : Bool} {f : State → EntryNo → State}
    {ps : List Part} (hf : ∀ (u : State) (e : EntryNo), u.KeepsAllBut (f u e) ps) (hlinks : Part.links ∈ ps) (hacc : Part.access ∈ ps) :
    s.KeepsAllBut (s.withToken r t w f) ps := by
  have hbump : ∀ k, s.KeepsAllBut (s.bumpAcc k) ps := fun k => (s.bumpAcc_keepsAllBut k).mono (by simpa using hacc)
  unfold State.withToken
  split
  · exact (hbump _).step (State.answer_keepsAllBut _ _ _) (by simpa using hlinks)
  · exact (hbump _).trans (hf _ _)


/-! ### What the operations that the laws leave out write -/

theorem State.takeUplink_keepsAllBut (s : State) (l : LinkNo) (f : Word × List Byte) :
    s.KeepsAllBut (s.takeUplink l f).1 [.links, .registry, .pool, .downlink, .cranes, .reefer] := by
  unfold State.takeUplink
  intro p hp
  cases p <;> simp at hp <;> simp only [Part.same] <;> (repeat' split) <;> simp

theorem State.takeUplinks_keepsAllBut (s : State) (l : LinkNo) (fs : List (Word × List Byte)) :
    s.KeepsAllBut (s.takeUplinks l fs).1 [.links, .registry, .pool, .downlink, .cranes, .reefer] := by
  induction fs generalizing s with
  | nil => exact .refl _ _
  | cons f fs ih => exact (s.takeUplink_keepsAllBut l f).trans (ih _)

theorem State.foldl_keepsAllBut {β : Type} {f : State → β → State} {ps : List Part} (h : ∀ (u : State) (b : β), u.KeepsAllBut (f u b) ps)
    (bs : List β) (s : State) : s.KeepsAllBut (bs.foldl f s) ps := by
  induction bs generalizing s with
  | nil => exact .refl _ _
  | cons b bs ih => exact (h s b).trans (ih _)

theorem State.ite_keepsAllBut {s t u : State} {c : Prop} [Decidable c] {ps : List Part} (ht : s.KeepsAllBut t ps)
    (hu : s.KeepsAllBut u ps) : s.KeepsAllBut (if c then t else u) ps := by
  split
  · exact ht
  · exact hu

/-- The parts that a change of a parameter or a warm restart can write. -/
abbrev tuneParts : List Part := [.links, .registry, .coverage, .beamCtl, .pool, .downlink, .cranes, .reefer, .settings]

theorem State.answerRunsOut_keepsAllBut (s : State) (h : HeadNo) : s.KeepsAllBut (s.answerRunsOut h) tuneParts := by
  intro p hp
  cases p <;> simp at hp <;> simp [Part.same]

theorem State.makeOverdue_keepsAllBut (s : State) (h : HeadNo) : s.KeepsAllBut (s.makeOverdue h) tuneParts := by
  intro p hp
  cases p <;> simp at hp <;> simp [Part.same]

theorem State.makeDue_keepsAllBut (s : State) (h : HeadNo) : s.KeepsAllBut (s.makeDue h) tuneParts := by
  intro p hp
  cases p <;> simp at hp <;> simp [Part.same]

theorem State.expireWait_keepsAllBut (s : State) (w : WaitEntry) : s.KeepsAllBut (s.expireWait w) tuneParts := by
  intro p hp
  cases p <;> simp at hp <;> simp [Part.same]

theorem State.expireBurst_keepsAllBut (s : State) (b : BeamNo) : s.KeepsAllBut (s.expireBurst b) tuneParts := by
  intro p hp
  cases p <;> simp at hp <;> simp [Part.same]

theorem State.goSilent_keepsAllBut (s : State) (e : EntryNo) : s.KeepsAllBut (s.goSilent e) tuneParts := by
  intro p hp
  cases p <;> simp at hp <;> simp [Part.same]

theorem State.expireWatch_keepsAllBut (s : State) (c : CraneNo) : s.KeepsAllBut (s.expireWatch c) tuneParts := by
  intro p hp
  cases p <;> simp at hp <;> simp [Part.same]

theorem State.afterTune_keepsAllBut (s : State) (i : Fin 19) : s.KeepsAllBut (s.afterTune i) tuneParts := by
  have refl := fun u : State => State.KeepsAllBut.refl u tuneParts
  unfold State.afterTune
  split
  · exact State.foldl_keepsAllBut (fun u h => State.ite_keepsAllBut (u.answerRunsOut_keepsAllBut h) (refl u)) _ _
  · exact State.foldl_keepsAllBut (fun u h => State.ite_keepsAllBut (u.answerRunsOut_keepsAllBut h) (refl u)) _ _
  · exact State.foldl_keepsAllBut (fun u h => State.ite_keepsAllBut (u.makeOverdue_keepsAllBut h)
      (State.ite_keepsAllBut (u.makeDue_keepsAllBut h) (refl u))) _ _
  · exact State.foldl_keepsAllBut State.expireWait_keepsAllBut _ _
  · exact State.foldl_keepsAllBut (fun u b => State.ite_keepsAllBut (u.expireBurst_keepsAllBut b) (refl u)) _ _
  · exact State.foldl_keepsAllBut (fun u e => State.ite_keepsAllBut (u.goSilent_keepsAllBut e) (refl u)) _ _
  · exact State.foldl_keepsAllBut (fun u c => State.ite_keepsAllBut (u.expireWatch_keepsAllBut c) (refl u)) _ _
  · exact State.foldl_keepsAllBut (fun u e => State.ite_keepsAllBut (u.goSilent_keepsAllBut e) (refl u)) _ _
  · exact refl s

theorem State.withParams_keepsAllBut (s : State) (ps : Vector Nat 19) :
    s.KeepsAllBut { s with settings := { s.settings with params := ps } } [.settings] := by
  intro p hp
  cases p <;> first | rfl | simp at hp

theorem State.bumpSet_keepsAllBut (s : State) (k : Fin 11) : s.KeepsAllBut (s.bumpSet k) [.settings] := by
  intro p hp
  cases p <;> first | rfl | simp at hp

theorem State.tunePair_keepsAllBut (s : State) (i : Fin 19) (v : Nat) : s.KeepsAllBut (s.tunePair i v) tuneParts := by
  have refl := fun u : State => State.KeepsAllBut.refl u tuneParts
  simp only [State.tunePair]
  refine State.KeepsAllBut.trans ((s.withParams_keepsAllBut (applyPair s.settings.params i v).1).mono (by simp)) ?_
  refine State.KeepsAllBut.trans (State.ite_keepsAllBut (c := (applyPair s.settings.params i v).2.2.1 = true)
    ((State.bumpSet_keepsAllBut _ 5).mono (by simp)) (refl _)) ?_
  exact (State.ite_keepsAllBut (State.afterTune_keepsAllBut _ _) (refl _)).step (State.judge_keepsAllBut _) (by simp)

theorem State.pushCmd_keepsAllBut (s : State) (h : HeadNo) (c : HeadCmd) :
    s.KeepsAllBut (s.pushCmd h c) [.coverage, .beamCtl] := by
  intro p hp
  cases p <;> simp at hp <;> simp [Part.same]

theorem State.restartBeams_keepsAllBut (s : State) : s.KeepsAllBut s.restartBeams [.coverage, .beamCtl] := by
  refine State.KeepsAllBut.trans (t := { s with beamCtl := {
    heads := s.beamCtl.heads.map Head.restarted, beams := s.beamCtl.beams.map Beam.restarted, waitList := [] } }) ?_ ?_
  · intro p hp
    cases p <;> first | rfl | simp at hp
  · exact State.foldl_keepsAllBut (fun u h => State.ite_keepsAllBut (u.pushCmd_keepsAllBut h _) (.refl _ _)) _ _

theorem State.restartLinks_keepsAllBut (s : State) (r : ReqRef) : s.KeepsAllBut (s.restartLinks r) [.links, .handed] := by
  refine State.KeepsAllBut.trans (t := { s with handed := [] }) ?_ (State.foldl_keepsAllBut (fun u l => ?_) _ _)
  · intro p hp
    cases p <;> first | rfl | simp at hp
  · intro p hp
    cases p <;> first | rfl | simp at hp

theorem State.restartRegistry_keepsAllBut (s : State) : s.KeepsAllBut s.restartRegistry [.registry] := by
  intro p hp
  cases p <;> first | rfl | simp at hp

theorem State.restartCranes_keepsAllBut (s : State) : s.KeepsAllBut s.restartCranes [.cranes] := by
  intro p hp
  cases p <;> first | rfl | simp at hp

theorem State.restartPool_keepsAllBut (s : State) : s.KeepsAllBut s.restartPool [.pool] := by
  intro p hp
  cases p <;> first | rfl | simp at hp

theorem State.restartDownlink_keepsAllBut (s : State) : s.KeepsAllBut s.restartDownlink [.beamCtl, .downlink] := by
  intro p hp
  cases p <;> first | rfl | simp at hp

theorem State.restartReefer_keepsAllBut (s : State) :
    s.KeepsAllBut s.restartReefer [.pool, .downlink, .cranes, .reefer] := by
  intro p hp
  cases p <;> simp at hp <;> simp [Part.same]

theorem State.restartUnits_keepsAllBut (s : State) (r : ReqRef) : s.KeepsAllBut (s.restartUnits r) (.handed :: tuneParts) := by
  have h1 : s.KeepsAllBut (s.restartLinks r) (.handed :: tuneParts) := (s.restartLinks_keepsAllBut r).mono (by simp)
  exact (((((((h1.step (State.restartRegistry_keepsAllBut _) (by simp)).step (State.restartBeams_keepsAllBut _) (by simp)).step
    (State.restartDownlink_keepsAllBut _) (by simp)).step (State.restartPool_keepsAllBut _) (by simp)).step
    (State.restartCranes_keepsAllBut _) (by simp)).step (State.restartReefer_keepsAllBut _) (by simp)).step
    (State.judge_keepsAllBut _) (by simp))

theorem State.endStore_keepsAllBut (s : State) (j : StoreJob) (m : Bool) (bs : List Byte) :
    s.KeepsAllBut (s.endStore j m bs) [.links, .settings] := by
  unfold State.endStore
  intro p hp
  cases p <;> simp at hp <;> simp only [Part.same] <;> split <;> simp

theorem State.answered_keepsAllBut {s : State} {h : HeadNo} {o : Outstanding} {f : State → State} {ps : List Part}
    (hf : ∀ u : State, u.KeepsAllBut (f u) ps) (hbeam : Part.beamCtl ∈ ps) (hcov : Part.coverage ∈ ps) :
    s.KeepsAllBut (s.answered h o f) ps := by
  have hend : s.KeepsAllBut (s.endOutstanding h) ps := by
    intro p hp
    cases p <;> simp_all [Part.same]
  have htry : ∀ u : State, u.KeepsAllBut (u.trySweep h) ps := by
    intro u p hp
    cases p <;> simp_all [Part.same]
  unfold State.answered
  exact (hend.trans (State.ite_keepsAllBut (.refl _ _) (hf _))).trans (htry _)

theorem State.firstSweeps_keepsAllBut (s : State) : s.KeepsAllBut s.firstSweeps [.coverage, .beamCtl] :=
  State.foldl_keepsAllBut (fun u h => by intro p hp; cases p <;> simp at hp <;> simp [Part.same]) _ _
end Sys2Proof.Machine
end

section
/-! PROOFS. The footprint of every command: which parts of the state its meaning can write, and what follows for the waiting commands
and the time counts. -/

namespace Sys2Proof.Machine

/-! ### Which parts of the state a command can write -/

/-- The parts that a command can write: the footprint of its meaning. -/
def writesOf : Instr → List Part
  | .pinReset => [.clock, .links, .handed, .registry, .access, .coverage, .beamCtl, .pool, .downlink, .cranes, .reefer, .settings]
  | .settingsLoadEnd _ _ => [.links, .coverage, .beamCtl, .settings]
  | .millisecondTick | .secondTick => [.clock]
  | .fillMarkReceived _ _ | .fillMarkGap _ | .linkUp _ | .messageAbandoned _ _ | .messageSent _ | .lineFramingFault _ =>
    [.links]
  | .linkDown _ _ => [.links, .handed, .access, .coverage, .beamCtl, .pool, .downlink, .cranes, .reefer]
  | .messageReceived _ _ => [.links, .handed]
  | .identify _ | .readTime _ | .listUnknown _ | .readEntry _ | .readCoverage _ | .readBeams _ | .readAlarms _ =>
    [.links, .handed]
  | .readCounters _ =>
    [.links, .handed, .registry, .access, .coverage, .pool, .downlink, .cranes, .reefer, .settings]
  | .enroll _ => [.links, .handed, .registry, .cranes, .reefer]
  | .withdraw _ => [.links, .handed, .registry]
  | .downlinkWithdrawal _ => [.links, .registry, .beamCtl, .pool, .downlink, .cranes]
  | .craneWithdrawal _ => [.registry, .cranes]
  | .reeferWithdrawal _ => [.registry, .reefer]
  | .move _ | .deliver _ => [.links, .handed, .registry, .pool, .downlink, .cranes, .reefer]
  | .silenceExpiry _ => [.links, .registry, .pool, .downlink, .cranes, .reefer]
  | .readTerminal _ | .grant _ | .revoke _ | .readCrane _ | .readRack _ => [.links, .handed, .access]
  | .markCell _ => [.links, .handed, .coverage, .beamCtl, .pool, .downlink, .cranes, .reefer]
  | .unmarkCell _ => [.links, .handed, .coverage, .pool, .downlink, .cranes, .reefer]
  | .openBeam _ | .release _ | .survey _ => [.links, .handed, .coverage, .beamCtl]
  | .steerDone _ _ | .releaseAnswered _ _ | .surveyOverdue _ | .waitExpiry _ => [.links, .coverage, .beamCtl]
  | .steerRefused _ _ | .sweepResult _ _ | .probeAnswered _ _ | .answerLimitExpiry _ | .burstLimitExpiry _ =>
    [.links, .coverage, .beamCtl, .pool, .downlink, .cranes, .reefer]
  | .sweepRefused _ _ | .probeTime _ | .sweepRetryTime _ | .surveyDue _ => [.coverage, .beamCtl]
  | .unmatchedAnswer _ _ => [.coverage]
  | .pauseRepeat => [.links, .pool]
  | .take _ => [.links, .handed, .pool]
  | .send _ | .purgeQueue _ => [.links, .handed, .access, .pool, .downlink, .cranes]
  | .deadlineExpiry _ => [.links, .pool, .downlink, .cranes]
  | .fetch _ => [.links, .handed, .beamCtl, .downlink, .cranes]
  | .done _ | .cut _ => [.links, .handed, .coverage, .beamCtl, .pool, .downlink, .cranes, .reefer]
  | .stallExpiry _ => [.links, .cranes]
  | .subscribe _ => [.links, .handed, .access, .cranes]
  | .setInterest _ => [.links, .handed, .reefer]
  | .acknowledge _ | .clearDose _ => [.links, .handed, .access, .reefer]
  | .tune _ | .restart _ =>
    [.links, .handed, .registry, .coverage, .beamCtl, .pool, .downlink, .cranes, .reefer, .settings]
  | .storeSettings _ => [.links, .handed, .settings]
  | .storeWriteEnd _ _ | .storeWriteTimeout _ => [.links, .settings]
  | .restartAnswer => [.links, .settings]

/-- A command answers a next state that differs from the one before in the parts of its footprint only. -/
def HasFootprint (c : Instr) : Prop := ∀ s : State, ∃ t : State, exec c s = .next t ∧ s.KeepsAllBut t (writesOf c)

theorem State.onLink_keepsAllBut (s : State) (l : LinkNo) (f : Link → Link) : s.KeepsAllBut (s.onLink l f) [.links] := by
  intro p hp
  cases p <;> first | rfl | simp at hp

theorem handed_mem_writesOf (code : ReqCode) (l : LinkNo) : Part.handed ∈ writesOf (code.command l) := by
  cases code <;> simp [ReqCode.command, writesOf]

/-- A request's command has its footprint when its service keeps to it. -/
theorem footprint_of_serve {code : ReqCode} {l : LinkNo} {serve : State → Request → State}
    (hexec : ∀ s, exec (code.command l) s = .next (s.taking code l serve))
    (hserve : ∀ (s : State) (r : Request), s.KeepsAllBut (serve s r) (writesOf (code.command l))) :
    HasFootprint (code.command l) :=
  fun s => ⟨_, hexec s, State.taking_keepsAllBut hserve (handed_mem_writesOf code l)⟩

theorem serveIdentify_keepsAllBut (s : State) (r : Request) : s.KeepsAllBut (serveIdentify s r) [.links, .handed] :=
  State.reading_keepsAllBut (fun _ _ => (s.reply_keepsAllBut _ _ _).mono (by simp)) (by decide)

theorem footprint_identify (l : LinkNo) : HasFootprint (.identify l) :=
  footprint_of_serve (code := .identify) (fun _ => rfl) serveIdentify_keepsAllBut

theorem serveReadTime_keepsAllBut (s : State) (r : Request) : s.KeepsAllBut (serveReadTime s r) [.links, .handed] :=
  State.reading_keepsAllBut (fun _ _ => (s.reply_keepsAllBut _ _ _).mono (by simp)) (by decide)

theorem footprint_readTime (l : LinkNo) : HasFootprint (.readTime l) :=
  footprint_of_serve (code := .readTime) (fun _ => rfl) serveReadTime_keepsAllBut

theorem serveListUnknown_keepsAllBut (s : State) (r : Request) : s.KeepsAllBut (serveListUnknown s r) [.links, .handed] :=
  State.reading_keepsAllBut (fun _ _ => (s.reply_keepsAllBut _ _ _).mono (by simp)) (by decide)

theorem footprint_listUnknown (l : LinkNo) : HasFootprint (.listUnknown l) :=
  footprint_of_serve (code := .listUnknown) (fun _ => rfl) serveListUnknown_keepsAllBut

theorem serveReadEntry_keepsAllBut (s : State) (r : Request) : s.KeepsAllBut (serveReadEntry s r) [.links, .handed] := by
  refine State.reading_keepsAllBut (fun q _ => ?_) (by decide)
  intro p hp
  cases p <;> simp at hp <;> simp only [Part.same] <;> (repeat' split) <;> simp

theorem footprint_readEntry (l : LinkNo) : HasFootprint (.readEntry l) :=
  footprint_of_serve (code := .readEntry) (fun _ => rfl) serveReadEntry_keepsAllBut

theorem serveReadCoverage_keepsAllBut (s : State) (r : Request) : s.KeepsAllBut (serveReadCoverage s r) [.links, .handed] :=
  State.reading_keepsAllBut (fun _ _ => (s.reply_keepsAllBut _ _ _).mono (by simp)) (by decide)

theorem footprint_readCoverage (l : LinkNo) : HasFootprint (.readCoverage l) :=
  footprint_of_serve (code := .readCoverage) (fun _ => rfl) serveReadCoverage_keepsAllBut

theorem serveReadBeams_keepsAllBut (s : State) (r : Request) : s.KeepsAllBut (serveReadBeams s r) [.links, .handed] :=
  State.reading_keepsAllBut (fun _ _ => (s.reply_keepsAllBut _ _ _).mono (by simp)) (by decide)

theorem footprint_readBeams (l : LinkNo) : HasFootprint (.readBeams l) :=
  footprint_of_serve (code := .readBeams) (fun _ => rfl) serveReadBeams_keepsAllBut

theorem serveReadAlarms_keepsAllBut (s : State) (r : Request) : s.KeepsAllBut (serveReadAlarms s r) [.links, .handed] :=
  State.reading_keepsAllBut (fun _ _ => (s.reply_keepsAllBut _ _ _).mono (by simp)) (by decide)

theorem footprint_readAlarms (l : LinkNo) : HasFootprint (.readAlarms l) :=
  footprint_of_serve (code := .readAlarms) (fun _ => rfl) serveReadAlarms_keepsAllBut

theorem serveEnroll_keepsAllBut (s : State) (r : Request) : s.KeepsAllBut (serveEnroll s r) [.links, .handed, .registry, .cranes, .reefer] := by
  refine State.reading_keepsAllBut (fun q _ => ?_) (by decide)
  intro p hp
  cases p <;> simp at hp <;> simp only [Part.same] <;> (repeat' split) <;> simp

theorem footprint_enroll (l : LinkNo) : HasFootprint (.enroll l) :=
  footprint_of_serve (code := .enroll) (fun _ => rfl) serveEnroll_keepsAllBut

theorem serveWithdraw_keepsAllBut (s : State) (r : Request) : s.KeepsAllBut (serveWithdraw s r) [.links, .handed, .registry] := by
  refine State.reading_keepsAllBut (fun q _ => ?_) (by decide)
  intro p hp
  cases p <;> simp at hp <;> simp only [Part.same] <;> (repeat' split) <;> simp

theorem footprint_withdraw (l : LinkNo) : HasFootprint (.withdraw l) :=
  footprint_of_serve (code := .withdraw) (fun _ => rfl) serveWithdraw_keepsAllBut

theorem serveMove_keepsAllBut (s : State) (r : Request) : s.KeepsAllBut (serveMove s r) [.links, .handed, .registry, .pool, .downlink, .cranes, .reefer] := by
  refine State.reading_keepsAllBut (fun q _ => ?_) (by decide)
  intro p hp
  cases p <;> simp at hp <;> simp only [Part.same] <;> (repeat' split) <;> simp

theorem footprint_move (l : LinkNo) : HasFootprint (.move l) :=
  footprint_of_serve (code := .move) (fun _ => rfl) serveMove_keepsAllBut

theorem serveGrant_keepsAllBut (s : State) (r : Request) : s.KeepsAllBut (serveGrant s r) [.links, .handed, .access] := by
  refine State.reading_keepsAllBut (fun q _ => ?_) (by decide)
  intro p hp
  cases p <;> simp at hp <;> simp only [Part.same] <;> (repeat' split) <;> simp

theorem footprint_grant (l : LinkNo) : HasFootprint (.grant l) :=
  footprint_of_serve (code := .grant) (fun _ => rfl) serveGrant_keepsAllBut

theorem serveRevoke_keepsAllBut (s : State) (r : Request) : s.KeepsAllBut (serveRevoke s r) [.links, .handed, .access] := by
  refine State.reading_keepsAllBut (fun q _ => ?_) (by decide)
  intro p hp
  cases p <;> simp at hp <;> simp only [Part.same] <;> (repeat' split) <;> simp

theorem footprint_revoke (l : LinkNo) : HasFootprint (.revoke l) :=
  footprint_of_serve (code := .revoke) (fun _ => rfl) serveRevoke_keepsAllBut

theorem serveMarkCell_keepsAllBut (s : State) (r : Request) : s.KeepsAllBut (serveMarkCell s r) [.links, .handed, .coverage, .beamCtl, .pool, .downlink, .cranes, .reefer] := by
  refine State.reading_keepsAllBut (fun q _ => ?_) (by decide)
  intro p hp
  cases p <;> simp at hp <;> simp only [Part.same] <;> (repeat' split) <;> simp

theorem footprint_markCell (l : LinkNo) : HasFootprint (.markCell l) :=
  footprint_of_serve (code := .markCell) (fun _ => rfl) serveMarkCell_keepsAllBut

theorem serveUnmarkCell_keepsAllBut (s : State) (r : Request) : s.KeepsAllBut (serveUnmarkCell s r) [.links, .handed, .coverage, .pool, .downlink, .cranes, .reefer] := by
  refine State.reading_keepsAllBut (fun q _ => ?_) (by decide)
  intro p hp
  cases p <;> simp at hp <;> simp only [Part.same] <;> (repeat' split) <;> simp

theorem footprint_unmarkCell (l : LinkNo) : HasFootprint (.unmarkCell l) :=
  footprint_of_serve (code := .unmarkCell) (fun _ => rfl) serveUnmarkCell_keepsAllBut

theorem serveOpenBeam_keepsAllBut (s : State) (r : Request) : s.KeepsAllBut (serveOpenBeam s r) [.links, .handed, .coverage, .beamCtl] := by
  refine State.reading_keepsAllBut (fun q _ => ?_) (by decide)
  intro p hp
  cases p <;> simp at hp <;> simp only [Part.same] <;> (repeat' split) <;> simp

theorem footprint_openBeam (l : LinkNo) : HasFootprint (.openBeam l) :=
  footprint_of_serve (code := .openBeam) (fun _ => rfl) serveOpenBeam_keepsAllBut

theorem serveRelease_keepsAllBut (s : State) (r : Request) : s.KeepsAllBut (serveRelease s r) [.links, .handed, .coverage, .beamCtl] := by
  refine State.reading_keepsAllBut (fun q _ => ?_) (by decide)
  intro p hp
  cases p <;> simp at hp <;> simp only [Part.same] <;> (repeat' split) <;> simp

theorem footprint_release (l : LinkNo) : HasFootprint (.release l) :=
  footprint_of_serve (code := .release) (fun _ => rfl) serveRelease_keepsAllBut

theorem serveSurvey_keepsAllBut (s : State) (r : Request) : s.KeepsAllBut (serveSurvey s r) [.links, .handed, .coverage, .beamCtl] := by
  refine State.reading_keepsAllBut (fun q _ => ?_) (by decide)
  intro p hp
  cases p <;> simp at hp <;> simp only [Part.same] <;> (repeat' split) <;> simp

theorem footprint_survey (l : LinkNo) : HasFootprint (.survey l) :=
  footprint_of_serve (code := .survey) (fun _ => rfl) serveSurvey_keepsAllBut

theorem serveTake_keepsAllBut (s : State) (r : Request) : s.KeepsAllBut (serveTake s r) [.links, .handed, .pool] := by
  refine State.reading_keepsAllBut (fun q _ => ?_) (by decide)
  intro p hp
  cases p <;> simp at hp <;> simp [Part.same]

theorem footprint_take (l : LinkNo) : HasFootprint (.take l) :=
  footprint_of_serve (code := .take) (fun _ => rfl) serveTake_keepsAllBut

theorem serveFetch_keepsAllBut (s : State) (r : Request) : s.KeepsAllBut (serveFetch s r) [.links, .handed, .beamCtl, .downlink, .cranes] := by
  refine State.reading_keepsAllBut (fun q _ => ?_) (by decide)
  intro p hp
  cases p <;> simp at hp <;> simp only [Part.same] <;> (repeat' split) <;> simp

theorem footprint_fetch (l : LinkNo) : HasFootprint (.fetch l) :=
  footprint_of_serve (code := .fetch) (fun _ => rfl) serveFetch_keepsAllBut

theorem serveSetInterest_keepsAllBut (s : State) (r : Request) : s.KeepsAllBut (serveSetInterest s r) [.links, .handed, .reefer] := by
  refine State.reading_keepsAllBut (fun q _ => ?_) (by decide)
  intro p hp
  cases p <;> simp at hp <;> simp [Part.same]

theorem footprint_setInterest (l : LinkNo) : HasFootprint (.setInterest l) :=
  footprint_of_serve (code := .setInterest) (fun _ => rfl) serveSetInterest_keepsAllBut

theorem serveStoreSettings_keepsAllBut (s : State) (r : Request) : s.KeepsAllBut (serveStoreSettings s r) [.links, .handed, .settings] := by
  refine State.reading_keepsAllBut (fun q _ => ?_) (by decide)
  intro p hp
  cases p <;> simp at hp <;> simp only [Part.same] <;> (repeat' split) <;> simp

theorem footprint_storeSettings (l : LinkNo) : HasFootprint (.storeSettings l) :=
  footprint_of_serve (code := .storeSettings) (fun _ => rfl) serveStoreSettings_keepsAllBut


/-! ### Requests that present a token -/

theorem serveReadTerminal_keepsAllBut (s : State) (r : Request) : s.KeepsAllBut (serveReadTerminal s r) [.links, .handed, .access] :=
  State.reading_keepsAllBut (fun _ _ => State.withToken_keepsAllBut
    (fun _ _ => (State.reply_keepsAllBut _ _ _ _).mono (by simp)) (by decide) (by decide)) (by decide)

theorem footprint_readTerminal (l : LinkNo) : HasFootprint (.readTerminal l) :=
  footprint_of_serve (code := .readTerminal) (fun _ => rfl) serveReadTerminal_keepsAllBut

/-- A request about a crane writes what goes on with its record, and its reply. -/
theorem State.withCrane_keepsAllBut {s : State} {r : Request} {e : EntryNo} {f : CraneNo → CraneRec → State} {ps : List Part}
    (hf : ∀ c k, s.KeepsAllBut (f c k) ps) (hlinks : Part.links ∈ ps) : s.KeepsAllBut (s.withCrane r e f) ps := by
  have hanswer : s.KeepsAllBut (s.answer r.ref .wrongState) ps := (s.answer_keepsAllBut _ _).mono (by simpa using hlinks)
  unfold State.withCrane
  split
  · split
    · exact hf _ _
    · exact hanswer
  · exact hanswer

/-- A request about a rack writes what goes on with its record, and its reply. -/
theorem State.withRack_keepsAllBut {s : State} {r : Request} {e : EntryNo} {f : RackNo → RackRec → State} {ps : List Part}
    (hf : ∀ c k, s.KeepsAllBut (f c k) ps) (hlinks : Part.links ∈ ps) : s.KeepsAllBut (s.withRack r e f) ps := by
  have hanswer : s.KeepsAllBut (s.answer r.ref .wrongState) ps := (s.answer_keepsAllBut _ _).mono (by simpa using hlinks)
  unfold State.withRack
  split
  · split
    · exact hf _ _
    · exact hanswer
  · exact hanswer

theorem serveReadCrane_keepsAllBut (s : State) (r : Request) : s.KeepsAllBut (serveReadCrane s r) [.links, .handed, .access] :=
  State.reading_keepsAllBut (fun _ _ => State.withToken_keepsAllBut
    (fun _ _ => State.withCrane_keepsAllBut (fun _ _ => (State.reply_keepsAllBut _ _ _ _).mono (by simp)) (by decide))
    (by decide) (by decide)) (by decide)

theorem footprint_readCrane (l : LinkNo) : HasFootprint (.readCrane l) :=
  footprint_of_serve (code := .readCrane) (fun _ => rfl) serveReadCrane_keepsAllBut

theorem serveSubscribe_keepsAllBut (s : State) (r : Request) :
    s.KeepsAllBut (serveSubscribe s r) [.links, .handed, .access, .cranes] := by
  refine State.reading_keepsAllBut (fun q _ => State.withToken_keepsAllBut (fun u e =>
    State.withCrane_keepsAllBut (fun c k => ?_) (by decide)) (by decide) (by decide)) (by decide)
  intro p hp
  cases p <;> simp at hp <;> simp only [Part.same] <;> (repeat' split) <;> simp

theorem footprint_subscribe (l : LinkNo) : HasFootprint (.subscribe l) :=
  footprint_of_serve (code := .subscribe) (fun _ => rfl) serveSubscribe_keepsAllBut

theorem serveReadRack_keepsAllBut (s : State) (r : Request) : s.KeepsAllBut (serveReadRack s r) [.links, .handed, .access] := by
  refine State.reading_keepsAllBut (fun q _ => State.withToken_keepsAllBut (fun u e =>
    State.withRack_keepsAllBut (fun n k => ?_) (by decide)) (by decide) (by decide)) (by decide)
  split
  · exact (u.answer_keepsAllBut _ _).mono (by simp)
  · exact (u.reply_keepsAllBut _ _ _).mono (by simp)

theorem footprint_readRack (l : LinkNo) : HasFootprint (.readRack l) :=
  footprint_of_serve (code := .readRack) (fun _ => rfl) serveReadRack_keepsAllBut

theorem serveAcknowledge_keepsAllBut (s : State) (r : Request) :
    s.KeepsAllBut (serveAcknowledge s r) [.links, .handed, .access, .reefer] := by
  refine State.reading_keepsAllBut (fun q _ => State.withToken_keepsAllBut (fun u e =>
    State.withRack_keepsAllBut (fun n k => ?_) (by decide)) (by decide) (by decide)) (by decide)
  intro p hp
  cases p <;> simp at hp <;> simp [Part.same]

theorem footprint_acknowledge (l : LinkNo) : HasFootprint (.acknowledge l) :=
  footprint_of_serve (code := .acknowledge) (fun _ => rfl) serveAcknowledge_keepsAllBut

theorem serveClearDose_keepsAllBut (s : State) (r : Request) :
    s.KeepsAllBut (serveClearDose s r) [.links, .handed, .access, .reefer] := by
  refine State.reading_keepsAllBut (fun q _ => State.withToken_keepsAllBut (fun u e =>
    State.withRack_keepsAllBut (fun n k => ?_) (by decide)) (by decide) (by decide)) (by decide)
  intro p hp
  cases p <;> simp at hp <;> simp only [Part.same] <;> split <;> simp

theorem footprint_clearDose (l : LinkNo) : HasFootprint (.clearDose l) :=
  footprint_of_serve (code := .clearDose) (fun _ => rfl) serveClearDose_keepsAllBut

theorem State.sendTo_keepsAllBut (s : State) (r : Request) (e : EntryNo) (k : Kind) (q : SendReq) :
    s.KeepsAllBut (s.sendTo r e k q) [.links, .handed, .access, .pool, .downlink, .cranes] := by
  intro p hp
  unfold State.sendTo
  cases p <;> simp at hp <;> simp only [Part.same] <;> (repeat' split) <;> simp

theorem serveSend_keepsAllBut (s : State) (r : Request) :
    s.KeepsAllBut (serveSend s r) [.links, .handed, .access, .pool, .downlink, .cranes] := by
  refine State.reading_keepsAllBut (fun q _ => State.withToken_keepsAllBut (fun u e => ?_) (by decide) (by decide)) (by decide)
  split
  · exact u.sendTo_keepsAllBut _ _ _ _
  · exact (u.answer_keepsAllBut _ _).mono (by simp)

theorem footprint_send (l : LinkNo) : HasFootprint (.send l) :=
  footprint_of_serve (code := .send) (fun _ => rfl) serveSend_keepsAllBut

theorem servePurgeQueue_keepsAllBut (s : State) (r : Request) :
    s.KeepsAllBut (servePurgeQueue s r) [.links, .handed, .access, .pool, .downlink, .cranes] := by
  refine State.reading_keepsAllBut (fun q _ => State.withToken_keepsAllBut (fun u e => ?_) (by decide) (by decide)) (by decide)
  intro p hp
  cases p <;> simp at hp <;> simp [Part.same]

theorem footprint_purgeQueue (l : LinkNo) : HasFootprint (.purgeQueue l) :=
  footprint_of_serve (code := .purgeQueue) (fun _ => rfl) servePurgeQueue_keepsAllBut

/-! ### The remaining requests -/

theorem State.clearGroup_keepsAllBut (s : State) (g : Nat) : s.KeepsAllBut (s.clearGroup g)
    [.links, .handed, .registry, .access, .coverage, .pool, .downlink, .cranes, .reefer, .settings] := by
  intro p hp
  unfold State.clearGroup
  cases p <;> simp at hp <;> simp only [Part.same] <;> split <;> rfl

theorem serveReadCounters_keepsAllBut (s : State) (r : Request) : s.KeepsAllBut (serveReadCounters s r)
    [.links, .handed, .registry, .access, .coverage, .pool, .downlink, .cranes, .reefer, .settings] := by
  refine State.reading_keepsAllBut (fun q _ => ?_) (by decide)
  split
  · exact (s.answer_keepsAllBut _ _).mono (by simp)
  · exact (State.ite_keepsAllBut (s.clearGroup_keepsAllBut _) (.refl _ _)).step (State.reply_keepsAllBut _ _ _ _) (by simp)

theorem footprint_readCounters (l : LinkNo) : HasFootprint (.readCounters l) :=
  footprint_of_serve (code := .readCounters) (fun _ => rfl) serveReadCounters_keepsAllBut

theorem serveDeliver_keepsAllBut (s : State) (r : Request) :
    s.KeepsAllBut (serveDeliver s r) [.links, .handed, .registry, .pool, .downlink, .cranes, .reefer] :=
  State.reading_keepsAllBut (fun q _ => ((s.takeUplinks_keepsAllBut _ q).mono (by simp)).step
    (State.reply_keepsAllBut _ _ _ _) (by simp)) (by decide)

theorem footprint_deliver (l : LinkNo) : HasFootprint (.deliver l) :=
  footprint_of_serve (code := .deliver) (fun _ => rfl) serveDeliver_keepsAllBut

theorem State.burstReport_keepsAllBut (s : State) (r : Request) (b : BeamNo) (n : Byte) (o : Nat → FrameOutcome) (k : Fin 21) :
    s.KeepsAllBut (s.burstReport r b n o k) [.links, .handed, .coverage, .beamCtl, .pool, .downlink, .cranes, .reefer] := by
  intro p hp
  unfold State.burstReport
  cases p <;> simp at hp <;> simp only [Part.same] <;> (repeat' split) <;> simp

theorem serveDone_keepsAllBut (s : State) (r : Request) :
    s.KeepsAllBut (serveDone s r) [.links, .handed, .coverage, .beamCtl, .pool, .downlink, .cranes, .reefer] :=
  State.reading_keepsAllBut (fun _ _ => s.burstReport_keepsAllBut _ _ _ _ _) (by decide)

theorem footprint_done (l : LinkNo) : HasFootprint (.done l) :=
  footprint_of_serve (code := .done) (fun _ => rfl) serveDone_keepsAllBut

theorem serveCut_keepsAllBut (s : State) (r : Request) :
    s.KeepsAllBut (serveCut s r) [.links, .handed, .coverage, .beamCtl, .pool, .downlink, .cranes, .reefer] :=
  State.reading_keepsAllBut (fun _ _ => s.burstReport_keepsAllBut _ _ _ _ _) (by decide)

theorem footprint_cut (l : LinkNo) : HasFootprint (.cut l) :=
  footprint_of_serve (code := .cut) (fun _ => rfl) serveCut_keepsAllBut

theorem serveTune_keepsAllBut (s : State) (r : Request) : s.KeepsAllBut (serveTune s r)
    [.links, .handed, .registry, .coverage, .beamCtl, .pool, .downlink, .cranes, .reefer, .settings] := by
  refine State.reading_keepsAllBut (fun q _ => ?_) (by decide)
  refine State.KeepsAllBut.step (State.KeepsAllBut.step (State.foldl_keepsAllBut (fun u p => ?_) q s)
    (State.bumpSet_keepsAllBut _ 4) (by simp)) (State.reply_keepsAllBut _ _ _ _) (by simp)
  exact (u.tunePair_keepsAllBut _ _).mono (by decide)

theorem footprint_tune (l : LinkNo) : HasFootprint (.tune l) :=
  footprint_of_serve (code := .tune) (fun _ => rfl) serveTune_keepsAllBut

theorem State.withRestart_keepsAllBut (s : State) (o : Option ReqRef) :
    s.KeepsAllBut { s with settings := { s.settings with restart := o } } [.settings] := by
  intro p hp
  cases p <;> first | rfl | simp at hp

theorem serveRestart_keepsAllBut (s : State) (r : Request) : s.KeepsAllBut (serveRestart s r)
    [.links, .handed, .registry, .coverage, .beamCtl, .pool, .downlink, .cranes, .reefer, .settings] := by
  refine State.reading_keepsAllBut (fun _ _ => State.ite_keepsAllBut ?_ ?_) (by decide)
  · exact ((s.bumpSet_keepsAllBut 10).mono (by simp)).step (State.answer_keepsAllBut _ _ _) (by simp)
  · exact (((s.withRestart_keepsAllBut _).mono (by simp)).step (State.bumpSet_keepsAllBut _ 9) (by simp)).step
      (State.restartUnits_keepsAllBut _ _) (by decide)

theorem footprint_restart (l : LinkNo) : HasFootprint (.restart l) :=
  footprint_of_serve (code := .restart) (fun _ => rfl) serveRestart_keepsAllBut

/-! ### Line events and ticks -/

theorem footprint_onLink {c : Instr} {l : LinkNo} {f : State → Link → Link}
    (hexec : ∀ s, exec c s = .next (s.onLink l (f s))) (hc : writesOf c = [.links]) : HasFootprint c :=
  fun s => ⟨_, hexec s, hc ▸ s.onLink_keepsAllBut l (f s)⟩

theorem footprint_fillMarkReceived (l : LinkNo) (b : Byte) : HasFootprint (.fillMarkReceived l b) :=
  fun s => ⟨_, rfl, State.ite_keepsAllBut (s.onLink_keepsAllBut _ _) (s.onLink_keepsAllBut _ _)⟩

theorem State.takeRequest_keepsAllBut (s : State) (l : LinkNo) (q : RawRequest) :
    s.KeepsAllBut (s.takeRequest l q) [.links, .handed] := by
  intro p hp
  cases p <;> simp at hp <;> simp [Part.same]

theorem footprint_messageReceived (l : LinkNo) (bs : List Byte) : HasFootprint (.messageReceived l bs) := by
  refine fun s => ⟨_, rfl, ?_⟩
  refine State.KeepsAllBut.trans (t := s.onLink l (fun k => { k with lastValid := s.now, discarding := false }))
    ((s.onLink_keepsAllBut l _).mono (by simp [writesOf])) ?_
  dsimp only
  split
  · exact (State.onLink_keepsAllBut _ _ _).mono (by simp [writesOf])
  · exact State.ite_keepsAllBut (State.takeRequest_keepsAllBut _ _ _)
      ((State.onLink_keepsAllBut _ _ _).mono (by simp [writesOf]))

theorem footprint_ticks : HasFootprint .millisecondTick ∧ HasFootprint .secondTick := by
  refine ⟨fun s => ⟨_, rfl, ?_⟩, fun s => ⟨_, rfl, ?_⟩⟩
  · intro p hp
    cases p <;> first | rfl | simp [writesOf] at hp
  · intro p hp
    cases p <;> simp [writesOf] at hp <;> simp only [Part.same] <;> split <;> rfl

/-! ### Events of the units -/

theorem footprint_pinReset : HasFootprint .pinReset := by
  refine fun s => ⟨_, rfl, fun p hp => ?_⟩
  cases p <;> first | rfl | simp [writesOf] at hp

theorem footprint_settingsLoadEnd (a b : Bool) : HasFootprint (.settingsLoadEnd a b) := by
  intro s
  refine ⟨_, rfl, State.ite_keepsAllBut (.refl _ _) (State.KeepsAllBut.step (fun p hp => ?_) (State.firstSweeps_keepsAllBut _)
    (by simp [writesOf]))⟩
  cases p <;> simp [writesOf] at hp <;> rfl

theorem footprint_linkDown (l : LinkNo) (b : Bool) : HasFootprint (.linkDown l b) := by
  refine fun s => ⟨_, rfl, fun p hp => ?_⟩
  cases p <;> simp [writesOf] at hp <;> simp only [Part.same] <;> split <;> simp

theorem footprint_withdrawals (e : EntryNo) : HasFootprint (.downlinkWithdrawal e) ∧ HasFootprint (.craneWithdrawal e) ∧
    HasFootprint (.reeferWithdrawal e) := by
  refine ⟨fun s => ⟨_, rfl, fun p hp => ?_⟩, fun s => ⟨_, rfl, fun p hp => ?_⟩, fun s => ⟨_, rfl, fun p hp => ?_⟩⟩ <;>
    cases p <;> simp [writesOf] at hp <;> simp only [Part.same] <;> (repeat' split) <;> simp

theorem footprint_silenceExpiry (e : EntryNo) : HasFootprint (.silenceExpiry e) := by
  refine fun s => ⟨_, rfl, fun p hp => ?_⟩
  cases p <;> simp [writesOf] at hp <;> simp only [Part.same] <;> (repeat' split) <;> simp

theorem footprint_answerLimitExpiry (h : HeadNo) : HasFootprint (.answerLimitExpiry h) := by
  refine fun s => ⟨_, rfl, fun p hp => ?_⟩
  cases p <;> simp [writesOf] at hp <;> simp only [Part.same] <;> (repeat' split) <;> simp

theorem footprint_probeTime (h : HeadNo) : HasFootprint (.probeTime h) := by
  refine fun s => ⟨_, rfl, fun p hp => ?_⟩
  cases p <;> simp [writesOf] at hp <;> simp only [Part.same] <;> (repeat' split) <;> simp

theorem footprint_sweepRetryTime (h : HeadNo) : HasFootprint (.sweepRetryTime h) := by
  refine fun s => ⟨_, rfl, fun p hp => ?_⟩
  cases p <;> simp [writesOf] at hp <;> simp only [Part.same] <;> (repeat' split) <;> simp

theorem footprint_surveyDue (h : HeadNo) : HasFootprint (.surveyDue h) := by
  refine fun s => ⟨_, rfl, fun p hp => ?_⟩
  cases p <;> simp [writesOf] at hp <;> simp only [Part.same] <;> (repeat' split) <;> simp

theorem footprint_surveyOverdue (h : HeadNo) : HasFootprint (.surveyOverdue h) := by
  refine fun s => ⟨_, rfl, fun p hp => ?_⟩
  cases p <;> simp [writesOf] at hp <;> simp only [Part.same] <;> (repeat' split) <;> simp

theorem footprint_waitExpiry (n : Fin 16) : HasFootprint (.waitExpiry n) := by
  refine fun s => ⟨_, rfl, fun p hp => ?_⟩
  cases p <;> simp [writesOf] at hp <;> simp only [Part.same] <;> (repeat' split) <;> simp

theorem footprint_pauseRepeat : HasFootprint .pauseRepeat := by
  refine fun s => ⟨_, rfl, fun p hp => ?_⟩
  cases p <;> simp [writesOf] at hp <;> simp only [Part.same] <;> (repeat' split) <;> simp

theorem footprint_deadlineExpiry (f : FrameId) : HasFootprint (.deadlineExpiry f) := by
  refine fun s => ⟨_, rfl, fun p hp => ?_⟩
  cases p <;> simp [writesOf] at hp <;> simp only [Part.same] <;> (repeat' split) <;> simp

theorem footprint_burstLimitExpiry (b : BeamNo) : HasFootprint (.burstLimitExpiry b) := by
  refine fun s => ⟨_, rfl, fun p hp => ?_⟩
  cases p <;> simp [writesOf] at hp <;> simp only [Part.same] <;> (repeat' split) <;> simp

theorem footprint_stallExpiry (c : CraneNo) : HasFootprint (.stallExpiry c) := by
  refine fun s => ⟨_, rfl, fun p hp => ?_⟩
  cases p <;> simp [writesOf] at hp <;> simp only [Part.same] <;> (repeat' split) <;> simp

/-! ### Answers of the heads -/

theorem footprint_steerDone (h : HeadNo) (bs : List Byte) : HasFootprint (.steerDone h bs) := by
  refine fun s => ⟨_, rfl, ?_⟩
  split
  · split
    · exact State.answered_keepsAllBut (fun u p hp => by cases p <;> simp [writesOf] at hp <;> simp [Part.same])
        (by simp [writesOf]) (by simp [writesOf])
    · exact .refl _ _
  · exact .refl _ _

theorem footprint_steerRefused (h : HeadNo) (bs : List Byte) : HasFootprint (.steerRefused h bs) := by
  refine fun s => ⟨_, rfl, ?_⟩
  split
  · split
    · exact State.KeepsAllBut.step (State.answered_keepsAllBut
        (fun u p hp => by cases p <;> simp [writesOf] at hp <;> simp [Part.same]) (by simp [writesOf]) (by simp [writesOf]))
        (State.judge_keepsAllBut _) (by simp [writesOf])
    · exact .refl _ _
  · exact .refl _ _

theorem footprint_releaseAnswered (h : HeadNo) (bs : List Byte) : HasFootprint (.releaseAnswered h bs) := by
  refine fun s => ⟨_, rfl, ?_⟩
  split
  · split
    · exact State.answered_keepsAllBut (fun u p hp => by cases p <;> simp [writesOf] at hp <;> simp [Part.same])
        (by simp [writesOf]) (by simp [writesOf])
    · exact .refl _ _
  · exact .refl _ _

theorem footprint_sweepResult (h : HeadNo) (bs : List Byte) : HasFootprint (.sweepResult h bs) := by
  refine fun s => ⟨_, rfl, ?_⟩
  split
  · exact State.KeepsAllBut.step (State.answered_keepsAllBut
      (fun u p hp => by cases p <;> simp [writesOf] at hp <;> simp [Part.same]) (by simp [writesOf]) (by simp [writesOf]))
      (State.judge_keepsAllBut _) (by simp [writesOf])
  · exact .refl _ _

theorem footprint_sweepRefused (h : HeadNo) (bs : List Byte) : HasFootprint (.sweepRefused h bs) := by
  refine fun s => ⟨_, rfl, ?_⟩
  split
  · exact State.ite_keepsAllBut (State.answered_keepsAllBut
      (fun u p hp => by cases p <;> simp [writesOf] at hp <;> simp [Part.same]) (by simp [writesOf]) (by simp [writesOf]))
      (.refl _ _)
  · exact .refl _ _

theorem footprint_probeAnswered (h : HeadNo) (bs : List Byte) : HasFootprint (.probeAnswered h bs) := by
  refine fun s => ⟨_, rfl, ?_⟩
  split
  · exact State.ite_keepsAllBut (State.KeepsAllBut.step (State.answered_keepsAllBut
      (fun u p hp => by cases p <;> simp [writesOf] at hp <;> simp [Part.same]) (by simp [writesOf]) (by simp [writesOf]))
      (State.judge_keepsAllBut _) (by simp [writesOf])) (.refl _ _)
  · exact .refl _ _

theorem footprint_unmatchedAnswer (h : HeadNo) (bs : List Byte) : HasFootprint (.unmatchedAnswer h bs) := by
  refine fun s => ⟨_, rfl, fun p hp => ?_⟩
  cases p <;> simp [writesOf] at hp <;> simp only [Part.same] <;> split <;> simp

/-! ### The settings unit -/

theorem footprint_storeWrite (e : Bool) (bs : List Byte) : HasFootprint (.storeWriteEnd e bs) ∧
    HasFootprint (.storeWriteTimeout bs) := by
  refine ⟨fun s => ⟨_, rfl, ?_⟩, fun s => ⟨_, rfl, ?_⟩⟩ <;> split
  · exact State.ite_keepsAllBut (s.endStore_keepsAllBut _ _ _) (.refl _ _)
  · exact .refl _ _
  · exact State.ite_keepsAllBut (s.endStore_keepsAllBut _ _ _) (.refl _ _)
  · exact .refl _ _

theorem footprint_restartAnswer : HasFootprint .restartAnswer := by
  refine fun s => ⟨_, rfl, fun p hp => ?_⟩
  cases p <;> simp [writesOf] at hp <;> simp only [Part.same, State.answerRestart] <;> split <;> simp

/-- Every command answers a next state, and writes no part outside its footprint. -/
theorem exec_keeps_footprint (c : Instr) : HasFootprint c := by
  cases c with
  | pinReset => exact footprint_pinReset
  | settingsLoadEnd a b => exact footprint_settingsLoadEnd a b
  | millisecondTick => exact footprint_ticks.1
  | secondTick => exact footprint_ticks.2
  | fillMarkReceived l b => exact footprint_fillMarkReceived l b
  | fillMarkGap g => exact footprint_onLink (fun _ => rfl) rfl
  | linkUp l => exact footprint_onLink (fun _ => rfl) rfl
  | linkDown l b => exact footprint_linkDown l b
  | messageReceived l bs => exact footprint_messageReceived l bs
  | messageAbandoned l k => exact footprint_onLink (fun _ => rfl) rfl
  | messageSent l => exact footprint_onLink (fun _ => rfl) rfl
  | lineFramingFault l => exact footprint_onLink (f := fun _ => Link.framingFault) (fun _ => rfl) rfl
  | identify l => exact footprint_identify l
  | readTime l => exact footprint_readTime l
  | readCounters l => exact footprint_readCounters l
  | enroll l => exact footprint_enroll l
  | withdraw l => exact footprint_withdraw l
  | downlinkWithdrawal e => exact (footprint_withdrawals e).1
  | craneWithdrawal e => exact (footprint_withdrawals e).2.1
  | reeferWithdrawal e => exact (footprint_withdrawals e).2.2
  | move l => exact footprint_move l
  | deliver l => exact footprint_deliver l
  | silenceExpiry e => exact footprint_silenceExpiry e
  | listUnknown l => exact footprint_listUnknown l
  | readTerminal l => exact footprint_readTerminal l
  | grant l => exact footprint_grant l
  | revoke l => exact footprint_revoke l
  | readEntry l => exact footprint_readEntry l
  | readCoverage l => exact footprint_readCoverage l
  | markCell l => exact footprint_markCell l
  | unmarkCell l => exact footprint_unmarkCell l
  | openBeam l => exact footprint_openBeam l
  | release l => exact footprint_release l
  | readBeams l => exact footprint_readBeams l
  | survey l => exact footprint_survey l
  | steerDone h bs => exact footprint_steerDone h bs
  | steerRefused h bs => exact footprint_steerRefused h bs
  | releaseAnswered h bs => exact footprint_releaseAnswered h bs
  | sweepResult h bs => exact footprint_sweepResult h bs
  | sweepRefused h bs => exact footprint_sweepRefused h bs
  | probeAnswered h bs => exact footprint_probeAnswered h bs
  | unmatchedAnswer h bs => exact footprint_unmatchedAnswer h bs
  | answerLimitExpiry h => exact footprint_answerLimitExpiry h
  | probeTime h => exact footprint_probeTime h
  | sweepRetryTime h => exact footprint_sweepRetryTime h
  | surveyDue h => exact footprint_surveyDue h
  | surveyOverdue h => exact footprint_surveyOverdue h
  | waitExpiry n => exact footprint_waitExpiry n
  | pauseRepeat => exact footprint_pauseRepeat
  | take l => exact footprint_take l
  | send l => exact footprint_send l
  | purgeQueue l => exact footprint_purgeQueue l
  | deadlineExpiry f => exact footprint_deadlineExpiry f
  | fetch l => exact footprint_fetch l
  | done l => exact footprint_done l
  | cut l => exact footprint_cut l
  | burstLimitExpiry b => exact footprint_burstLimitExpiry b
  | stallExpiry c => exact footprint_stallExpiry c
  | subscribe l => exact footprint_subscribe l
  | readCrane l => exact footprint_readCrane l
  | setInterest l => exact footprint_setInterest l
  | readRack l => exact footprint_readRack l
  | readAlarms l => exact footprint_readAlarms l
  | acknowledge l => exact footprint_acknowledge l
  | clearDose l => exact footprint_clearDose l
  | tune l => exact footprint_tune l
  | storeSettings l => exact footprint_storeSettings l
  | storeWriteEnd e bs => exact (footprint_storeWrite e bs).1
  | storeWriteTimeout bs => exact (footprint_storeWrite false bs).2
  | restart l => exact footprint_restart l
  | restartAnswer => exact footprint_restartAnswer

/-- What a command that has answered has left as it was. -/
theorem exec_next_keeps {c : Instr} {s t : State} (h : exec c s = .next t) : s.KeepsAllBut t (writesOf c) := by
  obtain ⟨u, hu, hkeeps⟩ := exec_keeps_footprint c s
  obtain rfl : u = t := by simpa [hu] using h
  exact hkeeps

theorem pending_not_written (c : Instr) : Part.pending ∉ writesOf c := by cases c <;> simp [writesOf]

theorem clock_written_only_by_ticks (c : Instr) (h : Part.clock ∈ writesOf c) :
    c = .millisecondTick ∨ c = .secondTick ∨ c = .pinReset := by
  cases c <;> simp [writesOf] at h <;> simp

/-- Settles O3: no footprint holds the waiting commands. -/
theorem everyCommandAnswersNext : Obligations.EveryCommandAnswersNext := by
  intro c s
  obtain ⟨t, ht, hkeeps⟩ := exec_keeps_footprint c s
  exact ⟨t, ht, hkeeps .pending (pending_not_written c)⟩

/-- Settles O5: the counts stand in one part of the state, which only the two ticks and a pin reset have in their footprint. -/
theorem onlyTicksMoveTheTimeCounts : Obligations.OnlyTicksMoveTheTimeCounts := by
  refine ⟨rfl, fun s => rfl, fun s h => ?at_second, fun s h => ?early, fun c s t hms hsec hreset h => ?others⟩
  case at_second => simp [exec, execSecondTick, h]
  case early => simp [exec, execSecondTick, Nat.not_le.mpr h]
  case others =>
    refine exec_next_keeps h .clock fun hclock => ?_
    rcases clock_written_only_by_ticks c hclock with rfl | rfl | rfl <;> contradiction

end Sys2Proof.Machine
end

section
/-! PROOFS. Which operations of the beam controller leave every beam's burst as it was: all but the end of a burst, the start of one,
the marks that a withdrawal or a link DOWN leaves on its frames, and the two resets. -/

namespace Sys2Proof.Machine

/-! ### Reading a beam after an update of the beam controller -/

@[simp] theorem State.beam_setHead (s : State) (h : HeadNo) (x : Head) (b : BeamNo) : (s.setHead h x).beam b = s.beam b := rfl
@[simp] theorem State.head_setBeam (s : State) (b : BeamNo) (x : Beam) (h : HeadNo) : (s.setBeam b x).head h = s.head h := rfl
@[simp] theorem State.beam_setWaitList (s : State) (w : List WaitEntry) (b : BeamNo) : (s.setWaitList w).beam b = s.beam b := rfl
@[simp] theorem State.head_setWaitList (s : State) (w : List WaitEntry) (h : HeadNo) : (s.setWaitList w).head h = s.head h := rfl
@[simp] theorem State.waitList_setWaitList (s : State) (w : List WaitEntry) : (s.setWaitList w).beamCtl.waitList = w := rfl
@[simp] theorem State.waitList_setHead (s : State) (h : HeadNo) (x : Head) :
    (s.setHead h x).beamCtl.waitList = s.beamCtl.waitList := rfl
@[simp] theorem State.waitList_setBeam (s : State) (b : BeamNo) (x : Beam) :
    (s.setBeam b x).beamCtl.waitList = s.beamCtl.waitList := rfl

/-- The burst in flight on a beam. -/
def State.burstAt (s : State) (b : BeamNo) : Option Burst := (s.beam b).burst

theorem State.burstAt_of_beamCtl {s t : State} (h : t.beamCtl = s.beamCtl) : t.burstAt = s.burstAt := by
  funext b
  rw [State.burstAt, State.burstAt, State.beam_of_beamCtl h]

theorem State.burstAt_setBeam (s : State) (b : BeamNo) (x : Beam) :
    (s.setBeam b x).burstAt = Function.update s.burstAt b x.burst := by
  funext c
  by_cases h : c = b
  · subst h; simp [State.burstAt]
  · simp [State.burstAt, State.beam_setBeam, h]

/-- A beam written with the burst it had. -/
theorem State.burstAt_setBeam_same {s : State} {b : BeamNo} {x : Beam} (h : x.burst = (s.beam b).burst) :
    (s.setBeam b x).burstAt = s.burstAt := by
  rw [State.burstAt_setBeam, h]
  exact Function.update_eq_self b s.burstAt

@[simp] theorem State.burstAt_setBeam_state (s : State) (b : BeamNo) (v : BeamState) :
    (s.setBeam b { s.beam b with state := v }).burstAt = s.burstAt := State.burstAt_setBeam_same rfl

@[simp] theorem State.burstAt_setHead (s : State) (h : HeadNo) (x : Head) : (s.setHead h x).burstAt = s.burstAt := rfl
@[simp] theorem State.burstAt_setWaitList (s : State) (w : List WaitEntry) : (s.setWaitList w).burstAt = s.burstAt := rfl
@[simp] theorem State.burstAt_bumpCov (s : State) (k : Fin 24) : (s.bumpCov k).burstAt = s.burstAt := rfl
@[simp] theorem State.burstAt_reply (s : State) (r : ReqRef) (st : Status) (b : ReplyBody) :
    (s.reply r st b).burstAt = s.burstAt := rfl
@[simp] theorem State.burstAt_answer (s : State) (r : ReqRef) (st : Status) : (s.answer r st).burstAt = s.burstAt := rfl
@[simp] theorem State.burstAt_judge (s : State) : s.judge.burstAt = s.burstAt := State.burstAt_of_beamCtl (by simp)
@[simp] theorem State.burstAt_raiseWhere (s : State) (p : LinkNo → Link → Bool) (n : Notice) :
    (s.raiseWhere p n).burstAt = s.burstAt := State.burstAt_of_beamCtl (by simp)
@[simp] theorem State.burstAt_rechoose (s : State) (gs : List SegNo) : (s.rechoose gs).burstAt = s.burstAt :=
  State.burstAt_of_beamCtl (by simp)
@[simp] theorem State.burstAt_setCell (s : State) (h : HeadNo) (g : SegNo) (c : Cell) : (s.setCell h g c).burstAt = s.burstAt := rfl

theorem foldl_burstAt {β : Type} {f : State → β → State} (h : ∀ s b, (f s b).burstAt = s.burstAt) (bs : List β) (s : State) :
    (bs.foldl f s).burstAt = s.burstAt := foldl_keeps State.burstAt f h bs s

@[simp] theorem State.burstAt_foldl_answer {β : Type} (f : β → ReqRef) (st : Status) (qs : List β) (s : State) :
    (qs.foldl (fun s q => State.answer s (f q) st) s).burstAt = s.burstAt := by
  have h : ∀ (u : State) (q : β), (u.answer (f q) st).burstAt = u.burstAt := fun _ _ => rfl
  exact foldl_burstAt h qs s

@[simp] theorem State.burstAt_bumpDown (s : State) (k : Fin 21) : (s.bumpDown k).burstAt = s.burstAt := rfl

/-! ### The operations of the beam controller -/

@[simp] theorem State.burstAt_sendNext (s : State) (h : HeadNo) : (s.sendNext h).burstAt = s.burstAt := by
  unfold State.sendNext
  dsimp only
  split
  · split <;> simp
  · rfl

@[simp] theorem State.burstAt_pushCmd (s : State) (h : HeadNo) (c : HeadCmd) : (s.pushCmd h c).burstAt = s.burstAt := by
  simp [State.pushCmd]

@[simp] theorem State.burstAt_endOutstanding (s : State) (h : HeadNo) : (s.endOutstanding h).burstAt = s.burstAt := by
  simp [State.endOutstanding]

@[simp] theorem State.burstAt_steer (s : State) (b : BeamNo) (r : OpenReq) (g : SegNo) (o : Bool) :
    (s.steer b r g o).burstAt = s.burstAt := by
  simp only [State.steer, State.burstAt_pushCmd]
  exact State.burstAt_setBeam_same rfl

@[simp] theorem State.burstAt_join (s : State) (b : BeamNo) (r : OpenReq) (g : SegNo) : (s.join b r g).burstAt = s.burstAt := by
  unfold State.join
  dsimp only
  split <;> exact State.burstAt_setBeam_same rfl

@[simp] theorem State.burstAt_joinWaiting (s : State) (b : BeamNo) (g : SegNo) : (s.joinWaiting b g).burstAt = s.burstAt := by
  unfold State.joinWaiting
  dsimp only
  have hjoin : ∀ (u : State) (e : WaitEntry), (u.join b e.req g).burstAt = u.burstAt := fun u e => u.burstAt_join b e.req g
  rw [foldl_burstAt hjoin, State.burstAt_setWaitList]

@[simp] theorem State.burstAt_serveIdle (s : State) (b : BeamNo) : (s.serveIdle b).burstAt = s.burstAt := by
  unfold State.serveIdle
  dsimp only
  (repeat' split) <;> simp

@[simp] theorem State.burstAt_serveOpen (s : State) (b : BeamNo) : (s.serveOpen b).burstAt = s.burstAt := by
  unfold State.serveOpen
  (repeat' split) <;> simp

@[simp] theorem State.burstAt_trySweep (s : State) (h : HeadNo) : (s.trySweep h).burstAt = s.burstAt := by
  unfold State.trySweep
  split
  · simp
  · rfl

@[simp] theorem State.burstAt_becameIdle (s : State) (b : BeamNo) : (s.becameIdle b).burstAt = s.burstAt := by
  simp [State.becameIdle]

@[simp] theorem State.burstAt_raiseLost (s : State) (b : BeamNo) (r : LossReason) : (s.raiseLost b r).burstAt = s.burstAt := by
  unfold State.raiseLost
  dsimp only
  split <;> simp

@[simp] theorem State.beam_raiseLost (s : State) (b : BeamNo) (r : LossReason) (c : BeamNo) : (s.raiseLost b r).beam c = s.beam c :=
  State.beam_of_beamCtl (by simp) c

@[simp] theorem State.burstAt_closeBeam (s : State) (b : BeamNo) (r : Option LossReason) : (s.closeBeam b r).burstAt = s.burstAt := by
  unfold State.closeBeam
  dsimp only
  split
  · rw [State.burstAt_becameIdle]
    exact State.burstAt_setBeam_same rfl
  · split
    · rw [State.burstAt_pushCmd]
      cases r with
      | none => exact State.burstAt_setBeam_same rfl
      | some v => exact (State.burstAt_setBeam_same (by simp [Beam.cleared])).trans (State.burstAt_raiseLost _ _ _)
    · rfl

@[simp] theorem State.burstAt_burstEnded (s : State) (b : BeamNo) (l : LinkNo) : (s.burstEnded b l).burstAt = s.burstAt := by
  unfold State.burstEnded
  dsimp only
  generalize hx : (if (s.beam b).releaseDeferred = true then _ else s.beam b) = x
  have hset : (s.setBeam b x).burstAt = s.burstAt := State.burstAt_setBeam_same (by subst hx; split <;> rfl)
  (repeat' split) <;> simpa using hset

@[simp] theorem State.burstAt_loseBeam (s : State) (b : BeamNo) (g : SegNo) (r : LossReason) :
    (s.loseBeam b g r).burstAt = s.burstAt := by
  unfold State.loseBeam
  dsimp only
  (repeat' split) <;> first | rfl | exact State.burstAt_closeBeam _ _ _ | exact State.burstAt_setBeam_same rfl

@[simp] theorem State.burstAt_cellLost (s : State) (h : HeadNo) (g : SegNo) (r : LossReason) :
    (s.cellLost h g r).burstAt = s.burstAt := by simp [State.cellLost]

@[simp] theorem State.burstAt_sample (s : State) (h : HeadNo) (g : SegNo) (m k : Nat) (c : Fin 24) :
    (s.sample h g m k c).burstAt = s.burstAt := by
  unfold State.sample
  dsimp only
  (repeat' split) <;> simp

@[simp] theorem State.burstAt_burstSample (s : State) (b : BeamNo) (g : Option SegNo) (x y : Nat) :
    (s.burstSample b g x y).burstAt = s.burstAt := by
  unfold State.burstSample
  (repeat' split) <;> simp

@[simp] theorem State.burstAt_raiseHeadState (s : State) (h : HeadNo) : (s.raiseHeadState h).burstAt = s.burstAt := by
  simp [State.raiseHeadState]

@[simp] theorem State.burstAt_markCell (s : State) (h : HeadNo) (g : SegNo) (c : Cell) : (s.markCell h g c).burstAt = s.burstAt := by
  unfold State.markCell
  dsimp only
  split <;> simp

@[simp] theorem State.burstAt_steerOrWait (s : State) (q : OpenReq) (g : SegNo) (o : Bool) :
    (s.steerOrWait q g o).burstAt = s.burstAt := by
  unfold State.steerOrWait
  (repeat' split) <;> simp

@[simp] theorem State.burstAt_leaveBeam (s : State) (b : BeamNo) (l : LinkNo) : (s.leaveBeam b l).burstAt = s.burstAt := by
  have hset : (s.setBeam b { s.beam b with
      holders := put (s.beam b).holders l false
      awaiting := (s.beam b).awaiting.filter (fun q => q.ref.link != l) }).burstAt = s.burstAt := State.burstAt_setBeam_same rfl
  unfold State.leaveBeam
  dsimp only
  split <;> simp [hset]

@[simp] theorem State.burstAt_setSurvey (s : State) (h : HeadNo) (v : SurveyStatus) : (s.setSurvey h v).burstAt = s.burstAt := rfl

@[simp] theorem State.burstAt_makeDue (s : State) (h : HeadNo) : (s.makeDue h).burstAt = s.burstAt := by simp [State.makeDue]

@[simp] theorem State.burstAt_answerOpened (s : State) (b : BeamNo) (g : SegNo) (qs : List OpenReq) :
    (s.answerOpened b g qs).burstAt = s.burstAt := by
  have h : ∀ (u : State) (q : OpenReq), (u.reply q.ref .ok (.opened b (headOf b) g)).burstAt = u.burstAt := fun _ _ => rfl
  exact foldl_burstAt h qs s

@[simp] theorem State.burstAt_steered (s : State) (b : BeamNo) : (s.steered b).burstAt = s.burstAt := by
  have hset : (s.setBeam b { s.beam b with state := .opened, awaiting := [] }).burstAt = s.burstAt := State.burstAt_setBeam_same rfl
  unfold State.steered
  dsimp only
  (repeat' split) <;> simp [hset]

@[simp] theorem State.burstAt_requeue (s : State) (ws : List WaitEntry) : (s.requeue ws).burstAt = s.burstAt := by
  have hlate : ∀ (u : State) (w : WaitEntry), (u.answer w.req.ref .noBeam).burstAt = u.burstAt := fun _ _ => rfl
  have hbeyond : ∀ (u : State) (w : WaitEntry), ((u.bumpCov 21).answer w.req.ref .noBeam).burstAt = u.burstAt := fun _ _ => rfl
  unfold State.requeue
  dsimp only
  rw [foldl_burstAt hbeyond, foldl_burstAt hlate, State.burstAt_setWaitList]

@[simp] theorem State.burstAt_steerRefused (s : State) (b : BeamNo) (g : SegNo) : (s.steerRefused b g).burstAt = s.burstAt := by
  unfold State.steerRefused
  dsimp only
  split
  · rw [State.burstAt_becameIdle, State.burstAt_requeue]
    refine (State.burstAt_setBeam_same ?_).trans ?_
    · rfl
    · simp
  · simp

@[simp] theorem State.burstAt_released (s : State) (b : BeamNo) (r : Bool) : (s.released b r).burstAt = s.burstAt := by
  have hidle : ∀ u : State, (if (u.beam b).state = .closing then
      (u.setBeam b { u.beam b with state := .idle, seg := none }).becameIdle b else u).burstAt = u.burstAt := by
    intro u
    split
    · rw [State.burstAt_becameIdle]
      exact State.burstAt_setBeam_same rfl
    · rfl
  unfold State.released
  dsimp only
  rw [hidle]
  split <;> simp

@[simp] theorem State.burstAt_sweepEntry (s : State) (h : HeadNo) (g : SegNo) (m : Option Nat) :
    (s.sweepEntry h g m).burstAt = s.burstAt := State.burstAt_of_beamCtl (by simp)

@[simp] theorem State.burstAt_applySweep (s : State) (h : HeadNo) (ms : List (Option Nat)) :
    (s.applySweep h ms).burstAt = s.burstAt := by
  have hlost : ∀ (u : State) (g : SegNo), (u.cellLost h g .retired).burstAt = u.burstAt := fun u g => u.burstAt_cellLost h g _
  have hentry : ∀ (u : State) (p : SegNo × Option Nat), (u.sweepEntry h p.1 p.2).burstAt = u.burstAt :=
    fun u p => u.burstAt_sweepEntry h p.1 p.2
  unfold State.applySweep
  dsimp only
  rw [foldl_burstAt hlost, State.burstAt_rechoose, foldl_burstAt hentry]

@[simp] theorem State.burstAt_swept (s : State) (h : HeadNo) (ms : List (Option Nat)) : (s.swept h ms).burstAt = s.burstAt := by
  unfold State.swept
  dsimp only
  simp

@[simp] theorem State.burstAt_recoverHead (s : State) (h : HeadNo) : (s.recoverHead h).burstAt = s.burstAt := by
  unfold State.recoverHead
  simp only [State.burstAt_bumpCov, State.burstAt_raiseHeadState, State.burstAt_rechoose, State.burstAt_setBeam_state,
    State.burstAt_setHead]

@[simp] theorem State.burstAt_probed (s : State) (h : HeadNo) : (s.probed h).burstAt = s.burstAt := by
  unfold State.probed
  split <;> simp

@[simp] theorem State.burstAt_overdueBeam (s : State) (b : BeamNo) : (s.overdueBeam b).burstAt = s.burstAt := by
  have hset : ∀ o : Option LossReason, (s.setBeam b { s.beam b with closePending := o }).burstAt = s.burstAt :=
    fun _ => State.burstAt_setBeam_same rfl
  unfold State.overdueBeam
  dsimp only
  split
  · split
    · rw [State.burstAt_closeBeam, hset]
    · exact hset _
  · exact hset _
  · rfl

@[simp] theorem State.burstAt_makeOverdue (s : State) (h : HeadNo) : (s.makeOverdue h).burstAt = s.burstAt := by
  simp [State.makeOverdue]

@[simp] theorem State.burstAt_expireWait (s : State) (w : WaitEntry) : (s.expireWait w).burstAt = s.burstAt := by
  simp [State.expireWait]

@[simp] theorem State.burstAt_closeIfEmpty (s : State) (b : BeamNo) : (s.closeIfEmpty b).burstAt = s.burstAt := by
  unfold State.closeIfEmpty
  dsimp only
  split <;> simp

theorem State.burstAt_answered {s : State} {h : HeadNo} {o : Outstanding} {f : State → State}
    (hf : ∀ u : State, (f u).burstAt = u.burstAt) : (s.answered h o f).burstAt = s.burstAt := by
  unfold State.answered
  dsimp only
  split <;> simp [hf]

@[simp] theorem State.burstAt_firstSweeps (s : State) : s.firstSweeps.burstAt = s.burstAt :=
  foldl_burstAt (fun u h => u.burstAt_trySweep h) _ _

/-! ### Operations after which a beam may have lost its burst -/

/-- Every burst is as it was or gone. -/
def State.BurstsFade (s t : State) : Prop := ∀ b : BeamNo, t.burstAt b = s.burstAt b ∨ t.burstAt b = none

theorem State.BurstsFade.of_eq {s t : State} (h : t.burstAt = s.burstAt) : s.BurstsFade t := fun b => .inl (congrFun h b)

theorem State.BurstsFade.refl (s : State) : s.BurstsFade s := .of_eq rfl

theorem State.BurstsFade.trans {s t u : State} (h : s.BurstsFade t) (g : t.BurstsFade u) : s.BurstsFade u := by
  intro b
  rcases g b with hg | hg
  · rw [hg]
    exact h b
  · exact .inr hg

theorem State.BurstsFade.then_eq {s t u : State} (h : s.BurstsFade t) (g : u.burstAt = t.burstAt) : s.BurstsFade u :=
  h.trans (.of_eq g)

theorem State.BurstsFade.foldl {β : Type} {f : State → β → State} (h : ∀ (s : State) (b : β), s.BurstsFade (f s b)) (bs : List β)
    (s : State) : s.BurstsFade (bs.foldl f s) := by
  induction bs generalizing s with
  | nil => exact .refl s
  | cons b bs ih => exact (h s b).trans (ih _)

theorem State.BurstsFade.ite {s t u : State} {c : Prop} [Decidable c] (ht : s.BurstsFade t) (hu : s.BurstsFade u) :
    s.BurstsFade (if c then t else u) := by
  split
  · exact ht
  · exact hu

@[simp] theorem State.burstAt_noteSettled (s : State) (p : Frame × Settled) : (s.noteSettled p).burstAt = s.burstAt :=
  State.burstAt_of_beamCtl (by simp)

/-- A settled burst is gone, and no other beam's is touched (R119). -/
theorem State.burstAt_settleBurst (s : State) (b : BeamNo) (u : Burst) (o : Nat → FrameOutcome) :
    (s.settleBurst b u o).burstAt = Function.update s.burstAt b none := by
  unfold State.settleBurst
  dsimp only
  refine (State.burstAt_of_beamCtl (State.reportFronts_frame _ _).2.2.2.2.2.2.1).trans ?_
  refine Eq.trans ?_ (State.burstAt_setBeam s b { s.beam b with burst := none })
  exact foldl_burstAt (fun u p => u.burstAt_noteSettled p) _ _

theorem State.BurstsFade.of_update {s t : State} {b : BeamNo} (h : t.burstAt = Function.update s.burstAt b none) :
    s.BurstsFade t := by
  intro c
  rw [h, Function.update_apply]
  split
  · exact .inr rfl
  · exact .inl rfl

theorem State.settleBurst_fades (s : State) (b : BeamNo) (u : Burst) (o : Nat → FrameOutcome) : s.BurstsFade (s.settleBurst b u o) :=
  .of_update (s.burstAt_settleBurst b u o)

@[simp] theorem State.burstAt_endBurst (s : State) (b : BeamNo) (u : Burst) (o : Nat → FrameOutcome) :
    (s.endBurst b u o).burstAt = Function.update s.burstAt b none :=
  (State.burstAt_burstEnded _ _ _).trans (s.burstAt_settleBurst b u o)

@[simp] theorem State.burstAt_forcedReturn (s : State) (b : BeamNo) (u : Burst) :
    (s.forcedReturn b u).burstAt = Function.update s.burstAt b none := s.burstAt_settleBurst b u _

/-- A beam of a faulty head loses its burst (R85). -/
theorem State.burstAt_beamFault (s : State) (b : BeamNo) : (s.beamFault b).burstAt = Function.update s.burstAt b none := by
  have hlost : (if (s.beam b).state = .opened then s.raiseLost b .headFault else s).burstAt = s.burstAt := by split <;> simp
  unfold State.beamFault
  dsimp only
  cases hb : (s.beam b).burst with
  | none =>
    split <;> simp [State.burstAt_setBeam, hlost]
  | some u =>
    split <;> simp [State.burstAt_setBeam, hlost]

theorem State.headFault_fades (s : State) (h : HeadNo) : s.BurstsFade (s.headFault h) := by
  unfold State.headFault
  dsimp only
  refine State.BurstsFade.then_eq (t := (State.beamFault (State.beamFault (s.setHead h { s.head h with
    state := .fault, outstanding := none, queue := [], retryAt := none, restartProbe := false,
    probeAt := some (s.now + 1000) }) (beamOf h .a)) (beamOf h .b))) ?_ (by simp)
  exact (State.BurstsFade.of_update (State.burstAt_beamFault (s.setHead h _) _)).trans
    (.of_update (State.burstAt_beamFault _ _))

theorem State.answerRunsOut_fades (s : State) (h : HeadNo) : s.BurstsFade (s.answerRunsOut h) :=
  .ite (.of_eq (by simp)) (s.headFault_fades h)

theorem State.reportBurst_fades (s : State) (b : BeamNo) (u : Burst) (o : Nat → FrameOutcome) (k : Fin 21) :
    s.BurstsFade (s.reportBurst b u o k) := by
  unfold State.reportBurst
  dsimp only
  exact .of_update (b := b) (by simp)

theorem State.expireBurst_fades (s : State) (b : BeamNo) : s.BurstsFade (s.expireBurst b) := by
  unfold State.expireBurst
  split
  · exact .refl s
  · exact .of_update (s.burstAt_endBurst b _ _)

theorem State.returnOwned_fades (s : State) (b : BeamNo) (l : LinkNo) : s.BurstsFade (s.returnOwned b l) := by
  unfold State.returnOwned
  split
  · exact .refl s
  · exact .ite (.of_update (b := b) (by simp)) (.refl s)

end Sys2Proof.Machine
end

section
/-! PROOFS. What a command makes of the bursts in flight: none but FETCH puts one in flight, and none but FETCH, a withdrawal, a link
DOWN, the end of the settings load and a pin reset changes one otherwise than by ending it. -/

namespace Sys2Proof.Machine

/-- A command makes no burst and changes none, though it may end some. -/
def EndsBurstsOnly (c : Instr) : Prop := ∀ s t : State, exec c s = .next t → s.BurstsFade t

theorem EndsBurstsOnly.of_exec {c : Instr} {f : State → State} (hexec : ∀ s, exec c s = .next (f s))
    (hf : ∀ s : State, s.BurstsFade (f s)) : EndsBurstsOnly c := by
  intro s t h
  obtain rfl : f s = t := by simpa [hexec] using h
  exact hf s

/-- A command that does not write the beam controller at all. -/
theorem EndsBurstsOnly.of_writes {c : Instr} (h : Part.beamCtl ∉ writesOf c) : EndsBurstsOnly c :=
  fun _ _ hexec => .of_eq (State.burstAt_of_beamCtl (exec_next_keeps hexec .beamCtl h))

theorem State.taking_fades {s : State} {c : ReqCode} {l : LinkNo} {f : State → Request → State}
    (hf : ∀ (u : State) (r : Request), u.BurstsFade (f u r)) : s.BurstsFade (s.taking c l f) := by
  unfold State.taking
  split
  · exact .refl s
  · split
    · exact (State.BurstsFade.of_eq rfl : s.BurstsFade { s with handed := s.handed.erase _ }).trans (hf _ _)
    · exact .refl s

theorem EndsBurstsOnly.of_serve {code : ReqCode} {l : LinkNo} {serve : State → Request → State}
    (hexec : ∀ s, exec (code.command l) s = .next (s.taking code l serve))
    (hserve : ∀ (s : State) (r : Request), s.BurstsFade (serve s r)) : EndsBurstsOnly (code.command l) :=
  .of_exec hexec fun _ => State.taking_fades hserve

theorem State.reading_fades {α : Type} {s : State} {r : Request} {o : Option α} {f : α → State}
    (hf : ∀ v, o = some v → s.BurstsFade (f v)) : s.BurstsFade (s.reading r o f) := by
  unfold State.reading
  split
  · exact .of_eq rfl
  · exact hf _ rfl

/-! ### Requests -/

theorem serveMarkCell_fades (s : State) (r : Request) : s.BurstsFade (serveMarkCell s r) := by
  refine State.reading_fades fun q _ => .of_eq ?_
  split
  · rfl
  · dsimp only
    split <;> simp

theorem serveOpenBeam_fades (s : State) (r : Request) : s.BurstsFade (serveOpenBeam s r) := by
  refine State.reading_fades fun q _ => .of_eq ?_
  dsimp only
  (repeat' split) <;> simp

theorem serveRelease_fades (s : State) (r : Request) : s.BurstsFade (serveRelease s r) := by
  refine State.reading_fades fun b _ => .of_eq ?_
  dsimp only
  split
  · rfl
  · rw [State.burstAt_answer]
    split
    · exact State.burstAt_setBeam_same rfl
    · simp

theorem serveSurvey_fades (s : State) (r : Request) : s.BurstsFade (serveSurvey s r) := by
  refine State.reading_fades fun h _ => .of_eq ?_
  dsimp only
  (repeat' split) <;> simp

theorem State.burstReport_fades (s : State) (r : Request) (b : BeamNo) (n : Byte) (o : Nat → FrameOutcome) (k : Fin 21) :
    s.BurstsFade (s.burstReport r b n o k) := by
  unfold State.burstReport
  split
  · exact .of_eq rfl
  · exact .ite (.of_eq rfl) (.ite (.of_eq rfl) ((s.reportBurst_fades _ _ _ _).then_eq rfl))

theorem serveDone_fades (s : State) (r : Request) : s.BurstsFade (serveDone s r) :=
  State.reading_fades fun _ _ => s.burstReport_fades _ _ _ _ _

theorem serveCut_fades (s : State) (r : Request) : s.BurstsFade (serveCut s r) :=
  State.reading_fades fun _ _ => s.burstReport_fades _ _ _ _ _

@[simp] theorem State.burstAt_goSilent (s : State) (e : EntryNo) : (s.goSilent e).burstAt = s.burstAt :=
  State.burstAt_of_beamCtl (by simp)

@[simp] theorem State.burstAt_expireWatch (s : State) (c : CraneNo) : (s.expireWatch c).burstAt = s.burstAt :=
  State.burstAt_of_beamCtl (by simp)

@[simp] theorem State.burstAt_bumpSet (s : State) (k : Fin 11) : (s.bumpSet k).burstAt = s.burstAt := rfl

theorem State.recheckAnswers_fades (s : State) (w : Bool) : s.BurstsFade (s.recheckAnswers w) := by
  unfold State.recheckAnswers
  exact State.BurstsFade.foldl (fun u h => .ite (u.answerRunsOut_fades h) (.refl u)) _ _

theorem State.recheckSurveys_fades (s : State) : s.BurstsFade s.recheckSurveys := by
  unfold State.recheckSurveys
  exact State.BurstsFade.foldl (fun u h => .ite (.of_eq (u.burstAt_makeOverdue h))
    (.ite (.of_eq (u.burstAt_makeDue h)) (.refl u))) _ _

theorem State.recheckBursts_fades (s : State) : s.BurstsFade s.recheckBursts := by
  unfold State.recheckBursts
  exact State.BurstsFade.foldl (fun u b => .ite (u.expireBurst_fades b) (.refl u)) _ _

theorem State.recheckWaits_fades (s : State) : s.BurstsFade s.recheckWaits := by
  unfold State.recheckWaits
  exact State.BurstsFade.foldl (fun u w => .of_eq (u.burstAt_expireWait w)) _ _

theorem State.afterTune_fades (s : State) (i : Fin 19) : s.BurstsFade (s.afterTune i) := by
  have htold : ∀ k, s.BurstsFade (s.recheckSilence k) := fun k => by
    unfold State.recheckSilence
    exact State.BurstsFade.foldl (fun u e => .ite (.of_eq (u.burstAt_goSilent e)) (.refl u)) _ _
  have hstalls : s.BurstsFade s.recheckStalls := by
    unfold State.recheckStalls
    exact State.BurstsFade.foldl (fun u c => .ite (.of_eq (u.burstAt_expireWatch c)) (.refl u)) _ _
  unfold State.afterTune
  split
  · exact s.recheckAnswers_fades false
  · exact s.recheckAnswers_fades true
  · exact s.recheckSurveys_fades
  · exact s.recheckWaits_fades
  · exact s.recheckBursts_fades
  · exact htold .crane
  · exact hstalls
  · exact htold .rack
  · exact .refl s

theorem State.tunePair_fades (s : State) (i : Fin 19) (v : Nat) : s.BurstsFade (s.tunePair i v) := by
  unfold State.tunePair
  dsimp only
  refine State.BurstsFade.trans ?_ (.of_eq (State.burstAt_judge _))
  refine State.BurstsFade.trans ?_ (.ite (State.afterTune_fades _ i) (.refl _))
  refine .of_eq ?_
  split <;> rfl

theorem serveTune_fades (s : State) (r : Request) : s.BurstsFade (serveTune s r) := by
  unfold serveTune
  refine State.reading_fades fun ps _ => ?_
  have hpair : ∀ (u : State) (p : Fin 19 × Nat), u.BurstsFade (u.tunePair p.1 p.2) := fun u p => u.tunePair_fades p.1 p.2
  have hpairs := State.BurstsFade.foldl hpair ps s
  refine hpairs.then_eq ?_
  dsimp only
  rw [State.burstAt_reply, State.burstAt_bumpSet]

/-- A warm restart clears every burst (R126). -/
theorem State.burstAt_restartUnits (s : State) (r : ReqRef) : (s.restartUnits r).burstAt = fun _ => none := by
  have hreefer : ∀ u : State, u.restartReefer.judge.burstAt = u.burstAt := fun u => by
    rw [State.burstAt_judge]
    exact State.burstAt_of_beamCtl (by simp)
  have hdown : ∀ u : State, u.restartDownlink.burstAt = fun _ => none := by
    intro u
    funext b
    simp [State.burstAt, State.beam, State.restartDownlink, look]
  have hcranes : ∀ u : State, u.restartCranes.burstAt = u.burstAt := fun _ => rfl
  have hpool : ∀ u : State, u.restartPool.burstAt = u.burstAt := fun _ => rfl
  unfold State.restartUnits
  dsimp only
  rw [hreefer, hcranes, hpool, hdown]

theorem serveRestart_fades (s : State) (r : Request) : s.BurstsFade (serveRestart s r) :=
  State.reading_fades fun _ _ => .ite (.of_eq rfl) fun b => .inr (congrFun (State.burstAt_restartUnits _ _) b)

/-! ### Events of heads, beams and the wait list -/

theorem endsBurstsOnly_steerDone (h : HeadNo) (bs : List Byte) : EndsBurstsOnly (.steerDone h bs) := by
  refine .of_exec (fun _ => rfl) fun s => .of_eq ?_
  split
  · split
    · exact State.burstAt_answered fun v => by simp
    · rfl
  · rfl

theorem endsBurstsOnly_steerRefused (h : HeadNo) (bs : List Byte) : EndsBurstsOnly (.steerRefused h bs) := by
  refine .of_exec (fun _ => rfl) fun s => .of_eq ?_
  split
  · split
    · rw [State.burstAt_judge]
      exact State.burstAt_answered fun v => by simp
    · rfl
  · rfl

theorem endsBurstsOnly_releaseAnswered (h : HeadNo) (bs : List Byte) : EndsBurstsOnly (.releaseAnswered h bs) := by
  refine .of_exec (fun _ => rfl) fun s => .of_eq ?_
  split
  · split
    · exact State.burstAt_answered fun v => by simp
    · rfl
  · rfl

theorem endsBurstsOnly_sweepResult (h : HeadNo) (bs : List Byte) : EndsBurstsOnly (.sweepResult h bs) := by
  refine .of_exec (fun _ => rfl) fun s => .of_eq ?_
  split
  · rw [State.burstAt_judge]
    exact State.burstAt_answered fun v => by simp
  · rfl

theorem endsBurstsOnly_sweepRefused (h : HeadNo) (bs : List Byte) : EndsBurstsOnly (.sweepRefused h bs) := by
  refine .of_exec (fun _ => rfl) fun s => .of_eq ?_
  split
  · split
    · exact State.burstAt_answered fun v => by simp
    · rfl
  · rfl

theorem endsBurstsOnly_probeAnswered (h : HeadNo) (bs : List Byte) : EndsBurstsOnly (.probeAnswered h bs) := by
  refine .of_exec (fun _ => rfl) fun s => .of_eq ?_
  split
  · split
    · rw [State.burstAt_judge]
      exact State.burstAt_answered fun v => by simp
    · rfl
  · rfl

theorem endsBurstsOnly_answerLimitExpiry (h : HeadNo) : EndsBurstsOnly (.answerLimitExpiry h) :=
  .of_exec (fun _ => rfl) fun s => .ite ((s.answerRunsOut_fades h).then_eq (State.burstAt_judge _)) (.refl s)

theorem endsBurstsOnly_probeTime (h : HeadNo) : EndsBurstsOnly (.probeTime h) := by
  refine .of_exec (fun _ => rfl) fun s => .of_eq ?_
  (repeat' split) <;> simp

theorem endsBurstsOnly_sweepRetryTime (h : HeadNo) : EndsBurstsOnly (.sweepRetryTime h) := by
  refine .of_exec (fun _ => rfl) fun s => .of_eq ?_
  (repeat' split) <;> simp

theorem endsBurstsOnly_surveyDue (h : HeadNo) : EndsBurstsOnly (.surveyDue h) :=
  .of_exec (fun _ => rfl) fun s => .ite (.of_eq (by simp)) (.refl s)

theorem endsBurstsOnly_surveyOverdue (h : HeadNo) : EndsBurstsOnly (.surveyOverdue h) :=
  .of_exec (fun _ => rfl) fun s => .ite (.of_eq (by simp)) (.refl s)

theorem endsBurstsOnly_waitExpiry (n : Fin 16) : EndsBurstsOnly (.waitExpiry n) := by
  refine .of_exec (fun _ => rfl) fun s => .of_eq ?_
  (repeat' split) <;> simp

theorem endsBurstsOnly_burstLimitExpiry (b : BeamNo) : EndsBurstsOnly (.burstLimitExpiry b) :=
  .of_exec (fun _ => rfl) fun s => .ite ((s.expireBurst_fades b).then_eq (State.burstAt_judge _)) (.refl s)

/-- The commands that make or mark bursts, or set every unit up afresh. -/
def makesBursts : Instr → Bool
  | .fetch _ | .downlinkWithdrawal _ | .linkDown _ _ | .settingsLoadEnd _ _ | .pinReset => true
  | _ => false

/-- Every other command leaves each burst as it was, or ends it. -/
theorem exec_ends_bursts_only (c : Instr) (hno : makesBursts c = false) : EndsBurstsOnly c := by
  by_cases hwrites : Part.beamCtl ∈ writesOf c
  case neg => exact .of_writes hwrites
  cases c with
  | fetch l => exact nomatch hno
  | downlinkWithdrawal e => exact nomatch hno
  | linkDown l b => exact nomatch hno
  | settingsLoadEnd a b => exact nomatch hno
  | pinReset => exact nomatch hno
  | markCell l => exact .of_serve (code := .markCell) (fun _ => rfl) serveMarkCell_fades
  | openBeam l => exact .of_serve (code := .openBeam) (fun _ => rfl) serveOpenBeam_fades
  | release l => exact .of_serve (code := .release) (fun _ => rfl) serveRelease_fades
  | survey l => exact .of_serve (code := .survey) (fun _ => rfl) serveSurvey_fades
  | done l => exact .of_serve (code := .done) (fun _ => rfl) serveDone_fades
  | cut l => exact .of_serve (code := .cut) (fun _ => rfl) serveCut_fades
  | tune l => exact .of_serve (code := .tune) (fun _ => rfl) serveTune_fades
  | restart l => exact .of_serve (code := .restart) (fun _ => rfl) serveRestart_fades
  | steerDone h bs => exact endsBurstsOnly_steerDone h bs
  | steerRefused h bs => exact endsBurstsOnly_steerRefused h bs
  | releaseAnswered h bs => exact endsBurstsOnly_releaseAnswered h bs
  | sweepResult h bs => exact endsBurstsOnly_sweepResult h bs
  | sweepRefused h bs => exact endsBurstsOnly_sweepRefused h bs
  | probeAnswered h bs => exact endsBurstsOnly_probeAnswered h bs
  | answerLimitExpiry h => exact endsBurstsOnly_answerLimitExpiry h
  | probeTime h => exact endsBurstsOnly_probeTime h
  | sweepRetryTime h => exact endsBurstsOnly_sweepRetryTime h
  | surveyDue h => exact endsBurstsOnly_surveyDue h
  | surveyOverdue h => exact endsBurstsOnly_surveyOverdue h
  | waitExpiry n => exact endsBurstsOnly_waitExpiry n
  | burstLimitExpiry b => exact endsBurstsOnly_burstLimitExpiry b
  | _ => simp [writesOf] at hwrites

end Sys2Proof.Machine
end

section
/-! PROOFS. At most one SAFETY frame of a terminal in flight (R117): how many there are on each beam, what an assembled burst adds, and
what every command makes of their number. -/

namespace Sys2Proof.Machine

/-! ### Frames in flight, beam by beam -/

theorem Vector.toList_eq_map_look {α : Type} {n : Nat} (v : Vector α n) : v.toList = (List.finRange n).map (look v) := by
  apply List.ext_getElem
  · simp
  · intro i h1 h2
    simp [look]

theorem State.inFlight_eq (s : State) : s.inFlight = allBeams.flatMap (fun b => (s.beam b).frames) := by
  rw [State.inFlight, Vector.toList_eq_map_look, List.flatMap_map]
  rfl

theorem State.mem_inFlight {s : State} {f : Frame} : f ∈ s.inFlight ↔ ∃ b : BeamNo, f ∈ (s.beam b).frames := by
  simp [State.inFlight_eq, allBeams]

/-- The frames of the burst in flight on a beam. -/
def burstFrames (o : Option Burst) : List Frame := (o.map Burst.frames).getD []

theorem State.frames_beam (s : State) (b : BeamNo) : (s.beam b).frames = burstFrames (s.burstAt b) := by
  unfold Beam.frames burstFrames State.burstAt
  cases (s.beam b).burst <;> rfl

/-- A SAFETY frame of the terminal that is not orphaned. -/
def Frame.isSafetyOf (f : Frame) (e : EntryNo) : Bool := f.terminal == e && !f.orphaned && f.cls == .safety

/-- How many SAFETY frames of a terminal a beam's burst carries, orphans apart. -/
def State.safetyOn (s : State) (e : EntryNo) (b : BeamNo) : Nat :=
  ((burstFrames (s.burstAt b)).filter (fun f => f.isSafetyOf e)).length

theorem State.safety_in_flight_eq (s : State) (e : EntryNo) :
    ((s.inFlightOf e).filter (fun f => f.cls == .safety)).length = (allBeams.map (s.safetyOn e)).sum := by
  simp only [State.inFlightOf, State.inFlight_eq, List.filter_filter, List.filter_flatMap, List.length_flatMap, State.frames_beam]
  refine congrArg List.sum (List.map_congr_left fun b _ => ?_)
  simp only [State.safetyOn, Frame.isSafetyOf, Bool.and_comm]

theorem State.oneSafety_iff (s : State) : s.oneSafety ↔ ∀ e, (allBeams.map (s.safetyOn e)).sum ≤ 1 := by
  simp only [State.oneSafety, State.safety_in_flight_eq]

theorem State.safetyInFlight_iff (s : State) (e : EntryNo) :
    s.safetyInFlight e = true ↔ 0 < (allBeams.map (s.safetyOn e)).sum := by
  rw [← State.safety_in_flight_eq, List.length_pos_iff_exists_mem, State.safetyInFlight, List.any_eq_true]
  simp

/-- A change after which no beam carries more SAFETY frames of a terminal keeps the bound. -/
theorem State.oneSafety_of_le {s t : State} (h : ∀ e b, t.safetyOn e b ≤ s.safetyOn e b) (hs : s.oneSafety) : t.oneSafety := by
  rw [State.oneSafety_iff] at hs ⊢
  exact fun e => (List.sum_le_sum fun b _ => h e b).trans (hs e)

theorem State.safetyOn_le_of_fades {s t : State} (h : s.BurstsFade t) (e : EntryNo) (b : BeamNo) :
    t.safetyOn e b ≤ s.safetyOn e b := by
  unfold State.safetyOn
  rcases h b with hb | hb
  · rw [hb]
  · simp [hb, burstFrames]

/-! ### Frames that are marked in their burst -/

/-- Frames of a burst that are changed one by one, none of them into a SAFETY frame of a terminal. -/
theorem State.safetyOn_le_of_map {s t : State} {b : BeamNo} {g : Frame → Frame}
    (hg : ∀ f e, (g f).isSafetyOf e = true → f.isSafetyOf e = true)
    (h : t.burstAt b = (s.burstAt b).map (fun u => { u with frames := u.frames.map g })) (e : EntryNo) :
    t.safetyOn e b ≤ s.safetyOn e b := by
  unfold State.safetyOn
  rw [h]
  cases s.burstAt b with
  | none => simp [burstFrames]
  | some u =>
    simp only [burstFrames, Option.map_some, Option.getD_some, List.filter_map, List.length_map]
    exact (List.monotone_filter_right _ fun f hf => hg f e hf).length_le

theorem Frame.isSafetyOf_of_orphaned {f : Frame} {e i : EntryNo}
    (h : (if f.terminal = i then { f with orphaned := true } else f).isSafetyOf e = true) : f.isSafetyOf e = true := by
  split at h
  · simp [Frame.isSafetyOf] at h
  · exact h

theorem Frame.isSafetyOf_of_forget {f : Frame} {e : EntryNo} {l : LinkNo} (h : (f.forget l).isSafetyOf e = true) :
    f.isSafetyOf e = true := by
  unfold Frame.forget at h
  split at h <;> exact h

theorem State.beam_map_beams (s : State) (f : Beam → Beam) (b : BeamNo) :
    ({ s with beamCtl := { s.beamCtl with beams := s.beamCtl.beams.map f } } : State).beam b = f (s.beam b) := by
  simp [State.beam, look]

theorem State.burstAt_discardTerminal (s : State) (e : EntryNo) (b : BeamNo) :
    (s.discardTerminal e).burstAt b = (s.burstAt b).map (fun u =>
      { u with frames := u.frames.map (fun f => if f.terminal = e then { f with orphaned := true } else f) }) := by
  unfold State.discardTerminal State.burstAt
  dsimp only
  rw [State.beam_map_beams, State.beam_of_beamCtl (s := s) (by simp)]
  rfl

theorem State.burstAt_forgetOrigin (s : State) (l : LinkNo) (b : BeamNo) :
    (s.forgetOrigin l).burstAt b = (s.burstAt b).map (fun u => { u with frames := u.frames.map (fun f => f.forget l) }) := by
  unfold State.forgetOrigin State.burstAt
  dsimp only
  rw [State.beam_map_beams]
  rfl

/-- What the beams do for a link that goes DOWN, once its frames have lost their originator, ends bursts alone. -/
theorem State.downBeams_fades (s : State) (l : LinkNo) : (s.forgetOrigin l).BurstsFade (s.downBeams l) := by
  have hreturn : ∀ (u : State) (b : BeamNo), u.BurstsFade (u.returnOwned b l) := fun u b => u.returnOwned_fades b l
  have hclose : ∀ (u : State) (b : BeamNo), u.BurstsFade (u.closeIfEmpty b) := fun u b => .of_eq (u.burstAt_closeIfEmpty b)
  have hwithout : ∀ u : State, u.BurstsFade { u with beamCtl := { u.beamCtl with
      beams := u.beamCtl.beams.map (fun x => x.without l) } } := by
    refine fun u => .of_eq (funext fun b => ?_)
    rw [State.burstAt, State.beam_map_beams]
    rfl
  unfold State.downBeams
  dsimp only
  refine State.BurstsFade.trans ?_ (State.BurstsFade.foldl hclose _ _)
  refine State.BurstsFade.trans ?_ (State.BurstsFade.foldl hreturn _ _)
  exact (State.BurstsFade.of_eq ((s.forgetOrigin l).burstAt_setWaitList _)).trans (hwithout _)

/-! ### What an assembled burst carries -/

theorem moveOut_fst_sublist (fs w : List Frame) : (moveOut fs w).1.Sublist fs := by
  induction fs generalizing w with
  | nil => exact .slnil
  | cons f fs ih =>
    unfold moveOut
    split
    · exact (ih _).cons_cons f
    · exact (ih _).cons f

theorem mem_of_takeEarliest {now : Time} {qs qs' : List (List Frame)} {f : Frame} (h : takeEarliest now qs = some (f, qs')) :
    (∃ q ∈ qs, f ∈ q) ∧ ∀ q' ∈ qs', ∃ q ∈ qs, ∀ g ∈ q', g ∈ q := by
  rcases takeEarliest_spec now qs with ⟨hnone, -⟩ | ⟨before, after, f', q, rfl, hsome, -, -⟩
  · rw [hnone] at h
    cases h
  · rw [hsome] at h
    cases h
    refine ⟨⟨f :: q, by simp, by simp⟩, fun q' hq' => ?_⟩
    rcases List.mem_append.mp hq' with hq' | hq'
    · exact ⟨q', by simp [hq'], fun _ => id⟩
    · rcases List.mem_cons.mp hq' with rfl | hq'
      · exact ⟨f :: q', by simp, fun g hg => by simp [hg]⟩
      · exact ⟨q', by simp [hq'], fun _ => id⟩

/-- Step 2 of R117 places frames of its queues alone. -/
theorem mem_of_mergeByDeadline {now : Time} {n : Nat} {qs : List (List Frame)} {f : Frame} (h : f ∈ mergeByDeadline now n qs) :
    ∃ q ∈ qs, f ∈ q := by
  induction n generalizing qs with
  | zero => cases h
  | succ n ih =>
    unfold mergeByDeadline at h
    split at h
    · cases h
    · rename_i g qs' htake
      obtain ⟨hg, hrest⟩ := mem_of_takeEarliest htake
      rcases List.mem_cons.mp h with rfl | h
      · exact hg
      · obtain ⟨q', hq', hf⟩ := ih h
        obtain ⟨q, hq, hsub⟩ := hrest q' hq'
        exact ⟨q, hq, hsub f hf⟩

/-- Step 3 of R117 places frames of its queues alone. -/
theorem mem_of_rounds {n : Nat} {qs : List (List Frame)} {f : Frame} (h : f ∈ rounds n qs) : ∃ q ∈ qs, f ∈ q := by
  rw [rounds_eq] at h
  simp only [List.mem_flatMap, List.mem_filterMap] at h
  obtain ⟨i, -, q, hq, hf⟩ := h
  exact ⟨q, hq, List.mem_of_getElem? hf⟩

theorem mem_queueOf {w : List Frame} {e : EntryNo} {c : FrameClass} {f : Frame} :
    f ∈ queueOf w e c ↔ f ∈ w ∧ f.terminal = e ∧ f.cls = c := by
  simp [queueOf]

theorem rotationFrom_nodup (p : EntryNo) : (rotationFrom p).Nodup := by
  refine List.nodup_append.mpr ⟨(List.nodup_finRange 256).filter _, (List.nodup_finRange 256).filter _, ?_⟩
  intro a ha b hb
  simp only [List.mem_filter, decide_eq_true_eq] at ha hb
  rintro rfl
  exact absurd ha.2 (not_lt.mpr hb.2)

theorem State.candidates_nodup (s : State) (p : EntryNo) (g : SegNo) : (s.candidates p g).Nodup :=
  (rotationFrom_nodup p).filter _

/-- Of distinct terminals that each give a SAFETY front, one frame at most is a given terminal's. -/
theorem safety_fronts_le_one (w : List Frame) (ts : List EntryNo) (hts : ts.Nodup) (e : EntryNo) :
    ((ts.filterMap (fun i => (queueOf w i .safety).head?)).filter (fun f => f.isSafetyOf e)).length ≤ if e ∈ ts then 1 else 0 := by
  induction ts with
  | nil => simp
  | cons i ts ih =>
    obtain ⟨hi, hts⟩ := List.nodup_cons.mp hts
    have ih := ih hts
    cases hq : (queueOf w i .safety).head? with
    | none =>
      rw [List.filterMap_cons_none (f := fun i => (queueOf w i .safety).head?) hq]
      refine ih.trans ?_
      simp only [List.mem_cons]
      split <;> split <;> simp_all
    | some f =>
      have hf : f.terminal = i := (mem_queueOf.mp (List.mem_of_mem_head? hq)).2.1
      rw [List.filterMap_cons_some (f := fun i => (queueOf w i .safety).head?) hq, List.filter_cons]
      by_cases hei : e = i
      · subst hei
        rw [if_neg hi] at ih
        rw [if_pos List.mem_cons_self]
        split
        · exact Nat.succ_le_succ ih
        · exact ih.trans (Nat.zero_le _)
      · have hno : f.isSafetyOf e = false := by
          simp only [Frame.isSafetyOf, hf]
          simp [Ne.symm hei]
        simp only [hno, List.mem_cons, hei, false_or]
        exact ih

/-- The order of R117 holds at most one SAFETY frame of a terminal, and none of one that has a SAFETY frame in flight. -/
theorem State.burstOrder_safety (s : State) (ts : List EntryNo) (hts : ts.Nodup) (e : EntryNo) :
    ((s.burstOrder ts).filter (fun f => f.isSafetyOf e)).length ≤ if s.safetyInFlight e = true then 0 else 1 := by
  have hnone : ∀ (fs : List Frame) (c : FrameClass), c ≠ .safety → (∀ f ∈ fs, f.cls = c) →
      fs.filter (fun f => f.isSafetyOf e) = [] := by
    intro fs c hc hfs
    refine List.filter_eq_nil_iff.mpr fun f hf => ?_
    simp [Frame.isSafetyOf, hfs f hf, hc]
  have hcontrol : ∀ us : List EntryNo, (mergeByDeadline s.now s.downlink.waiting.length (us.map (fun e => queueOf s.downlink.waiting e .control))).filter
      (fun f => f.isSafetyOf e) = [] := by
    refine fun us => hnone _ .control (by decide) fun f hf => ?_
    obtain ⟨q, hq, hfq⟩ := mem_of_mergeByDeadline hf
    obtain ⟨i, -, rfl⟩ := List.mem_map.mp hq
    exact (mem_queueOf.mp hfq).2.2
  have hbulk : ∀ us : List EntryNo, (rounds s.downlink.waiting.length (us.map (fun e => queueOf s.downlink.waiting e .bulk))).filter
      (fun f => f.isSafetyOf e) = [] := by
    refine fun us => hnone _ .bulk (by decide) fun f hf => ?_
    obtain ⟨q, hq, hfq⟩ := mem_of_rounds hf
    obtain ⟨i, -, rfl⟩ := List.mem_map.mp hq
    exact (mem_queueOf.mp hfq).2.2
  unfold State.burstOrder
  dsimp only
  rw [List.filter_append, List.filter_append, hcontrol, hbulk, List.append_nil, List.append_nil]
  refine (safety_fronts_le_one _ _ (hts.filter _) e).trans ?_
  split
  · rename_i hmem
    have hclear := (List.mem_filter.mp hmem).2
    simp only [Bool.and_eq_true, Bool.not_eq_true'] at hclear
    simp [hclear.2]
  · exact Nat.zero_le _

theorem State.assemble_safety (s : State) (b : BeamNo) (fl bl : Nat) (e : EntryNo) :
    ((s.assemble b fl bl).1.filter (fun f => f.isSafetyOf e)).length ≤ if s.safetyInFlight e = true then 0 else 1 := by
  unfold State.assemble
  split
  · exact Nat.zero_le _
  · rename_i g _
    have hsub := ((moveOut_fst_sublist _ s.downlink.waiting).trans (takeFitting_prefix fl bl (s.burstOrder
      (s.candidates (look s.downlink.rotation b) g))).sublist).filter (fun f => f.isSafetyOf e)
    exact hsub.length_le.trans (s.burstOrder_safety _ (s.candidates_nodup _ _) e)

/-- The beginning of a burst (R118) puts its frames in flight on the beam, and touches no other. -/
theorem State.burstAt_beginBurst (s : State) (b : BeamNo) (l : LinkNo) (placed stay : List Frame) :
    (s.beginBurst b l placed stay).burstAt = Function.update s.burstAt b
      (some { number := look s.downlink.nextBurst b, owner := l, frames := placed, start := s.now }) := by
  have hcounts : ∀ u : State, (if placed.isEmpty then (u.bumpDown 4).bumpDown 5 else u.bumpDown 4).burstAt = u.burstAt := by
    intro u
    split <;> rfl
  unfold State.beginBurst
  dsimp only
  rw [hcounts, State.burstAt_of_beamCtl (State.reportFronts_frame _ _).2.2.2.2.2.2.1]
  exact s.burstAt_setBeam b _

/-- A FETCH that passes its checks finds no burst in flight on its beam (R115). -/
theorem State.burstAt_of_fetchRefusal_none {s : State} {b : BeamNo} {l : LinkNo} (h : s.fetchRefusal b l = none) :
    s.burstAt b = none := by
  unfold State.fetchRefusal at h
  dsimp only at h
  split_ifs at h with h1 h2 h3 h4
  simpa [State.burstAt] using h4

/-- The sum of a count over the beams, when one beam's count was 0 and has become `n`. -/
theorem sum_map_update {β : Type} [DecidableEq β] (l : List β) (hl : l.Nodup) (f g : β → Nat) (b : β) (hb : b ∈ l)
    (hother : ∀ c, c ≠ b → g c = f c) (hzero : f b = 0) : (l.map g).sum = (l.map f).sum + g b := by
  induction l with
  | nil => cases hb
  | cons c l ih =>
    obtain ⟨hc, hl⟩ := List.nodup_cons.mp hl
    rw [List.map_cons, List.map_cons, List.sum_cons, List.sum_cons]
    by_cases hcb : c = b
    · subst hcb
      have hsame : l.map g = l.map f := List.map_congr_left fun d hd => hother d fun hdc => hc (hdc ▸ hd)
      rw [hsame, hzero]
      omega
    · rw [ih hl ((List.mem_cons.mp hb).resolve_left (Ne.symm hcb)), hother c hcb]
      omega

theorem State.beginBurst_keeps_oneSafety {s : State} {b : BeamNo} {fl bl : Nat} (l : LinkNo) (hb : s.burstAt b = none)
    (hs : s.oneSafety) : (s.beginBurst b l (s.assemble b fl bl).1 (s.assemble b fl bl).2).oneSafety := by
  rw [State.oneSafety_iff] at hs ⊢
  intro e
  rw [sum_map_update allBeams (List.nodup_finRange 24) (s.safetyOn e) _ b (List.mem_finRange b) (fun c hc => ?other)
    (by simp [State.safetyOn, hb, burstFrames])]
  case other => simp [State.safetyOn, State.burstAt_beginBurst, hc]
  have hplaced : (s.beginBurst b l (s.assemble b fl bl).1 (s.assemble b fl bl).2).safetyOn e b ≤ if s.safetyInFlight e = true then 0 else 1 := by
    rw [State.safetyOn, State.burstAt_beginBurst, Function.update_self]
    exact s.assemble_safety b fl bl e
  have hflight := s.safetyInFlight_iff e
  have hbound := hs e
  simp only [hflight] at hplaced
  split at hplaced <;> omega

/-! ### The commands -/

theorem State.oneSafety_of_beamCtl {s t : State} (h : t.beamCtl = s.beamCtl) (hs : s.oneSafety) : t.oneSafety :=
  State.oneSafety_of_le (fun e b => State.safetyOn_le_of_fades (.of_eq (State.burstAt_of_beamCtl h)) e b) hs

theorem State.oneSafety_of_no_bursts {s : State} (h : ∀ b, s.burstAt b = none) : s.oneSafety := by
  rw [State.oneSafety_iff]
  intro e
  have hzero : s.safetyOn e = fun _ => 0 := funext fun b => by simp [State.safetyOn, h b, burstFrames]
  simp [hzero]

theorem serveFetch_keeps_oneSafety (s : State) (r : Request) (hs : s.oneSafety) : (serveFetch s r).oneSafety := by
  unfold serveFetch State.reading
  split
  · exact hs
  · dsimp only
    split
    · exact hs
    · rename_i hpass
      exact State.oneSafety_of_beamCtl (State.reply_frame _ _ _ _).2.2.2.2.2.1
        (State.beginBurst_keeps_oneSafety _ (State.burstAt_of_fetchRefusal_none hpass) hs)

theorem State.taking_keeps {P : State → Prop} {s : State} {c : ReqCode} {l : LinkNo} {f : State → Request → State}
    (hs : P s) (htaken : ∀ r, P (s.taken r)) (hf : ∀ u r, P u → P (f u r)) : P (s.taking c l f) := by
  unfold State.taking
  split
  · exact hs
  · split
    · exact hf _ _ (htaken _)
    · exact hs

theorem State.burstAt_handOut (s : State) (d : Load) (b : BeamNo) : (s.handOut d).burstAt b = none := by
  have hloaded : ∀ c : Bool, (loadedBeam c).burst = none := by
    intro c
    cases c <;> rfl
  simp [State.burstAt, State.beam, State.handOut, look, hloaded]

theorem State.burstAt_firstLoad (s : State) (d : Load) (b : BeamNo) : ((s.handOut d).firstChoice).firstSweeps.burstAt b = none := by
  rw [State.burstAt_firstSweeps, State.burstAt_of_beamCtl (t := (s.handOut d).firstChoice) (s := s.handOut d) rfl, State.burstAt_handOut]

/-- A terminal's frames are orphaned with its downlink withdrawal: none becomes a frame of a terminal. -/
theorem State.safetyOn_discardTerminal_le (s : State) (e i : EntryNo) (b : BeamNo) :
    (s.discardTerminal e).safetyOn i b ≤ s.safetyOn i b :=
  State.safetyOn_le_of_map (fun _ _ => Frame.isSafetyOf_of_orphaned) (s.burstAt_discardTerminal e b) i

theorem State.safetyOn_of_beamCtl {s t : State} (h : t.beamCtl = s.beamCtl) : t.safetyOn = s.safetyOn := by
  funext e b
  rw [State.safetyOn, State.burstAt_of_beamCtl h, State.safetyOn]

theorem State.safetyOn_judge (s : State) : s.judge.safetyOn = s.safetyOn := by
  funext e b
  rw [State.safetyOn, State.burstAt_judge, State.safetyOn]

theorem State.safetyOn_downBeams_le (s : State) (l : LinkNo) (e : EntryNo) (b : BeamNo) :
    (s.downBeams l).safetyOn e b ≤ s.safetyOn e b :=
  (State.safetyOn_le_of_fades (s.downBeams_fades l) e b).trans
    (State.safetyOn_le_of_map (fun _ _ => Frame.isSafetyOf_of_forget) (s.burstAt_forgetOrigin l b) e)

theorem State.safetyOn_tearDown_le (s : State) (l : LinkNo) (e : EntryNo) (b : BeamNo) :
    (s.tearDown l).safetyOn e b ≤ s.safetyOn e b := by
  have hunits : ∀ u : State, (((u.invalidateOwn l).clearInterest l).endSubscriptions l).beamCtl = u.beamCtl := by
    intro u
    simp [State.clearInterest]
  have hbefore : ∀ u : State, (({ u.onLink l Link.goDown with
      handed := (u.onLink l Link.goDown).handed.filter (fun r => r.ref.link != l) } : State).emptyDeliveries l).beamCtl = u.beamCtl := by
    intro u
    simp
  unfold State.tearDown
  dsimp only
  rw [State.safetyOn_judge, State.safetyOn_of_beamCtl (hunits _)]
  refine (State.safetyOn_downBeams_le _ l e b).trans (le_of_eq ?_)
  rw [State.safetyOn_of_beamCtl (hbefore s)]

theorem State.safetyOn_downlinkWithdrawal_le (s : State) (e i : EntryNo) (b : BeamNo) :
    (State.judge ((s.discardTerminal e).partDone e (fun w => { w with downlinkDone := true }))).safetyOn i b ≤ s.safetyOn i b := by
  rw [State.safetyOn_judge, State.safetyOn_of_beamCtl (State.partDone_frame _ _ _).2.2.2.2.2.1]
  exact s.safetyOn_discardTerminal_le e i b

theorem State.oneSafety_ite {t u : State} {c : Prop} [Decidable c] (ht : t.oneSafety) (hu : u.oneSafety) :
    (if c then t else u).oneSafety := by
  split
  · exact ht
  · exact hu

theorem exec_keeps_oneSafety {c : Instr} {s t : State} (h : exec c s = .next t) (hs : s.oneSafety) : t.oneSafety := by
  by_cases hmakes : makesBursts c = false
  case pos => exact State.oneSafety_of_le (State.safetyOn_le_of_fades (exec_ends_bursts_only c hmakes s t h)) hs
  cases c with
  | fetch l =>
    cases h
    exact State.taking_keeps hs (fun r => hs) (fun u r hu => serveFetch_keeps_oneSafety u r hu)
  | downlinkWithdrawal e =>
    cases h
    exact State.oneSafety_ite (State.oneSafety_of_le (s.safetyOn_downlinkWithdrawal_le e) hs) hs
  | linkDown l receiving =>
    cases h
    exact State.oneSafety_ite (State.oneSafety_of_le (s.safetyOn_tearDown_le l) hs) hs
  | settingsLoadEnd a b =>
    cases h
    exact State.oneSafety_ite hs (State.oneSafety_of_no_bursts (State.burstAt_firstLoad _ _))
  | pinReset =>
    cases h
    refine State.oneSafety_of_no_bursts fun b => ?_
    simp [State.burstAt, State.beam, State.reset, BeamCtl.reset, Beam.reset]
  | _ => exact absurd rfl hmakes

/-- A step runs the command in front, or idles: what every command keeps, a step keeps. -/
theorem step_keeps {P : State → Prop} (hpending : ∀ (s : State) (q : List Instr), P s → P { s with pending := q })
    (hexec : ∀ (c : Instr) (s t : State), exec c s = .next t → P s → P t) {s t : State} (hs : P s) (h : step s = .next t) :
    P t := by
  unfold step at h
  split at h
  · cases h
    exact hs
  · exact hexec _ _ _ h (hpending s _ hs)

/-- Settles O58: a burst takes a SAFETY frame only of a terminal that has none in flight, and one at most; no other command puts a
frame in flight. -/
theorem stepsKeepOneSafetyInFlight : Obligations.StepsKeepOneSafetyInFlight :=
  fun _ _ hs h => step_keeps (fun _ _ hu => hu) (fun _ _ _ => exec_keeps_oneSafety) hs h

end Sys2Proof.Machine
end

section
/-! PROOFS. What a change of a segment's class calls for at one crane and at one rack (R54), each named, so that what an operation
keeps is said of it once. -/

namespace Sys2Proof.Machine

/-- What a segment's change of class calls for at a crane. -/
def State.followCrane (s : State) (g : SegNo) (c : CraneNo) : State :=
  match s.craneRec c with
  | some k => if (s.entry k.entry).seg = some g then s.deriveCondition c else s
  | none => s

/-- What a segment's change of class calls for at a rack. -/
def State.followRack (s : State) (g : SegNo) (r : RackNo) : State :=
  match s.rackRec r with
  | some k => if (s.entry k.entry).seg = some g then s.reevaluateRack r else s
  | none => s

theorem State.classChanged_eq (s : State) (g : SegNo) (x y : SegClass) : s.classChanged g x y =
    allRacks.foldl (fun u r => u.followRack g r) (allCranes.foldl (fun u c => u.followCrane g c)
      ((s.raiseWhere (fun _ k => k.rights.traffic) (.coverageChanged g x y)).bumpCov 6)) := rfl

@[simp] theorem State.followCrane_frame (s : State) (g : SegNo) (c : CraneNo) :
    (s.followCrane g c).coverage = s.coverage ∧ (s.followCrane g c).beamCtl = s.beamCtl ∧
    (s.followCrane g c).registry = s.registry ∧ (s.followCrane g c).reefer = s.reefer ∧
    (s.followCrane g c).settings = s.settings ∧ (s.followCrane g c).clock = s.clock := by
  unfold State.followCrane
  (repeat' split) <;> simp

@[simp] theorem State.followRack_frame (s : State) (g : SegNo) (r : RackNo) :
    (s.followRack g r).coverage = s.coverage ∧ (s.followRack g r).beamCtl = s.beamCtl ∧
    (s.followRack g r).registry = s.registry ∧ (s.followRack g r).settings = s.settings ∧
    (s.followRack g r).clock = s.clock := by
  unfold State.followRack
  (repeat' split) <;> simp

/-- The state once a pair of a TUNE has been applied to the parameters and a clamp counted (R174). -/
def State.withPair (s : State) (i : Fin 19) (v : Nat) : State :=
  if (applyPair s.settings.params i v).2.2.1 then
    State.bumpSet { s with settings := { s.settings with params := (applyPair s.settings.params i v).1 } } 5
  else { s with settings := { s.settings with params := (applyPair s.settings.params i v).1 } }

theorem State.tunePair_eq (s : State) (i : Fin 19) (v : Nat) : s.tunePair i v =
    State.judge (if look (applyPair s.settings.params i v).1 i != look s.settings.params i then (s.withPair i v).afterTune i
      else s.withPair i v) := rfl

/-- A pair changes the settings alone before what the change brings about. -/
@[simp] theorem State.withPair_frame (s : State) (i : Fin 19) (v : Nat) :
    (s.withPair i v).clock = s.clock ∧ (s.withPair i v).links = s.links ∧ (s.withPair i v).handed = s.handed ∧
    (s.withPair i v).registry = s.registry ∧ (s.withPair i v).access = s.access ∧ (s.withPair i v).coverage = s.coverage ∧
    (s.withPair i v).beamCtl = s.beamCtl ∧ (s.withPair i v).pool = s.pool ∧ (s.withPair i v).downlink = s.downlink ∧
    (s.withPair i v).cranes = s.cranes ∧ (s.withPair i v).reefer = s.reefer ∧ (s.withPair i v).pending = s.pending := by
  unfold State.withPair
  split <;> exact ⟨rfl, rfl, rfl, rfl, rfl, rfl, rfl, rfl, rfl, rfl, rfl, rfl⟩

end Sys2Proof.Machine
end

section
/-! PROOFS. Which links are UP: no operation of the units moves it, a link going UP or DOWN apart. -/

namespace Sys2Proof.Machine

/-- Which of the links are UP. -/
def upOf (ks : Vector Link 4) : LinkNo → Bool := fun l => (look ks l).up

@[simp] theorem foldl_upOf {β : Type} {f : State → β → State} (h : ∀ (u : State) (b : β), upOf (f u b).links =
    upOf u.links) (s : State)
    (bs : List β) : upOf (bs.foldl f s).links = upOf s.links :=
  foldl_keeps (fun u : State => upOf u.links) f h bs s

theorem State.upOf_onLink (s : State) (l : LinkNo) (f : Link → Link) (h : ∀ k : Link, (f k).up = k.up) :
    upOf (s.onLink l f).links = upOf s.links := by
  funext m
  show ((s.onLink l f).link m).up = (s.link m).up
  rw [State.link_onLink]
  split
  · next hm => rw [hm, h]
  · rfl

@[simp] theorem State.upOf_raise (s : State) (l : LinkNo) (n : Notice) : upOf (s.raise l n).links = upOf s.links := 
  funext fun m => s.raise_up l n m

@[simp] theorem State.upOf_raiseWhere (s : State) (p : LinkNo → Link → Bool) (n : Notice) :
    upOf (s.raiseWhere p n).links = upOf s.links := by
  unfold State.raiseWhere
  simp [apply_ite State.links, apply_ite upOf]

@[simp] theorem State.upOf_reply (s : State) (r : ReqRef) (st : Status) (b : ReplyBody) :
    upOf (s.reply r st b).links = upOf s.links := 
  s.upOf_onLink r.link _ fun k => (k.reply_keeps r st b).2.2.1

@[simp] theorem State.upOf_answer (s : State) (r : ReqRef) (st : Status) : upOf (s.answer r st).links = upOf s.links := by
  unfold State.answer
  simp

@[simp] theorem State.upOf_judge (s : State) : upOf (s.judge).links = upOf s.links := by
  unfold State.judge
  (repeat' split) <;> simp

@[simp] theorem State.upOf_offerCopy (s : State) (l : LinkNo) (c : Content) : upOf (s.offerCopy l c).links = upOf s.links := by
  unfold State.offerCopy
  dsimp only
  (repeat' split) <;> simp

@[simp] theorem State.upOf_frameResult (s : State) (f : Frame) (x : FrameFate) :
    upOf (s.frameResult f x).links = upOf s.links := by
  unfold State.frameResult
  split <;> simp

@[simp] theorem State.upOf_dropFrames (s : State) (p : Frame → Bool) (x : FrameFate) (k : Fin 21) :
    upOf (s.dropFrames p x k).links = upOf s.links := by
  unfold State.dropFrames
  simp

@[simp] theorem State.upOf_noteSettled (s : State) (p : Frame × Settled) : upOf (s.noteSettled p).links = upOf s.links := by
  unfold State.noteSettled
  (repeat' split) <;> simp

@[simp] theorem State.upOf_settleBurst (s : State) (b : BeamNo) (u : Burst) (o : Nat → FrameOutcome) :
    upOf (s.settleBurst b u o).links = upOf s.links := by
  unfold State.settleBurst
  simp

@[simp] theorem State.upOf_deriveCondition (s : State) (c : CraneNo) : upOf (s.deriveCondition c).links = upOf s.links := by
  unfold State.deriveCondition
  dsimp only
  (repeat' split) <;> simp

@[simp] theorem State.upOf_raiseAlarm (s : State) (r : RackNo) (p : PlugNo) : upOf (s.raiseAlarm r p).links = upOf s.links := by
  unfold State.raiseAlarm
  simp

@[simp] theorem State.upOf_applyConsult (s : State) (r : RackNo) (p : PlugNo) (k : Consult) :
    upOf (s.applyConsult r p k).links = upOf s.links := by
  unfold State.applyConsult
  (repeat' split) <;> simp

@[simp] theorem State.upOf_regrade (s : State) (r : RackNo) (p : PlugNo) (d : Bool) :
    upOf (s.regrade r p d).links = upOf s.links := by
  unfold State.regrade
  simp

@[simp] theorem State.upOf_silencePlug (s : State) (r : RackNo) (v : Silence) (p : PlugNo) :
    upOf (s.silencePlug r v p).links = upOf s.links := by
  unfold State.silencePlug
  dsimp only
  (repeat' split) <;> simp

@[simp] theorem State.upOf_setSilence (s : State) (r : RackNo) (v : Silence) :
    upOf (s.setSilence r v).links = upOf s.links := by
  unfold State.setSilence
  split <;> simp

@[simp] theorem State.upOf_rackSilent (s : State) (r : RackNo) : upOf (s.rackSilent r).links = upOf s.links := by
  unfold State.rackSilent
  (repeat' split) <;> simp

@[simp] theorem State.upOf_reevaluateRack (s : State) (r : RackNo) : upOf (s.reevaluateRack r).links = upOf s.links := by
  unfold State.reevaluateRack
  (repeat' split) <;> simp

@[simp] theorem State.upOf_goSilent (s : State) (e : EntryNo) : upOf (s.goSilent e).links = upOf s.links := by
  unfold State.goSilent
  dsimp only
  (repeat' split) <;> simp

@[simp] theorem State.upOf_followCrane (s : State) (g : SegNo) (c : CraneNo) : upOf (s.followCrane g c).links = upOf s.links := by
  unfold State.followCrane
  (repeat' split) <;> simp

@[simp] theorem State.upOf_followRack (s : State) (g : SegNo) (r : RackNo) : upOf (s.followRack g r).links = upOf s.links := by
  unfold State.followRack
  (repeat' split) <;> simp

@[simp] theorem State.upOf_classChanged (s : State) (g : SegNo) (x y : SegClass) :
    upOf (s.classChanged g x y).links = upOf s.links := by
  rw [State.classChanged_eq]
  simp

@[simp] theorem State.upOf_rechoose (s : State) (gs : List SegNo) : upOf (s.rechoose gs).links = upOf s.links := by
  unfold State.rechoose
  simp

@[simp] theorem State.upOf_join (s : State) (b : BeamNo) (r : OpenReq) (g : SegNo) :
    upOf (s.join b r g).links = upOf s.links := by
  unfold State.join
  dsimp only
  (repeat' split) <;> simp

@[simp] theorem State.upOf_joinWaiting (s : State) (b : BeamNo) (g : SegNo) :
    upOf (s.joinWaiting b g).links = upOf s.links := by
  unfold State.joinWaiting
  simp

@[simp] theorem State.upOf_serveIdle (s : State) (b : BeamNo) : upOf (s.serveIdle b).links = upOf s.links := by
  unfold State.serveIdle
  dsimp only
  (repeat' split) <;> simp

@[simp] theorem State.upOf_serveOpen (s : State) (b : BeamNo) : upOf (s.serveOpen b).links = upOf s.links := by
  unfold State.serveOpen
  (repeat' split) <;> simp

@[simp] theorem State.upOf_becameIdle (s : State) (b : BeamNo) : upOf (s.becameIdle b).links = upOf s.links := by
  unfold State.becameIdle
  simp

@[simp] theorem State.upOf_raiseLost (s : State) (b : BeamNo) (r : LossReason) :
    upOf (s.raiseLost b r).links = upOf s.links := by
  unfold State.raiseLost
  dsimp only
  (repeat' split) <;> simp

@[simp] theorem State.upOf_closeBeam (s : State) (b : BeamNo) (r : Option LossReason) :
    upOf (s.closeBeam b r).links = upOf s.links := by
  unfold State.closeBeam
  dsimp only
  (repeat' split) <;> simp

@[simp] theorem State.upOf_burstEnded (s : State) (b : BeamNo) (l : LinkNo) : upOf (s.burstEnded b l).links = upOf s.links := by
  unfold State.burstEnded
  dsimp only
  (repeat' split) <;> simp

@[simp] theorem State.upOf_endBurst (s : State) (b : BeamNo) (u : Burst) (o : Nat → FrameOutcome) :
    upOf (s.endBurst b u o).links = upOf s.links := by
  unfold State.endBurst
  simp

@[simp] theorem State.upOf_forcedReturn (s : State) (b : BeamNo) (u : Burst) :
    upOf (s.forcedReturn b u).links = upOf s.links := by
  unfold State.forcedReturn
  simp

@[simp] theorem State.upOf_loseBeam (s : State) (b : BeamNo) (g : SegNo) (r : LossReason) :
    upOf (s.loseBeam b g r).links = upOf s.links := by
  unfold State.loseBeam
  dsimp only
  (repeat' split) <;> simp

@[simp] theorem State.upOf_cellLost (s : State) (h : HeadNo) (g : SegNo) (r : LossReason) :
    upOf (s.cellLost h g r).links = upOf s.links := by
  unfold State.cellLost
  simp

@[simp] theorem State.upOf_sample (s : State) (h : HeadNo) (g : SegNo) (m k : Nat) (c : Fin 24) :
    upOf (s.sample h g m k c).links = upOf s.links := by
  unfold State.sample
  dsimp only
  (repeat' split) <;> simp

@[simp] theorem State.upOf_burstSample (s : State) (b : BeamNo) (g : Option SegNo) (x y : Nat) :
    upOf (s.burstSample b g x y).links = upOf s.links := by
  unfold State.burstSample
  (repeat' split) <;> simp

@[simp] theorem State.upOf_raiseHeadState (s : State) (h : HeadNo) : upOf (s.raiseHeadState h).links = upOf s.links := by
  unfold State.raiseHeadState
  simp

@[simp] theorem State.upOf_beamFault (s : State) (b : BeamNo) : upOf (s.beamFault b).links = upOf s.links := by
  unfold State.beamFault
  dsimp only
  (repeat' split) <;> simp

@[simp] theorem State.upOf_headFault (s : State) (h : HeadNo) : upOf (s.headFault h).links = upOf s.links := by
  unfold State.headFault
  simp

@[simp] theorem State.upOf_copyTelemetry (s : State) (m : LinkSet) (t : TelemetryCopy) :
    upOf (s.copyTelemetry m t).links = upOf s.links := by
  unfold State.copyTelemetry
  simp

@[simp] theorem State.upOf_takeTelemetry (s : State) (e : EntryNo) (c : CraneNo) (b : Bool) (f : List Byte) :
    upOf (s.takeTelemetry e c b f).links = upOf s.links := by
  unfold State.takeTelemetry
  dsimp only
  (repeat' split) <;> simp

@[simp] theorem State.upOf_expireWatch (s : State) (c : CraneNo) : upOf (s.expireWatch c).links = upOf s.links := by
  unfold State.expireWatch
  (repeat' split) <;> simp

@[simp] theorem State.upOf_applyReading (s : State) (r : RackNo) (q : Reading) :
    upOf (s.applyReading r q).links = upOf s.links := by
  unfold State.applyReading
  dsimp only
  (repeat' split) <;> simp

@[simp] theorem State.upOf_offerDigests (s : State) (r : RackNo) (d : Digest) (c : Bool) :
    upOf (s.offerDigests r d c).links = upOf s.links := by
  unfold State.offerDigests
  simp [apply_ite State.links, apply_ite upOf]

@[simp] theorem State.upOf_acceptReport (s : State) (e : EntryNo) (r : RackNo) (k : RackRec) (c : Byte) (q : List Reading) :
    upOf (s.acceptReport e r k c q).links = upOf s.links := by
  unfold State.acceptReport
  dsimp only
  (repeat' split) <;> simp

@[simp] theorem State.upOf_takeReport (s : State) (e : EntryNo) (r : RackNo) (f : List Byte) :
    upOf (s.takeReport e r f).links = upOf s.links := by
  unfold State.takeReport
  dsimp only
  (repeat' split) <;> simp

@[simp] theorem State.upOf_moveEntry (s : State) (e : EntryNo) (g : SegNo) : upOf (s.moveEntry e g).links = upOf s.links := by
  unfold State.moveEntry
  dsimp only
  (repeat' split) <;> simp

@[simp] theorem State.upOf_takeUnknown (s : State) (l : LinkNo) (a : Word) : upOf (s.takeUnknown l a).links = upOf s.links := by
  unfold State.takeUnknown
  dsimp only
  (repeat' split) <;> simp

@[simp] theorem State.upOf_markCell (s : State) (h : HeadNo) (g : SegNo) (c : Cell) :
    upOf (s.markCell h g c).links = upOf s.links := by
  unfold State.markCell
  split <;> simp

@[simp] theorem State.upOf_unmarkCell (s : State) (h : HeadNo) (g : SegNo) (c : Cell) :
    upOf (s.unmarkCell h g c).links = upOf s.links := by
  unfold State.unmarkCell
  simp

@[simp] theorem State.upOf_steerOrWait (s : State) (q : OpenReq) (g : SegNo) (o : Bool) :
    upOf (s.steerOrWait q g o).links = upOf s.links := by
  unfold State.steerOrWait
  (repeat' split) <;> simp

@[simp] theorem State.upOf_leaveBeam (s : State) (b : BeamNo) (l : LinkNo) : upOf (s.leaveBeam b l).links = upOf s.links := by
  unfold State.leaveBeam
  dsimp only
  (repeat' split) <;> simp

@[simp] theorem State.upOf_answerOpened (s : State) (b : BeamNo) (g : SegNo) (q : List OpenReq) :
    upOf (s.answerOpened b g q).links = upOf s.links := by
  unfold State.answerOpened
  simp

@[simp] theorem State.upOf_steered (s : State) (b : BeamNo) : upOf (s.steered b).links = upOf s.links := by
  unfold State.steered
  dsimp only
  (repeat' split) <;> simp

@[simp] theorem State.upOf_requeue (s : State) (w : List WaitEntry) : upOf (s.requeue w).links = upOf s.links := by
  unfold State.requeue
  simp

@[simp] theorem State.upOf_steerRefused (s : State) (b : BeamNo) (g : SegNo) :
    upOf (s.steerRefused b g).links = upOf s.links := by
  unfold State.steerRefused
  dsimp only
  (repeat' split) <;> simp

@[simp] theorem State.upOf_released (s : State) (b : BeamNo) (r : Bool) : upOf (s.released b r).links = upOf s.links := by
  unfold State.released
  dsimp only
  (repeat' split) <;> simp

@[simp] theorem State.upOf_applySweep (s : State) (h : HeadNo) (m : List (Option Nat)) :
    upOf (s.applySweep h m).links = upOf s.links := by
  unfold State.applySweep
  simp

@[simp] theorem State.upOf_swept (s : State) (h : HeadNo) (m : List (Option Nat)) :
    upOf (s.swept h m).links = upOf s.links := by
  unfold State.swept
  simp

@[simp] theorem State.upOf_recoverHead (s : State) (h : HeadNo) : upOf (s.recoverHead h).links = upOf s.links := by
  unfold State.recoverHead
  simp

@[simp] theorem State.upOf_probed (s : State) (h : HeadNo) : upOf (s.probed h).links = upOf s.links := by
  unfold State.probed
  split <;> simp

@[simp] theorem State.upOf_answerRunsOut (s : State) (h : HeadNo) : upOf (s.answerRunsOut h).links = upOf s.links := by
  unfold State.answerRunsOut
  split <;> simp

@[simp] theorem State.upOf_overdueBeam (s : State) (b : BeamNo) : upOf (s.overdueBeam b).links = upOf s.links := by
  unfold State.overdueBeam
  dsimp only
  (repeat' split) <;> simp

@[simp] theorem State.upOf_makeOverdue (s : State) (h : HeadNo) : upOf (s.makeOverdue h).links = upOf s.links := by
  unfold State.makeOverdue
  simp

@[simp] theorem State.upOf_expireWait (s : State) (w : WaitEntry) : upOf (s.expireWait w).links = upOf s.links := by
  unfold State.expireWait
  simp

@[simp] theorem State.upOf_repeatPause (s : State) (t : Time) : upOf (s.repeatPause t).links = upOf s.links := by
  unfold State.repeatPause
  dsimp only
  (repeat' split) <;> simp

@[simp] theorem State.upOf_acceptFrame (s : State) (a : AllocKind) (f : Frame) :
    upOf (s.acceptFrame a f).links = upOf s.links := by
  unfold State.acceptFrame
  dsimp only
  (repeat' split) <;> simp

@[simp] theorem State.upOf_purgeClass (s : State) (e : EntryNo) (c : FrameClass) (b : Bool) :
    upOf (s.purgeClass e c b).links = upOf s.links := by
  unfold State.purgeClass
  split <;> simp

@[simp] theorem State.upOf_purge (s : State) (e : EntryNo) (b : Byte) : upOf (s.purge e b).links = upOf s.links := by
  unfold State.purge
  simp

@[simp] theorem State.upOf_discardTerminal (s : State) (e : EntryNo) : upOf (s.discardTerminal e).links = upOf s.links := by
  unfold State.discardTerminal
  simp

@[simp] theorem State.upOf_reportBurst (s : State) (b : BeamNo) (u : Burst) (o : Nat → FrameOutcome) (k : Fin 21) :
    upOf (s.reportBurst b u o k).links = upOf s.links := by
  unfold State.reportBurst
  simp

@[simp] theorem State.upOf_expireBurst (s : State) (b : BeamNo) : upOf (s.expireBurst b).links = upOf s.links := by
  unfold State.expireBurst
  split <;> simp

@[simp] theorem State.upOf_returnOwned (s : State) (b : BeamNo) (l : LinkNo) :
    upOf (s.returnOwned b l).links = upOf s.links := by
  unfold State.returnOwned
  (repeat' split) <;> simp

@[simp] theorem State.upOf_closeIfEmpty (s : State) (b : BeamNo) : upOf (s.closeIfEmpty b).links = upOf s.links := by
  unfold State.closeIfEmpty
  dsimp only
  (repeat' split) <;> simp

@[simp] theorem State.upOf_downBeams (s : State) (l : LinkNo) : upOf (s.downBeams l).links = upOf s.links := by
  unfold State.downBeams
  simp

end Sys2Proof.Machine
end

section
/-! PROOFS. Requests and events: every command is either a request's taking by its owner, what the owner then does standing in one
table, or an event; what a request does to a view of the state is what its row of the table does. -/

namespace Sys2Proof.Machine

/-- What the owner of a request does for it once it is taken. -/
def serveOf : ReqCode → State → Request → State
  | .identify => serveIdentify | .readTime => serveReadTime | .readCounters => serveReadCounters | .enroll => serveEnroll
  | .withdraw => serveWithdraw | .move => serveMove | .readTerminal => serveReadTerminal | .listUnknown => serveListUnknown
  | .grant => serveGrant | .revoke => serveRevoke | .readEntry => serveReadEntry | .readCoverage => serveReadCoverage
  | .markCell => serveMarkCell | .unmarkCell => serveUnmarkCell | .openBeam => serveOpenBeam | .release => serveRelease
  | .readBeams => serveReadBeams | .survey => serveSurvey | .send => serveSend | .purgeQueue => servePurgeQueue
  | .fetch => serveFetch | .done => serveDone | .cut => serveCut | .deliver => serveDeliver | .take => serveTake
  | .subscribe => serveSubscribe | .readCrane => serveReadCrane | .setInterest => serveSetInterest | .readRack => serveReadRack
  | .readAlarms => serveReadAlarms | .acknowledge => serveAcknowledge | .clearDose => serveClearDose | .tune => serveTune
  | .storeSettings => serveStoreSettings | .restart => serveRestart

/-- The request that a command is the taking of, and its link; none for an event. -/
def requestOf : Instr → Option (ReqCode × LinkNo)
  | .identify l => some (.identify, l) | .readTime l => some (.readTime, l) | .readCounters l => some (.readCounters, l)
  | .enroll l => some (.enroll, l) | .withdraw l => some (.withdraw, l) | .move l => some (.move, l)
  | .readTerminal l => some (.readTerminal, l) | .listUnknown l => some (.listUnknown, l) | .grant l => some (.grant, l)
  | .revoke l => some (.revoke, l) | .readEntry l => some (.readEntry, l) | .readCoverage l => some (.readCoverage, l)
  | .markCell l => some (.markCell, l) | .unmarkCell l => some (.unmarkCell, l) | .openBeam l => some (.openBeam, l)
  | .release l => some (.release, l) | .readBeams l => some (.readBeams, l) | .survey l => some (.survey, l)
  | .send l => some (.send, l) | .purgeQueue l => some (.purgeQueue, l) | .fetch l => some (.fetch, l)
  | .done l => some (.done, l) | .cut l => some (.cut, l) | .deliver l => some (.deliver, l) | .take l => some (.take, l)
  | .subscribe l => some (.subscribe, l) | .readCrane l => some (.readCrane, l) | .setInterest l => some (.setInterest, l)
  | .readRack l => some (.readRack, l) | .readAlarms l => some (.readAlarms, l) | .acknowledge l => some (.acknowledge, l)
  | .clearDose l => some (.clearDose, l) | .tune l => some (.tune, l) | .storeSettings l => some (.storeSettings, l)
  | .restart l => some (.restart, l)
  | _ => none

theorem exec_command (code : ReqCode) (l : LinkNo) (s : State) :
    exec (code.command l) s = .next (s.taking code l (serveOf code)) := by
  cases code <;> rfl

theorem requestOf_eq_some_iff {c : Instr} {code : ReqCode} {l : LinkNo} :
    requestOf c = some (code, l) ↔ c = code.command l := by
  constructor
  · intro h
    cases c <;> cases h <;> rfl
  · rintro rfl
    cases code <;> rfl

theorem exec_of_requestOf {c : Instr} {code : ReqCode} {l : LinkNo} (h : requestOf c = some (code, l)) (s : State) :
    exec c s = .next (s.taking code l (serveOf code)) := by
  obtain rfl := requestOf_eq_some_iff.mp h
  exact exec_command code l s

section
variable {β : Type} {v : State → β}

/-- A view of the state that does not see the requests handed on, and that what is done for a request leaves as it was. -/
theorem State.taking_view {s : State} {code : ReqCode} {l : LinkNo} {f : State → Request → State}
    (htaken : ∀ (u : State) (r : Request), v (u.taken r) = v u) (hf : ∀ (u : State) (r : Request), v (f u r) = v u) :
    v (s.taking code l f) = v s := by
  unfold State.taking
  split
  · rfl
  · split
    · exact (hf _ _).trans (htaken s _)
    · rfl

/-- What a command makes of a view: nothing, when neither the rows of the requests nor the events change it. -/
theorem exec_view {c : Instr} {s t : State} (h : exec c s = .next t)
    (htaken : ∀ (u : State) (r : Request), v (u.taken r) = v u)
    (hserve : ∀ (code : ReqCode) (l : LinkNo), c = code.command l → ∀ (u : State) (r : Request), v (serveOf code u r) = v u)
    (hevent : requestOf c = none → v t = v s) : v t = v s := by
  rcases hc : requestOf c with _ | ⟨code, l⟩
  · exact hevent hc
  · obtain rfl : s.taking code l (serveOf code) = t := by simpa [exec_of_requestOf hc] using h
    exact State.taking_view htaken (hserve code l (requestOf_eq_some_iff.mp hc))

end

section
variable {P : State → Prop} {s : State} {r : Request}

/-- What holds of the BAD_REQUEST answer and of what is done with the body's fields holds once the body is read. -/
theorem State.reading_keeps {α : Type} {o : Option α} {f : α → State} (hbad : P (s.answer r.ref .badRequest))
    (hf : ∀ q : α, o = some q → P (f q)) : P (s.reading r o f) := by
  unfold State.reading
  split
  · exact hbad
  · next q => exact hf q rfl

theorem State.withToken_keeps {k : Token} {writing : Bool} {f : State → EntryNo → State}
    (hfailed : ∀ (st : Status) (i : Fin 12), P ((s.bumpAcc i).answer r.ref st))
    (hf : ∀ e : EntryNo, P (f (s.bumpAcc 4) e)) : P (s.withToken r k writing f) := by
  unfold State.withToken
  split
  · exact hfailed _ _
  · exact hf _

theorem State.withCrane_keeps {e : EntryNo} {f : CraneNo → CraneRec → State} (hwrong : P (s.answer r.ref .wrongState))
    (hf : ∀ (c : CraneNo) (k : CraneRec), s.craneRec c = some k → P (f c k)) : P (s.withCrane r e f) := by
  unfold State.withCrane
  split
  · split
    · next h => exact hf _ _ h
    · exact hwrong
  · exact hwrong

theorem State.withRack_keeps {e : EntryNo} {f : RackNo → RackRec → State} (hwrong : P (s.answer r.ref .wrongState))
    (hf : ∀ (n : RackNo) (k : RackRec), s.rackRec n = some k → P (f n k)) : P (s.withRack r e f) := by
  unfold State.withRack
  split
  · split
    · next h => exact hf _ _ h
    · exact hwrong
  · exact hwrong

end

end Sys2Proof.Machine
end

section
/-! PROOFS. Which commands move a link's being UP: LINK_UP, LINK_DOWN and a pin reset alone. -/

namespace Sys2Proof.Machine

@[simp] theorem State.upOf_clearGroup (s : State) (g : Nat) : upOf (s.clearGroup g).links = upOf s.links := by
  unfold State.clearGroup
  split
  iterate 4 exact s.upOf_onLink _ _ fun _ => rfl
  all_goals rfl

@[simp] theorem State.upOf_burstReport (s : State) (r : Request) (b : BeamNo) (n : Byte) (o : Nat → FrameOutcome) (k : Fin 21) :
    upOf (s.burstReport r b n o k).links = upOf s.links := by
  unfold State.burstReport
  (repeat' split) <;> simp

@[simp] theorem State.upOf_recheckAnswers (s : State) (b : Bool) : upOf (s.recheckAnswers b).links = upOf s.links := by
  unfold State.recheckAnswers
  simp [apply_ite State.links, apply_ite upOf]

@[simp] theorem State.upOf_recheckSurveys (s : State) : upOf s.recheckSurveys.links = upOf s.links := by
  unfold State.recheckSurveys
  simp [apply_ite State.links, apply_ite upOf]

@[simp] theorem State.upOf_recheckWaits (s : State) : upOf s.recheckWaits.links = upOf s.links := by
  unfold State.recheckWaits
  simp

@[simp] theorem State.upOf_recheckBursts (s : State) : upOf s.recheckBursts.links = upOf s.links := by
  unfold State.recheckBursts
  simp [apply_ite State.links, apply_ite upOf]

@[simp] theorem State.upOf_recheckSilence (s : State) (k : Kind) : upOf (s.recheckSilence k).links = upOf s.links := by
  unfold State.recheckSilence
  simp [apply_ite State.links, apply_ite upOf]

@[simp] theorem State.upOf_recheckStalls (s : State) : upOf s.recheckStalls.links = upOf s.links := by
  unfold State.recheckStalls
  simp [apply_ite State.links, apply_ite upOf]

@[simp] theorem State.upOf_afterTune (s : State) (i : Fin 19) : upOf (s.afterTune i).links = upOf s.links := by
  unfold State.afterTune
  split <;> simp

@[simp] theorem State.upOf_tunePair (s : State) (i : Fin 19) (v : Nat) : upOf (s.tunePair i v).links = upOf s.links := by
  unfold State.tunePair
  dsimp only
  (repeat' split) <;> simp

@[simp] theorem State.upOf_takeUplink (s : State) (l : LinkNo) (f : Word × List Byte) : upOf (s.takeUplink l f).1.links =
    upOf s.links := by
  unfold State.takeUplink
  dsimp only
  (repeat' split) <;> simp

@[simp] theorem State.upOf_restartLinks (s : State) (r : ReqRef) : upOf (s.restartLinks r).links = upOf s.links := by
  have hlink : ∀ (u : State) (l : LinkNo),
      upOf (u.onLink l (fun k => k.restarted (if l = r.link then some r.serial else none))).links = upOf u.links :=
    fun u l => u.upOf_onLink l _ fun _ => rfl
  unfold State.restartLinks
  dsimp only
  rw [foldl_upOf hlink]

@[simp] theorem State.upOf_restartBeams (s : State) : upOf s.restartBeams.links = upOf s.links := by
  unfold State.restartBeams
  simp [apply_ite State.links]

@[simp] theorem State.upOf_restartUnits (s : State) (r : ReqRef) : upOf (s.restartUnits r).links = upOf s.links := by
  have hbeams : ∀ u : State, u.restartBeams.links = u.links := fun u => u.restartBeams_keepsAllBut .links (by simp)
  have hregistry : ∀ u : State, u.restartRegistry.links = u.links := fun _ => rfl
  have hcranes : ∀ u : State, u.restartCranes.links = u.links := fun _ => rfl
  unfold State.restartUnits
  simp [hbeams, hregistry, hcranes]

@[simp] theorem State.upOf_answerRestart (s : State) (r : ReqRef) : upOf (s.answerRestart r).links = upOf s.links := by
  unfold State.answerRestart
  simp

@[simp] theorem State.upOf_takeUplinks (s : State) (l : LinkNo) (fs : List (Word × List Byte)) :
    upOf (s.takeUplinks l fs).1.links = upOf s.links := by
  induction fs generalizing s with
  | nil => rfl
  | cons f fs ih => rw [State.takeUplinks, ih, State.upOf_takeUplink]

@[simp] theorem upOf_serveIdentify (s : State) (r : Request) : upOf (serveIdentify s r).links = upOf s.links := by
  unfold serveIdentify State.reading
  (repeat' split) <;> simp

@[simp] theorem upOf_serveReadTime (s : State) (r : Request) : upOf (serveReadTime s r).links = upOf s.links := by
  unfold serveReadTime State.reading
  (repeat' split) <;> simp

@[simp] theorem upOf_serveReadCounters (s : State) (r : Request) : upOf (serveReadCounters s r).links = upOf s.links := by
  unfold serveReadCounters State.reading
  dsimp only
  (repeat' split) <;> simp

@[simp] theorem upOf_serveGrant (s : State) (r : Request) : upOf (serveGrant s r).links = upOf s.links := by
  unfold serveGrant State.reading
  dsimp only
  (repeat' split) <;> simp

@[simp] theorem upOf_serveRevoke (s : State) (r : Request) : upOf (serveRevoke s r).links = upOf s.links := by
  unfold serveRevoke State.reading
  dsimp only
  (repeat' split) <;> simp

@[simp] theorem upOf_serveReadEntry (s : State) (r : Request) : upOf (serveReadEntry s r).links = upOf s.links := by
  unfold serveReadEntry State.reading
  dsimp only
  (repeat' split) <;> simp

@[simp] theorem upOf_serveSubscribe (s : State) (r : Request) : upOf (serveSubscribe s r).links = upOf s.links := by
  refine State.reading_keeps (P := fun u => upOf u.links = upOf s.links) (by simp) fun q _ => ?_
  refine State.withToken_keeps (P := fun u => upOf u.links = upOf s.links) (by simp) fun e => ?_
  refine State.withCrane_keeps (P := fun u => upOf u.links = upOf s.links) (by simp) fun c k _ => ?_
  dsimp only
  rw [State.upOf_reply]
  (repeat' split) <;> simp

@[simp] theorem upOf_serveReadCrane (s : State) (r : Request) : upOf (serveReadCrane s r).links = upOf s.links := by
  refine State.reading_keeps (P := fun u => upOf u.links = upOf s.links) (by simp) fun q _ => ?_
  refine State.withToken_keeps (P := fun u => upOf u.links = upOf s.links) (by simp) fun e => ?_
  refine State.withCrane_keeps (P := fun u => upOf u.links = upOf s.links) (by simp) fun c k _ => ?_
  simp

@[simp] theorem upOf_serveSetInterest (s : State) (r : Request) : upOf (serveSetInterest s r).links = upOf s.links := by
  unfold serveSetInterest State.reading
  (repeat' split) <;> simp

@[simp] theorem upOf_serveReadRack (s : State) (r : Request) : upOf (serveReadRack s r).links = upOf s.links := by
  refine State.reading_keeps (P := fun u => upOf u.links = upOf s.links) (by simp) fun q _ => ?_
  refine State.withToken_keeps (P := fun u => upOf u.links = upOf s.links) (by simp) fun e => ?_
  refine State.withRack_keeps (P := fun u => upOf u.links = upOf s.links) (by simp) fun n k _ => ?_
  split <;> simp

@[simp] theorem upOf_serveReadAlarms (s : State) (r : Request) : upOf (serveReadAlarms s r).links = upOf s.links := by
  unfold serveReadAlarms State.reading
  (repeat' split) <;> simp

@[simp] theorem upOf_serveAcknowledge (s : State) (r : Request) : upOf (serveAcknowledge s r).links = upOf s.links := by
  refine State.reading_keeps (P := fun u => upOf u.links = upOf s.links) (by simp) fun q _ => ?_
  refine State.withToken_keeps (P := fun u => upOf u.links = upOf s.links) (by simp) fun e => ?_
  refine State.withRack_keeps (P := fun u => upOf u.links = upOf s.links) (by simp) fun n k _ => ?_
  simp

@[simp] theorem upOf_serveClearDose (s : State) (r : Request) : upOf (serveClearDose s r).links = upOf s.links := by
  refine State.reading_keeps (P := fun u => upOf u.links = upOf s.links) (by simp) fun q _ => ?_
  refine State.withToken_keeps (P := fun u => upOf u.links = upOf s.links) (by simp) fun e => ?_
  refine State.withRack_keeps (P := fun u => upOf u.links = upOf s.links) (by simp) fun n k _ => ?_
  dsimp only
  split <;> simp

@[simp] theorem upOf_serveEnroll (s : State) (r : Request) : upOf (serveEnroll s r).links = upOf s.links := by
  unfold serveEnroll State.reading
  dsimp only
  (repeat' split) <;> simp

@[simp] theorem upOf_serveWithdraw (s : State) (r : Request) : upOf (serveWithdraw s r).links = upOf s.links := by
  unfold serveWithdraw State.reading
  dsimp only
  (repeat' split) <;> simp

@[simp] theorem upOf_serveMove (s : State) (r : Request) : upOf (serveMove s r).links = upOf s.links := by
  unfold serveMove State.reading
  dsimp only
  (repeat' split) <;> simp

@[simp] theorem upOf_serveDeliver (s : State) (r : Request) : upOf (serveDeliver s r).links = upOf s.links := by
  unfold serveDeliver State.reading
  split <;> simp

@[simp] theorem upOf_serveListUnknown (s : State) (r : Request) : upOf (serveListUnknown s r).links = upOf s.links := by
  unfold serveListUnknown State.reading
  (repeat' split) <;> simp

@[simp] theorem upOf_serveReadTerminal (s : State) (r : Request) : upOf (serveReadTerminal s r).links = upOf s.links := by
  refine State.reading_keeps (P := fun u => upOf u.links = upOf s.links) (by simp) fun q _ => ?_
  refine State.withToken_keeps (P := fun u => upOf u.links = upOf s.links) (by simp) fun e => ?_
  simp

@[simp] theorem upOf_serveReadCoverage (s : State) (r : Request) : upOf (serveReadCoverage s r).links = upOf s.links := by
  unfold serveReadCoverage State.reading
  (repeat' split) <;> simp

@[simp] theorem upOf_serveMarkCell (s : State) (r : Request) : upOf (serveMarkCell s r).links = upOf s.links := by
  unfold serveMarkCell State.reading
  dsimp only
  (repeat' split) <;> simp

@[simp] theorem upOf_serveUnmarkCell (s : State) (r : Request) : upOf (serveUnmarkCell s r).links = upOf s.links := by
  unfold serveUnmarkCell State.reading
  dsimp only
  (repeat' split) <;> simp

@[simp] theorem upOf_serveOpenBeam (s : State) (r : Request) : upOf (serveOpenBeam s r).links = upOf s.links := by
  unfold serveOpenBeam State.reading
  dsimp only
  (repeat' split) <;> simp

@[simp] theorem upOf_serveRelease (s : State) (r : Request) : upOf (serveRelease s r).links = upOf s.links := by
  unfold serveRelease State.reading
  dsimp only
  (repeat' split) <;> simp

@[simp] theorem upOf_serveReadBeams (s : State) (r : Request) : upOf (serveReadBeams s r).links = upOf s.links := by
  unfold serveReadBeams State.reading
  (repeat' split) <;> simp

@[simp] theorem upOf_serveSurvey (s : State) (r : Request) : upOf (serveSurvey s r).links = upOf s.links := by
  unfold serveSurvey State.reading
  dsimp only
  (repeat' split) <;> simp

@[simp] theorem upOf_serveTake (s : State) (r : Request) : upOf (serveTake s r).links = upOf s.links := by
  unfold serveTake State.reading
  (repeat' split) <;> simp

@[simp] theorem State.upOf_sendTo (s : State) (r : Request) (e : EntryNo) (k : Kind) (q : SendReq) :
    upOf (s.sendTo r e k q).links = upOf s.links := by
  unfold State.sendTo
  dsimp only
  (repeat' split) <;> simp

@[simp] theorem upOf_serveSend (s : State) (r : Request) : upOf (serveSend s r).links = upOf s.links := by
  refine State.reading_keeps (P := fun u => upOf u.links = upOf s.links) (by simp) fun q _ => ?_
  refine State.withToken_keeps (P := fun u => upOf u.links = upOf s.links) (by simp) fun e => ?_
  split <;> simp

@[simp] theorem upOf_servePurgeQueue (s : State) (r : Request) : upOf (servePurgeQueue s r).links = upOf s.links := by
  refine State.reading_keeps (P := fun u => upOf u.links = upOf s.links) (by simp) fun q _ => ?_
  refine State.withToken_keeps (P := fun u => upOf u.links = upOf s.links) (by simp) fun e => ?_
  simp

@[simp] theorem upOf_serveFetch (s : State) (r : Request) : upOf (serveFetch s r).links = upOf s.links := by
  unfold serveFetch State.reading
  dsimp only
  (repeat' split) <;> simp

@[simp] theorem upOf_serveDone (s : State) (r : Request) : upOf (serveDone s r).links = upOf s.links := by
  unfold serveDone State.reading
  (repeat' split) <;> simp

@[simp] theorem upOf_serveCut (s : State) (r : Request) : upOf (serveCut s r).links = upOf s.links := by
  unfold serveCut State.reading
  (repeat' split) <;> simp

@[simp] theorem upOf_serveTune (s : State) (r : Request) : upOf (serveTune s r).links = upOf s.links := by
  unfold serveTune State.reading
  (repeat' split) <;> simp

@[simp] theorem upOf_serveStoreSettings (s : State) (r : Request) : upOf (serveStoreSettings s r).links = upOf s.links := by
  unfold serveStoreSettings State.reading
  (repeat' split) <;> simp

@[simp] theorem upOf_serveRestart (s : State) (r : Request) : upOf (serveRestart s r).links = upOf s.links := by
  unfold serveRestart State.reading
  (repeat' split) <;> simp

theorem Link.up_sent (k : Link) : k.sent.up = k.up := by
  unfold Link.sent
  split
  · rfl
  · dsimp only
    rw [(Link.beginSend_keeps _).2.2.1]
    (repeat' split) <;> rfl

theorem State.upOf_decodeRequest (s : State) (r : ReqRef) (q : RawRequest) : upOf (s.decodeRequest r q).links = upOf s.links := by
  have hcount : ∀ u : State, upOf (u.onLink r.link (fun k => { k with counters := bump k.counters 5 })).links = upOf u.links :=
    fun u => u.upOf_onLink _ _ fun _ => rfl
  unfold State.decodeRequest
  split
  · simp
  · split
    · simp
    · split
      · rfl
      · rw [hcount, State.upOf_answer]

theorem State.upOf_takeRequest (s : State) (l : LinkNo) (q : RawRequest) : upOf (s.takeRequest l q).links = upOf s.links := by
  have haccept : upOf (s.onLink l (fun k => k.accept q.tag)).links = upOf s.links := s.upOf_onLink _ _ fun _ => rfl
  unfold State.takeRequest
  dsimp only
  (repeat' split)
  · exact s.upOf_onLink _ _ fun _ => rfl
  · rw [State.upOf_decodeRequest, haccept]
  · exact s.upOf_onLink _ _ fun k => (Link.place_keeps _ _).2.2.1
  · exact s.upOf_onLink _ _ fun _ => rfl

@[simp] theorem State.upOf_answered (s : State) (h : HeadNo) (o : Outstanding) {f : State → State}
    (hf : ∀ u : State, upOf (f u).links = upOf u.links) : upOf (s.answered h o f).links = upOf s.links := by
  unfold State.answered
  dsimp only
  split <;> simp [hf]

@[simp] theorem State.upOf_endStore (s : State) (j : StoreJob) (m : Bool) (bs : List Byte) :
    upOf (s.endStore j m bs).links = upOf s.links := by
  unfold State.endStore
  split <;> simp

theorem upOf_execFillMarkReceived {link : LinkNo} {second : Byte} {s t : State} (h : execFillMarkReceived link second s =
    .next t) :
    upOf t.links = upOf s.links := by
  cases h
  split
  · exact s.upOf_onLink _ _ fun _ => rfl
  · exact s.upOf_onLink _ _ fun _ => rfl

theorem upOf_execFillMarkGap {gap : LineGap} {s t : State} (h : execFillMarkGap gap s = .next t) :
    upOf t.links = upOf s.links := by
  cases h
  refine s.upOf_onLink _ _ fun k => ?_
  split <;> rfl

theorem upOf_execLineFramingFault {link : LinkNo} {s t : State} (h : execLineFramingFault link s = .next t) :
    upOf t.links = upOf s.links := by
  cases h
  exact s.upOf_onLink _ _ fun _ => rfl

theorem upOf_execMessageAbandoned {link : LinkNo} {cause : AbandonCause} {s t : State} (h : execMessageAbandoned link cause s =
    .next t) :
    upOf t.links = upOf s.links := by
  cases h
  exact s.upOf_onLink _ _ fun _ => rfl

theorem upOf_execMessageReceived {link : LinkNo} {bytes : List Byte} {s t : State} (h : execMessageReceived link bytes s =
    .next t) :
    upOf t.links = upOf s.links := by
  cases h
  have hvalid : ∀ u : State, upOf (u.onLink link (fun k => { k with lastValid := s.now, discarding := false })).links =
    upOf u.links :=
    fun u => u.upOf_onLink _ _ fun _ => rfl
  dsimp only
  split
  · rw [State.upOf_onLink _ _ Link.damaged fun _ => rfl, hvalid]
  · split
    · rw [State.upOf_takeRequest, hvalid]
    · refine (State.upOf_onLink _ _ _ fun k => ?_).trans (hvalid s)
      rfl

theorem upOf_execMessageSent {link : LinkNo} {s t : State} (h : execMessageSent link s = .next t) :
    upOf t.links = upOf s.links := by
  cases h
  refine s.upOf_onLink _ _ fun k => ?_
  split
  · exact k.up_sent
  · rfl

theorem upOf_execStallExpiry {crane : CraneNo} {s t : State} (h : execStallExpiry crane s = .next t) :
    upOf t.links = upOf s.links := by
  cases h
  split <;> simp

theorem upOf_execCraneWithdrawal {entry : EntryNo} {s t : State} (h : execCraneWithdrawal entry s = .next t) :
    upOf t.links = upOf s.links := by
  cases h
  (repeat' split) <;> simp

theorem upOf_execReeferWithdrawal {entry : EntryNo} {s t : State} (h : execReeferWithdrawal entry s = .next t) :
    upOf t.links = upOf s.links := by
  cases h
  (repeat' split) <;> simp

theorem upOf_execSilenceExpiry {entry : EntryNo} {s t : State} (h : execSilenceExpiry entry s = .next t) :
    upOf t.links = upOf s.links := by
  cases h
  split <;> simp

theorem upOf_execSteerDone {head : HeadNo} {answer : List Byte} {s t : State} (h : execSteerDone head answer s = .next t) :
    upOf t.links = upOf s.links := by
  cases h
  (repeat' split) <;> simp

theorem upOf_execSteerRefused {head : HeadNo} {answer : List Byte} {s t : State} (h : execSteerRefused head answer s = .next t) :
    upOf t.links = upOf s.links := by
  cases h
  (repeat' split) <;> simp

theorem upOf_execReleaseAnswered {head : HeadNo} {answer : List Byte} {s t : State} (h : execReleaseAnswered head answer s =
    .next t) :
    upOf t.links = upOf s.links := by
  cases h
  (repeat' split) <;> simp

theorem upOf_execSweepResult {head : HeadNo} {answer : List Byte} {s t : State} (h : execSweepResult head answer s = .next t) :
    upOf t.links = upOf s.links := by
  cases h
  split <;> simp

theorem upOf_execSweepRefused {head : HeadNo} {answer : List Byte} {s t : State} (h : execSweepRefused head answer s = .next t) :
    upOf t.links = upOf s.links := by
  cases h
  (repeat' split) <;> simp

theorem upOf_execProbeAnswered {head : HeadNo} {answer : List Byte} {s t : State} (h : execProbeAnswered head answer s =
    .next t) :
    upOf t.links = upOf s.links := by
  cases h
  (repeat' split) <;> simp

theorem upOf_execUnmatchedAnswer {head : HeadNo} {answer : List Byte} {s t : State} (h : execUnmatchedAnswer head answer s =
    .next t) :
    upOf t.links = upOf s.links := by
  cases h
  split <;> simp

theorem upOf_execAnswerLimitExpiry {head : HeadNo} {s t : State} (h : execAnswerLimitExpiry head s = .next t) :
    upOf t.links = upOf s.links := by
  cases h
  split <;> simp

theorem upOf_execProbeTime {head : HeadNo} {s t : State} (h : execProbeTime head s = .next t) :
    upOf t.links = upOf s.links := by
  cases h
  (repeat' split) <;> simp

theorem upOf_execSweepRetryTime {head : HeadNo} {s t : State} (h : execSweepRetryTime head s = .next t) :
    upOf t.links = upOf s.links := by
  cases h
  (repeat' split) <;> simp

theorem upOf_execSurveyDue {head : HeadNo} {s t : State} (h : execSurveyDue head s = .next t) :
    upOf t.links = upOf s.links := by
  cases h
  split <;> simp

theorem upOf_execSurveyOverdue {head : HeadNo} {s t : State} (h : execSurveyOverdue head s = .next t) :
    upOf t.links = upOf s.links := by
  cases h
  split <;> simp

theorem upOf_execWaitExpiry {place : Fin 16} {s t : State} (h : execWaitExpiry place s = .next t) :
    upOf t.links = upOf s.links := by
  cases h
  (repeat' split) <;> simp

theorem upOf_execPauseRepeat {s t : State} (h : execPauseRepeat s = .next t) :
    upOf t.links = upOf s.links := by
  cases h
  (repeat' split) <;> simp

theorem upOf_execDeadlineExpiry {frame : FrameId} {s t : State} (h : execDeadlineExpiry frame s = .next t) :
    upOf t.links = upOf s.links := by
  cases h
  split <;> simp

theorem upOf_execDownlinkWithdrawal {entry : EntryNo} {s t : State} (h : execDownlinkWithdrawal entry s = .next t) :
    upOf t.links = upOf s.links := by
  cases h
  split <;> simp

theorem upOf_execBurstLimitExpiry {beam : BeamNo} {s t : State} (h : execBurstLimitExpiry beam s = .next t) :
    upOf t.links = upOf s.links := by
  cases h
  split <;> simp

theorem upOf_execMillisecondTick {s t : State} (h : execMillisecondTick s = .next t) :
    upOf t.links = upOf s.links := by
  cases h
  simp

theorem upOf_execSecondTick {s t : State} (h : execSecondTick s = .next t) :
    upOf t.links = upOf s.links := by
  cases h
  split <;> simp

theorem upOf_execStoreWriteEnd {memoryError : Bool} {contents : List Byte} {s t : State}
    (h : execStoreWriteEnd memoryError contents s = .next t) :
    upOf t.links = upOf s.links := by
  cases h
  (repeat' split) <;> simp

theorem upOf_execStoreWriteTimeout {contents : List Byte} {s t : State} (h : execStoreWriteTimeout contents s = .next t) :
    upOf t.links = upOf s.links := by
  cases h
  (repeat' split) <;> simp

theorem upOf_execRestartAnswer {s t : State} (h : execRestartAnswer s = .next t) :
    upOf t.links = upOf s.links := by
  cases h
  split <;> simp

theorem upOf_execSettingsLoadEnd {readA readB : Bool} {s t : State} (h : execSettingsLoadEnd readA readB s = .next t) :
    upOf t.links = upOf s.links := by
  cases h
  split
  · rfl
  · rw [State.firstSweeps_keepsAllBut _ .links (by simp)]
    funext l
    simp [upOf, State.firstChoice, State.handOut, look, State.link]

/-- The commands that move a link's being UP. -/
def movesUp : Instr → Bool
  | .linkUp _ | .linkDown _ _ | .pinReset => true
  | _ => false

theorem upOf_serveOf (code : ReqCode) (s : State) (r : Request) : upOf (serveOf code s r).links = upOf s.links := by
  cases code <;> simp [serveOf]

/-- No command moves a link's being UP but LINK_UP, LINK_DOWN and a pin reset. -/
theorem exec_upOf {c : Instr} (hc : movesUp c = false) {s t : State} (h : exec c s = .next t) : upOf t.links = upOf s.links := by
  refine exec_view (v := fun u : State => upOf u.links) h (fun _ _ => rfl)
    (fun code _ _ u r => upOf_serveOf code u r) fun hevent => ?_
  cases c with
  | fillMarkReceived a0 a1 => exact upOf_execFillMarkReceived h
  | fillMarkGap a0 => exact upOf_execFillMarkGap h
  | lineFramingFault a0 => exact upOf_execLineFramingFault h
  | messageAbandoned a0 a1 => exact upOf_execMessageAbandoned h
  | messageReceived a0 a1 => exact upOf_execMessageReceived h
  | messageSent a0 => exact upOf_execMessageSent h
  | stallExpiry a0 => exact upOf_execStallExpiry h
  | craneWithdrawal a0 => exact upOf_execCraneWithdrawal h
  | reeferWithdrawal a0 => exact upOf_execReeferWithdrawal h
  | silenceExpiry a0 => exact upOf_execSilenceExpiry h
  | steerDone a0 a1 => exact upOf_execSteerDone h
  | steerRefused a0 a1 => exact upOf_execSteerRefused h
  | releaseAnswered a0 a1 => exact upOf_execReleaseAnswered h
  | sweepResult a0 a1 => exact upOf_execSweepResult h
  | sweepRefused a0 a1 => exact upOf_execSweepRefused h
  | probeAnswered a0 a1 => exact upOf_execProbeAnswered h
  | unmatchedAnswer a0 a1 => exact upOf_execUnmatchedAnswer h
  | answerLimitExpiry a0 => exact upOf_execAnswerLimitExpiry h
  | probeTime a0 => exact upOf_execProbeTime h
  | sweepRetryTime a0 => exact upOf_execSweepRetryTime h
  | surveyDue a0 => exact upOf_execSurveyDue h
  | surveyOverdue a0 => exact upOf_execSurveyOverdue h
  | waitExpiry a0 => exact upOf_execWaitExpiry h
  | pauseRepeat => exact upOf_execPauseRepeat h
  | deadlineExpiry a0 => exact upOf_execDeadlineExpiry h
  | downlinkWithdrawal a0 => exact upOf_execDownlinkWithdrawal h
  | burstLimitExpiry a0 => exact upOf_execBurstLimitExpiry h
  | millisecondTick => exact upOf_execMillisecondTick h
  | secondTick => exact upOf_execSecondTick h
  | storeWriteEnd a0 a1 => exact upOf_execStoreWriteEnd h
  | storeWriteTimeout a0 => exact upOf_execStoreWriteTimeout h
  | restartAnswer => exact upOf_execRestartAnswer h
  | settingsLoadEnd a0 a1 => exact upOf_execSettingsLoadEnd h
  | linkUp l => cases hc
  | linkDown l receiving => cases hc
  | pinReset => cases hc
  | _ => cases hevent

end Sys2Proof.Machine
end

section
/-! PROOFS. The blocks that the pool has given out (R92): what free blocks, waiting frames, frames in flight and deliveries
hold together,
and that no operation changes the sum. -/

namespace Sys2Proof.Machine

/-! ### The sum -/

/-- Blocks of the frames in flight, by beam. -/
def flightBlocks (f : BeamNo → Option Burst) : Nat := (allBeams.map (fun b => framesBlocks (burstFrames (f b)))).sum

/-- Free blocks and the blocks of waiting frames, of frames in flight and of deliveries. -/
def blocksIn (p : Pool) (d : Downlink) (c : BeamCtl) : Nat :=
  p.free + framesBlocks d.waiting + flightBlocks (fun b => (look c.beams b).burst) +
    (allLinks.map (fun l => deliveriesBlocks (look p.queues l))).sum

theorem framesBlocks_append (fs gs : List Frame) : framesBlocks (fs ++ gs) = framesBlocks fs + framesBlocks gs := by
  simp [framesBlocks]

theorem deliveriesBlocks_append (ds es : List Delivery) :
    deliveriesBlocks (ds ++ es) = deliveriesBlocks ds + deliveriesBlocks es := by
  simp [deliveriesBlocks]

theorem framesBlocks_flatMap {β : Type} (f : β → List Frame) (bs : List β) :
    framesBlocks (bs.flatMap f) = (bs.map (fun b => framesBlocks (f b))).sum := by
  induction bs with
  | nil => rfl
  | cons b bs ih => simp [framesBlocks_append, ih]

theorem State.framesBlocks_inFlight (s : State) : framesBlocks s.inFlight = flightBlocks s.burstAt := by
  rw [State.inFlight_eq, framesBlocks_flatMap]
  simp only [State.frames_beam, flightBlocks]

theorem State.blocksIn_eq (s : State) : blocksIn s.pool s.downlink s.beamCtl =
    s.pool.free + framesBlocks s.downlink.waiting + framesBlocks s.inFlight + s.deliveryBlocks := by
  rw [State.framesBlocks_inFlight]
  rfl

theorem State.blocksIn_burstAt (s : State) (p : Pool) (d : Downlink) : blocksIn p d s.beamCtl =
    p.free + framesBlocks d.waiting + flightBlocks s.burstAt + (allLinks.map (fun l => deliveriesBlocks (look p.queues l))).sum :=
      rfl

@[simp] theorem blocksIn_counted (p : Pool) (d : Downlink) (c : BeamCtl) (ns : Vector Nat 13) :
    blocksIn { p with counters := ns } d c = blocksIn p d c := rfl

theorem blocksIn_of_burstAt {s t : State} (p : Pool) (d : Downlink) (h : t.burstAt = s.burstAt) :
    blocksIn p d t.beamCtl = blocksIn p d s.beamCtl :=
  congrArg (fun f => p.free + framesBlocks d.waiting + flightBlocks f +
    (allLinks.map (fun l => deliveriesBlocks (look p.queues l))).sum) h

theorem State.blocks_setBeam_same (p : Pool) (d : Downlink) {s : State} {b : BeamNo} {x : Beam} (h : x.burst = (s.beam b).burst) :
    blocksIn p d (s.setBeam b x).beamCtl = blocksIn p d s.beamCtl :=
  blocksIn_of_burstAt p d (State.burstAt_setBeam_same h)

@[simp] theorem foldl_blocksIn {β : Type} {f : State → β → State}
    (h : ∀ (u : State) (b : β), blocksIn (f u b).pool (f u b).downlink (f u b).beamCtl = blocksIn u.pool u.downlink u.beamCtl)
    (s : State) (bs : List β) :
    blocksIn (bs.foldl f s).pool (bs.foldl f s).downlink (bs.foldl f s).beamCtl = blocksIn s.pool s.downlink s.beamCtl :=
  foldl_keeps (fun u : State => blocksIn u.pool u.downlink u.beamCtl) f h bs s


/-- A sum over distinct indices, one of whose summands changes. -/
theorem sum_map_change {β : Type} [DecidableEq β] (l : List β) (hl : l.Nodup) (f g : β → Nat) (b : β) (hb : b ∈ l)
    (hother : ∀ c, c ≠ b → g c = f c) : (l.map g).sum + f b = (l.map f).sum + g b := by
  induction l with
  | nil => cases hb
  | cons c l ih =>
    obtain ⟨hc, hl⟩ := List.nodup_cons.mp hl
    simp only [List.map_cons, List.sum_cons]
    by_cases hcb : c = b
    · subst hcb
      have hsame : l.map g = l.map f := List.map_congr_left fun d hd => hother d fun hdc => hc (hdc ▸ hd)
      rw [hsame]
      omega
    · have hrest := ih hl ((List.mem_cons.mp hb).resolve_left (Ne.symm hcb))
      rw [hother c hcb]
      omega

/-- A link's delivery queue is replaced: the blocks of all queues change by that queue's. -/
theorem deliveries_put (v : Vector (List Delivery) 4) (l : LinkNo) (q : List Delivery) :
    (allLinks.map (fun m => deliveriesBlocks (look (put v l q) m))).sum + deliveriesBlocks (look v l) =
      (allLinks.map (fun m => deliveriesBlocks (look v m))).sum + deliveriesBlocks q := by
  have h := sum_map_change allLinks (List.nodup_finRange 4) (fun m => deliveriesBlocks (look v m))
    (fun m => deliveriesBlocks (look (put v l q) m)) l (List.mem_finRange l) (fun m hm => by simp [hm])
  simpa using h

/-- A burst is gone from a beam: the blocks in flight change by that burst's. -/
theorem flightBlocks_update (f : BeamNo → Option Burst) (b : BeamNo) (o : Option Burst) :
    flightBlocks (Function.update f b o) + framesBlocks (burstFrames (f b)) = flightBlocks f + framesBlocks (burstFrames o) := by
  have h := sum_map_change allBeams (List.nodup_finRange 24) (fun c => framesBlocks (burstFrames (f c)))
    (fun c => framesBlocks (burstFrames (Function.update f b o c))) b (List.mem_finRange b) (fun c hc => by simp [hc])
  simpa [flightBlocks] using h

theorem framesBlocks_filter_add (p : Frame → Bool) (fs : List Frame) :
    framesBlocks (fs.filter p) + framesBlocks (fs.filter (fun f => !p f)) = framesBlocks fs := by
  induction fs with
  | nil => rfl
  | cons f fs ih =>
    simp only [framesBlocks] at ih ⊢
    cases hp : p f <;> simp [hp] <;> omega

theorem framesBlocks_map {g : Frame → Frame} (h : ∀ f, (g f).blocks = f.blocks) (fs : List Frame) :
    framesBlocks (fs.map g) = framesBlocks fs := by
  simp [framesBlocks, Function.comp_def, h]

/-- Frames that move from the waiting frames into a burst take their blocks with them. -/
theorem framesBlocks_moveOut (fs w : List Frame) :
    framesBlocks (moveOut fs w).1 + framesBlocks (moveOut fs w).2 = framesBlocks w := by
  induction fs generalizing w with
  | nil => simp [moveOut, framesBlocks]
  | cons f fs ih =>
    unfold moveOut
    split
    · next hf =>
      have hperm : framesBlocks w = f.blocks + framesBlocks (w.erase f) := by
        simpa [framesBlocks] using ((List.perm_cons_erase hf).map Frame.blocks).sum_eq
      have hrest := ih (w.erase f)
      simp only [framesBlocks, List.map_cons, List.sum_cons] at hrest hperm ⊢
      omega
    · exact ih w

theorem settle_blocks (now : Time) (f : Frame) (o : FrameOutcome) : (settle now f o).1.blocks = f.blocks := by
  unfold settle comeBack
  dsimp only
  (repeat' split) <;> rfl

/-- The frames of an ended burst return or are freed, each with its blocks. -/
theorem Burst.settled_blocks (u : Burst) (now : Time) (o : Nat → FrameOutcome) :
    framesBlocks (comingBack (u.settled now o)) + framesBlocks (goingOut (u.settled now o)) = framesBlocks u.frames := by
  have hsplit : ∀ fs : List (Frame × Settled),
      framesBlocks (comingBack fs) + framesBlocks (goingOut fs) = (fs.map (fun p => p.1.blocks)).sum := by
    intro fs
    induction fs with
    | nil => rfl
    | cons p fs ih =>
      simp only [comingBack, goingOut, framesBlocks, bne] at ih ⊢
      rw [List.map_cons, List.sum_cons, ← ih]
      cases hp : p.2 == Settled.returned <;> simp [hp] <;> omega
  have hblocks : ((u.settled now o).map (fun p => p.1.blocks)) = u.frames.map Frame.blocks := by
    unfold Burst.settled
    rw [List.map_map]
    conv_rhs => rw [← List.zipIdx_map_fst 0 u.frames, List.map_map]
    exact List.map_congr_left fun p _ => settle_blocks now p.1 _
  rw [hsplit, hblocks]
  rfl

theorem Pool.blocks_le_of_admits {p : Pool} {reserve n : Nat} {k : AllocKind} (h : p.admits reserve k n = true) : n ≤ p.free := by
  unfold Pool.admits at h
  split at h <;> simp at h <;> omega

@[simp] theorem foldl_blocksIn_frames {β : Type} {f : State → β → State} (c : BeamCtl)
    (h : ∀ (u : State) (b : β), blocksIn (f u b).pool (f u b).downlink c =
      blocksIn u.pool u.downlink c) (s : State) (bs : List β) :
    blocksIn (bs.foldl f s).pool (bs.foldl f s).downlink c = blocksIn s.pool s.downlink c :=
  foldl_keeps (fun u : State => blocksIn u.pool u.downlink c) f h bs s

@[simp] theorem foldl_blocksIn_downlink {β : Type} {f : State → β → State} (p : Pool) (c : BeamCtl)
    (h : ∀ (u : State) (b : β), blocksIn p (f u b).downlink c = blocksIn p u.downlink c) (s : State) (bs : List β) :
    blocksIn p (bs.foldl f s).downlink c = blocksIn p s.downlink c :=
  foldl_keeps (fun u : State => blocksIn p u.downlink c) f h bs s

@[simp] theorem foldl_blocksIn_pool {β : Type} {f : State → β → State} (d : Downlink) (c : BeamCtl)
    (h : ∀ (u : State) (b : β), blocksIn (f u b).pool d c = blocksIn u.pool d c) (s : State) (bs : List β) :
    blocksIn (bs.foldl f s).pool d c = blocksIn s.pool d c :=
  foldl_keeps (fun u : State => blocksIn u.pool d c) f h bs s

/-! ### Operations of the beam controller alone -/

@[simp] theorem State.blocks_setHead (p : Pool) (d : Downlink) (s : State) (h : HeadNo) (x : Head) :
    blocksIn p d (s.setHead h x).beamCtl = blocksIn p d s.beamCtl :=
  blocksIn_of_burstAt p d (s.burstAt_setHead h x)

@[simp] theorem State.blocks_setWaitList (p : Pool) (d : Downlink) (s : State) (w : List WaitEntry) :
    blocksIn p d (s.setWaitList w).beamCtl = blocksIn p d s.beamCtl :=
  blocksIn_of_burstAt p d (s.burstAt_setWaitList w)

@[simp] theorem State.blocks_sendNext (p : Pool) (d : Downlink) (s : State) (h : HeadNo) :
    blocksIn p d (s.sendNext h).beamCtl = blocksIn p d s.beamCtl :=
  blocksIn_of_burstAt p d (s.burstAt_sendNext h)

@[simp] theorem State.blocks_pushCmd (p : Pool) (d : Downlink) (s : State) (h : HeadNo) (c : HeadCmd) :
    blocksIn p d (s.pushCmd h c).beamCtl = blocksIn p d s.beamCtl :=
  blocksIn_of_burstAt p d (s.burstAt_pushCmd h c)

@[simp] theorem State.blocks_endOutstanding (p : Pool) (d : Downlink) (s : State) (h : HeadNo) :
    blocksIn p d (s.endOutstanding h).beamCtl = blocksIn p d s.beamCtl :=
  blocksIn_of_burstAt p d (s.burstAt_endOutstanding h)

@[simp] theorem State.blocks_steer (p : Pool) (d : Downlink) (s : State) (b : BeamNo) (r : OpenReq) (g : SegNo) (o : Bool) :
    blocksIn p d (s.steer b r g o).beamCtl = blocksIn p d s.beamCtl :=
  blocksIn_of_burstAt p d (s.burstAt_steer b r g o)

@[simp] theorem State.blocks_join (p : Pool) (d : Downlink) (s : State) (b : BeamNo) (r : OpenReq) (g : SegNo) :
    blocksIn p d (s.join b r g).beamCtl = blocksIn p d s.beamCtl :=
  blocksIn_of_burstAt p d (s.burstAt_join b r g)

@[simp] theorem State.blocks_joinWaiting (p : Pool) (d : Downlink) (s : State) (b : BeamNo) (g : SegNo) :
    blocksIn p d (s.joinWaiting b g).beamCtl = blocksIn p d s.beamCtl :=
  blocksIn_of_burstAt p d (s.burstAt_joinWaiting b g)

@[simp] theorem State.blocks_serveIdle (p : Pool) (d : Downlink) (s : State) (b : BeamNo) :
    blocksIn p d (s.serveIdle b).beamCtl = blocksIn p d s.beamCtl :=
  blocksIn_of_burstAt p d (s.burstAt_serveIdle b)

@[simp] theorem State.blocks_serveOpen (p : Pool) (d : Downlink) (s : State) (b : BeamNo) :
    blocksIn p d (s.serveOpen b).beamCtl = blocksIn p d s.beamCtl :=
  blocksIn_of_burstAt p d (s.burstAt_serveOpen b)

@[simp] theorem State.blocks_trySweep (p : Pool) (d : Downlink) (s : State) (h : HeadNo) :
    blocksIn p d (s.trySweep h).beamCtl = blocksIn p d s.beamCtl :=
  blocksIn_of_burstAt p d (s.burstAt_trySweep h)

@[simp] theorem State.blocks_becameIdle (p : Pool) (d : Downlink) (s : State) (b : BeamNo) :
    blocksIn p d (s.becameIdle b).beamCtl = blocksIn p d s.beamCtl :=
  blocksIn_of_burstAt p d (s.burstAt_becameIdle b)

@[simp] theorem State.blocks_closeBeam (p : Pool) (d : Downlink) (s : State) (b : BeamNo) (r : Option LossReason) :
    blocksIn p d (s.closeBeam b r).beamCtl = blocksIn p d s.beamCtl :=
  blocksIn_of_burstAt p d (s.burstAt_closeBeam b r)

@[simp] theorem State.blocks_burstEnded (p : Pool) (d : Downlink) (s : State) (b : BeamNo) (l : LinkNo) :
    blocksIn p d (s.burstEnded b l).beamCtl = blocksIn p d s.beamCtl :=
  blocksIn_of_burstAt p d (s.burstAt_burstEnded b l)

@[simp] theorem State.blocks_loseBeam (p : Pool) (d : Downlink) (s : State) (b : BeamNo) (g : SegNo) (r : LossReason) :
    blocksIn p d (s.loseBeam b g r).beamCtl = blocksIn p d s.beamCtl :=
  blocksIn_of_burstAt p d (s.burstAt_loseBeam b g r)

@[simp] theorem State.blocks_cellLost (p : Pool) (d : Downlink) (s : State) (h : HeadNo) (g : SegNo) (r : LossReason) :
    blocksIn p d (s.cellLost h g r).beamCtl = blocksIn p d s.beamCtl :=
  blocksIn_of_burstAt p d (s.burstAt_cellLost h g r)

@[simp] theorem State.blocks_steerOrWait (p : Pool) (d : Downlink) (s : State) (q : OpenReq) (g : SegNo) (o : Bool) :
    blocksIn p d (s.steerOrWait q g o).beamCtl = blocksIn p d s.beamCtl :=
  blocksIn_of_burstAt p d (s.burstAt_steerOrWait q g o)

@[simp] theorem State.blocks_leaveBeam (p : Pool) (d : Downlink) (s : State) (b : BeamNo) (l : LinkNo) :
    blocksIn p d (s.leaveBeam b l).beamCtl = blocksIn p d s.beamCtl :=
  blocksIn_of_burstAt p d (s.burstAt_leaveBeam b l)

@[simp] theorem State.blocks_setSurvey (p : Pool) (d : Downlink) (s : State) (h : HeadNo) (v : SurveyStatus) :
    blocksIn p d (s.setSurvey h v).beamCtl = blocksIn p d s.beamCtl :=
  blocksIn_of_burstAt p d (s.burstAt_setSurvey h v)

@[simp] theorem State.blocks_makeDue (p : Pool) (d : Downlink) (s : State) (h : HeadNo) :
    blocksIn p d (s.makeDue h).beamCtl = blocksIn p d s.beamCtl :=
  blocksIn_of_burstAt p d (s.burstAt_makeDue h)

@[simp] theorem State.blocks_steered (p : Pool) (d : Downlink) (s : State) (b : BeamNo) :
    blocksIn p d (s.steered b).beamCtl = blocksIn p d s.beamCtl :=
  blocksIn_of_burstAt p d (s.burstAt_steered b)

@[simp] theorem State.blocks_requeue (p : Pool) (d : Downlink) (s : State) (w : List WaitEntry) :
    blocksIn p d (s.requeue w).beamCtl = blocksIn p d s.beamCtl :=
  blocksIn_of_burstAt p d (s.burstAt_requeue w)

@[simp] theorem State.blocks_released (p : Pool) (d : Downlink) (s : State) (b : BeamNo) (r : Bool) :
    blocksIn p d (s.released b r).beamCtl = blocksIn p d s.beamCtl :=
  blocksIn_of_burstAt p d (s.burstAt_released b r)

@[simp] theorem State.blocks_overdueBeam (p : Pool) (d : Downlink) (s : State) (b : BeamNo) :
    blocksIn p d (s.overdueBeam b).beamCtl = blocksIn p d s.beamCtl :=
  blocksIn_of_burstAt p d (s.burstAt_overdueBeam b)

@[simp] theorem State.blocks_makeOverdue (p : Pool) (d : Downlink) (s : State) (h : HeadNo) :
    blocksIn p d (s.makeOverdue h).beamCtl = blocksIn p d s.beamCtl :=
  blocksIn_of_burstAt p d (s.burstAt_makeOverdue h)

@[simp] theorem State.blocks_expireWait (p : Pool) (d : Downlink) (s : State) (w : WaitEntry) :
    blocksIn p d (s.expireWait w).beamCtl = blocksIn p d s.beamCtl :=
  blocksIn_of_burstAt p d (s.burstAt_expireWait w)

@[simp] theorem State.blocks_closeIfEmpty (p : Pool) (d : Downlink) (s : State) (b : BeamNo) :
    blocksIn p d (s.closeIfEmpty b).beamCtl = blocksIn p d s.beamCtl :=
  blocksIn_of_burstAt p d (s.burstAt_closeIfEmpty b)

/-! ### Operations that write the pool or the downlink queues -/

@[simp] theorem State.waiting_bumpDown (s : State) (k : Fin 21) : (s.bumpDown k).downlink.waiting = s.downlink.waiting := rfl
@[simp] theorem State.waiting_bumpDownBy (s : State) (k : Fin 21) (n : Nat) :
    (s.bumpDownBy k n).downlink.waiting = s.downlink.waiting := rfl

@[simp] theorem State.waiting_noteSettled (s : State) (p : Frame × Settled) :
    (s.noteSettled p).downlink.waiting = s.downlink.waiting := by
  unfold State.noteSettled
  (repeat' split) <;> simp

/-- What a drop leaves of the waiting frames, and what it frees (R111 to R114). -/
theorem State.waiting_dropFrames (s : State) (p : Frame → Bool) (x : FrameFate) (k : Fin 21) :
    (s.dropFrames p x k).downlink.waiting = s.downlink.waiting.filter (fun f => !p f) := by
  unfold State.dropFrames
  simp [foldl_keeps (fun u : State => u.downlink.waiting), State.setWaiting]

theorem State.pool_dropFrames (s : State) (p : Frame → Bool) (x : FrameFate) (k : Fin 21) :
    (s.dropFrames p x k).pool = { s.pool with free := s.pool.free + framesBlocks (s.downlink.waiting.filter p) } := by
  unfold State.dropFrames
  simp [foldl_keeps State.pool, State.setFree]

/-- An admitted frame waits at the back, and its blocks are no longer free (R108). -/
theorem State.waiting_queueFrame (s : State) (f : Frame) : (s.queueFrame f).downlink.waiting = s.downlink.waiting ++ [f] := by
  unfold State.queueFrame
  simp

theorem State.pool_queueFrame (s : State) (f : Frame) :
    (s.queueFrame f).pool = { s.pool with free := s.pool.free - f.blocks } := by
  unfold State.queueFrame
  simp [State.setFree]

/-- The frames of an ended burst that return wait ahead of the others; the blocks of the rest are free (R119). -/
theorem State.waiting_settleBurst (s : State) (b : BeamNo) (u : Burst) (o : Nat → FrameOutcome) :
    (s.settleBurst b u o).downlink.waiting = comingBack (u.settled s.now o) ++ s.downlink.waiting := by
  unfold State.settleBurst
  simp [foldl_keeps (fun u : State => u.downlink.waiting), State.setWaiting]

theorem State.pool_settleBurst (s : State) (b : BeamNo) (u : Burst) (o : Nat → FrameOutcome) :
    (s.settleBurst b u o).pool = { s.pool with free := s.pool.free + framesBlocks (goingOut (u.settled s.now o)) } := by
  unfold State.settleBurst
  simp [foldl_keeps State.pool, State.setFree]

@[simp] theorem State.blocks_bumpPool (dn : Downlink) (bc : BeamCtl) (s : State) (k : Fin 13) :
    blocksIn (s.bumpPool k).pool dn bc = blocksIn s.pool dn bc := rfl

@[simp] theorem State.blocks_bumpDown (pl : Pool) (bc : BeamCtl) (s : State) (k : Fin 21) :
    blocksIn pl (s.bumpDown k).downlink bc = blocksIn pl s.downlink bc := rfl

@[simp] theorem State.blocks_bumpDownBy (pl : Pool) (bc : BeamCtl) (s : State) (k : Fin 21) (n : Nat) :
    blocksIn pl (s.bumpDownBy k n).downlink bc = blocksIn pl s.downlink bc := rfl

@[simp] theorem State.blocks_judge (dn : Downlink) (bc : BeamCtl) (s : State) :
    blocksIn (s.judge).pool dn bc = blocksIn s.pool dn bc := by
  unfold State.judge
  (repeat' split) <;> simp [blocksIn]

@[simp] theorem State.blocks_dropCopy (dn : Downlink) (bc : BeamCtl) (s : State) (l : LinkNo) (k : Fin 13) :
    blocksIn (s.dropCopy l k).pool dn bc = blocksIn s.pool dn bc := rfl

@[simp] theorem State.blocks_offerCopy (dn : Downlink) (bc : BeamCtl) (s : State) (l : LinkNo) (c : Content) :
    blocksIn (s.offerCopy l c).pool dn bc = blocksIn s.pool dn bc := by
  unfold State.offerCopy
  dsimp only
  split
  · rfl
  · split
    · simp
    · split
      · simp
      · next hfree =>
        have hqueues := deliveries_put s.pool.queues l (look s.pool.queues l ++
          [{ content := c, placed := s.now, dropsBefore := look s.pool.dropped l }])
        have hcopy : deliveriesBlocks (look s.pool.queues l ++
            [{ content := c, placed := s.now, dropsBefore := look s.pool.dropped l }]) =
            deliveriesBlocks (look s.pool.queues l) + c.blocks := by
          simp [deliveriesBlocks, Delivery.blocks]
        split <;> simp only [blocksIn, State.raise_frame] <;> omega

@[simp] theorem State.blocks_dropFrames (bc : BeamCtl) (s : State) (p : Frame → Bool) (x : FrameFate) (k : Fin 21) :
    blocksIn (s.dropFrames p x k).pool (s.dropFrames p x k).downlink bc = blocksIn s.pool s.downlink bc := by
  have hsplit := framesBlocks_filter_add p s.downlink.waiting
  simp only [blocksIn, State.waiting_dropFrames, State.pool_dropFrames]
  omega

theorem State.blocks_queueFrame (bc : BeamCtl) {s : State} {f : Frame} (h : f.blocks ≤ s.pool.free) :
    blocksIn (s.queueFrame f).pool (s.queueFrame f).downlink bc = blocksIn s.pool s.downlink bc := by
  simp only [blocksIn, State.waiting_queueFrame, State.pool_queueFrame, framesBlocks_append]
  simp only [framesBlocks, List.map_cons, List.map_nil, List.sum_cons, List.sum_nil]
  omega

@[simp] theorem State.blocks_noteSettled (pl : Pool) (bc : BeamCtl) (s : State) (p : Frame × Settled) :
    blocksIn pl (s.noteSettled p).downlink bc = blocksIn pl s.downlink bc := by
  simp [blocksIn]

theorem State.blocks_settleBurst {s : State} {b : BeamNo} {u : Burst} (h : (s.beam b).burst = some u) (o : Nat → FrameOutcome) :
    blocksIn (s.settleBurst b u o).pool (s.settleBurst b u o).downlink (s.settleBurst b u o).beamCtl =
      blocksIn s.pool s.downlink s.beamCtl := by
  have hsettled := u.settled_blocks s.now o
  have hflight := flightBlocks_update s.burstAt b none
  have hb : s.burstAt b = some u := h
  have hgone : framesBlocks (burstFrames none) = 0 := rfl
  have hburst : framesBlocks (burstFrames (some u)) = framesBlocks u.frames := rfl
  rw [← State.burstAt_settleBurst s b u o, hb] at hflight
  rw [State.blocksIn_burstAt, State.blocksIn_burstAt, State.waiting_settleBurst, State.pool_settleBurst, framesBlocks_append]
  dsimp only
  omega

@[simp] theorem State.blocks_deriveCondition (bc : BeamCtl) (s : State) (c : CraneNo) :
    blocksIn (s.deriveCondition c).pool (s.deriveCondition c).downlink bc = blocksIn s.pool s.downlink bc := by
  unfold State.deriveCondition
  dsimp only
  (repeat' split) <;> simp

@[simp] theorem State.blocks_queuePoll (bc : BeamCtl) (s : State) (r : RackNo) (e : EntryNo) :
    blocksIn ((s.queuePoll r e).1).pool ((s.queuePoll r e).1).downlink bc = blocksIn s.pool s.downlink bc := by
  unfold State.queuePoll
  dsimp only
  (repeat' split)
  · rfl
  · next h =>
    simpa using State.blocks_queueFrame bc (Pool.blocks_le_of_admits h)
  · simp

@[simp] theorem State.blocks_askPoll (bc : BeamCtl) (s : State) (r : RackNo) :
    blocksIn (s.askPoll r).pool (s.askPoll r).downlink bc = blocksIn s.pool s.downlink bc := by
  unfold State.askPoll
  dsimp only
  (repeat' split) <;> simp

@[simp] theorem State.blocks_rackSilent (bc : BeamCtl) (s : State) (r : RackNo) :
    blocksIn (s.rackSilent r).pool (s.rackSilent r).downlink bc = blocksIn s.pool s.downlink bc := by
  unfold State.rackSilent
  (repeat' split) <;> simp

@[simp] theorem State.blocks_reevaluateRack (bc : BeamCtl) (s : State) (r : RackNo) :
    blocksIn (s.reevaluateRack r).pool (s.reevaluateRack r).downlink bc = blocksIn s.pool s.downlink bc := by
  unfold State.reevaluateRack
  (repeat' split) <;> simp

@[simp] theorem State.blocks_goSilent (bc : BeamCtl) (s : State) (e : EntryNo) :
    blocksIn (s.goSilent e).pool (s.goSilent e).downlink bc = blocksIn s.pool s.downlink bc := by
  unfold State.goSilent
  dsimp only
  (repeat' split) <;> simp

@[simp] theorem State.blocks_followCrane (bc : BeamCtl) (s : State) (g : SegNo) (c : CraneNo) : 
    blocksIn (s.followCrane g c).pool (s.followCrane g c).downlink bc = blocksIn s.pool s.downlink bc := by
  unfold State.followCrane
  (repeat' split) <;> simp

@[simp] theorem State.blocks_followRack (bc : BeamCtl) (s : State) (g : SegNo) (c : RackNo) : 
    blocksIn (s.followRack g c).pool (s.followRack g c).downlink bc = blocksIn s.pool s.downlink bc := by
  unfold State.followRack
  (repeat' split) <;> simp

@[simp] theorem State.blocks_classChanged (bc : BeamCtl) (s : State) (g : SegNo) (x y : SegClass) :
    blocksIn (s.classChanged g x y).pool (s.classChanged g x y).downlink bc = blocksIn s.pool s.downlink bc := by
  rw [State.classChanged_eq]
  simp

@[simp] theorem State.blocks_rechoose (bc : BeamCtl) (s : State) (gs : List SegNo) :
    blocksIn (s.rechoose gs).pool (s.rechoose gs).downlink bc = blocksIn s.pool s.downlink bc := by
  unfold State.rechoose
  simp

theorem State.blocks_endBurst {s : State} {b : BeamNo} {u : Burst} (h : (s.beam b).burst = some u) (o : Nat → FrameOutcome) :
    blocksIn (s.endBurst b u o).pool (s.endBurst b u o).downlink (s.endBurst b u o).beamCtl =
      blocksIn s.pool s.downlink s.beamCtl := by
  unfold State.endBurst
  simpa using State.blocks_settleBurst h o

theorem State.blocks_forcedReturn {s : State} {b : BeamNo} {u : Burst} (h : (s.beam b).burst = some u) :
    blocksIn (s.forcedReturn b u).pool (s.forcedReturn b u).downlink (s.forcedReturn b u).beamCtl =
      blocksIn s.pool s.downlink s.beamCtl := by
  unfold State.forcedReturn
  simpa using State.blocks_settleBurst h (fun _ => .notSent)

/-- What it makes of the pool and of the waiting frames leaves their sum. -/
theorem State.blocks_sample_frames (bc : BeamCtl) (s : State) (h : HeadNo) (g : SegNo) (m k : Nat) (c : Fin 24) :
    blocksIn (s.sample h g m k c).pool (s.sample h g m k c).downlink bc = blocksIn s.pool s.downlink bc := by
  unfold State.sample
  dsimp only
  (repeat' split) <;> simp

@[simp] theorem State.blocks_sample (s : State) (h : HeadNo) (g : SegNo) (m k : Nat) (c : Fin 24) :
    blocksIn (s.sample h g m k c).pool (s.sample h g m k c).downlink (s.sample h g m k c).beamCtl =
      blocksIn s.pool s.downlink s.beamCtl := by
  rw [blocksIn_of_burstAt _ _ (s.burstAt_sample h g m k c), State.blocks_sample_frames]

@[simp] theorem State.blocks_burstSample (s : State) (b : BeamNo) (g : Option SegNo) (x y : Nat) :
    blocksIn (s.burstSample b g x y).pool (s.burstSample b g x y).downlink (s.burstSample b g x y).beamCtl =
      blocksIn s.pool s.downlink s.beamCtl := by
  unfold State.burstSample
  (repeat' split) <;> simp

@[simp] theorem State.blocks_beamFault (s : State) (b : BeamNo) :
    blocksIn (s.beamFault b).pool (s.beamFault b).downlink (s.beamFault b).beamCtl = blocksIn s.pool s.downlink s.beamCtl := by
  cases hb : (s.beam b).burst with
  | none =>
    have hsame : (s.beamFault b).burstAt = s.burstAt := by
      rw [State.burstAt_beamFault]
      exact Function.update_eq_self_iff.mpr hb.symm
    have hkeeps : (s.beamFault b).pool = s.pool ∧ (s.beamFault b).downlink = s.downlink := by
      unfold State.beamFault
      simp only [hb]
      constructor <;> (repeat' split) <;> simp [foldl_keeps State.pool, foldl_keeps State.downlink]
    rw [blocksIn_of_burstAt _ _ hsame, hkeeps.1, hkeeps.2]
  | some u =>
    have hreturned : ∀ v : State, v.pool = s.pool → v.downlink = s.downlink → v.beamCtl = s.beamCtl →
        (s.beamFault b).pool = (v.forcedReturn b u).pool → (s.beamFault b).downlink = (v.forcedReturn b u).downlink →
        blocksIn (s.beamFault b).pool (s.beamFault b).downlink (s.beamFault b).beamCtl =
          blocksIn s.pool s.downlink s.beamCtl := by
      intro v hp hd hc hpool hdown
      have hsame : (s.beamFault b).burstAt = (v.forcedReturn b u).burstAt := by
        rw [State.burstAt_beamFault, State.burstAt_forcedReturn, State.burstAt_of_beamCtl hc]
      have hblocks := State.blocks_forcedReturn (s := v) (b := b) (u := u) (by rw [State.beam_of_beamCtl hc, hb])
      rw [blocksIn_of_burstAt _ _ hsame, hpool, hdown, hblocks, hp, hd, hc]
    refine hreturned (if (s.beam b).state = .opened then s.raiseLost b .headFault else s) ?_ ?_ ?_ ?_ ?_
    iterate 3 split <;> simp
    iterate 2
      unfold State.beamFault
      simp only [hb]
      split <;> simp [foldl_keeps State.pool, foldl_keeps State.downlink]

@[simp] theorem State.blocks_headFault (s : State) (h : HeadNo) :
    blocksIn (s.headFault h).pool (s.headFault h).downlink (s.headFault h).beamCtl = blocksIn s.pool s.downlink s.beamCtl := by
  unfold State.headFault
  simp

@[simp] theorem State.blocks_copyTelemetry (dn : Downlink) (bc : BeamCtl) (s : State) (m : LinkSet) (t : TelemetryCopy) :
    blocksIn (s.copyTelemetry m t).pool dn bc = blocksIn s.pool dn bc := by
  unfold State.copyTelemetry
  simp

@[simp] theorem State.blocks_takeTelemetry (bc : BeamCtl) (s : State) (e : EntryNo) (c : CraneNo) (b : Bool) (f : List Byte) :
    blocksIn (s.takeTelemetry e c b f).pool (s.takeTelemetry e c b f).downlink bc = blocksIn s.pool s.downlink bc := by
  unfold State.takeTelemetry
  dsimp only
  (repeat' split) <;> simp

@[simp] theorem State.blocks_offerDigests (dn : Downlink) (bc : BeamCtl) (s : State) (r : RackNo) (d : Digest) (c : Bool) :
    blocksIn (s.offerDigests r d c).pool dn bc = blocksIn s.pool dn bc := by
  unfold State.offerDigests
  refine foldl_blocksIn_pool dn bc (fun u l => ?_) s allLinks
  dsimp only
  (repeat' split) <;> simp

@[simp] theorem State.blocks_acceptReport (dn : Downlink) (bc : BeamCtl) (s : State) (e : EntryNo) (r : RackNo) (k : RackRec)
    (c : Byte) (q : List Reading) :
    blocksIn (s.acceptReport e r k c q).pool dn bc = blocksIn s.pool dn bc := by
  unfold State.acceptReport
  dsimp only
  (repeat' split) <;> simp

@[simp] theorem State.blocks_takeReport (dn : Downlink) (bc : BeamCtl) (s : State) (e : EntryNo) (r : RackNo) (f : List Byte) :
    blocksIn (s.takeReport e r f).pool dn bc = blocksIn s.pool dn bc := by
  unfold State.takeReport
  dsimp only
  (repeat' split) <;> simp

@[simp] theorem State.blocks_moveEntry (bc : BeamCtl) (s : State) (e : EntryNo) (g : SegNo) :
    blocksIn (s.moveEntry e g).pool (s.moveEntry e g).downlink bc = blocksIn s.pool s.downlink bc := by
  unfold State.moveEntry
  dsimp only
  (repeat' split) <;> simp

@[simp] theorem State.blocks_markCell (s : State) (h : HeadNo) (g : SegNo) (c : Cell) :
    blocksIn (s.markCell h g c).pool (s.markCell h g c).downlink (s.markCell h g c).beamCtl =
      blocksIn s.pool s.downlink s.beamCtl := by
  unfold State.markCell
  split <;> simp

@[simp] theorem State.blocks_unmarkCell (bc : BeamCtl) (s : State) (h : HeadNo) (g : SegNo) (c : Cell) :
    blocksIn (s.unmarkCell h g c).pool (s.unmarkCell h g c).downlink bc = blocksIn s.pool s.downlink bc := by
  unfold State.unmarkCell
  simp

/-- What it makes of the pool and of the waiting frames leaves their sum. -/
theorem State.blocks_steerRefused_frames (bc : BeamCtl) (s : State) (b : BeamNo) (g : SegNo) :
    blocksIn (s.steerRefused b g).pool (s.steerRefused b g).downlink bc = blocksIn s.pool s.downlink bc := by
  unfold State.steerRefused
  dsimp only
  split <;> simp [State.blocks_sample_frames]

@[simp] theorem State.blocks_steerRefused (s : State) (b : BeamNo) (g : SegNo) :
    blocksIn (s.steerRefused b g).pool (s.steerRefused b g).downlink (s.steerRefused b g).beamCtl =
      blocksIn s.pool s.downlink s.beamCtl := by
  rw [blocksIn_of_burstAt _ _ (s.burstAt_steerRefused b g), State.blocks_steerRefused_frames]

/-- What it makes of the pool and of the waiting frames leaves their sum. -/
theorem State.blocks_applySweep_frames (bc : BeamCtl) (s : State) (h : HeadNo) (m : List (Option Nat)) :
    blocksIn (s.applySweep h m).pool (s.applySweep h m).downlink bc = blocksIn s.pool s.downlink bc := by
  unfold State.applySweep
  simp

@[simp] theorem State.blocks_applySweep (s : State) (h : HeadNo) (m : List (Option Nat)) :
    blocksIn (s.applySweep h m).pool (s.applySweep h m).downlink (s.applySweep h m).beamCtl =
      blocksIn s.pool s.downlink s.beamCtl := by
  rw [blocksIn_of_burstAt _ _ (s.burstAt_applySweep h m), State.blocks_applySweep_frames]

/-- What it makes of the pool and of the waiting frames leaves their sum. -/
theorem State.blocks_swept_frames (bc : BeamCtl) (s : State) (h : HeadNo) (m : List (Option Nat)) :
    blocksIn (s.swept h m).pool (s.swept h m).downlink bc = blocksIn s.pool s.downlink bc := by
  unfold State.swept
  simp [State.blocks_applySweep_frames]

@[simp] theorem State.blocks_swept (s : State) (h : HeadNo) (m : List (Option Nat)) :
    blocksIn (s.swept h m).pool (s.swept h m).downlink (s.swept h m).beamCtl = blocksIn s.pool s.downlink s.beamCtl := by
  rw [blocksIn_of_burstAt _ _ (s.burstAt_swept h m), State.blocks_swept_frames]

/-- What it makes of the pool and of the waiting frames leaves their sum. -/
theorem State.blocks_recoverHead_frames (bc : BeamCtl) (s : State) (h : HeadNo) :
    blocksIn (s.recoverHead h).pool (s.recoverHead h).downlink bc = blocksIn s.pool s.downlink bc := by
  unfold State.recoverHead
  simp

@[simp] theorem State.blocks_recoverHead (s : State) (h : HeadNo) :
    blocksIn (s.recoverHead h).pool (s.recoverHead h).downlink (s.recoverHead h).beamCtl =
      blocksIn s.pool s.downlink s.beamCtl := by
  rw [blocksIn_of_burstAt _ _ (s.burstAt_recoverHead h), State.blocks_recoverHead_frames]

@[simp] theorem State.blocks_probed (s : State) (h : HeadNo) :
    blocksIn (s.probed h).pool (s.probed h).downlink (s.probed h).beamCtl = blocksIn s.pool s.downlink s.beamCtl := by
  unfold State.probed
  split <;> simp

@[simp] theorem State.blocks_answerRunsOut (s : State) (h : HeadNo) :
    blocksIn (s.answerRunsOut h).pool (s.answerRunsOut h).downlink (s.answerRunsOut h).beamCtl =
      blocksIn s.pool s.downlink s.beamCtl := by
  unfold State.answerRunsOut
  split <;> simp

@[simp] theorem State.blocks_takeDeliveries (dn : Downlink) (bc : BeamCtl) (s : State) (l : LinkNo) (n : Nat) :
    blocksIn (s.takeDeliveries l n).pool dn bc = blocksIn s.pool dn bc := by
  have hqueues := deliveries_put s.pool.queues l ((look s.pool.queues l).drop n)
  have hcut : deliveriesBlocks ((look s.pool.queues l).take n) + deliveriesBlocks ((look s.pool.queues l).drop n) =
      deliveriesBlocks (look s.pool.queues l) := by
    rw [← deliveriesBlocks_append, List.take_append_drop]
  simp only [State.takeDeliveries, blocksIn]
  omega

@[simp] theorem State.blocks_repeatPause (dn : Downlink) (bc : BeamCtl) (s : State) (t : Time) :
    blocksIn (s.repeatPause t).pool dn bc = blocksIn s.pool dn bc := by
  unfold State.repeatPause
  dsimp only
  split <;> simp [blocksIn]

@[simp] theorem State.blocks_emptyDeliveries (dn : Downlink) (bc : BeamCtl) (s : State) (l : LinkNo) :
    blocksIn (s.emptyDeliveries l).pool dn bc = blocksIn s.pool dn bc := by
  have hqueues := deliveries_put s.pool.queues l []
  have hnone : deliveriesBlocks [] = 0 := rfl
  simp only [State.emptyDeliveries, blocksIn]
  omega

theorem State.blocks_acceptFrame (bc : BeamCtl) {s : State} (a : AllocKind) {f : Frame} (h : f.blocks ≤ s.pool.free) :
    blocksIn (s.acceptFrame a f).pool (s.acceptFrame a f).downlink bc = blocksIn s.pool s.downlink bc := by
  unfold State.acceptFrame
  dsimp only
  split <;> simpa using State.blocks_queueFrame bc h

@[simp] theorem State.blocks_purgeClass (bc : BeamCtl) (s : State) (e : EntryNo) (c : FrameClass) (b : Bool) :
    blocksIn (s.purgeClass e c b).pool (s.purgeClass e c b).downlink bc = blocksIn s.pool s.downlink bc := by
  unfold State.purgeClass
  split <;> simp

@[simp] theorem State.blocks_purge (bc : BeamCtl) (s : State) (e : EntryNo) (b : Byte) :
    blocksIn (s.purge e b).pool (s.purge e b).downlink bc = blocksIn s.pool s.downlink bc := by
  unfold State.purge
  simp

theorem flightBlocks_map {f : BeamNo → Option Burst} {g : Frame → Frame} (h : ∀ x, (g x).blocks = x.blocks) :
    flightBlocks (fun b => (f b).map (fun u => { u with frames := u.frames.map g })) = flightBlocks f := by
  unfold flightBlocks
  refine congrArg List.sum (List.map_congr_left fun b _ => ?_)
  dsimp only
  cases f b with
  | none => rfl
  | some u => exact framesBlocks_map h u.frames

@[simp] theorem State.blocks_discardTerminal (s : State) (e : EntryNo) :
    blocksIn (s.discardTerminal e).pool (s.discardTerminal e).downlink (s.discardTerminal e).beamCtl =
      blocksIn s.pool s.downlink s.beamCtl := by
  have hblocks : ∀ x : Frame, (if x.terminal = e then { x with orphaned := true } else x).blocks = x.blocks := by
    intro x
    split <;> rfl
  have hpool : (s.discardTerminal e).pool = (s.dropFrames (fun f => f.terminal == e) .withdrawn 18).pool := rfl
  have hdown : (s.discardTerminal e).downlink = (s.dropFrames (fun f => f.terminal == e) .withdrawn 18).downlink := rfl
  rw [State.blocksIn_burstAt, funext (s.burstAt_discardTerminal e), flightBlocks_map hblocks, ← State.blocksIn_burstAt, hpool,
    hdown]
  simp

theorem State.blocks_beginBurst {s : State} {b : BeamNo} (l : LinkNo) (placed stay : List Frame) (h : (s.beam b).burst = none)
    (hmoved : framesBlocks placed + framesBlocks stay = framesBlocks s.downlink.waiting) :
    blocksIn (s.beginBurst b l placed stay).pool (s.beginBurst b l placed stay).downlink (s.beginBurst b l placed stay).beamCtl =
      blocksIn s.pool s.downlink s.beamCtl := by
  have hflight := flightBlocks_update s.burstAt b
    (some { number := look s.downlink.nextBurst b, owner := l, frames := placed, start := s.now })
  have hb : s.burstAt b = none := h
  have hgone : framesBlocks (burstFrames none) = 0 := rfl
  rw [← State.burstAt_beginBurst s b l placed stay, hb] at hflight
  have hwaiting : (s.beginBurst b l placed stay).downlink.waiting = stay := by
    unfold State.beginBurst
    dsimp only
    split <;> simp
  rw [State.blocksIn_burstAt, State.blocksIn_burstAt, hwaiting, (State.beginBurst_frame s b l placed stay).2.2.2.2.2.2.1]
  simp only [burstFrames, Option.map_some, Option.map_none, Option.getD_some, Option.getD_none] at hflight hgone
  omega

theorem State.blocks_reportBurst {s : State} {b : BeamNo} {u : Burst} (h : (s.beam b).burst = some u) (o : Nat → FrameOutcome)
    (k : Fin 21) : blocksIn (s.reportBurst b u o k).pool (s.reportBurst b u o k).downlink (s.reportBurst b u o k).beamCtl =
      blocksIn s.pool s.downlink s.beamCtl := by
  unfold State.reportBurst
  simpa using State.blocks_endBurst h o

@[simp] theorem State.blocks_expireBurst (s : State) (b : BeamNo) :
    blocksIn (s.expireBurst b).pool (s.expireBurst b).downlink (s.expireBurst b).beamCtl =
      blocksIn s.pool s.downlink s.beamCtl := by
  unfold State.expireBurst
  split
  · rfl
  · next h => simpa using State.blocks_endBurst h _

@[simp] theorem State.blocks_forgetOrigin (s : State) (l : LinkNo) :
    blocksIn s.pool (s.forgetOrigin l).downlink (s.forgetOrigin l).beamCtl = blocksIn s.pool s.downlink s.beamCtl := by
  have hblocks : ∀ x : Frame, (x.forget l).blocks = x.blocks := by
    intro x
    unfold Frame.forget
    split <;> rfl
  rw [State.blocksIn_burstAt, funext (s.burstAt_forgetOrigin l), flightBlocks_map hblocks, ← State.blocksIn_burstAt]
  simp only [blocksIn, State.forgetOrigin, State.setWaiting, framesBlocks_map hblocks]

@[simp] theorem State.blocks_returnOwned (s : State) (b : BeamNo) (l : LinkNo) :
    blocksIn (s.returnOwned b l).pool (s.returnOwned b l).downlink (s.returnOwned b l).beamCtl =
      blocksIn s.pool s.downlink s.beamCtl := by
  unfold State.returnOwned
  split
  · rfl
  · next h =>
    split
    · simpa using State.blocks_forcedReturn h
    · rfl

@[simp] theorem State.blocks_downBeams (s : State) (l : LinkNo) :
    blocksIn (s.downBeams l).pool (s.downBeams l).downlink (s.downBeams l).beamCtl = blocksIn s.pool s.downlink s.beamCtl := by
  have hwithout : ∀ u : State, ({ u with beamCtl := { u.beamCtl with
      beams := u.beamCtl.beams.map (fun x => x.without l) } } : State).burstAt = u.burstAt := by
    refine fun u => funext fun b => ?_
    rw [State.burstAt, State.beam_map_beams]
    rfl
  unfold State.downBeams
  dsimp only
  rw [foldl_blocksIn fun u b => by simp, foldl_blocksIn fun u b => by simp, blocksIn_of_burstAt _ _ (hwithout _)]
  simp

@[simp] theorem State.blocks_tearDown (s : State) (l : LinkNo) :
    blocksIn (s.tearDown l).pool (s.tearDown l).downlink (s.tearDown l).beamCtl = blocksIn s.pool s.downlink s.beamCtl := by
  unfold State.tearDown
  simp

@[simp] theorem State.blocks_restartRack (bc : BeamCtl) (s : State) (r : RackNo) :
    blocksIn (s.restartRack r).pool (s.restartRack r).downlink bc = blocksIn s.pool s.downlink bc := by
  unfold State.restartRack
  split <;> simp

@[simp] theorem State.blocks_restartReefer (bc : BeamCtl) (s : State) :
    blocksIn s.restartReefer.pool s.restartReefer.downlink bc = blocksIn s.pool s.downlink bc := by
  unfold State.restartReefer
  simp

end Sys2Proof.Machine
end

section
/-! PROOFS. What the commands make of the pool's sum (R92), and of the quiet before the settings load ends (R91): every step
keeps the
pool accounted. -/

namespace Sys2Proof.Machine

/-! ### Requests -/

@[simp] theorem State.blocks_clearGroup (s : State) (g : Nat) :
    blocksIn (s.clearGroup g).pool (s.clearGroup g).downlink (s.clearGroup g).beamCtl =
    blocksIn s.pool s.downlink s.beamCtl := by
  unfold State.clearGroup
  split <;> rfl

@[simp] theorem State.blocks_burstReport (s : State) (r : Request) (b : BeamNo) (n : Byte) (o : Nat → FrameOutcome) (k : Fin 21) :
    blocksIn (s.burstReport r b n o k).pool (s.burstReport r b n o k).downlink (s.burstReport r b n o k).beamCtl =
    blocksIn s.pool s.downlink s.beamCtl := by
  unfold State.burstReport
  split
  · simp
  · next u h =>
    split
    · simp
    · split
      · simp
      · simpa using State.blocks_reportBurst h o k

@[simp] theorem State.blocks_recheckAnswers (s : State) (b : Bool) :
    blocksIn (s.recheckAnswers b).pool (s.recheckAnswers b).downlink (s.recheckAnswers b).beamCtl =
    blocksIn s.pool s.downlink s.beamCtl := by
  unfold State.recheckAnswers
  refine foldl_blocksIn (fun u x => ?_) s _
  (repeat' split) <;> simp

@[simp] theorem State.blocks_recheckSurveys (s : State) :
    blocksIn s.recheckSurveys.pool s.recheckSurveys.downlink s.recheckSurveys.beamCtl =
    blocksIn s.pool s.downlink s.beamCtl := by
  unfold State.recheckSurveys
  refine foldl_blocksIn (fun u x => ?_) s _
  (repeat' split) <;> simp

@[simp] theorem State.blocks_recheckWaits (s : State) :
    blocksIn s.recheckWaits.pool s.recheckWaits.downlink s.recheckWaits.beamCtl =
    blocksIn s.pool s.downlink s.beamCtl := by
  unfold State.recheckWaits
  exact foldl_blocksIn (fun u w => by simp) s _

@[simp] theorem State.blocks_recheckBursts (s : State) :
    blocksIn s.recheckBursts.pool s.recheckBursts.downlink s.recheckBursts.beamCtl =
    blocksIn s.pool s.downlink s.beamCtl := by
  unfold State.recheckBursts
  refine foldl_blocksIn (fun u x => ?_) s _
  (repeat' split) <;> simp

@[simp] theorem State.blocks_recheckSilence (s : State) (k : Kind) :
    blocksIn (s.recheckSilence k).pool (s.recheckSilence k).downlink (s.recheckSilence k).beamCtl =
    blocksIn s.pool s.downlink s.beamCtl := by
  unfold State.recheckSilence
  refine foldl_blocksIn (fun u x => ?_) s _
  (repeat' split) <;> simp

@[simp] theorem State.blocks_recheckStalls (s : State) :
    blocksIn s.recheckStalls.pool s.recheckStalls.downlink s.recheckStalls.beamCtl =
    blocksIn s.pool s.downlink s.beamCtl := by
  unfold State.recheckStalls
  refine foldl_blocksIn (fun u x => ?_) s _
  (repeat' split) <;> simp

@[simp] theorem State.blocks_afterTune (s : State) (i : Fin 19) :
    blocksIn (s.afterTune i).pool (s.afterTune i).downlink (s.afterTune i).beamCtl =
    blocksIn s.pool s.downlink s.beamCtl := by
  unfold State.afterTune
  split <;> simp

@[simp] theorem State.blocks_tunePair (s : State) (i : Fin 19) (v : Nat) :
    blocksIn (s.tunePair i v).pool (s.tunePair i v).downlink (s.tunePair i v).beamCtl =
    blocksIn s.pool s.downlink s.beamCtl := by
  unfold State.tunePair
  dsimp only
  (repeat' split) <;> simp

@[simp] theorem State.blocks_takeUplink (s : State) (l : LinkNo) (f : Word × List Byte) :
    blocksIn (s.takeUplink l f).1.pool (s.takeUplink l f).1.downlink (s.takeUplink l f).1.beamCtl =
    blocksIn s.pool s.downlink s.beamCtl := by
  unfold State.takeUplink
  dsimp only
  (repeat' split) <;> simp

@[simp] theorem State.blocks_sendTo (s : State) (r : Request) (e : EntryNo) (k : Kind) (q : SendReq) :
    blocksIn (s.sendTo r e k q).pool (s.sendTo r e k q).downlink (s.sendTo r e k q).beamCtl =
      blocksIn s.pool s.downlink s.beamCtl := by
  unfold State.sendTo
  dsimp only
  (repeat' split)
  · simp
  · simp
  · next h => simpa using State.blocks_acceptFrame s.beamCtl (allocKind k q.cls) (Pool.blocks_le_of_admits h)
  · simp

@[simp] theorem State.blocks_takeUplinks (s : State) (l : LinkNo) (fs : List (Word × List Byte)) :
    blocksIn (s.takeUplinks l fs).1.pool (s.takeUplinks l fs).1.downlink (s.takeUplinks l fs).1.beamCtl =
      blocksIn s.pool s.downlink s.beamCtl := by
  induction fs generalizing s with
  | nil => rfl
  | cons f fs ih => rw [State.takeUplinks, ih, State.blocks_takeUplink]

@[simp] theorem blocks_serveIdentify (s : State) (r : Request) :
    blocksIn (serveIdentify s r).pool (serveIdentify s r).downlink (serveIdentify s r).beamCtl =
    blocksIn s.pool s.downlink s.beamCtl := by
  unfold serveIdentify State.reading
  (repeat' split) <;> simp

@[simp] theorem blocks_serveReadTime (s : State) (r : Request) :
    blocksIn (serveReadTime s r).pool (serveReadTime s r).downlink (serveReadTime s r).beamCtl =
    blocksIn s.pool s.downlink s.beamCtl := by
  unfold serveReadTime State.reading
  (repeat' split) <;> simp

@[simp] theorem blocks_serveReadCounters (s : State) (r : Request) :
    blocksIn (serveReadCounters s r).pool (serveReadCounters s r).downlink (serveReadCounters s r).beamCtl =
    blocksIn s.pool s.downlink s.beamCtl := by
  unfold serveReadCounters State.reading
  dsimp only
  (repeat' split) <;> simp

@[simp] theorem blocks_serveGrant (s : State) (r : Request) :
    blocksIn (serveGrant s r).pool (serveGrant s r).downlink (serveGrant s r).beamCtl =
    blocksIn s.pool s.downlink s.beamCtl := by
  unfold serveGrant State.reading
  dsimp only
  (repeat' split) <;> simp

@[simp] theorem blocks_serveRevoke (s : State) (r : Request) :
    blocksIn (serveRevoke s r).pool (serveRevoke s r).downlink (serveRevoke s r).beamCtl =
    blocksIn s.pool s.downlink s.beamCtl := by
  unfold serveRevoke State.reading
  dsimp only
  (repeat' split) <;> simp

@[simp] theorem blocks_serveReadEntry (s : State) (r : Request) :
    blocksIn (serveReadEntry s r).pool (serveReadEntry s r).downlink (serveReadEntry s r).beamCtl =
    blocksIn s.pool s.downlink s.beamCtl := by
  unfold serveReadEntry State.reading
  dsimp only
  (repeat' split) <;> simp

@[simp] theorem blocks_serveSubscribe (s : State) (r : Request) :
    blocksIn (serveSubscribe s r).pool (serveSubscribe s r).downlink (serveSubscribe s r).beamCtl =
    blocksIn s.pool s.downlink s.beamCtl := by
  refine State.reading_keeps (P := fun u => blocksIn u.pool u.downlink u.beamCtl =
    blocksIn s.pool s.downlink s.beamCtl) (by simp) fun q _ => ?_
  refine State.withToken_keeps (P := fun u => blocksIn u.pool u.downlink u.beamCtl =
    blocksIn s.pool s.downlink s.beamCtl) (by simp) fun e => ?_
  refine State.withCrane_keeps (P := fun u => blocksIn u.pool u.downlink u.beamCtl =
    blocksIn s.pool s.downlink s.beamCtl) (by simp) fun c k _ => ?_
  dsimp only
  rw [(State.reply_frame _ _ _ _).2.2.2.2.2.1, (State.reply_frame _ _ _ _).2.2.2.2.2.2.1,
    (State.reply_frame _ _ _ _).2.2.2.2.2.2.2.1]
  (repeat' split) <;> simp

@[simp] theorem blocks_serveReadCrane (s : State) (r : Request) :
    blocksIn (serveReadCrane s r).pool (serveReadCrane s r).downlink (serveReadCrane s r).beamCtl =
    blocksIn s.pool s.downlink s.beamCtl := by
  refine State.reading_keeps (P := fun u => blocksIn u.pool u.downlink u.beamCtl =
    blocksIn s.pool s.downlink s.beamCtl) (by simp) fun q _ => ?_
  refine State.withToken_keeps (P := fun u => blocksIn u.pool u.downlink u.beamCtl =
    blocksIn s.pool s.downlink s.beamCtl) (by simp) fun e => ?_
  refine State.withCrane_keeps (P := fun u => blocksIn u.pool u.downlink u.beamCtl =
    blocksIn s.pool s.downlink s.beamCtl) (by simp) fun c k _ => ?_
  simp

@[simp] theorem blocks_serveSetInterest (s : State) (r : Request) :
    blocksIn (serveSetInterest s r).pool (serveSetInterest s r).downlink (serveSetInterest s r).beamCtl =
    blocksIn s.pool s.downlink s.beamCtl := by
  unfold serveSetInterest State.reading
  (repeat' split) <;> simp

@[simp] theorem blocks_serveReadRack (s : State) (r : Request) :
    blocksIn (serveReadRack s r).pool (serveReadRack s r).downlink (serveReadRack s r).beamCtl =
    blocksIn s.pool s.downlink s.beamCtl := by
  refine State.reading_keeps (P := fun u => blocksIn u.pool u.downlink u.beamCtl =
    blocksIn s.pool s.downlink s.beamCtl) (by simp) fun q _ => ?_
  refine State.withToken_keeps (P := fun u => blocksIn u.pool u.downlink u.beamCtl =
    blocksIn s.pool s.downlink s.beamCtl) (by simp) fun e => ?_
  refine State.withRack_keeps (P := fun u => blocksIn u.pool u.downlink u.beamCtl =
    blocksIn s.pool s.downlink s.beamCtl) (by simp) fun n k _ => ?_
  split <;> simp

@[simp] theorem blocks_serveReadAlarms (s : State) (r : Request) :
    blocksIn (serveReadAlarms s r).pool (serveReadAlarms s r).downlink (serveReadAlarms s r).beamCtl =
    blocksIn s.pool s.downlink s.beamCtl := by
  unfold serveReadAlarms State.reading
  (repeat' split) <;> simp

@[simp] theorem blocks_serveAcknowledge (s : State) (r : Request) :
    blocksIn (serveAcknowledge s r).pool (serveAcknowledge s r).downlink (serveAcknowledge s r).beamCtl =
    blocksIn s.pool s.downlink s.beamCtl := by
  refine State.reading_keeps (P := fun u => blocksIn u.pool u.downlink u.beamCtl =
    blocksIn s.pool s.downlink s.beamCtl) (by simp) fun q _ => ?_
  refine State.withToken_keeps (P := fun u => blocksIn u.pool u.downlink u.beamCtl =
    blocksIn s.pool s.downlink s.beamCtl) (by simp) fun e => ?_
  refine State.withRack_keeps (P := fun u => blocksIn u.pool u.downlink u.beamCtl =
    blocksIn s.pool s.downlink s.beamCtl) (by simp) fun n k _ => ?_
  simp

@[simp] theorem blocks_serveClearDose (s : State) (r : Request) :
    blocksIn (serveClearDose s r).pool (serveClearDose s r).downlink (serveClearDose s r).beamCtl =
    blocksIn s.pool s.downlink s.beamCtl := by
  refine State.reading_keeps (P := fun u => blocksIn u.pool u.downlink u.beamCtl =
    blocksIn s.pool s.downlink s.beamCtl) (by simp) fun q _ => ?_
  refine State.withToken_keeps (P := fun u => blocksIn u.pool u.downlink u.beamCtl =
    blocksIn s.pool s.downlink s.beamCtl) (by simp) fun e => ?_
  refine State.withRack_keeps (P := fun u => blocksIn u.pool u.downlink u.beamCtl =
    blocksIn s.pool s.downlink s.beamCtl) (by simp) fun n k _ => ?_
  dsimp only
  split <;> simp

@[simp] theorem blocks_serveEnroll (s : State) (r : Request) :
    blocksIn (serveEnroll s r).pool (serveEnroll s r).downlink (serveEnroll s r).beamCtl =
    blocksIn s.pool s.downlink s.beamCtl := by
  unfold serveEnroll State.reading
  dsimp only
  (repeat' split) <;> simp

@[simp] theorem blocks_serveWithdraw (s : State) (r : Request) :
    blocksIn (serveWithdraw s r).pool (serveWithdraw s r).downlink (serveWithdraw s r).beamCtl =
    blocksIn s.pool s.downlink s.beamCtl := by
  unfold serveWithdraw State.reading
  dsimp only
  (repeat' split) <;> simp

@[simp] theorem blocks_serveMove (s : State) (r : Request) :
    blocksIn (serveMove s r).pool (serveMove s r).downlink (serveMove s r).beamCtl =
    blocksIn s.pool s.downlink s.beamCtl := by
  unfold serveMove State.reading
  dsimp only
  (repeat' split) <;> simp

@[simp] theorem blocks_serveDeliver (s : State) (r : Request) :
    blocksIn (serveDeliver s r).pool (serveDeliver s r).downlink (serveDeliver s r).beamCtl =
    blocksIn s.pool s.downlink s.beamCtl := by
  unfold serveDeliver State.reading
  (repeat' split) <;> simp

@[simp] theorem blocks_serveListUnknown (s : State) (r : Request) :
    blocksIn (serveListUnknown s r).pool (serveListUnknown s r).downlink (serveListUnknown s r).beamCtl =
    blocksIn s.pool s.downlink s.beamCtl := by
  unfold serveListUnknown State.reading
  (repeat' split) <;> simp

@[simp] theorem blocks_serveReadTerminal (s : State) (r : Request) :
    blocksIn (serveReadTerminal s r).pool (serveReadTerminal s r).downlink (serveReadTerminal s r).beamCtl =
    blocksIn s.pool s.downlink s.beamCtl := by
  refine State.reading_keeps (P := fun u => blocksIn u.pool u.downlink u.beamCtl =
    blocksIn s.pool s.downlink s.beamCtl) (by simp) fun q _ => ?_
  refine State.withToken_keeps (P := fun u => blocksIn u.pool u.downlink u.beamCtl =
    blocksIn s.pool s.downlink s.beamCtl) (by simp) fun e => ?_
  simp

@[simp] theorem blocks_serveReadCoverage (s : State) (r : Request) :
    blocksIn (serveReadCoverage s r).pool (serveReadCoverage s r).downlink (serveReadCoverage s r).beamCtl =
    blocksIn s.pool s.downlink s.beamCtl := by
  unfold serveReadCoverage State.reading
  (repeat' split) <;> simp

@[simp] theorem blocks_serveMarkCell (s : State) (r : Request) :
    blocksIn (serveMarkCell s r).pool (serveMarkCell s r).downlink (serveMarkCell s r).beamCtl =
    blocksIn s.pool s.downlink s.beamCtl := by
  unfold serveMarkCell State.reading
  dsimp only
  (repeat' split) <;> simp

@[simp] theorem blocks_serveUnmarkCell (s : State) (r : Request) :
    blocksIn (serveUnmarkCell s r).pool (serveUnmarkCell s r).downlink (serveUnmarkCell s r).beamCtl =
    blocksIn s.pool s.downlink s.beamCtl := by
  unfold serveUnmarkCell State.reading
  dsimp only
  (repeat' split) <;> simp

@[simp] theorem blocks_serveOpenBeam (s : State) (r : Request) :
    blocksIn (serveOpenBeam s r).pool (serveOpenBeam s r).downlink (serveOpenBeam s r).beamCtl =
    blocksIn s.pool s.downlink s.beamCtl := by
  unfold serveOpenBeam State.reading
  dsimp only
  (repeat' split) <;> simp

@[simp] theorem blocks_serveRelease (s : State) (r : Request) :
    blocksIn (serveRelease s r).pool (serveRelease s r).downlink (serveRelease s r).beamCtl =
    blocksIn s.pool s.downlink s.beamCtl := by
  refine State.reading_keeps (P := fun u => blocksIn u.pool u.downlink u.beamCtl =
    blocksIn s.pool s.downlink s.beamCtl) (by simp) fun q _ => ?_
  dsimp only
  split
  · simp
  · split
    · simp [State.blocks_setBeam_same]
    · simp

@[simp] theorem blocks_serveReadBeams (s : State) (r : Request) :
    blocksIn (serveReadBeams s r).pool (serveReadBeams s r).downlink (serveReadBeams s r).beamCtl =
    blocksIn s.pool s.downlink s.beamCtl := by
  unfold serveReadBeams State.reading
  (repeat' split) <;> simp

@[simp] theorem blocks_serveSurvey (s : State) (r : Request) :
    blocksIn (serveSurvey s r).pool (serveSurvey s r).downlink (serveSurvey s r).beamCtl =
    blocksIn s.pool s.downlink s.beamCtl := by
  unfold serveSurvey State.reading
  dsimp only
  (repeat' split) <;> simp

@[simp] theorem blocks_serveTake (s : State) (r : Request) :
    blocksIn (serveTake s r).pool (serveTake s r).downlink (serveTake s r).beamCtl =
    blocksIn s.pool s.downlink s.beamCtl := by
  unfold serveTake State.reading
  (repeat' split) <;> simp

@[simp] theorem blocks_serveSend (s : State) (r : Request) :
    blocksIn (serveSend s r).pool (serveSend s r).downlink (serveSend s r).beamCtl =
    blocksIn s.pool s.downlink s.beamCtl := by
  refine State.reading_keeps (P := fun u => blocksIn u.pool u.downlink u.beamCtl =
    blocksIn s.pool s.downlink s.beamCtl) (by simp) fun q _ => ?_
  refine State.withToken_keeps (P := fun u => blocksIn u.pool u.downlink u.beamCtl =
    blocksIn s.pool s.downlink s.beamCtl) (by simp) fun e => ?_
  split <;> simp

@[simp] theorem blocks_servePurgeQueue (s : State) (r : Request) :
    blocksIn (servePurgeQueue s r).pool (servePurgeQueue s r).downlink (servePurgeQueue s r).beamCtl =
    blocksIn s.pool s.downlink s.beamCtl := by
  refine State.reading_keeps (P := fun u => blocksIn u.pool u.downlink u.beamCtl =
    blocksIn s.pool s.downlink s.beamCtl) (by simp) fun q _ => ?_
  refine State.withToken_keeps (P := fun u => blocksIn u.pool u.downlink u.beamCtl =
    blocksIn s.pool s.downlink s.beamCtl) (by simp) fun e => ?_
  simp

@[simp] theorem blocks_serveFetch (s : State) (r : Request) :
    blocksIn (serveFetch s r).pool (serveFetch s r).downlink (serveFetch s r).beamCtl =
    blocksIn s.pool s.downlink s.beamCtl := by
  refine State.reading_keeps (P := fun u => blocksIn u.pool u.downlink u.beamCtl =
    blocksIn s.pool s.downlink s.beamCtl) (by simp) fun q _ => ?_
  dsimp only
  split
  · simp
  · next hpass =>
    have hmoved : framesBlocks (s.assemble q.1 (max 1 (min 32 q.2.1)) (max 128 (min 8192 q.2.2))).1 +
        framesBlocks (s.assemble q.1 (max 1 (min 32 q.2.1)) (max 128 (min 8192 q.2.2))).2 = framesBlocks s.downlink.waiting := by
      unfold State.assemble
      split
      · simp [framesBlocks]
      · exact framesBlocks_moveOut _ _
    simpa using State.blocks_beginBurst r.ref.link _ _ (State.burstAt_of_fetchRefusal_none hpass) hmoved

@[simp] theorem blocks_serveDone (s : State) (r : Request) :
    blocksIn (serveDone s r).pool (serveDone s r).downlink (serveDone s r).beamCtl =
    blocksIn s.pool s.downlink s.beamCtl := by
  unfold serveDone State.reading
  (repeat' split) <;> simp

@[simp] theorem blocks_serveCut (s : State) (r : Request) :
    blocksIn (serveCut s r).pool (serveCut s r).downlink (serveCut s r).beamCtl =
    blocksIn s.pool s.downlink s.beamCtl := by
  unfold serveCut State.reading
  (repeat' split) <;> simp

@[simp] theorem blocks_serveTune (s : State) (r : Request) :
    blocksIn (serveTune s r).pool (serveTune s r).downlink (serveTune s r).beamCtl =
    blocksIn s.pool s.downlink s.beamCtl := by
  unfold serveTune State.reading
  (repeat' split) <;> simp

@[simp] theorem blocks_serveStoreSettings (s : State) (r : Request) :
    blocksIn (serveStoreSettings s r).pool (serveStoreSettings s r).downlink (serveStoreSettings s r).beamCtl =
    blocksIn s.pool s.downlink s.beamCtl := by
  unfold serveStoreSettings State.reading
  (repeat' split) <;> simp

/-! ### Events -/

@[simp] theorem State.blocks_answered (s : State) (h : HeadNo) (o : Outstanding) {f : State → State}
    (hf : ∀ u : State, blocksIn (f u).pool (f u).downlink (f u).beamCtl = blocksIn u.pool u.downlink u.beamCtl) :
    blocksIn (s.answered h o f).pool (s.answered h o f).downlink (s.answered h o f).beamCtl =
      blocksIn s.pool s.downlink s.beamCtl := by
  unfold State.answered
  dsimp only
  split <;> simp [hf]

@[simp] theorem State.blocks_endStore (s : State) (j : StoreJob) (m : Bool) (bs : List Byte) :
    blocksIn (s.endStore j m bs).pool (s.endStore j m bs).downlink (s.endStore j m bs).beamCtl =
      blocksIn s.pool s.downlink s.beamCtl := by
  unfold State.endStore
  split <;> simp

theorem blocks_execFillMarkReceived {link : LinkNo} {second : Byte} {s t : State} (h : execFillMarkReceived link second s =
    .next t) :
    blocksIn t.pool t.downlink t.beamCtl = blocksIn s.pool s.downlink s.beamCtl := by
  cases h
  split <;> simp

theorem blocks_execFillMarkGap {gap : LineGap} {s t : State} (h : execFillMarkGap gap s = .next t) :
    blocksIn t.pool t.downlink t.beamCtl = blocksIn s.pool s.downlink s.beamCtl := by
  cases h
  simp

theorem blocks_execLineFramingFault {link : LinkNo} {s t : State} (h : execLineFramingFault link s = .next t) :
    blocksIn t.pool t.downlink t.beamCtl = blocksIn s.pool s.downlink s.beamCtl := by
  cases h
  simp

theorem blocks_execMessageAbandoned {link : LinkNo} {cause : AbandonCause} {s t : State}
    (h : execMessageAbandoned link cause s = .next t) :
    blocksIn t.pool t.downlink t.beamCtl = blocksIn s.pool s.downlink s.beamCtl := by
  cases h
  simp

theorem blocks_execMessageReceived {link : LinkNo} {bytes : List Byte} {s t : State} (h : execMessageReceived link bytes s =
    .next t) :
    blocksIn t.pool t.downlink t.beamCtl = blocksIn s.pool s.downlink s.beamCtl := by
  cases h
  dsimp only
  (repeat' split) <;> simp

theorem blocks_execMessageSent {link : LinkNo} {s t : State} (h : execMessageSent link s = .next t) :
    blocksIn t.pool t.downlink t.beamCtl = blocksIn s.pool s.downlink s.beamCtl := by
  cases h
  simp

theorem blocks_execStallExpiry {crane : CraneNo} {s t : State} (h : execStallExpiry crane s = .next t) :
    blocksIn t.pool t.downlink t.beamCtl = blocksIn s.pool s.downlink s.beamCtl := by
  cases h
  split <;> simp

theorem blocks_execCraneWithdrawal {entry : EntryNo} {s t : State} (h : execCraneWithdrawal entry s = .next t) :
    blocksIn t.pool t.downlink t.beamCtl = blocksIn s.pool s.downlink s.beamCtl := by
  cases h
  (repeat' split) <;> simp

theorem blocks_execReeferWithdrawal {entry : EntryNo} {s t : State} (h : execReeferWithdrawal entry s = .next t) :
    blocksIn t.pool t.downlink t.beamCtl = blocksIn s.pool s.downlink s.beamCtl := by
  cases h
  (repeat' split) <;> simp

theorem blocks_execSilenceExpiry {entry : EntryNo} {s t : State} (h : execSilenceExpiry entry s = .next t) :
    blocksIn t.pool t.downlink t.beamCtl = blocksIn s.pool s.downlink s.beamCtl := by
  cases h
  split <;> simp

theorem blocks_execSteerDone {head : HeadNo} {answer : List Byte} {s t : State} (h : execSteerDone head answer s = .next t) :
    blocksIn t.pool t.downlink t.beamCtl = blocksIn s.pool s.downlink s.beamCtl := by
  cases h
  (repeat' split) <;> simp

theorem blocks_execSteerRefused {head : HeadNo} {answer : List Byte} {s t : State} (h : execSteerRefused head answer s =
    .next t) :
    blocksIn t.pool t.downlink t.beamCtl = blocksIn s.pool s.downlink s.beamCtl := by
  cases h
  (repeat' split) <;> simp

theorem blocks_execReleaseAnswered {head : HeadNo} {answer : List Byte} {s t : State} (h : execReleaseAnswered head answer s =
    .next t) :
    blocksIn t.pool t.downlink t.beamCtl = blocksIn s.pool s.downlink s.beamCtl := by
  cases h
  (repeat' split) <;> simp

theorem blocks_execSweepResult {head : HeadNo} {answer : List Byte} {s t : State} (h : execSweepResult head answer s = .next t) :
    blocksIn t.pool t.downlink t.beamCtl = blocksIn s.pool s.downlink s.beamCtl := by
  cases h
  split <;> simp

theorem blocks_execSweepRefused {head : HeadNo} {answer : List Byte} {s t : State} (h : execSweepRefused head answer s =
    .next t) :
    blocksIn t.pool t.downlink t.beamCtl = blocksIn s.pool s.downlink s.beamCtl := by
  cases h
  (repeat' split) <;> simp

theorem blocks_execProbeAnswered {head : HeadNo} {answer : List Byte} {s t : State} (h : execProbeAnswered head answer s =
    .next t) :
    blocksIn t.pool t.downlink t.beamCtl = blocksIn s.pool s.downlink s.beamCtl := by
  cases h
  (repeat' split) <;> simp

theorem blocks_execUnmatchedAnswer {head : HeadNo} {answer : List Byte} {s t : State} (h : execUnmatchedAnswer head answer s =
    .next t) :
    blocksIn t.pool t.downlink t.beamCtl = blocksIn s.pool s.downlink s.beamCtl := by
  cases h
  split <;> simp

theorem blocks_execAnswerLimitExpiry {head : HeadNo} {s t : State} (h : execAnswerLimitExpiry head s = .next t) :
    blocksIn t.pool t.downlink t.beamCtl = blocksIn s.pool s.downlink s.beamCtl := by
  cases h
  split <;> simp

theorem blocks_execProbeTime {head : HeadNo} {s t : State} (h : execProbeTime head s = .next t) :
    blocksIn t.pool t.downlink t.beamCtl = blocksIn s.pool s.downlink s.beamCtl := by
  cases h
  (repeat' split) <;> simp

theorem blocks_execSweepRetryTime {head : HeadNo} {s t : State} (h : execSweepRetryTime head s = .next t) :
    blocksIn t.pool t.downlink t.beamCtl = blocksIn s.pool s.downlink s.beamCtl := by
  cases h
  (repeat' split) <;> simp

theorem blocks_execSurveyDue {head : HeadNo} {s t : State} (h : execSurveyDue head s = .next t) :
    blocksIn t.pool t.downlink t.beamCtl = blocksIn s.pool s.downlink s.beamCtl := by
  cases h
  split <;> simp

theorem blocks_execSurveyOverdue {head : HeadNo} {s t : State} (h : execSurveyOverdue head s = .next t) :
    blocksIn t.pool t.downlink t.beamCtl = blocksIn s.pool s.downlink s.beamCtl := by
  cases h
  split <;> simp

theorem blocks_execWaitExpiry {place : Fin 16} {s t : State} (h : execWaitExpiry place s = .next t) :
    blocksIn t.pool t.downlink t.beamCtl = blocksIn s.pool s.downlink s.beamCtl := by
  cases h
  (repeat' split) <;> simp

theorem blocks_execPauseRepeat {s t : State} (h : execPauseRepeat s = .next t) :
    blocksIn t.pool t.downlink t.beamCtl = blocksIn s.pool s.downlink s.beamCtl := by
  cases h
  (repeat' split) <;> simp

theorem blocks_execDeadlineExpiry {frame : FrameId} {s t : State} (h : execDeadlineExpiry frame s = .next t) :
    blocksIn t.pool t.downlink t.beamCtl = blocksIn s.pool s.downlink s.beamCtl := by
  cases h
  split <;> simp

theorem blocks_execDownlinkWithdrawal {entry : EntryNo} {s t : State} (h : execDownlinkWithdrawal entry s = .next t) :
    blocksIn t.pool t.downlink t.beamCtl = blocksIn s.pool s.downlink s.beamCtl := by
  cases h
  split <;> simp

theorem blocks_execBurstLimitExpiry {beam : BeamNo} {s t : State} (h : execBurstLimitExpiry beam s = .next t) :
    blocksIn t.pool t.downlink t.beamCtl = blocksIn s.pool s.downlink s.beamCtl := by
  cases h
  split <;> simp

theorem blocks_execLinkDown {link : LinkNo} {receiving : Bool} {s t : State} (h : execLinkDown link receiving s = .next t) :
    blocksIn t.pool t.downlink t.beamCtl = blocksIn s.pool s.downlink s.beamCtl := by
  cases h
  split <;> simp

theorem blocks_execMillisecondTick {s t : State} (h : execMillisecondTick s = .next t) :
    blocksIn t.pool t.downlink t.beamCtl = blocksIn s.pool s.downlink s.beamCtl := by
  cases h
  simp

theorem blocks_execSecondTick {s t : State} (h : execSecondTick s = .next t) :
    blocksIn t.pool t.downlink t.beamCtl = blocksIn s.pool s.downlink s.beamCtl := by
  cases h
  split <;> simp

theorem blocks_execStoreWriteEnd {memoryError : Bool} {contents : List Byte} {s t : State}
    (h : execStoreWriteEnd memoryError contents s = .next t) :
    blocksIn t.pool t.downlink t.beamCtl = blocksIn s.pool s.downlink s.beamCtl := by
  cases h
  (repeat' split) <;> simp

theorem blocks_execStoreWriteTimeout {contents : List Byte} {s t : State} (h : execStoreWriteTimeout contents s = .next t) :
    blocksIn t.pool t.downlink t.beamCtl = blocksIn s.pool s.downlink s.beamCtl := by
  cases h
  (repeat' split) <;> simp

theorem blocks_execRestartAnswer {s t : State} (h : execRestartAnswer s = .next t) :
    blocksIn t.pool t.downlink t.beamCtl = blocksIn s.pool s.downlink s.beamCtl := by
  cases h
  split
  · simp [State.answerRestart]
  · rfl

/-- The commands that set the pool up afresh, or find it so. -/
def resetsPool : Instr → Bool
  | .pinReset | .settingsLoadEnd _ _ | .restart _ => true
  | _ => false

/-- No command but these changes what free blocks, waiting frames, frames in flight and deliveries hold together. -/
theorem exec_blocks {c : Instr} (hc : resetsPool c = false) {s t : State} (h : exec c s = .next t) :
    blocksIn t.pool t.downlink t.beamCtl = blocksIn s.pool s.downlink s.beamCtl := by
  refine exec_view (v := fun u : State => blocksIn u.pool u.downlink u.beamCtl) h (fun _ _ => rfl)
    (fun code l hcode u r => ?_) fun hevent => ?_
  · cases code <;> first | (subst hcode; cases hc; done) | simp [serveOf]
  cases c with
  | fillMarkReceived a0 a1 => exact blocks_execFillMarkReceived h
  | fillMarkGap a0 => exact blocks_execFillMarkGap h
  | lineFramingFault a0 => exact blocks_execLineFramingFault h
  | messageAbandoned a0 a1 => exact blocks_execMessageAbandoned h
  | messageReceived a0 a1 => exact blocks_execMessageReceived h
  | messageSent a0 => exact blocks_execMessageSent h
  | stallExpiry a0 => exact blocks_execStallExpiry h
  | craneWithdrawal a0 => exact blocks_execCraneWithdrawal h
  | reeferWithdrawal a0 => exact blocks_execReeferWithdrawal h
  | silenceExpiry a0 => exact blocks_execSilenceExpiry h
  | steerDone a0 a1 => exact blocks_execSteerDone h
  | steerRefused a0 a1 => exact blocks_execSteerRefused h
  | releaseAnswered a0 a1 => exact blocks_execReleaseAnswered h
  | sweepResult a0 a1 => exact blocks_execSweepResult h
  | sweepRefused a0 a1 => exact blocks_execSweepRefused h
  | probeAnswered a0 a1 => exact blocks_execProbeAnswered h
  | unmatchedAnswer a0 a1 => exact blocks_execUnmatchedAnswer h
  | answerLimitExpiry a0 => exact blocks_execAnswerLimitExpiry h
  | probeTime a0 => exact blocks_execProbeTime h
  | sweepRetryTime a0 => exact blocks_execSweepRetryTime h
  | surveyDue a0 => exact blocks_execSurveyDue h
  | surveyOverdue a0 => exact blocks_execSurveyOverdue h
  | waitExpiry a0 => exact blocks_execWaitExpiry h
  | pauseRepeat => exact blocks_execPauseRepeat h
  | deadlineExpiry a0 => exact blocks_execDeadlineExpiry h
  | downlinkWithdrawal a0 => exact blocks_execDownlinkWithdrawal h
  | burstLimitExpiry a0 => exact blocks_execBurstLimitExpiry h
  | linkDown a0 a1 => exact blocks_execLinkDown h
  | millisecondTick => exact blocks_execMillisecondTick h
  | secondTick => exact blocks_execSecondTick h
  | storeWriteEnd a0 a1 => exact blocks_execStoreWriteEnd h
  | storeWriteTimeout a0 => exact blocks_execStoreWriteTimeout h
  | restartAnswer => exact blocks_execRestartAnswer h
  | linkUp l => cases h; rfl
  | pinReset => cases hc
  | settingsLoadEnd a b => cases hc
  | _ => cases hevent

end Sys2Proof.Machine
end

section
/-! PROOFS. The pool's account (R92) and the quiet before the settings load ends (R91), which every step keeps. -/

namespace Sys2Proof.Machine

theorem State.poolAccounted_iff (s : State) :
    s.poolAccounted ↔ blocksIn s.pool s.downlink s.beamCtl = 4096 ∧ s.quietBeforeLoad := by
  rw [State.blocksIn_eq]
  exact Iff.rfl

theorem flightBlocks_none {f : BeamNo → Option Burst} (h : ∀ b, f b = none) : flightBlocks f = 0 := by
  obtain rfl : f = fun _ => none := funext h
  rfl

/-! ### Commands that set the pool up afresh -/

theorem State.blocks_restartUnits (s : State) (r : ReqRef) :
    blocksIn (s.restartUnits r).pool (s.restartUnits r).downlink (s.restartUnits r).beamCtl = 4096 := by
  have hcleared : ∀ u : State, blocksIn u.restartDownlink.restartPool.pool u.restartDownlink.restartPool.downlink
      u.restartDownlink.restartPool.beamCtl = 4096 := by
    intro u
    have hflight : flightBlocks u.restartDownlink.restartPool.burstAt = 0 :=
      flightBlocks_none fun b => by simp [State.burstAt, State.beam, State.restartPool, State.restartDownlink, look]
    rw [State.blocksIn_burstAt, hflight]
    rfl
  have hcranes : ∀ u : State, u.restartCranes.pool = u.pool ∧ u.restartCranes.downlink = u.downlink ∧
      u.restartCranes.beamCtl = u.beamCtl := fun _ => ⟨rfl, rfl, rfl⟩
  unfold State.restartUnits
  simpa [hcranes] using hcleared _

theorem blocks_serveRestart (s : State) (r : Request) (h : blocksIn s.pool s.downlink s.beamCtl = 4096) :
    blocksIn (serveRestart s r).pool (serveRestart s r).downlink (serveRestart s r).beamCtl = 4096 := by
  refine State.reading_keeps (P := fun u => blocksIn u.pool u.downlink u.beamCtl = 4096) (by simpa using h) fun q _ => ?_
  dsimp only
  split
  · simpa using h
  · exact State.blocks_restartUnits _ _

/-- The end of the load finds no burst in flight, and leaves none. -/
theorem blocks_execSettingsLoadEnd {a b : Bool} {s t : State} (hquiet : s.quietBeforeLoad) (h : execSettingsLoadEnd a b s =
    .next t) :
    blocksIn t.pool t.downlink t.beamCtl = blocksIn s.pool s.downlink s.beamCtl := by
  cases h
  split
  · rfl
  · next hloaded =>
    have hnone : ∀ (d : Load), ((s.handOut d).firstChoice).firstSweeps.burstAt = s.burstAt := by
      intro d
      funext b
      rw [State.burstAt_firstLoad]
      exact ((hquiet (by simpa using hloaded)).2.2 b).symm
    rw [blocksIn_of_burstAt _ _ (hnone _), State.firstSweeps_keepsAllBut _ .pool (by simp),
      State.firstSweeps_keepsAllBut _ .downlink (by simp)]
    rfl

theorem State.blocks_reset : blocksIn State.reset.pool State.reset.downlink State.reset.beamCtl = 4096 := by
  have hflight : flightBlocks State.reset.burstAt = 0 :=
    flightBlocks_none fun b => by simp [State.burstAt, State.beam, State.reset, BeamCtl.reset, Beam.reset, look]
  rw [State.blocksIn_burstAt, hflight]
  rfl

theorem exec_blocks_accounted {c : Instr} {s t : State} (h : exec c s = .next t) (hs : s.poolAccounted) :
    blocksIn t.pool t.downlink t.beamCtl = 4096 := by
  obtain ⟨hsum, hquiet⟩ := s.poolAccounted_iff.mp hs
  by_cases hresets : resetsPool c = false
  · rw [exec_blocks hresets h, hsum]
  · cases c with
    | pinReset =>
      cases h
      exact State.blocks_reset
    | settingsLoadEnd a b => rw [blocks_execSettingsLoadEnd hquiet h, hsum]
    | restart l =>
      rw [show exec (.restart l) s = .next (s.taking .restart l serveRestart) from rfl] at h
      obtain rfl := Host.Outcome.next.inj h
      exact State.taking_keeps (P := fun u => blocksIn u.pool u.downlink u.beamCtl = 4096) hsum
        (fun r => by simpa [State.taken] using hsum) (fun u r hu => blocks_serveRestart u r hu)
    | _ => exact absurd rfl hresets

/-! ### Before the load ends -/

/-- A request's command has no effect while no request is handed on. -/
theorem exec_request_of_handed_nil {c : Instr} {code : ReqCode} {l : LinkNo} (hc : requestOf c = some (code, l)) {s t : State}
    (h : exec c s = .next t) (hs : s.handed = []) : t = s := by
  obtain rfl : s.taking code l (serveOf code) = t := by simpa [exec_of_requestOf hc] using h
  simp [State.taking, State.nextRequest, hs]

@[simp] theorem foldl_settings {β : Type} {f : State → β → State} (h : ∀ (u : State) (b : β), (f u b).settings = u.settings)
    (s : State) (bs : List β) : (bs.foldl f s).settings = s.settings := foldl_keeps State.settings f h bs s

@[simp] theorem State.settings_recheckAnswers (s : State) (b : Bool) : (s.recheckAnswers b).settings = s.settings := by
  unfold State.recheckAnswers
  refine foldl_settings (fun u x => ?_) s _
  (repeat' split) <;> simp

@[simp] theorem State.settings_recheckSurveys (s : State) : (s.recheckSurveys).settings = s.settings := by
  unfold State.recheckSurveys
  refine foldl_settings (fun u x => ?_) s _
  (repeat' split) <;> simp

@[simp] theorem State.settings_recheckBursts (s : State) : (s.recheckBursts).settings = s.settings := by
  unfold State.recheckBursts
  refine foldl_settings (fun u x => ?_) s _
  (repeat' split) <;> simp

@[simp] theorem State.settings_recheckSilence (s : State) (k : Kind) : (s.recheckSilence k).settings = s.settings := by
  unfold State.recheckSilence
  refine foldl_settings (fun u x => ?_) s _
  (repeat' split) <;> simp

@[simp] theorem State.settings_recheckStalls (s : State) : (s.recheckStalls).settings = s.settings := by
  unfold State.recheckStalls
  refine foldl_settings (fun u x => ?_) s _
  (repeat' split) <;> simp

@[simp] theorem State.settings_recheckWaits (s : State) : s.recheckWaits.settings = s.settings := by
  unfold State.recheckWaits
  exact foldl_settings (fun u w => by simp) s _

@[simp] theorem State.settings_afterTune (s : State) (i : Fin 19) : (s.afterTune i).settings = s.settings := by
  unfold State.afterTune
  split <;> simp

@[simp] theorem State.loaded_bumpSet (s : State) (k : Fin 11) : (s.bumpSet k).settings.loaded = s.settings.loaded := rfl

theorem State.loaded_tunePair (s : State) (i : Fin 19) (v : Nat) : (s.tunePair i v).settings.loaded = s.settings.loaded := by
  unfold State.tunePair
  dsimp only
  (repeat' split) <;> simp

theorem State.loaded_clearGroup (s : State) (g : Nat) : (s.clearGroup g).settings.loaded = s.settings.loaded := by
  unfold State.clearGroup
  split <;> rfl

theorem State.settings_restartUnits (s : State) (r : ReqRef) : (s.restartUnits r).settings = s.settings := by
  have hlinks : ∀ u : State, (u.restartLinks r).settings = u.settings := fun u => u.restartLinks_keepsAllBut r .settings (by simp)
  have hbeams : ∀ u : State, u.restartBeams.settings = u.settings := fun u => u.restartBeams_keepsAllBut .settings (by simp)
  have hregistry : ∀ u : State, u.restartRegistry.settings = u.settings := fun _ => rfl
  have hcranes : ∀ u : State, u.restartCranes.settings = u.settings := fun _ => rfl
  unfold State.restartUnits
  simp [hlinks, hbeams, hregistry, hcranes]

theorem State.loaded_endStore (s : State) (j : StoreJob) (m : Bool) (bs : List Byte) :
    (s.endStore j m bs).settings.loaded = s.settings.loaded := by
  have hwrite : ∀ (x : Settings) (v : Area), (x.writeArea v bs).loaded = x.loaded := by
    intro x v
    unfold Settings.writeArea
    cases v <;> rfl
  unfold State.endStore
  dsimp only
  split <;> simp [hwrite]

section
variable (s : State) (r : Request)

theorem loaded_serveReadCounters : (serveReadCounters s r).settings.loaded = s.settings.loaded := by
  unfold serveReadCounters State.reading
  split
  · simp
  · dsimp only
    (repeat' split) <;> simp [State.loaded_clearGroup]

theorem loaded_serveTune : (serveTune s r).settings.loaded = s.settings.loaded := by
  unfold serveTune State.reading
  split
  · simp
  · simp [foldl_keeps (fun u : State => u.settings.loaded) _ fun u p => u.loaded_tunePair _ _]

theorem loaded_serveStoreSettings : (serveStoreSettings s r).settings.loaded = s.settings.loaded := by
  unfold serveStoreSettings State.reading
  (repeat' split) <;> simp

theorem loaded_serveRestart : (serveRestart s r).settings.loaded = s.settings.loaded := by
  unfold serveRestart State.reading
  (repeat' split) <;> simp [State.settings_restartUnits]

end

/-- No command but the end of the load and a pin reset moves whether the load has ended. -/
theorem exec_loaded {c : Instr} (hload : ∀ a b, c ≠ .settingsLoadEnd a b) (hreset : c ≠ .pinReset) {s t : State}
    (h : exec c s = .next t) : t.settings.loaded = s.settings.loaded := by
  by_cases hw : Part.settings ∈ writesOf c
  case neg => rw [exec_next_keeps h .settings hw]
  refine exec_view (v := fun u : State => u.settings.loaded) h (fun _ _ => rfl) (fun code l hcode u r => ?_) fun hevent => ?_
  · subst hcode
    cases code with
    | readCounters => exact loaded_serveReadCounters u r
    | tune => exact loaded_serveTune u r
    | storeSettings => exact loaded_serveStoreSettings u r
    | restart => exact loaded_serveRestart u r
    | _ => exact absurd hw (by simp [ReqCode.command, writesOf])
  cases c with
  | settingsLoadEnd readA readB => exact absurd rfl (hload readA readB)
  | pinReset => exact absurd rfl hreset
  | storeWriteEnd e bs =>
    cases h
    (repeat' split)
    · exact s.loaded_endStore _ _ _
    · rfl
    · rfl
  | storeWriteTimeout bs =>
    cases h
    (repeat' split)
    · exact s.loaded_endStore _ _ _
    · rfl
    · rfl
  | restartAnswer =>
    cases h
    split
    · simp [State.answerRestart]
    · rfl
  | readCounters | tune | storeSettings | restart => cases hevent
  | _ => exact absurd hw (by simp [writesOf])

/-! ### The quiet before the load ends -/

/-- Nothing is asked of the units, no link is UP and no burst is in flight. -/
def State.asleep (s : State) : Prop := s.handed = [] ∧ (∀ l : LinkNo, (s.link l).up = false) ∧ ∀ b : BeamNo, s.burstAt b = none

theorem State.quietBeforeLoad_iff (s : State) : s.quietBeforeLoad ↔ (s.settings.loaded = false → s.asleep) := Iff.rfl

theorem State.down_of_upOf {s t : State} (h : upOf t.links = upOf s.links) (hs : ∀ l : LinkNo, (s.link l).up =
    false) (l : LinkNo) :
    (t.link l).up = false := (congrFun h l).trans (hs l)

theorem State.BurstsFade.none {s t : State} (h : s.BurstsFade t) (hs : ∀ b : BeamNo, s.burstAt b = none) (b : BeamNo) :
    t.burstAt b = none := by
  rcases h b with hb | hb
  · rw [hb, hs]
  · exact hb

/-- No run is counted before the load has ended, so no link comes UP (R2). -/
theorem execLinkUp_asleep {l : LinkNo} {s t : State} (h : execLinkUp l s = .next t) (hload : s.settings.loaded = false)
    (hs : s.asleep) : t.asleep := by
  cases h
  refine ⟨hs.1, fun m => ?_, hs.2.2⟩
  rw [State.link_onLink]
  split
  · simp [State.runCounts, hload, hs.2.1]
  · exact hs.2.1 m

/-- A message is passed over on a link that is DOWN (R2). -/
theorem execMessageReceived_asleep {l : LinkNo} {bs : List Byte} {s t : State} (h : execMessageReceived l bs s = .next t)
    (hs : s.asleep) : t.asleep := by
  have hup := upOf_execMessageReceived h
  cases h
  obtain ⟨hhanded, hdown, hburst⟩ := hs
  refine ⟨?_, State.down_of_upOf hup hdown, ?_⟩
  · split
    · exact hhanded
    · simp [hdown, hhanded]
  · intro b
    split
    · exact hburst b
    · simp only [State.link_onLink_self, hdown]
      exact hburst b

/-- A link that is DOWN does not go DOWN (R3). -/
theorem execLinkDown_asleep {l : LinkNo} {receiving : Bool} {s t : State} (h : execLinkDown l receiving s = .next t)
    (hs : s.asleep) : t.asleep := by
  cases h
  simp only [hs.2.1, Bool.false_and, Bool.false_eq_true, if_false]
  exact hs

theorem execDownlinkWithdrawal_asleep {e : EntryNo} {s t : State} (h : execDownlinkWithdrawal e s = .next t)
    (hs : s.asleep) : t.asleep := by
  have hup := upOf_execDownlinkWithdrawal h
  cases h
  obtain ⟨hhanded, hdown, hburst⟩ := hs
  refine ⟨?_, State.down_of_upOf hup hdown, ?_⟩
  · split
    · simp [hhanded]
    · exact hhanded
  · intro b
    split
    · rw [State.burstAt_judge, State.burstAt_of_beamCtl (State.partDone_frame _ _ _).2.2.2.2.2.1, State.burstAt_discardTerminal,
        hburst b]
      rfl
    · exact hburst b

theorem exec_asleep {c : Instr} (hload : ∀ readA readB, c ≠ .settingsLoadEnd readA readB) (hreset : c ≠ .pinReset) {s t : State}
    (h : exec c s = .next t) (hloaded : s.settings.loaded = false) (hs : s.asleep) : t.asleep := by
  rcases hc : requestOf c with _ | ⟨code, l⟩
  case some => exact exec_request_of_handed_nil hc h hs.1 ▸ hs
  have hrest : movesUp c = false → Part.handed ∉ writesOf c → makesBursts c = false → t.asleep := fun hup hhanded hburst =>
    ⟨(exec_next_keeps h .handed hhanded).trans hs.1, State.down_of_upOf (exec_upOf hup h) hs.2.1,
      (exec_ends_bursts_only c hburst s t h).none hs.2.2⟩
  cases c with
  | linkUp l => exact execLinkUp_asleep h hloaded hs
  | messageReceived l bs => exact execMessageReceived_asleep h hs
  | linkDown l receiving => exact execLinkDown_asleep h hs
  | downlinkWithdrawal e => exact execDownlinkWithdrawal_asleep h hs
  | settingsLoadEnd readA readB => exact absurd rfl (hload readA readB)
  | pinReset => exact absurd rfl hreset
  | millisecondTick | secondTick => exact hrest rfl (by simp [writesOf]) rfl
  | _ => first | cases hc; done | exact hrest rfl (by simp [writesOf]) rfl

theorem State.loaded_firstLoad (s : State) (d : Load) : ((s.handOut d).firstChoice).firstSweeps.settings.loaded = true := by
  have hsettings : ∀ u : State, u.firstSweeps.settings = u.settings := fun u => u.firstSweeps_keepsAllBut .settings (by simp)
  rw [hsettings]
  rfl

theorem exec_quietBeforeLoad {c : Instr} {s t : State} (h : exec c s = .next t) (hs : s.quietBeforeLoad) : t.quietBeforeLoad := by
  by_cases hreset : c = .pinReset
  · subst hreset
    cases h
    exact fun _ => ⟨rfl, fun _ => by simp [State.link, State.reset, look, Link.reset], fun _ => by
      simp [State.beam, State.reset, BeamCtl.reset, Beam.reset, look]⟩
  by_cases hload : ∃ readA readB, c = .settingsLoadEnd readA readB
  · obtain ⟨readA, readB, rfl⟩ := hload
    cases h
    split
    · exact hs
    · dsimp only
      rw [State.quietBeforeLoad_iff, State.loaded_firstLoad]
      exact fun hnot => absurd hnot (by decide)
  · have hload : ∀ readA readB, c ≠ .settingsLoadEnd readA readB := fun a b hc => hload ⟨a, b, hc⟩
    rw [State.quietBeforeLoad_iff, exec_loaded hload hreset h]
    exact fun hloaded => exec_asleep hload hreset h hloaded (hs hloaded)

/-- Settles O53: a frame or copy takes its blocks where it is admitted, and every end of one frees or passes on what it held; a
reset and
a restart start with 4,096 free blocks. -/
theorem stepsKeepThePoolAccounted : Obligations.StepsKeepThePoolAccounted := by
  have hpending : ∀ (u : State) (q : List Instr), u.poolAccounted → State.poolAccounted { u with pending := q } := by
    intro u q hu
    rw [State.poolAccounted_iff] at hu ⊢
    exact hu
  refine fun s t hs h => step_keeps (P := State.poolAccounted) hpending (fun c u v hexec hu => ?_) hs h
  exact v.poolAccounted_iff.mpr ⟨exec_blocks_accounted hexec hu, exec_quietBeforeLoad hexec hu.2⟩

end Sys2Proof.Machine
end

section
/-! PROOFS. What segments follow (R51 to R53): the cells, the reach windows and the states of the heads, and that no operation
but the
named ones changes them or the choice that was made of them. -/

namespace Sys2Proof.Machine

/-- What the choice of the serving cells looks at, and that choice: cells, segment records, reach windows, head states. -/
def coverOf (c : Coverage) (b : BeamCtl) :
    Vector (Vector (Option Cell) 64) 12 × Vector SegRec 64 × Vector (Option Reach) 12 × (HeadNo → HeadState) :=
  (c.cells, c.segs, c.reach, fun h => (look b.heads h).state)

@[simp] theorem coverOf_counted (c : Coverage) (b : BeamCtl) (ns : Vector Nat 24) : coverOf { c with counters := ns } b =
    coverOf c b := rfl

@[simp] theorem foldl_coverOf {β : Type} {f : State → β → State}
    (h : ∀ (u : State) (b : β), coverOf (f u b).coverage (f u b).beamCtl =
      coverOf u.coverage u.beamCtl) (s : State) (bs : List β) :
    coverOf (bs.foldl f s).coverage (bs.foldl f s).beamCtl = coverOf s.coverage s.beamCtl :=
  foldl_keeps (fun u : State => coverOf u.coverage u.beamCtl) f h bs s

@[simp] theorem foldl_coverOf_coverage {β : Type} {f : State → β → State} (c : BeamCtl)
    (h : ∀ (u : State) (b : β), coverOf (f u b).coverage c = coverOf u.coverage c) (s : State) (bs : List β) :
    coverOf (bs.foldl f s).coverage c = coverOf s.coverage c :=
  foldl_keeps (fun u : State => coverOf u.coverage c) f h bs s

@[simp] theorem foldl_coverOf_beamCtl {β : Type} {f : State → β → State} (c : Coverage)
    (h : ∀ (u : State) (b : β), coverOf c (f u b).beamCtl = coverOf c u.beamCtl) (s : State) (bs : List β) :
    coverOf c (bs.foldl f s).beamCtl = coverOf c s.beamCtl :=
  foldl_keeps (fun u : State => coverOf c u.beamCtl) f h bs s

@[simp] theorem State.cover_setHead (c : Coverage) {s : State} {h : HeadNo} {x : Head} (hx : x.state = (s.head h).state) :
    coverOf c (s.setHead h x).beamCtl = coverOf c s.beamCtl := by
  have hstate : (fun i => ((s.setHead h x).head i).state) = fun i => (s.head i).state := by
    funext i
    rw [State.head_setHead]
    split
    · next hi => rw [hi, hx]
    · rfl
  exact congrArg (fun f => (c.cells, c.segs, c.reach, f)) hstate

@[simp] theorem State.cover_bumpCov (bc : BeamCtl) (s : State) (k : Fin 24) :
    coverOf (s.bumpCov k).coverage bc = coverOf s.coverage bc := by
  unfold State.bumpCov
  simp

@[simp] theorem State.cover_setBeam (cv : Coverage) (s : State) (b : BeamNo) (x : Beam) :
    coverOf cv (s.setBeam b x).beamCtl = coverOf cv s.beamCtl := rfl

@[simp] theorem State.cover_setWaitList (cv : Coverage) (s : State) (w : List WaitEntry) :
    coverOf cv (s.setWaitList w).beamCtl = coverOf cv s.beamCtl := rfl

@[simp] theorem State.cover_settleBurst (cv : Coverage) (s : State) (b : BeamNo) (u : Burst) (o : Nat → FrameOutcome) :
    coverOf cv (s.settleBurst b u o).beamCtl = coverOf cv s.beamCtl := by
  unfold State.settleBurst
  simp

@[simp] theorem State.cover_classChanged (bc : BeamCtl) (s : State) (g : SegNo) (x y : SegClass) :
    coverOf (s.classChanged g x y).coverage bc = coverOf s.coverage bc := by
  rw [State.classChanged_eq]
  simp

@[simp] theorem State.cover_sendNext (s : State) (h : HeadNo) :
    coverOf (s.sendNext h).coverage (s.sendNext h).beamCtl = coverOf s.coverage s.beamCtl := by
  unfold State.sendNext
  dsimp only
  (repeat' split) <;> simp

@[simp] theorem State.cover_pushCmd (s : State) (h : HeadNo) (c : HeadCmd) :
    coverOf (s.pushCmd h c).coverage (s.pushCmd h c).beamCtl = coverOf s.coverage s.beamCtl := by
  unfold State.pushCmd
  simp

@[simp] theorem State.cover_endOutstanding (s : State) (h : HeadNo) :
    coverOf (s.endOutstanding h).coverage (s.endOutstanding h).beamCtl = coverOf s.coverage s.beamCtl := by
  unfold State.endOutstanding
  simp

@[simp] theorem State.cover_steer (s : State) (b : BeamNo) (r : OpenReq) (g : SegNo) (o : Bool) :
    coverOf (s.steer b r g o).coverage (s.steer b r g o).beamCtl = coverOf s.coverage s.beamCtl := by
  unfold State.steer
  simp

@[simp] theorem State.cover_join (s : State) (b : BeamNo) (r : OpenReq) (g : SegNo) :
    coverOf (s.join b r g).coverage (s.join b r g).beamCtl = coverOf s.coverage s.beamCtl := by
  unfold State.join
  dsimp only
  (repeat' split) <;> simp

@[simp] theorem State.cover_joinWaiting (s : State) (b : BeamNo) (g : SegNo) :
    coverOf (s.joinWaiting b g).coverage (s.joinWaiting b g).beamCtl = coverOf s.coverage s.beamCtl := by
  unfold State.joinWaiting
  simp

@[simp] theorem State.cover_serveIdle (s : State) (b : BeamNo) :
    coverOf (s.serveIdle b).coverage (s.serveIdle b).beamCtl = coverOf s.coverage s.beamCtl := by
  unfold State.serveIdle
  dsimp only
  (repeat' split) <;> simp

@[simp] theorem State.cover_serveOpen (s : State) (b : BeamNo) :
    coverOf (s.serveOpen b).coverage (s.serveOpen b).beamCtl = coverOf s.coverage s.beamCtl := by
  unfold State.serveOpen
  (repeat' split) <;> simp

@[simp] theorem State.cover_trySweep (s : State) (h : HeadNo) :
    coverOf (s.trySweep h).coverage (s.trySweep h).beamCtl = coverOf s.coverage s.beamCtl := by
  unfold State.trySweep
  split <;> simp

@[simp] theorem State.cover_becameIdle (s : State) (b : BeamNo) :
    coverOf (s.becameIdle b).coverage (s.becameIdle b).beamCtl = coverOf s.coverage s.beamCtl := by
  unfold State.becameIdle
  simp

@[simp] theorem State.cover_raiseLost (bc : BeamCtl) (s : State) (b : BeamNo) (r : LossReason) :
    coverOf (s.raiseLost b r).coverage bc = coverOf s.coverage bc := by
  unfold State.raiseLost
  dsimp only
  (repeat' split) <;> simp

@[simp] theorem State.cover_closeBeam (s : State) (b : BeamNo) (r : Option LossReason) :
    coverOf (s.closeBeam b r).coverage (s.closeBeam b r).beamCtl = coverOf s.coverage s.beamCtl := by
  unfold State.closeBeam
  dsimp only
  split
  · simp [Head.dropSteer]
  · split
    · split <;> simp
    · rfl

@[simp] theorem State.cover_burstEnded (s : State) (b : BeamNo) (l : LinkNo) :
    coverOf (s.burstEnded b l).coverage (s.burstEnded b l).beamCtl = coverOf s.coverage s.beamCtl := by
  unfold State.burstEnded
  dsimp only
  (repeat' split) <;> simp

@[simp] theorem State.cover_endBurst (s : State) (b : BeamNo) (u : Burst) (o : Nat → FrameOutcome) :
    coverOf (s.endBurst b u o).coverage (s.endBurst b u o).beamCtl = coverOf s.coverage s.beamCtl := by
  unfold State.endBurst
  simp

@[simp] theorem State.cover_forcedReturn (cv : Coverage) (s : State) (b : BeamNo) (u : Burst) :
    coverOf cv (s.forcedReturn b u).beamCtl = coverOf cv s.beamCtl := by
  unfold State.forcedReturn
  simp

@[simp] theorem State.cover_loseBeam (s : State) (b : BeamNo) (g : SegNo) (r : LossReason) :
    coverOf (s.loseBeam b g r).coverage (s.loseBeam b g r).beamCtl = coverOf s.coverage s.beamCtl := by
  unfold State.loseBeam
  dsimp only
  (repeat' split) <;> simp

@[simp] theorem State.cover_cellLost (s : State) (h : HeadNo) (g : SegNo) (r : LossReason) :
    coverOf (s.cellLost h g r).coverage (s.cellLost h g r).beamCtl = coverOf s.coverage s.beamCtl := by
  unfold State.cellLost
  simp

@[simp] theorem State.cover_beamFault (s : State) (b : BeamNo) :
    coverOf (s.beamFault b).coverage (s.beamFault b).beamCtl = coverOf s.coverage s.beamCtl := by
  unfold State.beamFault
  dsimp only
  (repeat' split) <;> simp

@[simp] theorem State.cover_steerOrWait (s : State) (q : OpenReq) (g : SegNo) (o : Bool) :
    coverOf (s.steerOrWait q g o).coverage (s.steerOrWait q g o).beamCtl = coverOf s.coverage s.beamCtl := by
  unfold State.steerOrWait
  (repeat' split) <;> simp

@[simp] theorem State.cover_leaveBeam (s : State) (b : BeamNo) (l : LinkNo) :
    coverOf (s.leaveBeam b l).coverage (s.leaveBeam b l).beamCtl = coverOf s.coverage s.beamCtl := by
  unfold State.leaveBeam
  dsimp only
  (repeat' split) <;> simp

@[simp] theorem State.cover_setSurvey (cv : Coverage) (s : State) (h : HeadNo) (v : SurveyStatus) :
    coverOf cv (s.setSurvey h v).beamCtl = coverOf cv s.beamCtl := by
  unfold State.setSurvey
  simp

@[simp] theorem State.cover_makeDue (s : State) (h : HeadNo) :
    coverOf (s.makeDue h).coverage (s.makeDue h).beamCtl = coverOf s.coverage s.beamCtl := by
  unfold State.makeDue
  simp

@[simp] theorem State.cover_steered (s : State) (b : BeamNo) :
    coverOf (s.steered b).coverage (s.steered b).beamCtl = coverOf s.coverage s.beamCtl := by
  unfold State.steered
  dsimp only
  (repeat' split) <;> simp

@[simp] theorem State.cover_requeue (s : State) (w : List WaitEntry) :
    coverOf (s.requeue w).coverage (s.requeue w).beamCtl = coverOf s.coverage s.beamCtl := by
  unfold State.requeue
  simp

@[simp] theorem State.cover_released (s : State) (b : BeamNo) (r : Bool) :
    coverOf (s.released b r).coverage (s.released b r).beamCtl = coverOf s.coverage s.beamCtl := by
  unfold State.released
  dsimp only
  (repeat' split) <;> simp

@[simp] theorem State.cover_overdueBeam (s : State) (b : BeamNo) :
    coverOf (s.overdueBeam b).coverage (s.overdueBeam b).beamCtl = coverOf s.coverage s.beamCtl := by
  unfold State.overdueBeam
  dsimp only
  (repeat' split) <;> simp

@[simp] theorem State.cover_makeOverdue (s : State) (h : HeadNo) :
    coverOf (s.makeOverdue h).coverage (s.makeOverdue h).beamCtl = coverOf s.coverage s.beamCtl := by
  unfold State.makeOverdue
  simp

@[simp] theorem State.cover_expireWait (s : State) (w : WaitEntry) :
    coverOf (s.expireWait w).coverage (s.expireWait w).beamCtl = coverOf s.coverage s.beamCtl := by
  unfold State.expireWait
  simp

@[simp] theorem State.cover_discardTerminal (cv : Coverage) (s : State) (e : EntryNo) :
    coverOf cv (s.discardTerminal e).beamCtl = coverOf cv s.beamCtl := by
  have hdrop : (s.dropFrames (fun f => f.terminal == e) .withdrawn 18).beamCtl = s.beamCtl := by simp
  exact (rfl : _ = coverOf cv (s.dropFrames (fun f => f.terminal == e) .withdrawn 18).beamCtl).trans (by rw [hdrop])

@[simp] theorem State.cover_beginBurst (cv : Coverage) (s : State) (b : BeamNo) (l : LinkNo) (x y : List Frame) :
    coverOf cv (s.beginBurst b l x y).beamCtl = coverOf cv s.beamCtl := by
  unfold State.beginBurst
  (repeat' split) <;> simp

@[simp] theorem State.cover_expireBurst (s : State) (b : BeamNo) :
    coverOf (s.expireBurst b).coverage (s.expireBurst b).beamCtl = coverOf s.coverage s.beamCtl := by
  unfold State.expireBurst
  split <;> simp

@[simp] theorem State.cover_forgetOrigin (cv : Coverage) (s : State) (l : LinkNo) :
    coverOf cv (s.forgetOrigin l).beamCtl = coverOf cv s.beamCtl := rfl

@[simp] theorem State.cover_restartDownlink (cv : Coverage) (s : State) :
    coverOf cv (s.restartDownlink).beamCtl = coverOf cv s.beamCtl := rfl

@[simp] theorem State.cover_returnOwned (s : State) (b : BeamNo) (l : LinkNo) :
    coverOf (s.returnOwned b l).coverage (s.returnOwned b l).beamCtl = coverOf s.coverage s.beamCtl := by
  unfold State.returnOwned
  (repeat' split) <;> simp

@[simp] theorem State.cover_closeIfEmpty (s : State) (b : BeamNo) :
    coverOf (s.closeIfEmpty b).coverage (s.closeIfEmpty b).beamCtl = coverOf s.coverage s.beamCtl := by
  unfold State.closeIfEmpty
  dsimp only
  (repeat' split) <;> simp

@[simp] theorem State.cover_downBeams (s : State) (l : LinkNo) :
    coverOf (s.downBeams l).coverage (s.downBeams l).beamCtl = coverOf s.coverage s.beamCtl := by
  unfold State.downBeams
  dsimp only
  rw [foldl_coverOf fun u b => by simp, foldl_coverOf fun u b => by simp]
  rfl

@[simp] theorem State.cover_tearDown (s : State) (l : LinkNo) :
    coverOf (s.tearDown l).coverage (s.tearDown l).beamCtl = coverOf s.coverage s.beamCtl := by
  unfold State.tearDown
  simp

end Sys2Proof.Machine
end

section
/-! PROOFS. Every step keeps each segment's record at what its cells give, and every cell within its head's reach (R51 to R53). -/

namespace Sys2Proof.Machine

/-! ### The choice and what it looks at -/

/-- Cells stand only within their head's reach, and every segment record is what its cells now give. -/
def State.follows (s : State) : Prop :=
  (∀ (h : HeadNo) (g : SegNo), (s.cell h g).isSome = true → g ∈ s.reachSegs h) ∧ ∀ g : SegNo, s.segRec g = s.chosen g

theorem State.segmentsFollow_iff (s : State) : s.segmentsFollow ↔ (s.settings.loaded = true → s.follows) := Iff.rfl

/-- The choice for a segment looks at the segment's cells, and at the states of the heads that have one. -/
theorem State.chosen_congr {s t : State} {g : SegNo} (hcell : ∀ h : HeadNo, t.cell h g = s.cell h g)
    (hhead : ∀ h : HeadNo, s.cell h g = none ∨ (t.head h).state = (s.head h).state) : t.chosen g = s.chosen g := by
  have hready : ∀ st : CellState, t.readyCells g st = s.readyCells g st := by
    intro st
    refine List.filterMap_congr fun h _ => ?_
    rw [hcell h]
    rcases hhead h with hnone | hstate
    · rw [hnone]
    · rw [hstate]
  unfold State.chosen
  rw [hready, hready]

theorem State.reachSegs_congr {s t : State} (h : t.coverage.reach = s.coverage.reach) (i : HeadNo) :
    t.reachSegs i = s.reachSegs i := by
  unfold State.reachSegs
  rw [h]

theorem State.cover_parts {s t : State} (h : coverOf t.coverage t.beamCtl = coverOf s.coverage s.beamCtl) :
    (∀ (i : HeadNo) (g : SegNo), t.cell i g = s.cell i g) ∧ (∀ g : SegNo, t.segRec g = s.segRec g) ∧
    t.coverage.reach = s.coverage.reach ∧ ∀ i : HeadNo, (t.head i).state = (s.head i).state := by
  simp only [coverOf, Prod.mk.injEq] at h
  obtain ⟨hcells, hsegs, hreach, hheads⟩ := h
  exact ⟨fun i g => by rw [State.cell, hcells, State.cell], fun g => by rw [State.segRec, hsegs, State.segRec], hreach,
    fun i => congrFun hheads i⟩

/-- What leaves cells, records, reach windows and head states as they were leaves the choice as it was. -/
theorem State.follows_of_cover {s t : State} (h : coverOf t.coverage t.beamCtl = coverOf s.coverage s.beamCtl)
    (hs : s.follows) : t.follows := by
  obtain ⟨hcell, hseg, hreach, hhead⟩ := State.cover_parts h
  refine ⟨fun i g hsome => ?_, fun g => ?_⟩
  · rw [State.reachSegs_congr hreach]
    exact hs.1 i g (by rwa [hcell] at hsome)
  · rw [hseg, hs.2 g, State.chosen_congr (fun i => hcell i g) (fun i => .inr (hhead i))]

/-! ### Choosing afresh -/

@[simp] theorem State.cell_setSegRec (s : State) (g : SegNo) (x : SegRec) (h : HeadNo) (i : SegNo) :
    (s.setSegRec g x).cell h i = s.cell h i := rfl

theorem State.chosen_setSegRec (s : State) (g : SegNo) (x : SegRec) (i : SegNo) : (s.setSegRec g x).chosen i = s.chosen i := rfl

/-- The records that a choice writes: those of the segments listed, all from the same cells. -/
theorem State.segRec_foldl_chosen (gs : List SegNo) (s : State) (i : SegNo) :
    (gs.foldl (fun u g => u.setSegRec g (u.chosen g)) s).segRec i = if i ∈ gs then s.chosen i else s.segRec i := by
  induction gs generalizing s with
  | nil => simp
  | cons g gs ih =>
    rw [List.foldl_cons, ih, State.chosen_setSegRec, State.segRec_setSegRec]
    simp only [List.mem_cons]
    by_cases hig : i = g <;> simp [hig]

/-- What a choice leaves as it was, and what it writes (R53). -/
theorem State.rechoose_cover (s : State) (gs : List SegNo) :
    (∀ (h : HeadNo) (g : SegNo), (s.rechoose gs).cell h g = s.cell h g) ∧ (s.rechoose gs).coverage.reach = s.coverage.reach ∧
    (∀ h : HeadNo, (s.rechoose gs).head h = s.head h) ∧
    ∀ g : SegNo, (s.rechoose gs).segRec g = if g ∈ gs then s.chosen g else s.segRec g := by
  have hcover : coverOf (s.rechoose gs).coverage (s.rechoose gs).beamCtl =
      coverOf (gs.foldl (fun u g => u.setSegRec g (u.chosen g)) s).coverage
        (gs.foldl (fun u g => u.setSegRec g (u.chosen g)) s).beamCtl := by
    unfold State.rechoose
    exact foldl_coverOf (fun u c => by simp) _ _
  obtain ⟨hcell, hseg, hreach, -⟩ := State.cover_parts hcover
  have hkept : ∀ (h : HeadNo) (g : SegNo), (gs.foldl (fun u g => u.setSegRec g (u.chosen g)) s).cell h g = s.cell h g :=
    fun h g => foldl_keeps (fun u : State => u.cell h g) (fun u g => u.setSegRec g (u.chosen g)) (fun _ _ => rfl) gs s
  have hwindows : (gs.foldl (fun u g => u.setSegRec g (u.chosen g)) s).coverage.reach = s.coverage.reach :=
    foldl_keeps (fun u : State => u.coverage.reach) (fun u g => u.setSegRec g (u.chosen g)) (fun _ _ => rfl) gs s
  exact ⟨fun h g => (hcell h g).trans (hkept h g), hreach.trans hwindows, State.head_of_beamCtl (by simp),
    fun g => (hseg g).trans (State.segRec_foldl_chosen gs s g)⟩

/-- A change of cells and head states for which the segments it can move are chosen afresh keeps what segments follow. -/
theorem State.follows_rechoose {s u : State} {gs : List SegNo} (hs : s.follows) (hreach : u.coverage.reach = s.coverage.reach)
    (hsegs : ∀ g, u.segRec g = s.segRec g) (hsome : ∀ h g, (u.cell h g).isSome = true → (s.cell h g).isSome = true)
    (hother : ∀ g, g ∉ gs → u.chosen g = s.chosen g) : (u.rechoose gs).follows := by
  obtain ⟨hcell, hwindows, hhead, hseg⟩ := u.rechoose_cover gs
  have hchosen : ∀ g, (u.rechoose gs).chosen g = u.chosen g := fun g =>
    State.chosen_congr (fun h => hcell h g) (fun h => .inr (by rw [hhead h]))
  refine ⟨fun h g hg => ?_, fun g => ?_⟩
  · rw [State.reachSegs_congr (hwindows.trans hreach)]
    exact hs.1 h g (hsome h g (by rwa [hcell] at hg))
  · rw [hseg, hchosen]
    split
    · rfl
    · next hg => rw [hsegs, hs.2 g, hother g hg]

/-- A change that keeps what segments follow, and the reach windows. -/
def State.Covers (s t : State) : Prop := (s.follows → t.follows) ∧ t.coverage.reach = s.coverage.reach

theorem State.Covers.refl (s : State) : s.Covers s := ⟨id, rfl⟩

theorem State.Covers.trans {s t u : State} (h : s.Covers t) (g : t.Covers u) : s.Covers u :=
  ⟨fun hs => g.1 (h.1 hs), g.2.trans h.2⟩

theorem State.Covers.of_cover {s t : State} (h : coverOf t.coverage t.beamCtl = coverOf s.coverage s.beamCtl) : s.Covers t :=
  ⟨State.follows_of_cover h, (State.cover_parts h).2.2.1⟩

theorem State.Covers.foldl {β : Type} {f : State → β → State} (h : ∀ (u : State) (b : β),
    u.Covers (f u b)) (bs : List β) (s : State) :
    s.Covers (bs.foldl f s) := by
  induction bs generalizing s with
  | nil => exact .refl s
  | cons b bs ih => exact (h s b).trans (ih _)

/-- One cell changes and its segment is chosen afresh. -/
theorem State.Covers.cell_rechoose {s u : State} {h : HeadNo} {g : SegNo} {c d : Cell} (hc : s.cell h g = some c)
    (hu : coverOf u.coverage u.beamCtl =
      coverOf (s.setCell h g d).coverage (s.setCell h g d).beamCtl) : s.Covers (u.rechoose [g]) := by
  obtain ⟨hcell, hseg, hreach, hhead⟩ := State.cover_parts hu
  refine ⟨fun hs => State.follows_rechoose hs hreach hseg (fun i j hsome => ?_) (fun j hj => ?_),
    (u.rechoose_cover _).2.1.trans hreach⟩
  · rw [hcell, State.cell_setCell] at hsome
    split at hsome
    · next hij => rw [hij.1, hij.2, hc]; rfl
    · exact hsome
  · refine State.chosen_congr (fun i => ?_) (fun i => .inr (hhead i))
    rw [hcell, State.cell_setCell, if_neg]
    rintro ⟨-, rfl⟩
    exact hj (by simp)

/-- A head takes a state, its beams act, and its reach is chosen afresh. -/
theorem State.Covers.head_rechoose {s u : State} {h : HeadNo} {x : Head}
    (hu : coverOf u.coverage u.beamCtl = coverOf s.coverage (s.setHead h x).beamCtl) : s.Covers (u.rechoose (u.reachSegs h)) := by
  simp only [coverOf, Prod.mk.injEq] at hu
  obtain ⟨hcells, hsegs, hreach, hheads⟩ := hu
  have hcell : ∀ (i : HeadNo) (g : SegNo), u.cell i g = s.cell i g := fun i g => by rw [State.cell, hcells, State.cell]
  refine ⟨fun hs => State.follows_rechoose hs hreach (fun g => by rw [State.segRec, hsegs, State.segRec])
    (fun i j hsome => by rwa [hcell] at hsome) (fun g hg => ?_), (u.rechoose_cover _).2.1.trans hreach⟩
  refine State.chosen_congr (fun i => hcell i g) fun i => ?_
  by_cases hi : i = h
  · refine .inl (Option.not_isSome_iff_eq_none.mp fun hsome => hg ?_)
    rw [State.reachSegs_congr hreach, ← hi]
    exact hs.1 i g hsome
  · refine .inr ((congrFun hheads i).trans ?_)
    show ((s.setHead h x).head i).state = _
    rw [State.head_setHead, if_neg hi]

/-! ### Samples and marks -/

theorem State.covers_sample (s : State) (h : HeadNo) (g : SegNo) (m k : Nat) (ctr : Fin 24) :
    s.Covers (s.sample h g m k ctr) := by
  unfold State.sample
  split
  · exact .refl s
  · next c hc =>
    dsimp only
    (repeat' split)
    · exact (State.Covers.cell_rechoose (d := c.sampled m k) hc (by simp)).trans (.of_cover (State.cover_cellLost _ h g .retired))
    · exact .cell_rechoose (d := c.sampled m k) hc (by simp)
    · exact .of_cover (by simp)

theorem State.covers_burstSample (s : State) (b : BeamNo) (g : Option SegNo) (x y : Nat) : s.Covers (s.burstSample b g x y) := by
  unfold State.burstSample
  (repeat' split)
  · exact .refl s
  · exact s.covers_sample _ _ _ _ _
  · exact .refl s

theorem State.covers_markCell {s : State} {h : HeadNo} {g : SegNo} {c : Cell} (hc : s.cell h g = some c) :
    s.Covers (s.markCell h g c) := by
  have hmarked := State.Covers.cell_rechoose (u := (s.setCell h g { c with state := .marked, recovery := 0 }).bumpCov 7)
    (d := { c with state := .marked, recovery := 0 }) hc (by simp)
  unfold State.markCell
  dsimp only
  split
  · exact hmarked.trans (.of_cover (State.cover_cellLost _ h g .marked))
  · exact hmarked

theorem State.covers_unmarkCell {s : State} {h : HeadNo} {g : SegNo} {c : Cell} (hc : s.cell h g = some c) :
    s.Covers (s.unmarkCell h g c) :=
  .cell_rechoose (d := { c with state := .weak, q := 128, recovery := 0 }) hc (by simp)

theorem State.covers_reportBurst (s : State) (b : BeamNo) (u : Burst) (o : Nat → FrameOutcome) (k : Fin 21) :
    s.Covers (s.reportBurst b u o k) := by
  have hended : s.Covers ((s.endBurst b u o).bumpDown k) := .of_cover (by simp)
  have hjudge : ∀ v : State, v.Covers v.judge := fun v => .of_cover (by simp)
  exact (hended.trans (State.covers_burstSample _ _ _ _ _)).trans (hjudge _)

theorem State.covers_steerRefused (s : State) (b : BeamNo) (g : SegNo) : s.Covers (s.steerRefused b g) := by
  have hsample := s.covers_sample (headOf b) g 0 2 2
  unfold State.steerRefused
  dsimp only
  split
  · exact hsample.trans (.of_cover (by simp))
  · exact hsample

/-! ### Sweeps -/

/-- What one entry of a sweep result leaves as it was: every cell but its own, whether a cell stands there, records and heads. -/
theorem State.sweepEntry_cover (s : State) (h : HeadNo) (g : SegNo) (m : Option Nat) :
    (∀ (i : HeadNo) (j : SegNo), j ≠ g → (s.sweepEntry h g m).cell i j = s.cell i j) ∧
    (∀ (i : HeadNo) (j : SegNo), ((s.sweepEntry h g m).cell i j).isSome = (s.cell i j).isSome) ∧
    (∀ j : SegNo, (s.sweepEntry h g m).segRec j = s.segRec j) ∧ (s.sweepEntry h g m).coverage.reach = s.coverage.reach := by
  have hset : ∀ (c d : Cell) (u : State), s.cell h g = some c →
      (∀ (i : HeadNo) (j : SegNo), u.cell i j = (s.setCell h g d).cell i j) → (∀ j : SegNo, u.segRec j = s.segRec j) →
      u.coverage.reach = s.coverage.reach →
      (∀ (i : HeadNo) (j : SegNo), j ≠ g → u.cell i j = s.cell i j) ∧
      (∀ (i : HeadNo) (j : SegNo), (u.cell i j).isSome = (s.cell i j).isSome) ∧
      (∀ j : SegNo, u.segRec j = s.segRec j) ∧ u.coverage.reach = s.coverage.reach := by
    intro c d u hc hcell hseg hreach
    refine ⟨fun i j hj => ?_, fun i j => ?_, hseg, hreach⟩
    · rw [hcell, State.cell_setCell, if_neg fun hij => hj hij.2]
    · rw [hcell, State.cell_setCell]
      split
      · next hij => rw [hij.1, hij.2, hc]; rfl
      · rfl
  unfold State.sweepEntry
  split
  · exact ⟨fun _ _ _ => rfl, fun _ _ => rfl, fun _ => rfl, rfl⟩
  · next c hc => exact hset c _ _ hc (fun _ _ => rfl) (fun _ => rfl) rfl
  · next c v hc =>
    split
    · dsimp only
      split <;> exact hset c _ _ hc (fun _ _ => rfl) (fun _ => rfl) rfl
    · dsimp only
      split <;> exact hset c _ _ hc (fun _ _ => rfl) (fun _ => rfl) rfl
    · dsimp only
      split <;> exact hset c _ _ hc (fun _ _ => rfl) (fun _ => rfl) rfl
    · exact hset c _ _ hc (fun _ _ => rfl) (fun _ => rfl) rfl

/-- What a sweep result leaves as it was before its choices: every cell outside its entries, and whether a cell stands. -/
theorem State.sweepEntries_cover (h : HeadNo) (ps : List (SegNo × Option Nat)) (s : State) :
    let t := ps.foldl (fun t p => t.sweepEntry h p.1 p.2) s
    (∀ (i : HeadNo) (j : SegNo), j ∉ ps.map Prod.fst → t.cell i j = s.cell i j) ∧
    (∀ (i : HeadNo) (j : SegNo), (t.cell i j).isSome = (s.cell i j).isSome) ∧
    (∀ j : SegNo, t.segRec j = s.segRec j) ∧ t.coverage.reach = s.coverage.reach ∧ t.beamCtl = s.beamCtl := by
  induction ps generalizing s with
  | nil => exact ⟨fun _ _ _ => rfl, fun _ _ => rfl, fun _ => rfl, rfl, rfl⟩
  | cons p ps ih =>
    obtain ⟨hcell, hsome, hseg, hreach, hbeam⟩ := ih (s.sweepEntry h p.1 p.2)
    obtain ⟨hcell', hsome', hseg', hreach'⟩ := s.sweepEntry_cover h p.1 p.2
    refine ⟨fun i j hj => ?_, fun i j => (hsome i j).trans (hsome' i j), fun j => (hseg j).trans (hseg' j), hreach.trans hreach',
      hbeam.trans (by simp)⟩
    simp only [List.map_cons, List.mem_cons, not_or] at hj
    exact (hcell i j hj.2).trans (hcell' i j hj.1)

theorem State.covers_applySweep (s : State) (h : HeadNo) (ms : List (Option Nat)) : s.Covers (s.applySweep h ms) := by
  obtain ⟨hcell, hsome, hseg, hreach, hbeam⟩ := State.sweepEntries_cover h ((s.reachSegs h).zip ms) s
  unfold State.applySweep
  dsimp only
  refine State.Covers.trans (t := State.rechoose _ (s.reachSegs h)) ?_
    (.of_cover (foldl_coverOf (fun u g => u.cover_cellLost h g .retired) _ _))
  refine ⟨fun hs => State.follows_rechoose hs hreach hseg (fun i j => by rw [hsome]; exact id) (fun g hg => ?_),
    (State.rechoose_cover _ _).2.1.trans hreach⟩
  refine State.chosen_congr (fun i => hcell i g fun hmem => hg ?_) (fun i => .inr (by rw [State.head_of_beamCtl hbeam]))
  obtain ⟨p, hp, rfl⟩ := List.mem_map.mp hmem
  exact (List.of_mem_zip hp).1

theorem State.covers_swept (s : State) (h : HeadNo) (ms : List (Option Nat)) : s.Covers (s.swept h ms) := by
  have hcover : coverOf (s.swept h ms).coverage (s.swept h ms).beamCtl =
      coverOf (s.applySweep h ms).coverage (s.applySweep h ms).beamCtl := by
    unfold State.swept
    simp only [State.cover_serveIdle, State.cover_bumpCov, State.setHead_frame, State.setBeam_frame, State.bumpCov_frame]
    rw [State.cover_setHead _ (by rfl)]
    simp
  exact (s.covers_applySweep h ms).trans (.of_cover hcover)

/-! ### Heads that fail and recover -/

theorem State.covers_raiseHeadState (u : State) (h : HeadNo) (k : Fin 24) : u.Covers ((u.raiseHeadState h).bumpCov k) :=
  .of_cover (by simp)

theorem State.covers_headFault (s : State) (h : HeadNo) : s.Covers (s.headFault h) := by
  unfold State.headFault
  dsimp only
  refine State.Covers.trans (State.Covers.head_rechoose (x := { s.head h with
    state := .fault, outstanding := none, queue := [], retryAt := none, restartProbe := false,
    probeAt := some (s.now + 1000) }) ?_) (State.covers_raiseHeadState _ h _)
  rw [State.cover_beamFault, State.cover_beamFault]
  rfl

theorem State.covers_recoverHead (s : State) (h : HeadNo) : s.Covers (s.recoverHead h) := by
  unfold State.recoverHead
  dsimp only
  exact State.Covers.trans (State.Covers.head_rechoose (x := { s.head h with
    state := .ready, probeAt := none, reference := s.now, survey := .due }) rfl) (State.covers_raiseHeadState _ h _)

theorem State.covers_probed (s : State) (h : HeadNo) : s.Covers (s.probed h) := by
  unfold State.probed
  split
  · exact s.covers_recoverHead h
  · exact .of_cover (by simp)

theorem State.covers_answerRunsOut (s : State) (h : HeadNo) : s.Covers (s.answerRunsOut h) := by
  unfold State.answerRunsOut
  split
  · exact .of_cover (by simp)
  · exact s.covers_headFault h

end Sys2Proof.Machine
end

section
/-! PROOFS. Every command keeps what segments follow (R51 to R53) and the reach windows (R51): the requests, the events, the
end of the
settings load and a pin reset. -/

namespace Sys2Proof.Machine

/-- A command keeps what segments follow, and the reach windows. -/
def KeepsCover (c : Instr) : Prop := ∀ s t : State, exec c s = .next t → s.Covers t

theorem KeepsCover.of_exec {c : Instr} {f : State → State} (hexec : ∀ s, exec c s =
    .next (f s)) (hf : ∀ s : State, s.Covers (f s)) :
    KeepsCover c := by
  intro s t h
  obtain rfl : f s = t := by simpa [hexec] using h
  exact hf s

theorem KeepsCover.of_serve {code : ReqCode} {l : LinkNo} (hserve : ∀ (s : State) (r : Request), s.Covers (serveOf code s r)) :
    KeepsCover (code.command l) := by
  refine .of_exec (exec_command code l) fun s => ?_
  unfold State.taking
  split
  · exact .refl s
  · split
    · exact State.Covers.trans (t := s.taken _) (.of_cover rfl) (hserve _ _)
    · exact .refl s

/-- A command that writes neither the coverage block nor the beam controller. -/
theorem KeepsCover.of_writes {c : Instr} (hcov : Part.coverage ∉ writesOf c) (hbeam : Part.beamCtl ∉ writesOf c) :
    KeepsCover c := by
  intro s t h
  refine .of_cover ?_
  rw [exec_next_keeps h .coverage hcov, exec_next_keeps h .beamCtl hbeam]

theorem State.Covers.ite {s t u : State} {c : Prop} [Decidable c] (ht : s.Covers t) (hu : s.Covers u) :
    s.Covers (if c then t else u) := by
  split
  · exact ht
  · exact hu

theorem State.Covers.judge {s t : State} (h : s.Covers t) : s.Covers t.judge := h.trans (.of_cover (by simp))

theorem State.Covers.reply {s t : State} (r : ReqRef) (st : Status) (b : ReplyBody) (h : s.Covers t) :
    s.Covers (t.reply r st b) :=
  h.trans (.of_cover (by simp))

theorem State.Covers.reading {α : Type} {s : State} {r : Request} {o : Option α} {f : α → State} (hf : ∀ q : α, s.Covers (f q)) :
    s.Covers (s.reading r o f) :=
  State.reading_keeps (P := fun u => s.Covers u) (.of_cover (by simp)) fun q _ => hf q

/-- A matched answer ends its command; what it brings comes between the end and the next sweep. -/
theorem State.covers_answered (s : State) (h : HeadNo) (o : Outstanding) {f : State → State} (hf : ∀ u : State, u.Covers (f u)) :
    s.Covers (s.answered h o f) := by
  have hend : s.Covers (s.endOutstanding h) := .of_cover (by simp)
  have htry : ∀ u : State, u.Covers (u.trySweep h) := fun u => .of_cover (by simp)
  unfold State.answered
  dsimp only
  split
  · exact hend.trans (htry _)
  · exact (hend.trans (hf _)).trans (htry _)

/-! ### Requests -/

section
variable (s : State) (r : Request)

theorem covers_serveReadCounters : s.Covers (serveReadCounters s r) := by
  have hclear : ∀ g, s.Covers (s.clearGroup g) := by
    intro g
    refine .of_cover ?_
    unfold State.clearGroup
    split <;> rfl
  refine .reading fun q => ?_
  split
  · exact .of_cover (by simp)
  · exact (State.Covers.ite (hclear _) (.refl s)).reply _ _ _

theorem covers_serveMarkCell : s.Covers (serveMarkCell s r) := by
  refine .reading fun q => ?_
  split
  · exact .of_cover (by simp)
  · next c hc => exact (State.Covers.ite (.refl s) (State.covers_markCell hc).judge).reply _ _ _

theorem covers_serveUnmarkCell : s.Covers (serveUnmarkCell s r) := by
  refine .reading fun q => ?_
  split
  · exact .of_cover (by simp)
  · next c hc => exact (State.Covers.ite (State.covers_unmarkCell hc).judge (.refl s)).reply _ _ _

theorem covers_serveOpenBeam : s.Covers (serveOpenBeam s r) := by
  refine .reading fun q => .of_cover ?_
  dsimp only
  (repeat' split) <;> simp

theorem covers_serveRelease : s.Covers (serveRelease s r) := by
  refine .reading fun b => .of_cover ?_
  dsimp only
  split
  · simp
  · split <;> simp

theorem covers_serveSurvey : s.Covers (serveSurvey s r) := by
  refine .reading fun h => .of_cover ?_
  dsimp only
  split
  · simp
  · simp
  · split <;> simp

theorem covers_serveFetch : s.Covers (serveFetch s r) := by
  refine .reading fun q => .of_cover ?_
  dsimp only
  split <;> simp

theorem State.covers_burstReport (b : BeamNo) (n : Byte) (o : Nat → FrameOutcome) (k : Fin 21) :
    s.Covers (s.burstReport r b n o k) := by
  unfold State.burstReport
  (repeat' split)
  · exact .of_cover (by simp)
  · exact .of_cover (by simp)
  · exact .of_cover (by simp)
  · exact (s.covers_reportBurst _ _ _ _).reply _ _ _

theorem covers_serveDone : s.Covers (serveDone s r) := .reading fun _ => s.covers_burstReport r _ _ _ _

theorem covers_serveCut : s.Covers (serveCut s r) := .reading fun _ => s.covers_burstReport r _ _ _ _

theorem State.covers_afterTune (i : Fin 19) : s.Covers (s.afterTune i) := by
  have hfaults : ∀ (u : State) (b : Bool), u.Covers (u.recheckAnswers b) := fun u b =>
    State.Covers.foldl (fun v h => State.Covers.ite (v.covers_answerRunsOut h) (.refl v)) _ u
  unfold State.afterTune
  split
  · exact hfaults s false
  · exact hfaults s true
  · exact State.Covers.foldl (fun v h => State.Covers.ite (.of_cover (by simp)) (State.Covers.ite (.of_cover (by simp))
    (.refl v))) _ s
  · exact State.Covers.foldl (fun v w => .of_cover (by simp)) _ s
  · exact State.Covers.foldl (fun v b => State.Covers.ite (.of_cover (by simp)) (.refl v)) _ s
  · exact State.Covers.foldl (fun v e => State.Covers.ite (.of_cover (by simp)) (.refl v)) _ s
  · exact State.Covers.foldl (fun v c => State.Covers.ite (.of_cover (by simp)) (.refl v)) _ s
  · exact State.Covers.foldl (fun v e => State.Covers.ite (.of_cover (by simp)) (.refl v)) _ s
  · exact .refl s

theorem State.covers_tunePair (i : Fin 19) (v : Nat) : s.Covers (s.tunePair i v) := by
  have hpair : s.Covers (s.withPair i v) := .of_cover (by simp)
  rw [State.tunePair_eq]
  exact (State.Covers.ite (hpair.trans (State.covers_afterTune _ i)) hpair).judge

theorem covers_serveTune : s.Covers (serveTune s r) := by
  have hbump : ∀ u : State, u.Covers (u.bumpSet 4) := fun u => .of_cover rfl
  exact .reading fun ps => ((State.Covers.foldl (fun u p => u.covers_tunePair _ _) ps s).trans (hbump _)).reply _ _ _

theorem State.covers_restartUnits (q : ReqRef) : s.Covers (s.restartUnits q) := by
  have hlinks : ∀ u : State, u.Covers (u.restartLinks q) := fun u => .of_cover (by
    rw [u.restartLinks_keepsAllBut q .coverage (by simp), u.restartLinks_keepsAllBut q .beamCtl (by simp)])
  have hbeams : ∀ u : State, u.Covers u.restartBeams := by
    intro u
    have hheads : coverOf u.coverage
        { heads := u.beamCtl.heads.map Head.restarted, beams := u.beamCtl.beams.map Beam.restarted, waitList := [] } =
        coverOf u.coverage u.beamCtl := by
      have hstate : ∀ x : Head, x.restarted.state = x.state := by
        intro x
        unfold Head.restarted
        cases hx : x.state <;> simp [hx]
      simp [coverOf, look, hstate]
    refine .of_cover ?_
    unfold State.restartBeams
    dsimp only
    rw [foldl_coverOf fun v h => by split <;> simp]
    exact hheads
  have hregistry : ∀ u : State, u.Covers u.restartRegistry := fun u => .of_cover rfl
  have hcranes : ∀ u : State, u.Covers u.restartCranes := fun u => .of_cover rfl
  have hdown : ∀ u : State, u.Covers u.restartDownlink.restartPool := fun u => .of_cover rfl
  have hreefer : ∀ u : State, u.Covers u.restartReefer := fun u => .of_cover (by simp)
  unfold State.restartUnits
  exact (((((hlinks s).trans (hregistry _)).trans (hbeams _)).trans (hdown _)).trans (hcranes _)).trans (hreefer _).judge

theorem covers_serveRestart : s.Covers (serveRestart s r) := by
  have hbusy : s.Covers ((s.bumpSet 10).answer r.ref .busy) := .of_cover (by simp)
  have hmarked : s.Covers (State.bumpSet { s with settings := { s.settings with restart := some r.ref } } 9) := .of_cover rfl
  exact .reading fun _ => State.Covers.ite hbusy (hmarked.trans (State.covers_restartUnits _ _))

end

theorem keepsCover_request (code : ReqCode) (l : LinkNo) : KeepsCover (code.command l) := by
  cases code with
  | readCounters => exact .of_serve covers_serveReadCounters
  | markCell => exact .of_serve covers_serveMarkCell
  | unmarkCell => exact .of_serve covers_serveUnmarkCell
  | openBeam => exact .of_serve covers_serveOpenBeam
  | release => exact .of_serve covers_serveRelease
  | survey => exact .of_serve covers_serveSurvey
  | fetch => exact .of_serve covers_serveFetch
  | done => exact .of_serve covers_serveDone
  | cut => exact .of_serve covers_serveCut
  | tune => exact .of_serve covers_serveTune
  | restart => exact .of_serve covers_serveRestart
  | _ => exact .of_writes (by simp [ReqCode.command, writesOf]) (by simp [ReqCode.command, writesOf])

/-! ### Events -/

section
variable (h : HeadNo) (bs : List Byte)

theorem keepsCover_steerDone : KeepsCover (.steerDone h bs) := by
  refine .of_exec (fun _ => rfl) fun s => ?_
  (repeat' split)
  · exact s.covers_answered h _ fun u => .of_cover (by simp)
  · exact .refl s
  · exact .refl s

theorem keepsCover_steerRefused : KeepsCover (.steerRefused h bs) := by
  refine .of_exec (fun _ => rfl) fun s => ?_
  (repeat' split)
  · exact (s.covers_answered h _ fun u => u.covers_steerRefused _ _).judge
  · exact .refl s
  · exact .refl s

theorem keepsCover_releaseAnswered : KeepsCover (.releaseAnswered h bs) := by
  refine .of_exec (fun _ => rfl) fun s => ?_
  (repeat' split)
  · exact s.covers_answered h _ fun u => .of_cover (by simp)
  · exact .refl s
  · exact .refl s

theorem keepsCover_sweepResult : KeepsCover (.sweepResult h bs) := by
  refine .of_exec (fun _ => rfl) fun s => ?_
  split
  · exact (s.covers_answered h _ fun u => u.covers_swept _ _).judge
  · exact .refl s

theorem keepsCover_sweepRefused : KeepsCover (.sweepRefused h bs) := by
  refine .of_exec (fun _ => rfl) fun s => ?_
  (repeat' split)
  · exact s.covers_answered h _ fun u => .of_cover (by simp)
  · exact .refl s
  · exact .refl s

theorem keepsCover_probeAnswered : KeepsCover (.probeAnswered h bs) := by
  refine .of_exec (fun _ => rfl) fun s => ?_
  (repeat' split)
  · exact (s.covers_answered h _ fun u => u.covers_probed _).judge
  · exact .refl s
  · exact .refl s

theorem keepsCover_unmatchedAnswer : KeepsCover (.unmatchedAnswer h bs) :=
  .of_exec (fun _ => rfl) fun s => State.Covers.ite (.of_cover (by simp)) (.refl s)

theorem keepsCover_answerLimitExpiry : KeepsCover (.answerLimitExpiry h) :=
  .of_exec (fun _ => rfl) fun s => State.Covers.ite (s.covers_answerRunsOut h).judge (.refl s)

theorem keepsCover_probeTime : KeepsCover (.probeTime h) := by
  refine .of_exec (fun _ => rfl) fun s => ?_
  (repeat' split)
  · exact .of_cover (by simp)
  · exact .refl s
  · exact .refl s

theorem keepsCover_sweepRetryTime : KeepsCover (.sweepRetryTime h) := by
  refine .of_exec (fun _ => rfl) fun s => ?_
  (repeat' split)
  · exact .of_cover (by simp)
  · exact .refl s
  · exact .refl s

theorem keepsCover_surveyDue : KeepsCover (.surveyDue h) :=
  .of_exec (fun _ => rfl) fun s => State.Covers.ite (.of_cover (by simp)) (.refl s)

theorem keepsCover_surveyOverdue : KeepsCover (.surveyOverdue h) :=
  .of_exec (fun _ => rfl) fun s => State.Covers.ite (.of_cover (by simp)) (.refl s)

end

theorem keepsCover_waitExpiry (place : Fin 16) : KeepsCover (.waitExpiry place) := by
  refine .of_exec (fun _ => rfl) fun s => ?_
  (repeat' split)
  · exact .of_cover (by simp)
  · exact .refl s
  · exact .refl s

theorem keepsCover_burstLimitExpiry (b : BeamNo) : KeepsCover (.burstLimitExpiry b) :=
  .of_exec (fun _ => rfl) fun s => State.Covers.ite (State.Covers.judge (.of_cover (by simp))) (.refl s)

theorem keepsCover_downlinkWithdrawal (e : EntryNo) : KeepsCover (.downlinkWithdrawal e) :=
  .of_exec (fun _ => rfl) fun s => State.Covers.ite (.of_cover (by simp)) (.refl s)

theorem keepsCover_linkDown (l : LinkNo) (receiving : Bool) : KeepsCover (.linkDown l receiving) :=
  .of_exec (fun _ => rfl) fun s => State.Covers.ite (.of_cover (by simp)) (.refl s)

/-- Every command but a pin reset and the end of the load keeps what segments follow, and the reach windows. -/
theorem exec_covers {c : Instr} (hload : ∀ readA readB, c ≠ .settingsLoadEnd readA readB) (hreset : c ≠ .pinReset) :
    KeepsCover c := by
  rcases hc : requestOf c with _ | ⟨code, l⟩
  case some => exact requestOf_eq_some_iff.mp hc ▸ keepsCover_request code l
  cases c with
  | settingsLoadEnd readA readB => exact absurd rfl (hload readA readB)
  | pinReset => exact absurd rfl hreset
  | steerDone h bs => exact keepsCover_steerDone h bs
  | steerRefused h bs => exact keepsCover_steerRefused h bs
  | releaseAnswered h bs => exact keepsCover_releaseAnswered h bs
  | sweepResult h bs => exact keepsCover_sweepResult h bs
  | sweepRefused h bs => exact keepsCover_sweepRefused h bs
  | probeAnswered h bs => exact keepsCover_probeAnswered h bs
  | unmatchedAnswer h bs => exact keepsCover_unmatchedAnswer h bs
  | answerLimitExpiry h => exact keepsCover_answerLimitExpiry h
  | probeTime h => exact keepsCover_probeTime h
  | sweepRetryTime h => exact keepsCover_sweepRetryTime h
  | surveyDue h => exact keepsCover_surveyDue h
  | surveyOverdue h => exact keepsCover_surveyOverdue h
  | waitExpiry p => exact keepsCover_waitExpiry p
  | burstLimitExpiry b => exact keepsCover_burstLimitExpiry b
  | downlinkWithdrawal e => exact keepsCover_downlinkWithdrawal e
  | linkDown l receiving => exact keepsCover_linkDown l receiving
  | _ => first | cases hc; done | exact .of_writes (by simp [writesOf]) (by simp [writesOf])

/-! ### The end of the load -/

/-- The cells that a load builds stand within the reach windows that it hands over (R51). -/
theorem cell_handOut (s : State) (d : Load) (h : HeadNo) (g : SegNo) (hsome : ((s.handOut d).cell h g).isSome = true) :
    g ∈ (s.handOut d).reachSegs h := by
  have hcell : (s.handOut d).cell h g = look (look (buildCells d.heads d.marks) h) g := rfl
  rw [hcell, buildCells] at hsome
  simp only [look, Vector.getElem_ofFn] at hsome
  show g ∈ (match look d.heads h with | none => [] | some r => allSegs.filter r.has)
  cases hw : look d.heads h with
  | none => simp [look] at hw; simp [hw] at hsome
  | some w =>
    simp only [look] at hw
    simp only [hw] at hsome
    simp [allSegs]
    by_contra hno
    simp [hno] at hsome

theorem State.covers_firstSweeps (s : State) : s.Covers s.firstSweeps :=
  State.Covers.foldl (fun _ _ => .of_cover (by simp)) _ s

/-- After the first choice every segment record is what its cells give (R50). -/
theorem State.segRec_firstChoice (s : State) (g : SegNo) : s.firstChoice.segRec g = s.chosen g := by
  simp [State.firstChoice, State.segRec, look]

theorem State.coverage_firstChoice (s : State) : s.firstChoice.coverage = { s.coverage with segs := Vector.ofFn s.chosen } := by
  unfold State.firstChoice
  rfl

theorem State.beamCtl_firstChoice (s : State) : s.firstChoice.beamCtl = s.beamCtl := by
  unfold State.firstChoice
  rfl

theorem State.reach_firstChoice (s : State) : s.firstChoice.coverage.reach = s.coverage.reach := by
  rw [State.coverage_firstChoice]

theorem State.cell_firstChoice (s : State) (h : HeadNo) (g : SegNo) : s.firstChoice.cell h g = s.cell h g := by
  rw [State.cell, State.coverage_firstChoice, State.cell]

theorem State.head_firstChoice (s : State) (h : HeadNo) : s.firstChoice.head h = s.head h := by
  rw [State.head, State.beamCtl_firstChoice, State.head]

theorem State.follows_firstChoice {s : State} (hcells : ∀ (h : HeadNo) (g : SegNo), (s.cell h g).isSome =
    true → g ∈ s.reachSegs h) :
    s.firstChoice.follows := by
  refine ⟨fun h g hsome => ?_, fun g => ?_⟩
  · rw [State.reachSegs_congr s.reach_firstChoice]
    exact hcells h g (by rwa [State.cell_firstChoice] at hsome)
  · rw [State.segRec_firstChoice,
    State.chosen_congr (fun h => s.cell_firstChoice h g) fun h => .inr (by rw [State.head_firstChoice])]

theorem State.follows_firstLoad (s : State) (d : Load) : ((s.handOut d).firstChoice).firstSweeps.follows := by
  have hcells := cell_handOut s d
  generalize s.handOut d = u at hcells ⊢
  exact (State.covers_firstSweeps _).1 (State.follows_firstChoice hcells)

theorem State.reach_firstLoad (s : State) (d : Load) : ((s.handOut d).firstChoice).firstSweeps.coverage.reach = d.heads := by
  rw [(State.covers_firstSweeps _).2]
  rfl

theorem exec_segmentsFollow {c : Instr} {s t : State} (h : exec c s = .next t) (hs : s.segmentsFollow) : t.segmentsFollow := by
  rw [State.segmentsFollow_iff] at hs ⊢
  by_cases hreset : c = .pinReset
  · subst hreset
    cases h
    exact fun hloaded => absurd hloaded Bool.false_ne_true
  by_cases hload : ∃ readA readB, c = .settingsLoadEnd readA readB
  · obtain ⟨readA, readB, rfl⟩ := hload
    cases h
    split
    · exact hs
    · exact fun _ => State.follows_firstLoad _ _
  · have hload : ∀ readA readB, c ≠ .settingsLoadEnd readA readB := fun a b hc => hload ⟨a, b, hc⟩
    rw [exec_loaded hload hreset h]
    exact fun hloaded => (exec_covers hload hreset s t h).1 (hs hloaded)

theorem reachFits_of_reach {s t : State} (h : t.coverage.reach = s.coverage.reach) (hs : s.reachFits) : t.reachFits := by
  intro i w hw
  rw [h] at hw
  exact hs i w hw

theorem loadHead_fits {bs : List Byte} {h : HeadNo} {w : Reach} (hw : (loadHead bs h).1 = some w) :
    1 ≤ w.len ∧ w.len ≤ 16 ∧ w.first + w.len ≤ 64 := by
  unfold loadHead at hw
  dsimp only at hw
  split_ifs at hw with h0 h1
  obtain ⟨-, hok⟩ := h1
  cases hw
  simpa [reachOk, and_assoc] using hok

theorem chooseSettings_fits (m : Memory) (readA readB : Bool) (h : HeadNo) (w : Reach)
    (hw : look (chooseSettings m readA readB).heads h = some w) : 1 ≤ w.len ∧ w.len ≤ 16 ∧ w.first + w.len ≤ 64 := by
  have hcopy : ∀ (bs : List Byte) (v : Area) (n : Nat), look (loadCopy bs v n).heads h = some w →
      1 ≤ w.len ∧ w.len ≤ 16 ∧ w.first + w.len ≤ 64 := fun bs v n hv =>
    loadHead_fits (bs := bs) (h := h) (by simpa [loadCopy, look] using hv)
  unfold chooseSettings at hw
  dsimp only at hw
  split at hw
  · split at hw <;> exact hcopy _ _ _ hw
  · exact hcopy _ _ _ hw
  · exact hcopy _ _ _ hw
  · simp [loadDefaults, look] at hw

theorem exec_reachFits {c : Instr} {s t : State} (h : exec c s = .next t) (hs : s.reachFits) : t.reachFits := by
  by_cases hreset : c = .pinReset
  · subst hreset
    cases h
    intro i w hw
    simp [State.reset, Coverage.reset, look] at hw
  by_cases hload : ∃ readA readB, c = .settingsLoadEnd readA readB
  · obtain ⟨readA, readB, rfl⟩ := hload
    cases h
    split
    · exact hs
    · intro i w hw
      dsimp only at hw
      rw [State.reach_firstLoad] at hw
      exact chooseSettings_fits _ _ _ i w hw
  · exact reachFits_of_reach (exec_covers (fun a b hc => hload ⟨a, b, hc⟩) hreset s t h).2 hs

/-- Settles O57: a command that changes a cell or a head's state chooses afresh every segment that the change can move. -/
theorem stepsKeepSegmentsFollowingCells : Obligations.StepsKeepSegmentsFollowingCells := by
  intro s t h
  exact ⟨fun hs => step_keeps (P := State.segmentsFollow) (fun _ _ hu => hu) (fun _ _ _ => exec_segmentsFollow) hs h,
    fun hs => step_keeps (P := State.reachFits) (fun _ _ hu => hu) (fun _ _ _ => exec_reachFits) hs h⟩

end Sys2Proof.Machine
end

section
/-! PROOFS. The reefer unit's slots and alarm queue, as every command but a pin reset may change them: a relation that holds
across
one derivation of a slot's grade, and across what leaves slots and queue alone, holds across the command. -/

namespace Sys2Proof.Machine

/-- The slots and the alarm queue. -/
def gradesOf (x : Reefer) : Vector (Vector Slot 24) 240 × List AlarmRec := (x.slots, x.alarms)

/-! ### What leaves the slots and the alarm queue as they were -/

@[simp] theorem foldl_gradesOf {β : Type} {f : State → β → State} (h : ∀ (u : State) (b : β), gradesOf (f u b).reefer =
    gradesOf u.reefer)
    (s : State) (bs : List β) : gradesOf (bs.foldl f s).reefer = gradesOf s.reefer :=
  foldl_keeps (fun u : State => gradesOf u.reefer) f h bs s

@[simp] theorem State.grades_bumpReef (s : State) (k : Fin 25) : gradesOf (s.bumpReef k).reefer = gradesOf s.reefer := by
  rfl

@[simp] theorem State.grades_bumpReefBy (s : State) (k : Fin 25) (n : Nat) : gradesOf (s.bumpReefBy k n).reefer =
    gradesOf s.reefer := by
  rfl

@[simp] theorem State.grades_setRackRec (s : State) (r : RackNo) (x : Option RackRec) : gradesOf (s.setRackRec r x).reefer =
    gradesOf s.reefer := by
  rfl

@[simp] theorem State.grades_clearInterest (s : State) (l : LinkNo) : gradesOf (s.clearInterest l).reefer =
    gradesOf s.reefer := by
  rfl

@[simp] theorem State.grades_clearGroup (s : State) (k : Nat) : gradesOf (s.clearGroup k).reefer = gradesOf s.reefer := by
  unfold State.clearGroup
  split <;> rfl

@[simp] theorem State.grades_raiseAlarm (s : State) (r : RackNo) (p : PlugNo) : gradesOf (s.raiseAlarm r p).reefer =
    gradesOf s.reefer := by
  unfold State.raiseAlarm
  simp

@[simp] theorem State.grades_setPoll (s : State) (r : RackNo) (v : PollState) : gradesOf (s.setPoll r v).reefer =
    gradesOf s.reefer := by
  unfold State.setPoll
  split <;> simp

@[simp] theorem State.grades_askPoll (s : State) (r : RackNo) : gradesOf (s.askPoll r).reefer = gradesOf s.reefer := by
  unfold State.askPoll
  dsimp only
  (repeat' split) <;> simp

@[simp] theorem State.grades_countReading (s : State) (x y : Slot) : gradesOf (s.countReading x y).reefer =
    gradesOf s.reefer := by
  unfold State.countReading
  have hite : ∀ (c : Prop) [Decidable c] (u : State) (k : Fin 25),
      gradesOf (if c then u.bumpReef k else u).reefer = gradesOf u.reefer := by
    intro c _ u k
    split <;> simp
  simp only [hite]

@[simp] theorem State.grades_offerDigests (s : State) (r : RackNo) (d : Digest) (c : Bool) :
    gradesOf (s.offerDigests r d c).reefer = gradesOf s.reefer := by
  unfold State.offerDigests
  dsimp only
  exact foldl_keeps (fun u : State => gradesOf u.reefer) _ (fun u l => by (repeat' split) <;> simp) _ _

@[simp] theorem State.grades_startRecord (s : State) (e : EntryNo) (q : EnrollReq) (n : Option RackNo) :
    gradesOf (s.startRecord e q n).reefer = gradesOf s.reefer := by
  unfold State.startRecord
  split <;> simp

@[simp] theorem State.grades_tearDown (s : State) (l : LinkNo) : gradesOf (s.tearDown l).reefer = gradesOf s.reefer := by
  unfold State.tearDown
  simp

@[simp] theorem State.grades_restartRack (s : State) (r : RackNo) : gradesOf (s.restartRack r).reefer = gradesOf s.reefer := by
  unfold State.restartRack
  split <;> simp

@[simp] theorem State.grades_restartReefer (s : State) : gradesOf (s.restartReefer).reefer = gradesOf s.reefer := by
  unfold State.restartReefer
  simp

end Sys2Proof.Machine
end

section
/-! PROOFS. Relations that hold across every change that the commands make to slots and alarm queue. -/

namespace Sys2Proof.Machine

/-- A relation between states that holds across what leaves slots and alarm queue alone, and across the grading that a rack's
silence and an acknowledgement bring about. -/
structure GradeClosed (R : State → State → Prop) : Prop where
  trans : ∀ {s t u : State}, R s t → R t u → R s u
  of_grades : ∀ {s t : State}, gradesOf t.reefer = gradesOf s.reefer → R s t
  silencePlug : ∀ (s : State) (r : RackNo) (v : Silence) (p : PlugNo), R s (s.silencePlug r v p)
  acknowledgeSlot : ∀ (s : State) (r : RackNo) (p : PlugNo), R s (s.acknowledgeSlot r p)

namespace GradeClosed

variable {R : State → State → Prop} (hR : GradeClosed R)

include hR

theorem refl (s : State) : R s s := hR.of_grades rfl

theorem step {s t u : State} (h : R s t) (hu : gradesOf u.reefer = gradesOf t.reefer) : R s u := hR.trans h (hR.of_grades hu)

theorem after {s t u : State} (ht : gradesOf t.reefer = gradesOf s.reefer) (h : R t u) : R s u := hR.trans (hR.of_grades ht) h

theorem foldl {β : Type} {f : State → β → State} (h : ∀ (u : State) (b : β), R u (f u b)) (bs : List β) (s : State) :
    R s (bs.foldl f s) := by
  induction bs generalizing s with
  | nil => exact hR.refl s
  | cons b bs ih => exact hR.trans (h s b) (ih _)

omit hR in
theorem ite {s t u : State} {c : Prop} [Decidable c] (ht : R s t) (hu : R s u) : R s (if c then t else u) := by
  split
  · exact ht
  · exact hu

theorem reply {s t : State} (r : ReqRef) (st : Status) (b : ReplyBody) (h : R s t) : R s (t.reply r st b) :=
  hR.trans h (hR.of_grades (by simp))

theorem judge {s t : State} (h : R s t) : R s t.judge := hR.trans h (hR.of_grades (by simp))

theorem reading {α : Type} {s : State} {r : Request} {o : Option α} {f : α → State} (hf : ∀ q : α, R s (f q)) :
    R s (s.reading r o f) :=
  State.reading_keeps (P := fun u => R s u) (hR.of_grades (by simp)) fun q _ => hf q

theorem withToken {s : State} {r : Request} {k : Token} {writing : Bool} {f : State → EntryNo → State}
    (hf : ∀ (u : State) (e : EntryNo), R u (f u e)) : R s (s.withToken r k writing f) :=
  State.withToken_keeps (P := fun u => R s u) (fun _ _ => hR.of_grades (by simp))
    fun e => hR.trans (hR.of_grades (by simp)) (hf (s.bumpAcc 4) e)

theorem withRack {s : State} {r : Request} {e : EntryNo} {f : RackNo → RackRec → State} (hf : ∀ (n : RackNo) (k : RackRec),
    R s (f n k)) :
    R s (s.withRack r e f) :=
  State.withRack_keeps (P := fun u => R s u) (hR.of_grades (by simp)) fun n k _ => hf n k

theorem bumpCov {s t : State} (k : Fin 24) (hst : R s t) : R s (t.bumpCov k) := hR.step hst (by simp)

theorem raiseHeadState {s t : State} (h : HeadNo) (hst : R s t) : R s (t.raiseHeadState h) := hR.step hst (by simp)

theorem cellLost {s t : State} (h : HeadNo) (g : SegNo) (x : LossReason) (hst : R s t) : R s (t.cellLost h g x) :=
    hR.step hst (by simp)

theorem setPoll {s t : State} (r : RackNo) (v : PollState) (hst : R s t) : R s (t.setPoll r v) := hR.step hst (by simp)

theorem askPoll {s t : State} (r : RackNo) (hst : R s t) : R s (t.askPoll r) := hR.step hst (by simp)

/-! ### A rack's silence and the classes of segments -/

theorem setSilence (s : State) (r : RackNo) (v : Silence) : R s (s.setSilence r v) := by
  unfold State.setSilence
  split
  · exact hR.refl s
  · exact hR.after (by simp) (hR.foldl (fun u p => hR.silencePlug u r v p) _ _)

theorem rackSilent (s : State) (r : RackNo) : R s (s.rackSilent r) := by
  unfold State.rackSilent
  split
  · exact hR.refl s
  · exact ite (hR.setPoll _ _ (hR.setSilence s r _)) (hR.askPoll _ (hR.setSilence s r _))

theorem reevaluateRack (s : State) (r : RackNo) : R s (s.reevaluateRack r) := by
  unfold State.reevaluateRack
  split
  · exact hR.refl s
  · split
    · exact hR.setSilence s r _
    · exact hR.askPoll _ (hR.setSilence s r _)
    · exact hR.askPoll _ (hR.setSilence s r _)
    · exact hR.refl s

theorem goSilent (s : State) (e : EntryNo) : R s (s.goSilent e) := by
  unfold State.goSilent
  dsimp only
  split
  · exact hR.of_grades (by simp)
  · exact hR.after (by simp) (hR.rackSilent _ _)
  · exact hR.of_grades (by simp)

theorem moveEntry (s : State) (e : EntryNo) (g : SegNo) : R s (s.moveEntry e g) := by
  unfold State.moveEntry
  dsimp only
  split
  · exact hR.of_grades (by simp)
  · exact hR.after (by simp) (hR.reevaluateRack _ _)
  · exact hR.of_grades (by simp)

theorem classChanged (s : State) (g : SegNo) (x y : SegClass) : R s (s.classChanged g x y) := by
  have hrack : ∀ (u : State) (r : RackNo), R u (u.followRack g r) := by
    intro u r
    unfold State.followRack
    split
    · exact ite (hR.reevaluateRack u r) (hR.refl u)
    · exact hR.refl u
  rw [State.classChanged_eq]
  exact hR.after (by simp) (hR.foldl hrack _ _)

theorem rechoose (s : State) (gs : List SegNo) : R s (s.rechoose gs) := by
  unfold State.rechoose
  exact hR.trans (hR.foldl (fun u g => hR.of_grades (by simp)) gs s) (hR.foldl (fun u c => hR.classChanged u _ _ _) _ _)

/-! ### The coverage block and the beam controller -/

theorem sample (s : State) (h : HeadNo) (g : SegNo) (m k : Nat) (ctr : Fin 24) : R s (s.sample h g m k ctr) := by
  unfold State.sample
  split
  · exact hR.refl s
  · dsimp only
    (repeat' split)
    · exact hR.cellLost _ _ _ (hR.after (by simp) (hR.rechoose _ _))
    · exact hR.after (by simp) (hR.rechoose _ _)
    · exact hR.of_grades (by simp)

theorem burstSample (s : State) (b : BeamNo) (g : Option SegNo) (x y : Nat) : R s (s.burstSample b g x y) := by
  unfold State.burstSample
  split
  · exact ite (hR.refl s) (hR.sample s _ _ _ _ _)
  · exact hR.refl s

theorem headFault (s : State) (h : HeadNo) : R s (s.headFault h) := by
  unfold State.headFault
  dsimp only
  exact hR.bumpCov _ (hR.raiseHeadState _ (hR.after (by simp) (hR.rechoose _ _)))

theorem steerRefused (s : State) (b : BeamNo) (g : SegNo) : R s (s.steerRefused b g) := by
  unfold State.steerRefused
  dsimp only
  have hsample := hR.sample s (headOf b) g 0 2 2
  exact ite (hR.step hsample (by simp)) hsample

theorem applySweep (s : State) (h : HeadNo) (ms : List (Option Nat)) : R s (s.applySweep h ms) := by
  unfold State.applySweep
  dsimp only
  exact hR.trans (hR.foldl (fun u p => hR.of_grades (by simp)) _ s)
    (hR.trans (hR.rechoose _ _) (hR.foldl (fun u g => hR.of_grades (by simp)) _ _))

theorem swept (s : State) (h : HeadNo) (ms : List (Option Nat)) : R s (s.swept h ms) := by
  unfold State.swept
  dsimp only
  exact hR.step (hR.applySweep s h ms) (by simp)

theorem recoverHead (s : State) (h : HeadNo) : R s (s.recoverHead h) := by
  unfold State.recoverHead
  dsimp only
  exact hR.bumpCov _ (hR.raiseHeadState _ (hR.after (by simp) (hR.rechoose _ _)))

theorem probed (s : State) (h : HeadNo) : R s (s.probed h) := by
  unfold State.probed
  exact ite (hR.recoverHead s h) (hR.of_grades (by simp))

theorem answerRunsOut (s : State) (h : HeadNo) : R s (s.answerRunsOut h) := by
  unfold State.answerRunsOut
  exact ite (hR.of_grades (by simp)) (hR.headFault s h)

theorem reportBurst (s : State) (b : BeamNo) (u : Burst) (o : Nat → FrameOutcome) (k : Fin 21) : R s (s.reportBurst b u o k) := by
  unfold State.reportBurst
  exact hR.judge (hR.after (by simp) (hR.burstSample _ _ _ _ _))

theorem burstReport (s : State) (r : Request) (b : BeamNo) (n : Byte) (o : Nat → FrameOutcome) (k : Fin 21) :
    R s (s.burstReport r b n o k) := by
  unfold State.burstReport
  (repeat' split)
  · exact hR.of_grades (by simp)
  · exact hR.of_grades (by simp)
  · exact hR.of_grades (by simp)
  · exact hR.reply _ _ _ (hR.reportBurst s _ _ _ _)

theorem markCell (s : State) (h : HeadNo) (g : SegNo) (c : Cell) : R s (s.markCell h g c) := by
  have hmarked : R s (((s.setCell h g { c with state := .marked, recovery := 0 }).bumpCov 7).rechoose [g]) :=
    hR.after (by simp) (hR.rechoose _ _)
  unfold State.markCell
  exact ite (hR.cellLost _ _ _ hmarked) hmarked

theorem unmarkCell (s : State) (h : HeadNo) (g : SegNo) (c : Cell) : R s (s.unmarkCell h g c) := by
  unfold State.unmarkCell
  exact hR.after (by simp) (hR.rechoose _ _)

/-! ### A changed parameter and a restart -/

theorem afterTune (s : State) (i : Fin 19) : R s (s.afterTune i) := by
  have hanswers : ∀ (u : State) (b : Bool), R u (u.recheckAnswers b) := fun u b =>
    hR.foldl (fun v h => ite (hR.answerRunsOut v h) (hR.refl v)) _ u
  have hsilence : ∀ (u : State) (k : Kind), R u (u.recheckSilence k) := fun u k =>
    hR.foldl (fun v e => ite (hR.goSilent v e) (hR.refl v)) _ u
  unfold State.afterTune
  split
  · exact hanswers s false
  · exact hanswers s true
  · exact hR.foldl (fun v h => ite (hR.of_grades (by simp)) (ite (hR.of_grades (by simp)) (hR.refl v))) _ s
  · exact hR.foldl (fun v w => hR.of_grades (by simp)) _ s
  · exact hR.foldl (fun v b => ite (hR.of_grades (by simp)) (hR.refl v)) _ s
  · exact hsilence s .crane
  · exact hR.foldl (fun v c => ite (hR.of_grades (by simp)) (hR.refl v)) _ s
  · exact hsilence s .rack
  · exact hR.refl s

theorem tunePair (s : State) (i : Fin 19) (v : Nat) : R s (s.tunePair i v) := by
  have hpair : R s (s.withPair i v) := hR.of_grades (by simp)
  rw [State.tunePair_eq]
  exact hR.judge (ite (hR.trans hpair (hR.afterTune _ i)) hpair)

theorem restartUnits (s : State) (q : ReqRef) : R s (s.restartUnits q) := by
  have hlinks : ∀ u : State, R u (u.restartLinks q) :=
    fun u => hR.of_grades (by rw [u.restartLinks_keepsAllBut q .reefer (by simp)])
  have hregistry : ∀ u : State, R u u.restartRegistry := fun u => hR.of_grades rfl
  have hbeams : ∀ u : State, R u u.restartBeams := fun u => hR.of_grades (by rw [u.restartBeams_keepsAllBut .reefer (by simp)])
  have hdown : ∀ u : State, R u u.restartDownlink.restartPool := fun u => hR.of_grades rfl
  have hcranes : ∀ u : State, R u u.restartCranes := fun u => hR.of_grades rfl
  have hreefer : ∀ u : State, R u u.restartReefer := fun u => hR.of_grades (by simp)
  unfold State.restartUnits
  dsimp only
  refine hR.judge (hR.trans ?_ (hreefer _))
  exact hR.trans (hR.trans (hR.trans (hR.trans (hlinks s) (hregistry _)) (hbeams _)) (hdown _)) (hcranes _)

end GradeClosed

end Sys2Proof.Machine
end

section
/-! PROOFS. The commands, for a relation that holds across every change of slots and alarm queue. -/

namespace Sys2Proof.Machine

/-- A relation holds from each state to the one that a command makes of it. -/
def Relates (R : State → State → Prop) (c : Instr) : Prop := ∀ s t : State, exec c s = .next t → R s t

theorem Relates.of_exec {R : State → State → Prop} {c : Instr} {f : State → State} (hexec : ∀ s, exec c s = .next (f s))
    (hf : ∀ s : State, R s (f s)) : Relates R c := by
  intro s t h
  obtain rfl : f s = t := by simpa [hexec] using h
  exact hf s

/-- A command that changes dose or residue other than by the passing of time and grading: those that a relation about slots has to
be told about one by one. -/
def writesSlots : Instr → Bool
  | .pinReset | .deliver _ | .clearDose _ | .reeferWithdrawal _ => true
  | _ => false

/-- An accepted report ends its rack's silence and withdraws the POLL (R145, R151). -/
def State.endSilence (s : State) (r : RackNo) (k : RackRec) : State :=
  if k.silence = .notSilent then s else (s.setSilence r .notSilent).setPoll r .noPoll

/-- An accepted report is counted in its rack's record (R145). -/
def State.noteAccepted (s : State) (r : RackNo) : State :=
  match s.rackRec r with
  | none => s
  | some k => s.setRackRec r (some { k with accepted := satInc k.accepted, lastAcceptance := some s.nowSec })

@[simp] theorem State.grades_noteAccepted (s : State) (r : RackNo) : gradesOf (s.noteAccepted r).reefer = gradesOf s.reefer := by
  unfold State.noteAccepted
  split <;> simp

/-- The state once an accepted report's readings are applied and the acceptance is counted (R145), before its digests. -/
def State.reportApplied (s : State) (e : EntryNo) (r : RackNo) (k : RackRec) (c : Byte) (qs : List Reading) : State :=
  let u := (s.setEntry e { (s.entry e).hear s.nowSec with lastReport := some c }).endSilence r k
  let n := qs.length - (appliedReadings qs).length
  (((appliedReadings qs).foldl (fun v q => v.applyReading r q) (u.bumpReefBy 5 n)).noteAccepted r).bumpReef 2

theorem State.acceptReport_eq (s : State) (e : EntryNo) (r : RackNo) (k : RackRec) (c : Byte) (qs : List Reading) :
    s.acceptReport e r k c qs =
      (s.reportApplied e r k c qs).offerDigests r
        ((s.reportApplied e r k c qs).digest r e c qs (look s.reefer.slots r))
        (changing (look s.reefer.slots r) (look (s.reportApplied e r k c qs).reefer.slots r)) := rfl

namespace GradeClosed

variable {R : State → State → Prop} (hR : GradeClosed R)

include hR

theorem relates_serve {code : ReqCode} {l : LinkNo} (hserve : ∀ (s : State) (r : Request), R s (serveOf code s r)) :
    Relates R (code.command l) := by
  refine .of_exec (exec_command code l) fun s => ?_
  unfold State.taking
  split
  · exact hR.refl s
  · split
    · exact hR.trans (t := s.taken _) (hR.of_grades rfl) (hserve _ _)
    · exact hR.refl s

theorem relates_writes {c : Instr} (hreef : Part.reefer ∉ writesOf c) : Relates R c := fun s t h =>
  hR.of_grades (by rw [exec_next_keeps h .reefer hreef])

theorem answered (s : State) (h : HeadNo) (o : Outstanding) {f : State → State} (hf : ∀ u : State, R u (f u)) :
    R s (s.answered h o f) := by
  have hend : R s (s.endOutstanding h) := hR.of_grades (by simp)
  have hdone : R s (if o.leftToFinish then s.endOutstanding h else f (s.endOutstanding h)) := ite hend (hR.trans hend (hf _))
  exact hR.step hdone (by simp [State.answered])

/-! ### Requests -/

section
variable (s : State) (r : Request)

theorem serveReadCounters : R s (serveReadCounters s r) := by
  refine hR.reading fun q => ?_
  split
  · exact hR.of_grades (by simp)
  · exact hR.reply _ _ _ (ite (hR.of_grades (s.grades_clearGroup _)) (hR.refl s))

theorem serveEnroll : R s (serveEnroll s r) := by
  refine hR.reading fun q => hR.of_grades ?_
  (repeat' split) <;> simp

theorem serveMove : R s (serveMove s r) := by
  refine hR.reading fun q => ?_
  dsimp only
  split
  · exact hR.of_grades (by simp)
  · exact hR.reply _ _ _ (ite (hR.refl s) (hR.judge (hR.moveEntry s _ _)))

theorem serveMarkCell : R s (serveMarkCell s r) := by
  refine hR.reading fun q => ?_
  split
  · exact hR.of_grades (by simp)
  · exact hR.reply _ _ _ (ite (hR.refl s) (hR.judge (hR.markCell s _ _ _)))

theorem serveUnmarkCell : R s (serveUnmarkCell s r) := by
  refine hR.reading fun q => ?_
  split
  · exact hR.of_grades (by simp)
  · exact hR.reply _ _ _ (ite (hR.judge (hR.unmarkCell s _ _ _)) (hR.refl s))

theorem serveDone : R s (serveDone s r) := hR.reading fun _ => hR.burstReport s r _ _ _ _

theorem serveCut : R s (serveCut s r) := hR.reading fun _ => hR.burstReport s r _ _ _ _

theorem serveSetInterest : R s (serveSetInterest s r) := hR.reading fun _ => hR.reply _ _ _ (hR.of_grades rfl)

theorem serveAcknowledge : R s (serveAcknowledge s r) :=
  hR.reading fun _ => hR.withToken fun _ _ => hR.withRack fun _ _ => hR.reply _ _ _ (hR.acknowledgeSlot _ _ _)

theorem serveTune : R s (serveTune s r) := by
  refine hR.reading fun ps => hR.reply _ _ _ ?_
  have hpairs := hR.foldl (f := fun u p => u.tunePair p.1 p.2) (fun u p => hR.tunePair u _ _) ps s
  exact hR.step hpairs (by simp)

theorem serveRestart : R s (serveRestart s r) := by
  have hmarked : R s (State.bumpSet { s with settings := { s.settings with restart := some r.ref } } 9) :=
    hR.of_grades (by simp)
  have hbusy : R s ((s.bumpSet 10).answer r.ref .busy) := hR.of_grades (by simp)
  unfold Machine.serveRestart
  refine hR.reading fun _ => ?_
  split
  · exact hbusy
  · exact hR.trans hmarked (hR.restartUnits _ _)

end

theorem relates_request (code : ReqCode) (l : LinkNo) (hc : writesSlots (code.command l) = false) :
    Relates R (code.command l) := by
  cases code with
  | readCounters => exact hR.relates_serve (code := .readCounters) hR.serveReadCounters
  | move => exact hR.relates_serve (code := .move) hR.serveMove
  | markCell => exact hR.relates_serve (code := .markCell) hR.serveMarkCell
  | unmarkCell => exact hR.relates_serve (code := .unmarkCell) hR.serveUnmarkCell
  | done => exact hR.relates_serve (code := .done) hR.serveDone
  | cut => exact hR.relates_serve (code := .cut) hR.serveCut
  | enroll => exact hR.relates_serve (code := .enroll) hR.serveEnroll
  | setInterest => exact hR.relates_serve (code := .setInterest) hR.serveSetInterest
  | acknowledge => exact hR.relates_serve (code := .acknowledge) hR.serveAcknowledge
  | tune => exact hR.relates_serve (code := .tune) hR.serveTune
  | restart => exact hR.relates_serve (code := .restart) hR.serveRestart
  | deliver => cases hc
  | clearDose => cases hc
  | _ => exact hR.relates_writes (by simp [ReqCode.command, writesOf])

/-! ### Events -/

section
variable (h : HeadNo) (bs : List Byte)

theorem relates_steerRefused : Relates R (.steerRefused h bs) := by
  refine .of_exec (fun _ => rfl) fun s => ?_
  (repeat' split)
  · exact hR.judge (hR.answered s h _ fun u => hR.steerRefused u _ _)
  · exact hR.refl s
  · exact hR.refl s

theorem relates_sweepResult : Relates R (.sweepResult h bs) := by
  refine .of_exec (fun _ => rfl) fun s => ?_
  split
  · exact hR.judge (hR.answered s h _ fun u => hR.swept u _ _)
  · exact hR.refl s

theorem relates_probeAnswered : Relates R (.probeAnswered h bs) := by
  refine .of_exec (fun _ => rfl) fun s => ?_
  (repeat' split)
  · exact hR.judge (hR.answered s h _ fun u => hR.probed u _)
  · exact hR.refl s
  · exact hR.refl s

end

/-- Every command leaves what it leaves of the slots and the alarm queue to a relation that holds across one grading. -/
theorem relates {c : Instr} (hc : writesSlots c = false) : Relates R c := by
  rcases hr : requestOf c with _ | ⟨code, l⟩
  case some =>
    obtain rfl := requestOf_eq_some_iff.mp hr
    exact hR.relates_request code l hc
  cases c with
  | pinReset => cases hc
  | reeferWithdrawal e => cases hc
  | steerRefused h bs => exact hR.relates_steerRefused h bs
  | sweepResult h bs => exact hR.relates_sweepResult h bs
  | probeAnswered h bs => exact hR.relates_probeAnswered h bs
  | answerLimitExpiry h => exact .of_exec (fun _ => rfl) fun s => ite (hR.judge (hR.answerRunsOut s h)) (hR.refl s)
  | silenceExpiry e => exact .of_exec (fun _ => rfl) fun s => ite (hR.judge (hR.goSilent s e)) (hR.refl s)
  | burstLimitExpiry b => exact .of_exec (fun _ => rfl) fun s => ite (hR.of_grades (by simp)) (hR.refl s)
  | linkDown l receiving => exact .of_exec (fun _ => rfl) fun s => ite (hR.of_grades (by simp)) (hR.refl s)
  | _ => first | cases hr; done | exact hR.relates_writes (by simp [writesOf])

/-! ### Frames from racks -/

section
variable (hread : ∀ (s : State) (r : RackNo) (q : Reading), R s (s.applyReading r q))

include hread

theorem acceptReport (s : State) (e : EntryNo) (r : RackNo) (k : RackRec) (c : Byte) (qs : List Reading) :
    R s (s.acceptReport e r k c qs) := by
  have hback : ∀ u : State, R u (u.endSilence r k) := fun u => ite (hR.refl u) (hR.setPoll _ _ (hR.setSilence u r _))
  have happlied : ∀ (u : State) (n : Nat), R u ((appliedReadings qs).foldl (fun v q => v.applyReading r q) (u.bumpReefBy 5 n)) :=
    fun u n => hR.after (by simp) (hR.foldl (fun v q => hread v r q) _ _)
  have hnoted : ∀ u : State, R u (u.noteAccepted r) := fun u => hR.of_grades (by simp)
  have hcounted : ∀ u : State, R u (u.bumpReef 2) := fun u => hR.of_grades (by simp)
  have hreport : R s (s.reportApplied e r k c qs) :=
    hR.after (by simp) (hR.trans (hR.trans (hR.trans (hback _) (happlied _ _)) (hnoted _)) (hcounted _))
  rw [State.acceptReport_eq]
  exact hR.step hreport (by simp)

theorem takeReport (s : State) (e : EntryNo) (r : RackNo) (frame : List Byte) : R s (s.takeReport e r frame) := by
  unfold State.takeReport
  dsimp only
  split
  · exact hR.of_grades (by simp)
  · exact hR.of_grades (by simp)
  · split
    · exact hR.after (by simp) (hR.acceptReport hread _ _ _ _ _ _)
    · exact hR.of_grades (by simp)
    · exact hR.of_grades (by simp)

theorem takeUplink (s : State) (l : LinkNo) (f : Word × List Byte) : R s (s.takeUplink l f).1 := by
  unfold State.takeUplink
  split
  · exact hR.of_grades (by simp)
  · dsimp only
    split
    · exact hR.of_grades (by simp)
    · exact hR.judge (hR.after (by simp) (hR.takeReport hread _ _ _ _))
    · exact hR.of_grades (by simp)

theorem takeUplinks (l : LinkNo) (fs : List (Word × List Byte)) (s : State) : R s (s.takeUplinks l fs).1 := by
  induction fs generalizing s with
  | nil => exact hR.refl s
  | cons f fs ih => exact hR.trans (hR.takeUplink hread s l f) (ih _)

theorem relates_deliver (l : LinkNo) : Relates R (.deliver l) :=
  hR.relates_serve (code := .deliver) fun s _ => hR.reading fun fs => hR.reply _ _ _ (hR.takeUplinks hread _ fs s)

end

end GradeClosed

end Sys2Proof.Machine
end

section
/-! PROOFS. Every step keeps the alarm queue and the slots' flags in agreement (R164 to R168). -/

namespace Sys2Proof.Machine

theorem AlarmRec.isOf_iff {a : AlarmRec} {r : RackNo} {p : PlugNo} : a.isOf r p = true ↔ a.rack = r ∧ a.plug = p := by
  simp [AlarmRec.isOf]

theorem AlarmRec.isOf_eq_false_iff {a : AlarmRec} {r : RackNo} {p : PlugNo} : a.isOf r p = false ↔ (a.rack, a.plug) ≠ (r, p) := by
  rw [← Bool.not_eq_true, AlarmRec.isOf_iff, Ne, Prod.mk.injEq]

theorem AlarmRec.exists_isOf_iff {as : List AlarmRec} {r : RackNo} {p : PlugNo} :
    (∃ a ∈ as, a.isOf r p = true ∧ a.released = false) ↔ ∃ a ∈ as, (a.rack, a.plug) = (r, p) ∧ a.released = false := by
  simp only [AlarmRec.isOf_iff, Prod.mk.injEq]

/-! ### An alarm queue and a table of slots -/

/-- An alarm queue agrees with a table of slots. -/
structure AlarmsFit (as : List AlarmRec) (x : RackNo → PlugNo → Slot) : Prop where
  length : as.length ≤ 256
  nodup : (as.map (fun a => (a.rack, a.plug))).Nodup
  queued : ∀ r p, (x r p).queued = true ↔ ∃ a ∈ as, a.isOf r p = true ∧ a.released = false
  displaced : ∀ r p, (x r p).displaced = true → ∀ a ∈ as, a.isOf r p = false
  vacant : ∀ r p, (x r p).occupied = false → (x r p).queued = false ∧ (x r p).displaced = false

theorem State.alarmsAgree_iff (s : State) : s.alarmsAgree ↔ AlarmsFit s.reefer.alarms s.slot :=
  ⟨fun ⟨h1, h2, h3, h4, h5⟩ => ⟨h1, h2, h3, h4, h5⟩, fun ⟨h1, h2, h3, h4, h5⟩ => ⟨h1, h2, h3, h4, h5⟩⟩

/-- A table of slots with one slot written. -/
def withSlot (x : RackNo → PlugNo → Slot) (r : RackNo) (p : PlugNo) (y : Slot) : RackNo → PlugNo → Slot :=
  fun i j => if i = r ∧ j = p then y else x i j

theorem State.slots_setSlot (s : State) (r : RackNo) (p : PlugNo) (y : Slot) :
    (s.setSlot r p y).slot = withSlot s.slot r p y := by
  funext i j
  rw [State.slot_setSlot]
  rfl

@[simp] theorem withSlot_self (x : RackNo → PlugNo → Slot) (r : RackNo) (p : PlugNo) (y : Slot) : withSlot x r p y r p = y :=
  if_pos ⟨rfl, rfl⟩

theorem withSlot_other (x : RackNo → PlugNo → Slot) {r i : RackNo} {p j : PlugNo} (y : Slot) (h : ¬(i = r ∧ j = p)) :
    withSlot x r p y i j = x i j := if_neg h

theorem withSlot_eq_self (x : RackNo → PlugNo → Slot) (r : RackNo) (p : PlugNo) : withSlot x r p (x r p) = x := by
  funext i j
  unfold withSlot
  split
  · next hij => rw [hij.1, hij.2]
  · rfl

theorem withSlot_comm (x : RackNo → PlugNo → Slot) {r i : RackNo} {p j : PlugNo} (y z : Slot) (h : ¬(i = r ∧ j = p)) :
    withSlot (withSlot x r p y) i j z = withSlot (withSlot x i j z) r p y := by
  funext k l
  unfold withSlot
  split
  · next hkl => rw [if_neg fun hkl' => h ⟨hkl.1 ▸ hkl'.1, hkl.2 ▸ hkl'.2⟩]
  · rfl

@[simp] theorem withSlot_withSlot (x : RackNo → PlugNo → Slot) (r : RackNo) (p : PlugNo) (y z : Slot) :
    withSlot (withSlot x r p y) r p z = withSlot x r p z := by
  funext i j
  unfold withSlot
  split <;> rfl

section
variable {as : List AlarmRec} {x : RackNo → PlugNo → Slot} {r : RackNo} {p : PlugNo} {y : Slot}

/-- What a changed queue and one changed slot have to satisfy at that slot for the two to agree still, when the records of every
other slot stand as they stood. -/
theorem AlarmsFit.write {bs : List AlarmRec} (h : AlarmsFit as x) (hlength : bs.length ≤ 256)
    (hnodup : (bs.map (fun a => (a.rack, a.plug))).Nodup) (hother : ∀ a : AlarmRec, a.isOf r p = false → (a ∈ bs ↔ a ∈ as))
    (hqueued : y.queued = true ↔ ∃ a ∈ bs, a.isOf r p = true ∧ a.released = false)
    (hdisplaced : y.displaced = true → ∀ a ∈ bs, a.isOf r p = false)
    (hvacant : y.occupied = false → y.queued = false ∧ y.displaced = false) : AlarmsFit bs (withSlot x r p y) := by
  have hmem : ∀ i j, ¬(i = r ∧ j = p) → ∀ a : AlarmRec, a.isOf i j = true → (a ∈ bs ↔ a ∈ as) := by
    intro i j hij a ha
    obtain ⟨rfl, rfl⟩ := AlarmRec.isOf_iff.mp ha
    exact hother a (AlarmRec.isOf_eq_false_iff.mpr fun hkey => hij (Prod.mk.injEq _ _ _ _ ▸ hkey))
  refine ⟨hlength, hnodup, fun i j => ?_, fun i j => ?_, fun i j => ?_⟩
  · by_cases hij : i = r ∧ j = p
    · rw [hij.1, hij.2, withSlot_self]
      exact hqueued
    · rw [withSlot_other x y hij, h.queued i j]
      exact exists_congr fun a => and_congr_left fun ha => (hmem i j hij a ha.1).symm
  · by_cases hij : i = r ∧ j = p
    · rw [hij.1, hij.2, withSlot_self]
      exact hdisplaced
    · rw [withSlot_other x y hij]
      intro hd a ha
      by_contra hof
      exact hof (h.displaced i j hd a ((hmem i j hij a (by simpa using hof)).mp ha))
  · by_cases hij : i = r ∧ j = p
    · rw [hij.1, hij.2, withSlot_self]
      exact hvacant
    · rw [withSlot_other x y hij]
      exact h.vacant i j

/-- A slot that takes the flags of the one before it. -/
theorem AlarmsFit.sameFlags (h : AlarmsFit as x) (hqueued : y.queued = (x r p).queued) (hdisplaced : y.displaced =
    (x r p).displaced)
    (hocc : y.occupied = (x r p).occupied ∨ y.occupied = true) : AlarmsFit as (withSlot x r p y) := by
  refine h.write h.length h.nodup (fun _ _ => Iff.rfl) (by rw [hqueued]; exact h.queued r p)
    (by rw [hdisplaced]; exact h.displaced r p) fun hfalse => ?_
  rcases hocc with hsame | htrue
  · rw [hqueued, hdisplaced]
    exact h.vacant r p (hsame ▸ hfalse)
  · exact absurd (htrue.symm.trans hfalse) (by simp)

/-- The slot of a record that stands in the queue is not displaced. -/
theorem AlarmsFit.displaced_of_mem (h : AlarmsFit as x) {a : AlarmRec} (ha : a ∈ as) : (x a.rack a.plug).displaced = false := by
  by_contra hd
  have hno := h.displaced _ _ (by simpa using hd) a ha
  exact AlarmRec.isOf_eq_false_iff.mp hno rfl

/-- A slot that is not queued has no record but a released one. -/
theorem AlarmsFit.released_of_not_queued (h : AlarmsFit as x) (hqueued : (x r p).queued = false) {a : AlarmRec} (ha : a ∈ as)
    (hof : a.isOf r p = true) : a.released = true := by
  by_contra hreleased
  have := (h.queued r p).mpr ⟨a, ha, hof, by simpa using hreleased⟩
  simp [hqueued] at this

theorem AlarmsFit.not_mem_of_key (h : AlarmsFit as x) {a b : AlarmRec} (ha : a ∈ as) (hb : b ∈ as.erase a) :
    (b.rack, b.plug) ≠ (a.rack, a.plug) := by
  have hperm := (List.perm_cons_erase ha).map (fun a : AlarmRec => (a.rack, a.plug))
  have hnodup := hperm.nodup_iff.mp h.nodup
  rw [List.map_cons, List.nodup_cons] at hnodup
  exact fun hkey => hnodup.1 (hkey ▸ List.mem_map_of_mem hb)

/-- A slot is queued while its record is not released. -/
theorem AlarmsFit.queued_of_mem (h : AlarmsFit as x) {a : AlarmRec} (ha : a ∈ as) : (x a.rack a.plug).queued = !a.released := by
  rw [Bool.eq_iff_iff, h.queued, Bool.not_eq_true', AlarmRec.exists_isOf_iff]
  constructor
  · rintro ⟨b, hb, hkey, hreleased⟩
    by_cases hba : b = a
    · exact hba ▸ hreleased
    · exact absurd hkey (h.not_mem_of_key ha ((List.mem_erase_of_ne hba).mpr hb))
  · exact fun hreleased => ⟨a, ha, rfl, hreleased⟩

/-! ### What the alarm queue makes of a grade -/

/-- The records of one slot change, but not whose they are. -/
theorem AlarmsFit.writeEach (h : AlarmsFit as x) {f : AlarmRec → AlarmRec} (hkey : ∀ a, ((f a).rack, (f a).plug) =
    (a.rack, a.plug))
    (hother : ∀ a : AlarmRec, a.isOf r p = false → f a = a)
    (hqueued : y.queued = true ↔ ∃ a ∈ as, a.isOf r p = true ∧ (f a).released = false)
    (hdisplaced : y.displaced = true → (x r p).displaced = true)
    (hvacant : y.occupied = false → y.queued = false ∧ y.displaced = false) : AlarmsFit (as.map f) (withSlot x r p y) := by
  have hisOf : ∀ a, (f a).isOf r p = a.isOf r p := by
    intro a
    obtain ⟨hrack, hplug⟩ := Prod.mk.injEq _ _ _ _ ▸ hkey a
    rw [AlarmRec.isOf, hrack, hplug, AlarmRec.isOf]
  refine h.write (by simpa using h.length) ?_ (fun a ha => ⟨fun hmem => ?_, fun hmem => ?_⟩) ?_ (fun hd => ?_) hvacant
  · rw [List.map_map]
    exact (List.map_congr_left fun a _ => hkey a) ▸ h.nodup
  · obtain ⟨b, hb, rfl⟩ := List.mem_map.mp hmem
    rwa [hother b (hisOf b ▸ ha)]
  · exact List.mem_map.mpr ⟨a, hmem, hother a ha⟩
  · simp only [hqueued, List.mem_map, exists_exists_and_eq_and, hisOf]
  · simp only [List.mem_map, forall_exists_index, and_imp, forall_apply_eq_imp_iff₂, hisOf]
    exact h.displaced r p (hdisplaced hd)

/-- Released records of a slot that is not queued leave the queue. -/
theorem AlarmsFit.dropReleased (h : AlarmsFit as x) (hqueued : (x r p).queued = false) :
    AlarmsFit (as.filter (fun a => !(a.isOf r p && a.released))) x ∧
      ∀ a ∈ as.filter (fun a => !(a.isOf r p && a.released)), a.isOf r p = false := by
  have hnone : ∀ a ∈ as.filter (fun a => !(a.isOf r p && a.released)), a.isOf r p = false := by
    intro a ha
    rw [List.mem_filter] at ha
    by_contra hof
    simp [h.released_of_not_queued hqueued ha.1 (by simpa using hof), hof] at ha
  refine ⟨?_, hnone⟩
  rw [← withSlot_eq_self x r p]
  refine h.write ((List.length_filter_le _ _).trans h.length) (h.nodup.sublist (List.filter_sublist.map _))
    (fun a ha => by simp [ha]) ?_ (fun _ => hnone) (h.vacant r p)
  rw [hqueued]
  exact ⟨fun hfalse => absurd hfalse (by simp), fun ⟨a, ha, hof, _⟩ => absurd (hnone a ha) (by simp [hof])⟩

/-- A new record for an occupied slot that has none. -/
theorem AlarmsFit.place (h : AlarmsFit as x) (hlength : as.length < 256) (hnone : ∀ a ∈ as, a.isOf r p = false)
    (hocc : y.occupied = true) (now : Time) :
    AlarmsFit (Consult.place as y r p now).alarms (withSlot x r p (Consult.place as y r p now).slot) := by
  have hkeys : (r, p) ∉ as.map (fun a => (a.rack, a.plug)) := by
    intro hmem
    obtain ⟨a, ha, hkey⟩ := List.mem_map.mp hmem
    exact AlarmRec.isOf_eq_false_iff.mp (hnone a ha) hkey
  unfold Consult.place
  refine h.write (by simpa using hlength) ?_ (fun a ha => ?_) ?_ (fun hd => ?_) (fun hfalse => ?_)
  · rw [List.map_append, List.map_singleton, List.nodup_append_comm]
    exact List.nodup_cons.mpr ⟨hkeys, h.nodup⟩
  · rw [List.mem_append, List.mem_singleton, or_iff_left]
    rintro rfl
    simp [AlarmRec.isOf] at ha
  · simp [AlarmRec.isOf]
  · cases hd
  · exact absurd (hocc.symm.trans hfalse) (by simp)

/-- A record leaves a queue, and its slot takes note if the record was not released. -/
theorem AlarmsFit.displace (h : AlarmsFit as x) {a : AlarmRec} (ha : a ∈ as) :
    AlarmsFit (as.erase a) (if a.released then x
      else withSlot x a.rack a.plug { x a.rack a.plug with queued := false, displaced := true }) := by
  have hnone : ∀ b ∈ as.erase a, b.isOf a.rack a.plug = false := fun b hb =>
    AlarmRec.isOf_eq_false_iff.mpr (h.not_mem_of_key ha hb)
  have hlength : (as.erase a).length ≤ 256 := (List.length_erase_le).trans h.length
  have hnodup : ((as.erase a).map (fun b => (b.rack, b.plug))).Nodup := h.nodup.sublist (List.erase_sublist.map _)
  have hother : ∀ b : AlarmRec, b.isOf a.rack a.plug = false → (b ∈ as.erase a ↔ b ∈ as) := by
    intro b hb
    refine List.mem_erase_of_ne ?_
    rintro rfl
    exact AlarmRec.isOf_eq_false_iff.mp hb rfl
  have hgone : ¬∃ b ∈ as.erase a, b.isOf a.rack a.plug = true ∧ b.released = false := fun ⟨b, hb, hof, _⟩ =>
    absurd (hnone b hb) (by simp [hof])
  have hqueued := h.queued_of_mem ha
  cases hreleased : a.released with
  | true =>
    rw [if_pos rfl, ← withSlot_eq_self x a.rack a.plug]
    exact h.write hlength hnodup hother (by simp [hqueued, hreleased, hgone]) (fun _ => hnone) (h.vacant _ _)
  | false =>
    rw [if_neg (by simp)]
    refine h.write hlength hnodup hother (by simp [hgone]) (fun _ => hnone) fun hvacant => ?_
    have := (h.vacant _ _ hvacant).1
    rw [hqueued, hreleased] at this
    cases this

/-- The table of slots as a consulting leaves it: the slot consulted, and the one that was displaced. -/
def Consult.slots (k : Consult) (r : RackNo) (p : PlugNo) (x : RackNo → PlugNo → Slot) : RackNo → PlugNo → Slot :=
  match k.displacement with
  | none => withSlot x r p k.slot
  | some a =>
    if a.released then withSlot x r p k.slot
    else withSlot (withSlot x r p k.slot) a.rack a.plug
      { withSlot x r p k.slot a.rack a.plug with queued := false, displaced := true }

theorem Consult.slots_of_displacement {k : Consult} {a : AlarmRec} (hk : k.displacement = some a) (h : ¬(a.rack = r ∧ a.plug =
    p)) :
    k.slots r p x = withSlot (if a.released then x
      else withSlot x a.rack a.plug { x a.rack a.plug with queued := false, displaced := true }) r p k.slot := by
  unfold Consult.slots
  rw [hk]
  dsimp only
  split
  · rfl
  · rw [withSlot_other x _ h, withSlot_comm x _ _ h]

theorem AlarmsFit.full (h : AlarmsFit as x) (hnone : ∀ a ∈ as, a.isOf r p = false) (hocc : y.occupied = true)
    (hqueued : y.queued = (x r p).queued) (now : Time) :
    AlarmsFit (Consult.full as y r p now).alarms ((Consult.full as y r p now).slots r p x) := by
  have hdropped : AlarmsFit as (withSlot x r p { y with displaced := true }) :=
    h.write h.length h.nodup (fun _ _ => Iff.rfl) (by rw [← h.queued, ← hqueued]) (fun _ => hnone) fun hfalse =>
      absurd (hocc.symm.trans hfalse) (by simp)
  unfold Consult.full
  split
  · next a ha =>
    have hmem := List.mem_of_find?_eq_some ha
    have hother := AlarmRec.isOf_eq_false_iff.mp (hnone a hmem)
    split
    · have hshorter : (as.erase a).length < 256 := by
        have := h.length
        have := List.length_pos_of_mem hmem
        rw [List.length_erase_of_mem hmem]
        omega
      have hplaced := (h.displace hmem).place hshorter (fun b hb => hnone b (List.mem_of_mem_erase hb)) hocc now
      have hslot : ¬(a.rack = r ∧ a.plug = p) := fun hkey => hother (Prod.mk.injEq _ _ _ _ ▸ hkey)
      rw [Consult.slots_of_displacement rfl hslot]
      exact hplaced
    · exact hdropped
  · exact hdropped

theorem AlarmsFit.consult (h : AlarmsFit as x) (hocc : y.occupied = true) (hqueued : y.queued = (x r p).queued)
    (hdisplaced : y.displaced = (x r p).displaced) (now : Time) (reading : Bool) :
    AlarmsFit (Machine.consult as y r p now reading).alarms ((Machine.consult as y r p now reading).slots r p x) := by
  have hsame : AlarmsFit as (withSlot x r p y) := h.sameFlags hqueued hdisplaced (.inr hocc)
  unfold Machine.consult
  split
  · next hyes =>
    have hdisplaced' : y.displaced = true → (x r p).displaced = true := fun hd => hdisplaced ▸ hd
    refine h.writeEach (fun a => ?_) (fun a ha => by simp [ha]) ?_ hdisplaced' fun hfalse => absurd (hocc.symm.trans hfalse)
      (by simp)
    · split <;> rfl
    · rw [hqueued, h.queued]
      refine exists_congr fun a => and_congr_right fun _ => and_congr_right fun _ => ?_
      split <;> rfl
  · next hnot =>
    have hnot' : (x r p).queued = false := by rw [← hqueued]; simpa using hnot
    split
    · next hd =>
      have hnone := h.displaced r p (hdisplaced ▸ hd)
      split
      · exact hsame
      · split
        · refine h.write h.length h.nodup (fun _ _ => Iff.rfl) (by rw [← h.queued, ← hqueued]) (fun hfalse => ?_) fun hfalse => ?_
          · cases hfalse
          · exact absurd (hocc.symm.trans hfalse) (by simp)
        · split
          · next hlength => exact h.place hlength hnone hocc now
          · exact hsame
    · split
      · obtain ⟨hdrop, hnone⟩ := h.dropReleased hnot'
        dsimp only
        split
        · next hlength => exact hdrop.place hlength hnone hocc now
        · exact hdrop.full hnone hocc hqueued now
      · exact hsame

end

/-! ### The operations on slots -/

theorem State.alarms_of_grades {s t : State} (h : gradesOf t.reefer = gradesOf s.reefer) : t.reefer.alarms = s.reefer.alarms :=
  congrArg Prod.snd h

theorem State.slots_of_grades {s t : State} (h : gradesOf t.reefer = gradesOf s.reefer) : t.slot = s.slot := by
  have hslots : t.reefer.slots = s.reefer.slots := congrArg Prod.fst h
  funext i j
  rw [State.slot, hslots, State.slot]

/-- What a consulting writes of slots and queue (R165, R166): the counters and the notice behind it write nothing of them. -/
theorem State.grades_applyConsult (s : State) (r : RackNo) (p : PlugNo) (k : Consult) :
    gradesOf (s.applyConsult r p k).reefer = gradesOf (match k.displacement with
      | none => (s.setAlarms k.alarms).setSlot r p k.slot
      | some a =>
        if a.released then (s.setAlarms k.alarms).setSlot r p k.slot
        else ((s.setAlarms k.alarms).setSlot r p k.slot).setSlot a.rack a.plug
          { ((s.setAlarms k.alarms).setSlot r p k.slot).slot a.rack a.plug with queued := false, displaced := true }).reefer := by
  have hcount : ∀ (b : Bool) (u : State) (n : Fin 25), gradesOf (if b then u.bumpReef n else u).reefer = gradesOf u.reefer := by
    intro b u n
    cases b <;> simp
  have hraise : ∀ (b : Bool) (u : State), gradesOf (if b then u.raiseAlarm r p else u).reefer = gradesOf u.reefer := by
    intro b u
    cases b <;> simp
  unfold State.applyConsult
  dsimp only
  rw [hraise, hcount, hcount]
  cases k.displacement with
  | none => rfl
  | some a =>
    dsimp only
    split <;> rfl

theorem State.alarms_applyConsult (s : State) (r : RackNo) (p : PlugNo) (k : Consult) :
    (s.applyConsult r p k).reefer.alarms = k.alarms := by
  rw [State.alarms_of_grades (s.grades_applyConsult r p k)]
  split
  · rfl
  · split <;> rfl

theorem State.slots_applyConsult (s : State) (r : RackNo) (p : PlugNo) (k : Consult) :
    (s.applyConsult r p k).slot = k.slots r p s.slot := by
  have hwritten : ((s.setAlarms k.alarms).setSlot r p k.slot).slot = withSlot s.slot r p k.slot := by
    rw [State.slots_setSlot]
    rfl
  rw [State.slots_of_grades (s.grades_applyConsult r p k)]
  unfold Consult.slots
  split
  · exact hwritten
  · split
    · exact hwritten
    · rw [State.slots_setSlot, hwritten]

theorem State.regrade_agrees {s : State} {r : RackNo} {p : PlugNo} (h : s.alarmsAgree) (hocc : (s.slot r p).occupied = true)
    (reading : Bool) : (s.regrade r p reading).alarmsAgree := by
  rw [State.alarmsAgree_iff] at h ⊢
  rw [State.regrade, State.alarms_applyConsult, State.slots_applyConsult]
  exact h.consult (y := (s.slot r p).regraded) hocc rfl rfl _ _

/-- A slot is written that keeps its flags. -/
theorem State.setSlot_agrees {s : State} {r : RackNo} {p : PlugNo} {y : Slot} (h : s.alarmsAgree)
    (hqueued : y.queued = (s.slot r p).queued) (hdisplaced : y.displaced = (s.slot r p).displaced)
    (hocc : y.occupied = (s.slot r p).occupied ∨ y.occupied = true) : (s.setSlot r p y).alarmsAgree := by
  rw [State.alarmsAgree_iff] at h ⊢
  rw [State.slots_setSlot]
  exact h.sameFlags hqueued hdisplaced hocc

theorem State.agrees_of_grades {s t : State} (h : gradesOf t.reefer = gradesOf s.reefer) (hs : s.alarmsAgree) :
    t.alarmsAgree := by
  rw [State.alarmsAgree_iff] at hs ⊢
  rwa [State.alarms_of_grades h, State.slots_of_grades h]

/-- An occupied slot is written that keeps its flags, and its grade is derived. -/
theorem State.setSlot_regrade_agrees {s : State} {r : RackNo} {p : PlugNo} {y : Slot} (h : s.alarmsAgree)
    (hqueued : y.queued = (s.slot r p).queued) (hdisplaced : y.displaced = (s.slot r p).displaced) (hocc : y.occupied = true)
    (reading : Bool) : ((s.setSlot r p y).regrade r p reading).alarmsAgree :=
  State.regrade_agrees (State.setSlot_agrees h hqueued hdisplaced (.inr hocc)) ((s.slot_setSlot_self r p y).symm ▸ hocc) reading

theorem State.silencePlug_agrees {s : State} (h : s.alarmsAgree) (r : RackNo) (v : Silence) (p : PlugNo) :
    (s.silencePlug r v p).alarmsAgree := by
  unfold State.silencePlug
  dsimp only
  split
  · next hsome =>
    obtain ⟨hocc, -⟩ := Bool.and_eq_true _ _ ▸ hsome
    refine State.setSlot_regrade_agrees h ?_ ?_ ?_ false
    · rfl
    · rfl
    · exact hocc
  · exact h

theorem State.acknowledgeSlot_agrees {s : State} (h : s.alarmsAgree) (r : RackNo) (p : PlugNo) :
    (s.acknowledgeSlot r p).alarmsAgree := by
  have hnone : ∀ a ∈ s.reefer.alarms.filter (fun a => !a.isOf r p), a.isOf r p = false := fun a ha => by
    simpa using (List.mem_filter.mp ha).2
  refine State.agrees_of_grades (s := (s.setAlarms (s.reefer.alarms.filter (fun a => !a.isOf r p))).setSlot r p
    { s.slot r p with ack := (s.slot r p).grade, queued := false, displaced := false }) rfl ?_
  rw [State.alarmsAgree_iff] at h ⊢
  rw [State.slots_setSlot]
  refine h.write ((List.length_filter_le _ _).trans h.length) (h.nodup.sublist (List.filter_sublist.map _)) (fun a ha => ?_) ?_
    (fun hfalse => ?_) fun _ => ⟨rfl, rfl⟩
  · simp [State.setAlarms, State.setSlot, ha]
  · refine ⟨fun hfalse => ?_, fun ⟨a, ha, hof, _⟩ => ?_⟩
    · cases hfalse
    · exact absurd (hnone a ha) (by simp [hof])
  · cases hfalse

theorem alarmsAgree_closed : GradeClosed (fun s t => s.alarmsAgree → t.alarmsAgree) where
  trans := fun h g hs => g (h hs)
  of_grades := State.agrees_of_grades
  silencePlug := fun _ r v p hs => State.silencePlug_agrees hs r v p
  acknowledgeSlot := fun _ r p hs => State.acknowledgeSlot_agrees hs r p

theorem State.releaseSlot_agrees {s : State} (h : s.alarmsAgree) (r : RackNo) (p : PlugNo) : (s.releaseSlot r p).alarmsAgree := by
  refine State.agrees_of_grades (s := (s.setAlarms (s.reefer.alarms.map
    (fun a => if a.isOf r p && !a.released then { a with released := true } else a))).setSlot r p Slot.clear) rfl ?_
  rw [State.alarmsAgree_iff] at h ⊢
  rw [State.slots_setSlot]
  refine h.writeEach (fun a => ?_) (fun a ha => by simp [ha]) ?_ (fun hfalse => ?_) fun _ => ⟨rfl, rfl⟩
  · split <;> rfl
  · refine ⟨fun hfalse => ?_, fun ⟨a, ha, hof, hreleased⟩ => ?_⟩
    · cases hfalse
    · cases hr : a.released <;> simp [hof, hr] at hreleased
  · cases hfalse

/-- What a reading leaves of its slot: that it is occupied, and the flags of the alarm queue. -/
theorem Slot.afterReading_flags (x : Slot) (ps : Vector Nat 19) (now : Time) (q : Reading) :
    (x.afterReading ps now q).occupied = x.occupied ∧ (x.afterReading ps now q).queued = x.queued ∧
    (x.afterReading ps now q).displaced = x.displaced := by
  have hcontrolled : ∀ y : Slot, (y.controlled q).occupied = y.occupied ∧ (y.controlled q).queued = y.queued ∧
      (y.controlled q).displaced = y.displaced := by
    intro y
    unfold Slot.controlled
    split <;> exact ⟨rfl, rfl, rfl⟩
  have hdosed : ∀ y : Slot, (y.dosed ps now q).occupied = y.occupied ∧ (y.dosed ps now q).queued = y.queued ∧
      (y.dosed ps now q).displaced = y.displaced := by
    intro y
    unfold Slot.dosed Slot.judgeDose Slot.judgeExcursion Slot.addExcess
    dsimp only
    (repeat' split) <;> exact ⟨rfl, rfl, rfl⟩
  obtain ⟨h1, h2, h3⟩ := hdosed (((x.written q).probed q).controlled q)
  obtain ⟨g1, g2, g3⟩ := hcontrolled ((x.written q).probed q)
  exact ⟨h1.trans g1, h2.trans g2, h3.trans g3⟩

theorem State.applyReading_agrees {s : State} (h : s.alarmsAgree) (r : RackNo) (q : Reading) :
    (s.applyReading r q).alarmsAgree := by
  have happly : ∀ u : State, u.alarmsAgree → (u.slot r q.plug).occupied = true → ∀ y : Slot,
      y = (u.slot r q.plug).afterReading u.settings.params u.nowSec q →
      (((u.countReading (u.slot r q.plug) y).setSlot r q.plug y).regrade r q.plug true).alarmsAgree := by
    rintro u hu hocc y rfl
    obtain ⟨hsame, hqueued, hdisplaced⟩ := (u.slot r q.plug).afterReading_flags u.settings.params u.nowSec q
    refine State.setSlot_regrade_agrees (State.agrees_of_grades (by simp) hu) ?_ ?_ (hsame.trans hocc) true
    · rw [hqueued, State.countReading_slot]
    · rw [hdisplaced, State.countReading_slot]
  have hfresh : (s.slot r q.plug).occupied = false →
      ((s.setSlot r q.plug { Slot.clear with occupied := true }).bumpReef 6).alarmsAgree := by
    intro hfalse
    obtain ⟨hqueued, hdisplaced⟩ := (s.alarmsAgree_iff.mp h).vacant _ _ hfalse
    exact State.agrees_of_grades (s := s.setSlot r q.plug { Slot.clear with occupied := true }) (by simp)
      (State.setSlot_agrees h hqueued.symm hdisplaced.symm (.inr rfl))
  unfold State.applyReading
  dsimp only
  split
  · split
    · exact State.releaseSlot_agrees h r _
    · exact h
  · split
    · next hocc => exact happly s h hocc _ rfl
    · next hocc =>
      refine happly _ (hfresh (by simpa using hocc)) ?_ _ rfl
      rw [State.slot_bumpReef, State.slot_setSlot_self]

/-- The slots once a rack is gone (R155). -/
theorem State.slot_endRack (s : State) (r i : RackNo) (p : PlugNo) :
    (s.endRack r).slot i p = if i = r then Slot.clear else s.slot i p := by
  have hslots : (s.endRack r).slot i p = look (look (put s.reefer.slots r (Vector.replicate 24 Slot.clear)) i) p := rfl
  rw [hslots, look_put]
  split
  · simp [look]
  · rfl

theorem State.endRack_agrees {s : State} (h : s.alarmsAgree) (r : RackNo) : (s.endRack r).alarmsAgree := by
  have halarms : (s.endRack r).reefer.alarms = s.reefer.alarms.filter (fun a => a.rack != r) := rfl
  have hkept : ∀ i p, i ≠ r → ∀ a : AlarmRec, a.isOf i p =
    true → (a ∈ s.reefer.alarms.filter (fun a => a.rack != r) ↔ a ∈ s.reefer.alarms) := by
    intro i p hi a ha
    simp [List.mem_filter, (AlarmRec.isOf_iff.mp ha).1, hi]
  rw [State.alarmsAgree_iff] at h ⊢
  rw [halarms]
  refine ⟨(List.length_filter_le _ _).trans h.length, h.nodup.sublist (List.filter_sublist.map _), fun i p => ?_, fun i p => ?_,
    fun i p => ?_⟩
  all_goals rw [State.slot_endRack]; split
  · next hi =>
    refine ⟨fun hfalse => ?_, fun ⟨a, ha, hof, _⟩ => ?_⟩
    · cases hfalse
    · simp [(AlarmRec.isOf_iff.mp hof).1, hi] at ha
  · next hi =>
    rw [h.queued]
    exact exists_congr fun a => and_congr_left fun ha => (hkept i p hi a ha.1).symm
  · exact fun hfalse => absurd hfalse (by simp [Slot.clear])
  · exact fun hd a ha => h.displaced i p hd a (List.mem_filter.mp ha).1
  · exact fun _ => ⟨rfl, rfl⟩
  · exact h.vacant i p

/-! ### The commands -/

theorem serveClearDose_agrees {s : State} (h : s.alarmsAgree) (r : Request) : (serveClearDose s r).alarmsAgree := by
  have hsame : ∀ u v : State, gradesOf v.reefer = gradesOf u.reefer → u.alarmsAgree → v.alarmsAgree :=
    fun _ _ => State.agrees_of_grades
  refine State.reading_keeps (hsame _ _ (by simp) h) fun q _ => State.withToken_keeps (fun _ _ => hsame _ _
    (by simp) h) fun e => ?_
  refine State.withRack_keeps (hsame _ _ (by simp) h) fun n k _ => ?_
  have hread : (s.bumpAcc 4).alarmsAgree := hsame _ _ (by simp) h
  generalize s.bumpAcc 4 = u at hread ⊢
  dsimp only
  split
  · exact hsame _ _ (by simp) hread
  · next hocc =>
    have hocc' : (u.slot n q.2).occupied = true := by simpa using hocc
    have hcleared := State.setSlot_regrade_agrees (y := (u.slot n q.2).doseCleared) hread rfl rfl hocc' false
    exact hsame _ _ (by simp) hcleared

theorem State.reset_alarmsAgree : State.reset.alarmsAgree := by
  have hslot : ∀ r p, State.reset.slot r p = Slot.clear := by
    intro r p
    simp [State.slot, State.reset, Reefer.reset, look]
  rw [State.alarmsAgree_iff]
  refine ⟨Nat.zero_le _, List.nodup_nil, fun r p => ?_, fun r p => ?_, fun r p => ?_⟩
  · have halarms : State.reset.reefer.alarms = [] := rfl
    simp [hslot, halarms, Slot.clear]
  · simp [hslot, Slot.clear]
  · simp [hslot, Slot.clear]

theorem exec_keeps_alarmsAgree {c : Instr} {s t : State} (h : exec c s = .next t) (hs : s.alarmsAgree) : t.alarmsAgree := by
  cases hc : writesSlots c with
  | false => exact alarmsAgree_closed.relates hc s t h hs
  | true =>
    cases c with
    | pinReset =>
      cases h
      exact State.reset_alarmsAgree
    | deliver l => exact alarmsAgree_closed.relates_deliver (fun _ r q hu => State.applyReading_agrees hu r q) l s t h hs
    | clearDose l =>
      cases h
      exact State.taking_keeps hs (fun r => hs) fun u r hu => serveClearDose_agrees hu r
    | reeferWithdrawal e =>
      cases h
      split
      · split
        · next r _ _ _ => exact State.agrees_of_grades (s := s.endRack r) (by simp) (State.endRack_agrees hs r)
        · exact hs
      · exact hs
    | _ => cases hc

/-- Settles O55: a grading, a reading, a release, an acknowledgement and a rack's end each keep the queue and the flags in
agreement,
and every command changes slots and queue by these alone. -/
theorem stepsKeepAlarmsAgreeing : Obligations.StepsKeepAlarmsAgreeing := fun _ _ hs h =>
  step_keeps (P := State.alarmsAgree) (fun _ _ hu => hu) (fun _ _ _ hc => exec_keeps_alarmsAgree hc) hs h

end Sys2Proof.Machine
end

section
/-! PROOFS. Every step keeps each slot's numbers in their ranges, and the doses but for the commands named (R143, R161). -/

namespace Sys2Proof.Machine

/-! ### The numbers of a slot -/

/-- The numbers of a slot: setpoint, probes, control temperature, last excess, dose, residue, unobserved time, in-band count. -/
def Slot.numbers (x : Slot) : Option Int × Probe × Probe × Option Int × Nat × Nat × Nat × Nat × Nat :=
  (x.setpoint, x.supply, x.ret, x.temp, x.ePrev, x.dose, x.residue, x.unobserved, x.inBand)

theorem Slot.bounded_of_numbers {x y : Slot} (h : y.numbers = x.numbers) (hx : x.bounded) : y.bounded := by
  simp only [Slot.numbers, Prod.mk.injEq] at h
  obtain ⟨hset, hsupply, hret, htemp, hprev, hdose, hres, hunob, hin⟩ := h
  unfold Slot.bounded at hx ⊢
  rwa [hset, hsupply, hret, htemp, hprev, hdose, hres, hunob, hin]

theorem Slot.dose_of_numbers {x y : Slot} (h : y.numbers = x.numbers) : y.dose = x.dose := congrArg (fun n => n.2.2.2.2.2.1) h

theorem Slot.Like.numbers {x y : Slot} (h : x.Like y) : y.numbers = x.numbers := by
  obtain ⟨queued, displaced, rfl⟩ := h.exists
  rfl

theorem Slot.numbers_silenced (x : Slot) (v : Silence) : (x.silenced v).numbers = x.numbers := by
  unfold Slot.silenced
  dsimp only
  split <;> rfl

/-- Every slot has the numbers it had. -/
def State.SameNumbers (s t : State) : Prop := ∀ (r : RackNo) (p : PlugNo), (t.slot r p).numbers = (s.slot r p).numbers

theorem State.silencePlug_numbers (s : State) (r : RackNo) (v : Silence) (p : PlugNo) : s.SameNumbers (s.silencePlug r v p) := by
  intro i j
  rw [(s.silencePlug_slot r v p i j).numbers]
  split
  · next hij => rw [hij.1, hij.2, Slot.numbers_silenced]
  · rfl

theorem State.acknowledgeSlot_numbers (s : State) (r : RackNo) (p : PlugNo) : s.SameNumbers (s.acknowledgeSlot r p) := by
  intro i j
  unfold State.acknowledgeSlot
  dsimp only
  rw [State.slot_bumpReef, State.slot_setSlot]
  split
  · next hij => rw [hij.1, hij.2]; rfl
  · rfl

theorem sameNumbers_closed : GradeClosed State.SameNumbers where
  trans := fun h g r p => (g r p).trans (h r p)
  of_grades := fun h r p => by rw [State.slots_of_grades h]
  silencePlug := State.silencePlug_numbers
  acknowledgeSlot := State.acknowledgeSlot_numbers

theorem State.SameNumbers.slotsBounded {s t : State} (h : s.SameNumbers t) (hs : s.slotsBounded) : t.slotsBounded := fun r p =>
  Slot.bounded_of_numbers (h r p) (hs r p)

theorem slotsBounded_closed : GradeClosed (fun s t => s.slotsBounded → t.slotsBounded) where
  trans := fun h g hs => g (h hs)
  of_grades := fun h => (sameNumbers_closed.of_grades h).slotsBounded
  silencePlug := fun s r v p => (s.silencePlug_numbers r v p).slotsBounded
  acknowledgeSlot := fun s r p => (s.acknowledgeSlot_numbers r p).slotsBounded

/-! ### A reading's numbers (R146 to R149, R159 to R162) -/

/-- The ranges of a probe's counts (R148). -/
def Probe.bounded (x : Probe) : Prop := x.invalid ≤ 2 ∧ x.valid ≤ 3

theorem Slot.bounded_iff (x : Slot) : x.bounded ↔ (x.dose ≤ 1000000 ∧ x.residue < 120 ∧ x.ePrev ≤ 600 ∧ x.inBand ≤ 10 ∧
    x.unobserved ≤ 4294967295) ∧ x.supply.bounded ∧ x.ret.bounded ∧
    (∀ v, x.setpoint = some v → -400 ≤ v ∧ v ≤ 300) ∧ ∀ v, x.temp = some v → -500 ≤ v ∧ v ≤ 500 := by
  unfold Slot.bounded Probe.bounded
  tauto

theorem Slot.clear_bounded : Slot.clear.bounded := by
  refine ⟨by decide, by decide, by decide, by decide, by decide, by decide, by decide, by decide, by decide, ?_, ?_⟩
  · intro v hv
    cases hv
  · intro v hv
    cases hv

theorem Probe.take_bounded {x : Probe} (h : x.bounded) (v : Option Int) : (x.take v).bounded := by
  cases v with
  | none => exact h
  | some v =>
    unfold Probe.take Probe.bounded
    dsimp only
    split
    · exact ⟨by simp, by simp⟩
    · exact ⟨by simp, by simp⟩

theorem controlTemp_bounded {setpoint : Int} {supply ret : Probe} {supplyV retV : Option Int} {t : Int} {sub : Bool}
    (h : controlTemp setpoint supply ret supplyV retV = some (t, sub)) : -500 ≤ t ∧ t ≤ 500 := by
  have husable : ∀ {v : Option Int}, usableValue v = some t → -500 ≤ t ∧ t ≤ 500 := by
    intro v hv
    have := (Option.filter_eq_some_iff.mp hv).2
    simpa [validTemp] using this
  unfold controlTemp at h
  dsimp only at h
  split at h
  · next u hu =>
    cases h
    by_cases hfrozen : frozen setpoint
    all_goals
      simp only [hfrozen, if_true, Bool.false_eq_true, if_false] at hu
      split at hu
      · exact husable hu
      · cases hu
  · obtain ⟨u, hu, hpair⟩ := Option.map_eq_some_iff.mp h
    cases hpair
    exact husable hu

theorem Slot.written_bounded {x : Slot} (h : x.bounded) (q : Reading) : (x.written q).bounded := by
  rw [Slot.bounded_iff] at h ⊢
  obtain ⟨hnum, hsupply, hret, -, htemp⟩ := h
  refine ⟨hnum, hsupply, hret, ?_, htemp⟩
  rintro v ⟨⟩
  unfold clampSetpoint
  omega

theorem Slot.probed_bounded {x : Slot} (h : x.bounded) (q : Reading) : (x.probed q).bounded := by
  rw [Slot.bounded_iff] at h ⊢
  obtain ⟨hnum, hsupply, hret, hrest⟩ := h
  exact ⟨hnum, Probe.take_bounded hsupply _, Probe.take_bounded hret _, hrest⟩

theorem Slot.controlled_bounded {x : Slot} (h : x.bounded) (q : Reading) : (x.controlled q).bounded := by
  rw [Slot.bounded_iff] at h ⊢
  obtain ⟨hnum, hsupply, hret, hset, -⟩ := h
  unfold Slot.controlled
  split
  · next t sub ht =>
    refine ⟨hnum, hsupply, hret, hset, ?_⟩
    rintro v ⟨⟩
    exact controlTemp_bounded ht
  · refine ⟨hnum, hsupply, hret, hset, ?_⟩
    rintro v ⟨⟩

theorem Slot.addExcess_bounded {x : Slot} (h : x.bounded) (now : Time) (gap : Nat) {e : Nat} (he : e ≤ 600) :
    (x.addExcess now gap e).bounded := by
  rw [Slot.bounded_iff] at h ⊢
  obtain ⟨⟨hdose, hres, -, hin, hunob⟩, hrest⟩ := h
  unfold Slot.addExcess
  split
  · exact ⟨⟨hdose, hres, he, hin, hunob⟩, hrest⟩
  · dsimp only
    refine ⟨⟨by omega, ?_, he, hin, by omega⟩, hrest⟩
    split <;> omega

theorem Slot.judgeExcursion_bounded {x : Slot} (h : x.bounded) (n e : Nat) : (x.judgeExcursion n e).bounded := by
  rw [Slot.bounded_iff] at h ⊢
  obtain ⟨⟨hdose, hres, hprev, -, hunob⟩, hrest⟩ := h
  unfold Slot.judgeExcursion
  split
  · exact ⟨⟨hdose, hres, hprev, Nat.zero_le _, hunob⟩, hrest⟩
  · exact ⟨⟨hdose, hres, hprev, Nat.min_le_left _ _, hunob⟩, hrest⟩

theorem Slot.excessOf_le {x : Slot} {ps : Vector Nat 19} {q : Reading} {e : Nat} (h : x.excessOf ps q = some e) : e ≤ 600 := by
  unfold Slot.excessOf at h
  split at h
  · cases h
    exact Nat.zero_le _
  · obtain ⟨t, -, rfl⟩ := Option.map_eq_some_iff.mp h
    exact Nat.min_le_left _ _

theorem Slot.dosed_bounded {x : Slot} (h : x.bounded) (ps : Vector Nat 19) (now : Time) (q : Reading) :
    (x.dosed ps now q).bounded := by
  have hjudge : ∀ (y : Slot) (warn alarm : Nat), y.bounded → (y.judgeDose warn alarm).bounded := fun _ _ _ hy =>
    Slot.bounded_of_numbers rfl hy
  unfold Slot.dosed
  dsimp only
  refine hjudge _ _ _ ?_
  split
  · next e he => exact Slot.judgeExcursion_bounded (Slot.addExcess_bounded h _ _ (Slot.excessOf_le he)) _ _
  · exact h

theorem Slot.afterReading_bounded {x : Slot} (h : x.bounded) (ps : Vector Nat 19) (now : Time) (q : Reading) :
    (x.afterReading ps now q).bounded :=
  Slot.dosed_bounded (Slot.controlled_bounded (Slot.probed_bounded (Slot.written_bounded h q) q) q) ps now q

theorem State.applyReading_bounded {s : State} (h : s.slotsBounded) (r : RackNo) (q : Reading) :
    (s.applyReading r q).slotsBounded := by
  intro i j
  refine Slot.bounded_of_numbers (s.applyReading_slot r q i j).numbers ?_
  have hregraded : ∀ x : Slot, x.bounded → x.regraded.bounded := fun x hx => Slot.bounded_of_numbers rfl hx
  split
  · split
    · split
      · exact Slot.clear_bounded
      · exact h r _
    · refine hregraded _ (Slot.afterReading_bounded ?_ _ _ q)
      split
      · exact h r _
      · exact Slot.bounded_of_numbers rfl Slot.clear_bounded
  · exact h i j

/-! ### The commands -/

theorem serveClearDose_bounded {s : State} (h : s.slotsBounded) (r : Request) : (serveClearDose s r).slotsBounded := by
  have hsame : ∀ u v : State, gradesOf v.reefer = gradesOf u.reefer → u.slotsBounded → v.slotsBounded := fun _ _ g =>
    slotsBounded_closed.of_grades g
  refine State.reading_keeps (hsame _ _ (by simp) h) fun q _ => State.withToken_keeps (fun _ _ => hsame _ _
    (by simp) h) fun e => ?_
  refine State.withRack_keeps (hsame _ _ (by simp) h) fun n k _ => ?_
  have hread : (s.bumpAcc 4).slotsBounded := hsame _ _ (by simp) h
  generalize s.bumpAcc 4 = u at hread ⊢
  dsimp only
  split
  · exact hsame _ _ (by simp) hread
  · have hcleared : ((u.setSlot n q.2 (u.slot n q.2).doseCleared).regrade n q.2 false).slotsBounded := by
      intro i j
      refine Slot.bounded_of_numbers (State.regrade_slot _ n q.2 false i j).numbers ?_
      have hslot : (u.slot n q.2).doseCleared.bounded := by
        obtain ⟨-, -, -, hin, -, hrest⟩ := hread n q.2
        exact ⟨Nat.zero_le _, Nat.zero_lt_succ _, Nat.zero_le _, hin, Nat.zero_le _, hrest⟩
      rw [State.slot_setSlot_self, State.slot_setSlot]
      split
      · exact Slot.bounded_of_numbers rfl hslot
      · exact hread i j
    exact hsame _ _ (by simp) hcleared

theorem execReeferWithdrawal_slot {e : EntryNo} {s t : State} (h : exec (.reeferWithdrawal e) s = .next t) :
    (t.slot = s.slot) ∨ ∃ r, (s.entry e).rack = some r ∧ t.slot = (s.endRack r).slot := by
  cases h
  split
  · next r _ hr =>
    split
    · exact .inr ⟨r, hr, State.slots_of_grades (s := s.endRack r) (by simp)⟩
    · exact .inl rfl
  · exact .inl rfl

theorem State.reset_slot (r : RackNo) (p : PlugNo) : State.reset.slot r p = Slot.clear := by
  simp [State.slot, State.reset, Reefer.reset, look]

theorem exec_keeps_slotsBounded {c : Instr} {s t : State} (h : exec c s = .next t) (hs : s.slotsBounded) : t.slotsBounded := by
  cases hc : writesSlots c with
  | false => exact slotsBounded_closed.relates hc s t h hs
  | true =>
    cases c with
    | pinReset =>
      cases h
      intro r p
      exact Slot.bounded_of_numbers (congrArg Slot.numbers (State.reset_slot r p)) Slot.clear_bounded
    | deliver l => exact slotsBounded_closed.relates_deliver (fun _ r q hu => State.applyReading_bounded hu r q) l s t h hs
    | clearDose l =>
      cases h
      exact State.taking_keeps hs (fun r => hs) fun u r hu => serveClearDose_bounded hu r
    | reeferWithdrawal e =>
      intro i p
      rcases execReeferWithdrawal_slot h with hsame | ⟨r, -, hend⟩
      · rw [hsame]
        exact hs i p
      · rw [hend, State.slot_endRack]
        split
        · exact Slot.clear_bounded
        · exact hs i p
    | _ => cases hc

/-- Settles O54: grading writes no number of a slot, a reading keeps each in its range, and no other command writes one but to
clear
it. -/
theorem stepsKeepSlotsBoundedAndDosesRising : Obligations.StepsKeepSlotsBoundedAndDosesRising := by
  refine ⟨fun s t hs h => step_keeps (P := State.slotsBounded) (fun _ _ hu => hu)
    (fun _ _ _ hc => exec_keeps_slotsBounded hc) hs h,
    fun c s t r p hs h hless => ?_⟩
  cases hc : writesSlots c with
  | false => exact absurd (Slot.dose_of_numbers (sameNumbers_closed.relates hc s t h r p)) (Nat.ne_of_lt hless)
  | true =>
    cases c with
    | pinReset => exact .inl rfl
    | clearDose l => exact .inr (.inl ⟨l, rfl⟩)
    | deliver l => exact .inr (.inr (.inl ⟨l, rfl⟩))
    | reeferWithdrawal e =>
      refine .inr (.inr (.inr ⟨e, rfl, ?_⟩))
      rcases execReeferWithdrawal_slot h with hsame | ⟨n, hn, hend⟩
      · rw [hsame] at hless
        exact absurd hless (Nat.lt_irrefl _)
      · rw [hend, State.slot_endRack] at hless
        by_cases hr : r = n
        · rw [hn, hr]
        · rw [if_neg hr] at hless
          exact absurd hless (Nat.lt_irrefl _)
    | _ => cases hc

end Sys2Proof.Machine
end

section
/-! PROOFS. For which terminals frames wait and fly (R20, R22): no operation but the named ones adds a frame, and a POLL joins
only
the queues of a terminal that has queues. -/

namespace Sys2Proof.Machine

/-! ### Frames and the terminals that have queues -/

/-- An entry's terminal has queues: it is enrolled, or the downlink queue block has yet to deal with its withdrawal (R20, R22). -/
def Entry.hasQueues (x : Entry) : Bool :=
  x.state != .free ||
    match x.withdrawal with
    | none => false
    | some w => !w.downlinkDone

/-- The terminals that have queues, by what the registry holds of them. -/
def queuesIn (g : Registry) (e : EntryNo) : Bool := (look g.entries e).hasQueues

theorem State.hasQueues_eq (s : State) (e : EntryNo) : s.hasQueues e = queuesIn s.registry e := rfl

/-- Every terminal that has queues in a registry is one of a set. -/
def Allows (q : EntryNo → Bool) (g : Registry) : Prop := ∀ e, queuesIn g e = true → q e = true

/-- A frame waits only for a terminal of a set, and flies only for one unless it is orphaned. -/
def FramesFor (q : EntryNo → Bool) (d : Downlink) (f : BeamNo → Option Burst) : Prop :=
  (∀ x ∈ d.waiting, q x.terminal = true) ∧ ∀ b, ∀ x ∈ burstFrames (f b), x.orphaned = false → q x.terminal = true

theorem State.framesHaveTerminals_iff (s : State) :
    s.framesHaveTerminals ↔ FramesFor (queuesIn s.registry) s.downlink s.burstAt := by
  unfold State.framesHaveTerminals FramesFor
  refine and_congr Iff.rfl ⟨fun h b x hx => h x (State.mem_inFlight.mpr ⟨b, ?_⟩), fun h x hx => ?_⟩
  · rwa [State.frames_beam]
  · obtain ⟨b, hb⟩ := State.mem_inFlight.mp hx
    exact h b x (by rwa [State.frames_beam] at hb)

section
variable {q : EntryNo → Bool} {s : State}

theorem FramesFor.of_waiting {d d' : Downlink} {f f' : BeamNo → Option Burst} (h : FramesFor q d f)
    (hd : ∀ x ∈ d'.waiting, x ∈ d.waiting ∨ q x.terminal = true) (hf : ∀ b, f' b = f b ∨ f' b = none) : FramesFor q d' f' := by
  refine ⟨fun x hx => (hd x hx).elim (h.1 x) id, fun b x hx => ?_⟩
  rcases hf b with hsame | hnone
  · exact h.2 b x (hsame ▸ hx)
  · rw [hnone] at hx
    cases hx

theorem foldl_framesFor {β : Type} {f : State → β → State} (hreg : ∀ (u : State) (b : β), (f u b).registry = u.registry)
    (hf : ∀ (u : State) (b : β),
      Allows q u.registry → FramesFor q u.downlink u.burstAt → FramesFor q (f u b).downlink (f u b).burstAt)
    (bs : List β) (s : State) (hq : Allows q s.registry) (h : FramesFor q s.downlink s.burstAt) :
    FramesFor q (bs.foldl f s).downlink (bs.foldl f s).burstAt := by
  induction bs generalizing s with
  | nil => exact h
  | cons b bs ih => exact ih _ (by rwa [hreg]) (hf s b hq h)

theorem foldl_invariant {β : Type} {P : State → Prop} {f : State → β → State} (hf : ∀ (u : State) (b : β), P u → P (f u b))
    (bs : List β) (s : State) (hs : P s) : P (bs.foldl f s) := by
  induction bs generalizing s with
  | nil => exact hs
  | cons b bs ih => exact ih _ (hf s b hs)

/-- Frames that change, but not for whom they are. -/
theorem FramesFor.map {d d' : Downlink} {f f' : BeamNo → Option Burst} {g : Frame → Frame} (h : FramesFor q d f)
    (hterm : ∀ x, (g x).terminal = x.terminal) (horph : ∀ x, (g x).orphaned = false → x.orphaned = false)
    (hd : d'.waiting = d.waiting.map g) (hf : ∀ b, burstFrames (f' b) = (burstFrames (f b)).map g) : FramesFor q d' f' := by
  refine ⟨fun x hx => ?_, fun b x hx hx' => ?_⟩
  · rw [hd] at hx
    obtain ⟨y, hy, rfl⟩ := List.mem_map.mp hx
    exact hterm y ▸ h.1 y hy
  · rw [hf] at hx
    obtain ⟨y, hy, rfl⟩ := List.mem_map.mp hx
    exact hterm y ▸ h.2 b y hy (horph y hx')

theorem FramesFor.fade {d : Downlink} {s t : State} (h : FramesFor q d s.burstAt) (hfade : s.BurstsFade t) :
    FramesFor q d t.burstAt :=
  h.of_waiting (fun _ hx => .inl hx) hfade

@[simp] theorem State.framesFor_bumpDown (s : State) (k : Fin 21) (f : BeamNo → Option Burst) :
    FramesFor q (s.bumpDown k).downlink f ↔ FramesFor q s.downlink f := Iff.rfl

@[simp] theorem State.framesFor_dropFrames {f : BeamNo → Option Burst} (p : Frame → Bool) (x : FrameFate) (k : Fin 21)
    (hf : FramesFor q s.downlink f) : FramesFor q (s.dropFrames p x k).downlink f :=
  hf.of_waiting (fun _ hy => .inl (List.mem_filter.mp (State.waiting_dropFrames s p x k ▸ hy)).1) fun _ => .inl rfl

@[simp] theorem State.framesFor_queueFrame {f : BeamNo → Option Burst} {x : Frame} (hx : q x.terminal = true)
    (hf : FramesFor q s.downlink f) : FramesFor q (s.queueFrame x).downlink f := by
  refine hf.of_waiting (fun y hy => ?_) fun _ => .inl rfl
  rw [State.waiting_queueFrame, List.mem_append, List.mem_singleton] at hy
  rcases hy with hold | rfl
  · exact .inl hold
  · exact .inr hx

/-- A frame that returns from a burst is one of the burst's, and not orphaned. -/
theorem Burst.mem_comingBack {u : Burst} {now : Time} {o : Nat → FrameOutcome} {y : Frame} (h : y ∈ comingBack
    (u.settled now o)) :
    ∃ x ∈ u.frames, x.orphaned = false ∧ x.terminal = y.terminal := by
  obtain ⟨p, hp, rfl⟩ := List.mem_map.mp h
  obtain ⟨hmem, hback⟩ := List.mem_filter.mp hp
  obtain ⟨z, hz, rfl⟩ := List.mem_map.mp hmem
  refine ⟨z.1, (List.mem_zipIdx' hz).2 ▸ List.getElem_mem _, ?_⟩
  unfold settle comeBack at hback ⊢
  cases horph : z.1.orphaned with
  | true => simp [horph] at hback
  | false =>
    refine ⟨rfl, ?_⟩
    simp only [Bool.false_eq_true, if_false]
    (repeat' split) <;> rfl

theorem State.framesFor_settleBurst {b : BeamNo} {u : Burst} (hu : s.burstAt b = some u) (o : Nat → FrameOutcome)
    (hf : FramesFor q s.downlink s.burstAt) : FramesFor q (s.settleBurst b u o).downlink (s.settleBurst b u o).burstAt := by
  refine hf.of_waiting (fun y hy => ?_) (State.BurstsFade.of_update (s.burstAt_settleBurst b u o))
  rw [State.waiting_settleBurst, List.mem_append] at hy
  refine hy.symm.imp id fun hback => ?_
  obtain ⟨x, hx, horph, hterm⟩ := Burst.mem_comingBack hback
  rw [← hterm]
  refine hf.2 b x ?_ horph
  rw [hu]
  exact hx

@[simp] theorem State.framesFor_deriveCondition {f : BeamNo → Option Burst} (c : CraneNo) (hf : FramesFor q s.downlink f) :
    FramesFor q (s.deriveCondition c).downlink f := by
  unfold State.deriveCondition
  dsimp only
  (repeat' split) <;> simp [*]

@[simp] theorem State.framesFor_queuePoll {f : BeamNo → Option Burst} (r : RackNo) (e : EntryNo) (hq : Allows q s.registry)
    (hf : FramesFor q s.downlink f) : FramesFor q (s.queuePoll r e).1.downlink f := by
  unfold State.queuePoll
  split
  · exact hf
  · next hqueues =>
    have he : q e = true := by
      refine hq e ?_
      rw [← State.hasQueues_eq]
      by_contra hno
      simp [hno] at hqueues
    dsimp only
    split
    · exact State.framesFor_queueFrame he hf
    · simpa using hf

@[simp] theorem State.framesFor_askPoll {f : BeamNo → Option Burst} (r : RackNo) (hq : Allows q s.registry)
    (hf : FramesFor q s.downlink f) :
    FramesFor q (s.askPoll r).downlink f := by
  unfold State.askPoll
  dsimp only
  (repeat' split) <;> simp [*]

@[simp] theorem State.framesFor_rackSilent {f : BeamNo → Option Burst} (r : RackNo) (hq : Allows q s.registry)
    (hf : FramesFor q s.downlink f) :
    FramesFor q (s.rackSilent r).downlink f := by
  unfold State.rackSilent
  (repeat' split) <;> simp [*]

@[simp] theorem State.framesFor_reevaluateRack {f : BeamNo → Option Burst} (r : RackNo) (hq : Allows q s.registry)
    (hf : FramesFor q s.downlink f) :
    FramesFor q (s.reevaluateRack r).downlink f := by
  unfold State.reevaluateRack
  (repeat' split) <;> simp [*]

@[simp] theorem State.framesFor_restartRack {f : BeamNo → Option Burst} (r : RackNo) (hq : Allows q s.registry)
    (hf : FramesFor q s.downlink f) :
    FramesFor q (s.restartRack r).downlink f := by
  unfold State.restartRack
  (repeat' split) <;> simp [*]

@[simp] theorem State.framesFor_followCrane {f : BeamNo → Option Burst} (g : SegNo) (c : CraneNo)
    (hf : FramesFor q s.downlink f) :
    FramesFor q (s.followCrane g c).downlink f := by
  unfold State.followCrane
  (repeat' split) <;> simp [*]

@[simp] theorem State.framesFor_followRack {f : BeamNo → Option Burst} (g : SegNo) (r : RackNo) (hq : Allows q s.registry)
    (hf : FramesFor q s.downlink f) :
    FramesFor q (s.followRack g r).downlink f := by
  unfold State.followRack
  (repeat' split) <;> simp [*]

/-- What is kept with the bursts of a beam controller that is not looked at. -/
theorem foldl_framesFor_downlink {β : Type} {f : State → β → State} {g : BeamNo → Option Burst}
    (hreg : ∀ (u : State) (b : β), (f u b).registry = u.registry)
    (hf : ∀ (u : State) (b : β), Allows q u.registry → FramesFor q u.downlink g → FramesFor q (f u b).downlink g)
    (bs : List β) (s : State) (hq : Allows q s.registry) (h : FramesFor q s.downlink g) : FramesFor q
      (bs.foldl f s).downlink g := by
  induction bs generalizing s with
  | nil => exact h
  | cons b bs ih => exact ih _ (by rwa [hreg]) (hf s b hq h)

@[simp] theorem State.framesFor_restartReefer {f : BeamNo → Option Burst}  (hq : Allows q s.registry)
    (hf : FramesFor q s.downlink f) : FramesFor q (s.restartReefer).downlink f := by
  exact foldl_framesFor_downlink (fun u r => by simp) (fun u r hu hf => by simp [hu, hf]) _ s hq hf

@[simp] theorem State.framesFor_classChanged {f : BeamNo → Option Burst} (g : SegNo) (x y : SegClass) (hq : Allows q s.registry)
    (hf : FramesFor q s.downlink f) : FramesFor q (s.classChanged g x y).downlink f := by
  rw [State.classChanged_eq]
  refine foldl_framesFor_downlink (fun u r => by simp) (fun u r hu hf => by simp [hu, hf]) _ _ ?_ ?_
  · rwa [foldl_keeps State.registry _ fun u c => by simp, (State.bumpCov_frame _ _).2.2.2.1, (State.raiseWhere_frame _ _ _).2.2.1]
  · exact foldl_invariant (P := fun u : State => FramesFor q u.downlink f) (fun u c hu => by simp [hu]) _ _ (by simpa using hf)

@[simp] theorem State.framesFor_rechoose {f : BeamNo → Option Burst} (gs : List SegNo) (hq : Allows q s.registry)
    (hf : FramesFor q s.downlink f) : FramesFor q (s.rechoose gs).downlink f := by
  unfold State.rechoose
  refine foldl_framesFor_downlink (fun u c => by simp) (fun u c hu hf => by simp [hu, hf]) _ _ ?_ ?_
  · rwa [foldl_keeps State.registry _ fun u g => by simp]
  · rwa [foldl_keeps State.downlink _ fun u g => by simp]

@[simp] theorem State.framesFor_sample {f : BeamNo → Option Burst} (i : HeadNo) (g : SegNo) (m k : Nat) (ctr : Fin 24)
    (hq : Allows q s.registry) (hf : FramesFor q s.downlink f) :
    FramesFor q (s.sample i g m k ctr).downlink f := by
  unfold State.sample
  dsimp only
  (repeat' split) <;> simp [*]

@[simp] theorem State.framesFor_burstSample {f : BeamNo → Option Burst} (b : BeamNo) (g : Option SegNo) (x y : Nat)
    (hq : Allows q s.registry) (hf : FramesFor q s.downlink f) :
    FramesFor q (s.burstSample b g x y).downlink f := by
  unfold State.burstSample
  (repeat' split) <;> simp [*]

@[simp] theorem State.framesFor_markCell {f : BeamNo → Option Burst} (i : HeadNo) (g : SegNo) (c : Cell)
    (hq : Allows q s.registry) (hf : FramesFor q s.downlink f) :
    FramesFor q (s.markCell i g c).downlink f := by
  unfold State.markCell
  (repeat' split) <;> simp [*]

@[simp] theorem State.framesFor_unmarkCell {f : BeamNo → Option Burst} (i : HeadNo) (g : SegNo) (c : Cell)
    (hq : Allows q s.registry) (hf : FramesFor q s.downlink f) :
    FramesFor q (s.unmarkCell i g c).downlink f := by
  unfold State.unmarkCell
  simp [*]

@[simp] theorem State.framesFor_steerRefused {f : BeamNo → Option Burst} (b : BeamNo) (g : SegNo) (hq : Allows q s.registry)
    (hf : FramesFor q s.downlink f) :
    FramesFor q (s.steerRefused b g).downlink f := by
  unfold State.steerRefused
  dsimp only
  (repeat' split) <;> simp [*]

@[simp] theorem State.framesFor_applySweep {f : BeamNo → Option Burst} (i : HeadNo) (ms : List (Option Nat))
    (hq : Allows q s.registry)
    (hf : FramesFor q s.downlink f) : FramesFor q (s.applySweep i ms).downlink f := by
  have hentries : ∀ u : State, u.registry = s.registry → u.downlink =
    s.downlink → FramesFor q (u.rechoose (s.reachSegs i)).downlink f :=
    fun u hr hd => State.framesFor_rechoose _ (hr ▸ hq) (hd ▸ hf)
  unfold State.applySweep
  dsimp only
  rw [foldl_keeps State.downlink _ fun u g => by simp]
  exact hentries _ (foldl_keeps State.registry _ (fun u p => by simp) _ _) (foldl_keeps State.downlink _ (fun u p => by simp) _ _)

@[simp] theorem State.framesFor_swept {f : BeamNo → Option Burst} (i : HeadNo) (ms : List (Option Nat))
    (hq : Allows q s.registry) (hf : FramesFor q s.downlink f) :
    FramesFor q (s.swept i ms).downlink f := by
  unfold State.swept
  simp [*]

@[simp] theorem State.framesFor_recoverHead {f : BeamNo → Option Burst} (i : HeadNo) (hq : Allows q s.registry)
    (hf : FramesFor q s.downlink f) :
    FramesFor q (s.recoverHead i).downlink f := by
  unfold State.recoverHead
  simp [*]

@[simp] theorem State.framesFor_probed {f : BeamNo → Option Burst} (i : HeadNo) (hq : Allows q s.registry)
    (hf : FramesFor q s.downlink f) :
    FramesFor q (s.probed i).downlink f := by
  unfold State.probed
  (repeat' split) <;> simp [*]

@[simp] theorem State.framesFor_endBurst {b : BeamNo} {u : Burst} (hu : s.burstAt b =
    some u) (o : Nat → FrameOutcome) (hf : FramesFor q s.downlink s.burstAt) :
    FramesFor q (s.endBurst b u o).downlink (s.endBurst b u o).burstAt := by
  have hsettled := State.framesFor_settleBurst hu o hf
  rw [State.burstAt_endBurst, ← s.burstAt_settleBurst b u o]
  unfold State.endBurst
  simpa using hsettled

@[simp] theorem State.framesFor_forcedReturn {b : BeamNo} {u : Burst} (hu : s.burstAt b =
    some u) (hf : FramesFor q s.downlink s.burstAt) :
    FramesFor q (s.forcedReturn b u).downlink (s.forcedReturn b u).burstAt := by
  unfold State.forcedReturn
  rw [State.framesFor_bumpDown, State.burstAt_bumpDown]
  exact State.framesFor_settleBurst hu _ hf

@[simp] theorem State.downlink_foldl_answer {β : Type} (g : β → ReqRef) (st : Status) (rs : List β) (s : State) :
    (rs.foldl (fun u r => u.answer (g r) st) s).downlink = s.downlink := foldl_keeps State.downlink _ (fun u r => by simp) rs s

@[simp] theorem State.framesFor_beamFault (b : BeamNo) (hf : FramesFor q s.downlink s.burstAt) :
    FramesFor q (s.beamFault b).downlink (s.beamFault b).burstAt := by
  have hlost : FramesFor q (if (s.beam b).state = .opened then s.raiseLost b .headFault else s).downlink
      (if (s.beam b).state = .opened then s.raiseLost b .headFault else s).burstAt := by
    split <;> simp [hf]
  have hsame : (if (s.beam b).state = .opened then s.raiseLost b .headFault else s).burstAt b = (s.beam b).burst := by
    split <;> simp [State.burstAt]
  unfold State.beamFault
  dsimp only
  generalize (if (s.beam b).state = .opened then s.raiseLost b .headFault else s) = w at hlost hsame
  have hdown : ∀ v : State, FramesFor q v.downlink v.burstAt →
      FramesFor q v.downlink (v.setBeam b { (s.beam b).cleared .down with burst := none }).burstAt := fun v hv =>
    hv.fade (.of_update (State.burstAt_setBeam _ _ _))
  cases hu : (s.beam b).burst with
  | none =>
    have hw := hdown w hlost
    split
    · rw [State.downlink_foldl_answer, State.burstAt_foldl_answer]
      exact hw
    · exact hw
  | some u =>
    have hw := hdown _ (State.framesFor_forcedReturn (hsame.trans hu) hlost)
    split
    · rw [State.downlink_foldl_answer, State.burstAt_foldl_answer]
      exact hw
    · exact hw

@[simp] theorem State.framesFor_headFault (i : HeadNo) (hq : Allows q s.registry) (hf : FramesFor q s.downlink s.burstAt) :
    FramesFor q (s.headFault i).downlink (s.headFault i).burstAt := by
  have hfault : ∀ u : State, FramesFor q u.downlink u.burstAt →
      FramesFor q ((u.beamFault (beamOf i .a)).beamFault (beamOf i .b)).downlink
        ((u.beamFault (beamOf i .a)).beamFault (beamOf i .b)).burstAt := fun u hu =>
    State.framesFor_beamFault _ (State.framesFor_beamFault _ hu)
  have hchosen : ∀ (u : State) (gs : List SegNo), u.registry = s.registry → FramesFor q u.downlink u.burstAt →
      FramesFor q (u.rechoose gs).downlink u.burstAt := fun u gs hreg hu => State.framesFor_rechoose gs (by rwa [hreg]) hu
  unfold State.headFault
  dsimp only
  simpa using hchosen _ _ (by simp) (hfault (s.setHead i _) (by simpa using hf))

@[simp] theorem State.framesFor_answerRunsOut (i : HeadNo) (hq : Allows q s.registry) (hf : FramesFor q s.downlink s.burstAt) :
    FramesFor q (s.answerRunsOut i).downlink (s.answerRunsOut i).burstAt := by
  unfold State.answerRunsOut
  (repeat' split) <;> simp [*]

@[simp] theorem State.framesFor_expireBurst (b : BeamNo) (hf : FramesFor q s.downlink s.burstAt) :
    FramesFor q (s.expireBurst b).downlink (s.expireBurst b).burstAt := by
  unfold State.expireBurst
  split
  · exact hf
  · next u hu => simpa using State.framesFor_endBurst (u := u) hu _ hf

@[simp] theorem State.framesFor_reportBurst {b : BeamNo} {u : Burst} (hu : s.burstAt b =
    some u) (o : Nat → FrameOutcome) (k : Fin 21) (hq : Allows q s.registry) (hf : FramesFor q s.downlink s.burstAt) :
    FramesFor q (s.reportBurst b u o k).downlink (s.reportBurst b u o k).burstAt := by
  have hended := State.framesFor_endBurst hu o hf
  unfold State.reportBurst
  have hcounted : FramesFor q ((s.endBurst b u o).bumpDown k).downlink (s.endBurst b u o).burstAt := by simpa using hended
  simpa using State.framesFor_burstSample b (s.beam b).seg (u.count o .sentOk) (u.count o .sentFailed)
    (by simpa using hq) hcounted

@[simp] theorem State.framesFor_returnOwned (b : BeamNo) (l : LinkNo) (hf : FramesFor q s.downlink s.burstAt) :
    FramesFor q (s.returnOwned b l).downlink (s.returnOwned b l).burstAt := by
  unfold State.returnOwned
  split
  · exact hf
  · next u hu =>
    split
    · simpa using State.framesFor_forcedReturn (u := u) hu hf
    · exact hf

@[simp] theorem State.framesFor_forgetOrigin (l : LinkNo) (hf : FramesFor q s.downlink s.burstAt) :
    FramesFor q (s.forgetOrigin l).downlink (s.forgetOrigin l).burstAt := by
  refine hf.map (g := fun x => x.forget l) (fun x => ?_) (fun x => ?_) rfl fun b => ?_
  · unfold Frame.forget
    split <;> rfl
  · unfold Frame.forget
    split <;> exact id
  · rw [State.burstAt_forgetOrigin]
    cases s.burstAt b <;> rfl

@[simp] theorem State.framesFor_downBeams (l : LinkNo) (hf : FramesFor q s.downlink s.burstAt) :
    FramesFor q (s.downBeams l).downlink (s.downBeams l).burstAt := by
  have hwithout : ∀ u : State, u.BurstsFade { u with beamCtl := { u.beamCtl with
      beams := u.beamCtl.beams.map (fun x => x.without l) } } := by
    refine fun u => .of_eq (funext fun b => ?_)
    rw [State.burstAt, State.beam_map_beams]
    rfl
  have hclose : ∀ (u : State) (b : BeamNo), FramesFor q u.downlink u.burstAt →
      FramesFor q (u.closeIfEmpty b).downlink (u.closeIfEmpty b).burstAt := fun u b hu => by simpa using hu
  unfold State.downBeams
  dsimp only
  refine foldl_invariant (P := fun u => FramesFor q u.downlink u.burstAt) hclose _ _ ?_
  refine foldl_invariant (P := fun u => FramesFor q u.downlink u.burstAt)
    (fun u b hu => State.framesFor_returnOwned b l hu) _ _ ?_
  exact (State.framesFor_forgetOrigin l hf).fade (hwithout _)

@[simp] theorem State.framesFor_tearDown (l : LinkNo) (hf : FramesFor q s.downlink s.burstAt) :
    FramesFor q (s.tearDown l).downlink (s.tearDown l).burstAt := by
  have hdown : ∀ u : State, u.downlink = s.downlink → u.burstAt = s.burstAt →
      FramesFor q (u.downBeams l).downlink (u.downBeams l).burstAt := fun u hd hb =>
    State.framesFor_downBeams l (by rwa [hd, hb])
  have hrest : ∀ u : State, (((u.invalidateOwn l).clearInterest l).endSubscriptions l).judge.burstAt = u.burstAt := fun u =>
    State.burstAt_of_beamCtl (by simp)
  unfold State.tearDown
  dsimp only
  rw [hrest]
  simpa using hdown (State.emptyDeliveries { s.onLink l Link.goDown with handed := s.handed.filter fun r => r.ref.link != l } l)
    (by simp) (State.burstAt_of_beamCtl (by simp))

@[simp] theorem State.framesFor_purgeClass {f : BeamNo → Option Burst} (e : EntryNo) (c : FrameClass) (b : Bool)
    (hf : FramesFor q s.downlink f) :
    FramesFor q (s.purgeClass e c b).downlink f := by
  unfold State.purgeClass
  (repeat' split) <;> simp [*]

@[simp] theorem State.framesFor_purge {f : BeamNo → Option Burst} (e : EntryNo) (b : Byte) (hf : FramesFor q s.downlink f) :
    FramesFor q (s.purge e b).downlink f := by
  unfold State.purge
  simp (maxDischargeDepth := 6) [*]

end

end Sys2Proof.Machine
end

section
/-! PROOFS. Every command adds a frame only for a terminal that has queues (R20, R22, R108, R109). -/

namespace Sys2Proof.Machine

/-- The terminals that have queues are among a set, and frames wait and fly, orphans apart, only for terminals of the set. -/
def State.Within (q : EntryNo → Bool) (s : State) : Prop := Allows q s.registry ∧ FramesFor q s.downlink s.burstAt

section
variable {q : EntryNo → Bool} {s t : State}

theorem State.Within.of_parts (h : s.Within q) (hreg : t.registry = s.registry) (hdown : t.downlink = s.downlink)
    (hbeam : t.burstAt = s.burstAt) : t.Within q := by
  unfold State.Within at h ⊢
  rwa [hreg, hdown, hbeam]

theorem State.Within.of_frames (h : s.Within q) (hreg : t.registry = s.registry)
    (ht : Allows q s.registry → FramesFor q s.downlink s.burstAt → FramesFor q t.downlink t.burstAt) : t.Within q :=
  ⟨hreg ▸ h.1, ht h.1 h.2⟩

theorem State.Within.of_downlink (h : s.Within q) (hreg : t.registry = s.registry) (hbeam : t.beamCtl = s.beamCtl)
    (ht : ∀ f, Allows q s.registry → FramesFor q s.downlink f → FramesFor q t.downlink f) : t.Within q := by
  refine ⟨hreg ▸ h.1, ?_⟩
  rw [State.burstAt_of_beamCtl hbeam]
  exact ht _ h.1 h.2

theorem State.Within.ite {c : Prop} [Decidable c] (hs : s.Within q) (ht : t.Within q) : (if c then s else t).Within q := by
  split
  · exact hs
  · exact ht

/-! ### An entry that is written -/

theorem Allows.setEntry {e : EntryNo} {x : Entry} (h : Allows q s.registry) (hx : x.hasQueues = true → (s.entry e).hasQueues =
    true) :
    Allows q (s.setEntry e x).registry := by
  intro i hi
  have hlook : look (s.setEntry e x).registry.entries i = if i = e then x else s.entry i := look_put _ _ _ _
  unfold queuesIn at hi
  rw [hlook] at hi
  refine h i ?_
  split at hi
  · next hie => exact hie ▸ hx hi
  · exact hi

theorem State.silenceOver_heard {e : EntryNo} (h : s.silenceOver e = true) : (s.entry e).state = .heard := by
  unfold State.silenceOver at h
  split at h
  · assumption
  · cases h

theorem State.Within.goSilent {e : EntryNo} (h : s.Within q) (he : (s.entry e).state = .heard) : (s.goSilent e).Within q := by
  have hsilent : (s.setEntry e { s.entry e with state := .silent }).Within q :=
    ⟨h.1.setEntry fun _ => by simp [Entry.hasQueues, he], h.2⟩
  unfold State.goSilent
  dsimp only
  generalize s.setEntry e { s.entry e with state := .silent } = u at hsilent
  have hcount : ∀ k, (u.bumpReg k).Within q := fun k => hsilent
  split
  · exact (hcount 9).of_downlink (by simp) (by simp) fun f hq hf => State.framesFor_deriveCondition _ hf
  · exact (hcount 10).of_downlink (by simp) (by simp) fun f hq hf => State.framesFor_rackSilent _ hq hf
  · exact hsilent

theorem State.Within.moveEntry (h : s.Within q) (e : EntryNo) (g : SegNo) : (s.moveEntry e g).Within q := by
  have hmoved : ((s.setEntry e { s.entry e with seg := some g }).bumpReg 7).Within q := ⟨h.1.setEntry fun hx => hx, h.2⟩
  unfold State.moveEntry
  dsimp only
  generalize (s.setEntry e { s.entry e with seg := some g }).bumpReg 7 = u at hmoved
  split
  · exact hmoved.of_downlink (by simp) (by simp) fun f hq hf => by simp [*]
  · exact hmoved.of_downlink (by simp) (by simp) fun f hq hf => by simp [*]
  · exact hmoved

/-! ### A changed parameter -/

theorem State.Within.afterTune (h : s.Within q) (i : Fin 19) : (s.afterTune i).Within q := by
  have hanswers : ∀ b, (s.recheckAnswers b).Within q := fun b =>
    foldl_invariant (P := State.Within q) (fun u i hu => .ite (hu.of_frames (by simp) fun hq hf => by simp [*]) hu) _ s h
  have hsilence : ∀ k, (s.recheckSilence k).Within q := fun k => by
    refine foldl_invariant (P := State.Within q) (fun u e hu => ?_) _ s h
    split
    · next hover => exact hu.goSilent (State.silenceOver_heard (Bool.and_eq_true _ _ ▸ hover).1)
    · exact hu
  unfold State.afterTune
  split
  · exact hanswers false
  · exact hanswers true
  · exact foldl_invariant (P := State.Within q) (fun u i hu => .ite (hu.of_parts (by simp) (by simp) (by simp))
      (.ite (hu.of_parts (by simp) (by simp) (by simp)) hu)) _ s h
  · exact foldl_invariant (P := State.Within q) (fun u w hu => hu.of_parts (by simp) (by simp) (by simp)) _ s h
  · exact foldl_invariant (P := State.Within q) (fun u b hu => .ite (hu.of_frames (by simp) fun hq hf => by simp [*]) hu) _ s h
  · exact hsilence .crane
  · exact foldl_invariant (P := State.Within q)
      (fun u c hu => .ite (hu.of_parts (by simp) (by simp) (State.burstAt_of_beamCtl (by simp))) hu) _ s h
  · exact hsilence .rack
  · exact h

theorem State.Within.tunePair (h : s.Within q) (i : Fin 19) (v : Nat) : (s.tunePair i v).Within q := by
  have hpair : (s.withPair i v).Within q := h.of_parts (by simp) (by simp) (State.burstAt_of_beamCtl (by simp))
  have hafter : (if look (applyPair s.settings.params i v).1 i != look s.settings.params i then (s.withPair i v).afterTune i
      else s.withPair i v).Within q := .ite (hpair.afterTune i) hpair
  rw [State.tunePair_eq]
  exact hafter.of_parts (by simp) (by simp) (by simp)

/-! ### Requests -/

section
variable (r : Request)

theorem State.Within.reading {α : Type} {o : Option α} {f : α → State} (h : s.Within q) (hf : ∀ x : α, (f x).Within q) :
    (s.reading r o f).Within q :=
  State.reading_keeps (h.of_parts (by simp) (by simp) (by simp)) fun x _ => hf x

theorem State.Within.reply (h : s.Within q) (r : ReqRef) (st : Status) (b : ReplyBody) : (s.reply r st b).Within q :=
  h.of_parts (by simp) (by simp) (by simp)

theorem State.Within.answer (h : s.Within q) (r : ReqRef) (st : Status) : (s.answer r st).Within q :=
  h.of_parts (by simp) (by simp) (by simp)

theorem State.Within.judge (h : s.Within q) : s.judge.Within q := h.of_parts (by simp) (by simp) (by simp)

theorem State.Within.clearGroup (h : s.Within q) (k : Nat) : (s.clearGroup k).Within q := by
  unfold State.clearGroup
  split <;> exact h

theorem serveReadCounters_within (h : s.Within q) : (serveReadCounters s r).Within q := by
  refine h.reading r fun x => ?_
  split
  · exact h.answer _ _
  · exact State.Within.reply (.ite (h.clearGroup _) h) _ _ _

theorem serveMove_within (h : s.Within q) : (serveMove s r).Within q := by
  refine h.reading r fun x => ?_
  dsimp only
  split
  · exact h.answer _ _
  · exact State.Within.reply (.ite h (h.moveEntry _ _).judge) _ _ _

theorem serveMarkCell_within (h : s.Within q) : (serveMarkCell s r).Within q := by
  refine h.reading r fun x => ?_
  split
  · exact h.answer _ _
  · exact State.Within.reply (.ite h (State.Within.judge (h.of_frames (by simp) fun hq hf => by simp [*]))) _ _ _

theorem serveUnmarkCell_within (h : s.Within q) : (serveUnmarkCell s r).Within q := by
  refine h.reading r fun x => ?_
  split
  · exact h.answer _ _
  · exact State.Within.reply (.ite (State.Within.judge (h.of_downlink (by simp) (by simp) fun f hq hf => by simp [*])) h) _ _ _

theorem State.Within.burstReport (h : s.Within q) (b : BeamNo) (n : Byte) (o : Nat → FrameOutcome) (k : Fin 21) :
    (s.burstReport r b n o k).Within q := by
  have hcounted : (s.bumpDown 10).Within q := h.of_frames (by simp) fun hq hf => by simpa using hf
  unfold State.burstReport
  split
  · exact hcounted.answer _ _
  · next u hu =>
    (repeat' split)
    · exact hcounted.answer _ _
    · exact h.answer _ _
    · exact State.Within.reply (h.of_frames (by simp) fun hq hf => State.framesFor_reportBurst (u := u) hu _ _ hq hf) _ _ _

theorem serveDone_within (h : s.Within q) : (serveDone s r).Within q := h.reading r fun _ => h.burstReport r _ _ _ _

theorem serveCut_within (h : s.Within q) : (serveCut s r).Within q := h.reading r fun _ => h.burstReport r _ _ _ _

theorem serveTune_within (h : s.Within q) : (serveTune s r).Within q := by
  refine h.reading r fun ps => State.Within.reply ?_ _ _ _
  have hpairs := foldl_invariant (P := State.Within q) (f := fun u p => u.tunePair p.1 p.2) (fun u p hu => hu.tunePair _ _) ps s h
  exact hpairs.of_parts (by simp) (by simp) (State.burstAt_of_beamCtl (by simp))

/-- A token that passes names an enrolled terminal (R41). -/
theorem State.checkToken_enrolled {l : LinkNo} {k : Token} {writing : Bool} {e : EntryNo}
    (h : s.checkToken l k writing = .passed e) : (s.entry e).state ≠ .free := by
  unfold State.checkToken at h
  split at h
  · cases h
  · next i _ =>
    dsimp only at h
    generalize look (s.accessList l k.list) i = x at h
    split at h
    · cases h
    split at h
    · cases h
    cases hterm : x.terminal with
    | none => simp [hterm] at h
    | some i =>
      simp only [hterm] at h
      split_ifs at h with hcurrent
      cases h
      cases hsnap : x.snapshot <;> simp_all [State.entryCurrent]

theorem State.Within.withToken (h : s.Within q) {k : Token} {writing : Bool} {f : State → EntryNo → State}
    (hf : ∀ e, (s.entry e).state ≠ .free → (f (s.bumpAcc 4) e).Within q) :
    (s.withToken r k writing f).Within q := by
  unfold State.withToken
  split
  · exact State.Within.answer (h.of_parts (by simp) (by simp) (State.burstAt_of_beamCtl (by simp))) _ _
  · next e he => exact hf e (State.checkToken_enrolled he)

theorem serveSend_within (h : s.Within q) : (serveSend s r).Within q := by
  have hcounted : (s.bumpAcc 4).Within q := h.of_parts (by simp) (by simp) (State.burstAt_of_beamCtl (by simp))
  refine h.reading r fun x => h.withToken r fun e he => ?_
  have hqueues : q e = true := h.1 e (by rw [← State.hasQueues_eq, State.hasQueues, bne_iff_ne.mpr he, Bool.true_or])
  generalize s.bumpAcc 4 = u at hcounted
  have hdown : ∀ k, (u.bumpDown k).Within q := fun k => hcounted.of_frames (by simp) fun hq hf => by simpa using hf
  have hpool : ∀ k, (u.bumpPool k).Within q := fun k => hcounted.of_parts (by simp) (by simp) (State.burstAt_of_beamCtl (by simp))
  split
  · next k _ =>
    unfold State.sendTo
    dsimp only
    (repeat' split)
    · exact (hdown 2).answer _ _
    · exact (hdown 3).answer _ _
    · refine State.Within.reply (hcounted.of_downlink (by simp) (by simp) fun f _ hf => ?_) _ _ _
      have hjoined : FramesFor q (u.queueFrame (u.newFrame r.ref e k x)).downlink f := State.framesFor_queueFrame hqueues hf
      unfold State.acceptFrame
      dsimp only
      split <;> simpa using hjoined
    · exact (hpool _).answer _ _
  · exact hcounted.answer _ _

theorem servePurgeQueue_within (h : s.Within q) : (servePurgeQueue s r).Within q := by
  have hcounted : (s.bumpAcc 4).Within q := h.of_parts (by simp) (by simp) (State.burstAt_of_beamCtl (by simp))
  refine h.reading r fun x => h.withToken r fun e he => State.Within.reply ?_ _ _ _
  exact hcounted.of_downlink (by simp) (by simp) fun f _ hf => State.framesFor_purge e x.2 hf

/-- Placed frames and frames that stay were waiting (R117). -/
theorem mem_of_mem_moveOut {x : Frame} (fs w : List Frame) (hx : x ∈ (moveOut fs w).1 ∨ x ∈ (moveOut fs w).2) : x ∈ w := by
  induction fs generalizing w with
  | nil => simpa [moveOut] using hx
  | cons f fs ih =>
    unfold moveOut at hx
    split at hx
    · next hf =>
      simp only [List.mem_cons, or_assoc] at hx
      rcases hx with rfl | hx
      · exact hf
      · exact List.mem_of_mem_erase (ih _ hx)
    · exact ih w hx

theorem State.mem_of_mem_assemble {x : Frame} {b : BeamNo} {fl bl : Nat} (hx : x ∈ (s.assemble b fl bl).1 ∨ x ∈
    (s.assemble b fl bl).2) :
    x ∈ s.downlink.waiting := by
  unfold State.assemble at hx
  split at hx
  · simpa using hx
  · exact mem_of_mem_moveOut _ _ hx

theorem State.framesFor_beginBurst {b : BeamNo} {fl bl : Nat} (l : LinkNo) (h : FramesFor q s.downlink s.burstAt) :
    FramesFor q (s.beginBurst b l (s.assemble b fl bl).1 (s.assemble b fl bl).2).downlink
      (s.beginBurst b l (s.assemble b fl bl).1 (s.assemble b fl bl).2).burstAt := by
  have hwaiting : (s.beginBurst b l (s.assemble b fl bl).1 (s.assemble b fl bl).2).downlink.waiting = (s.assemble b fl bl).2 := by
    unfold State.beginBurst
    dsimp only
    split <;> simp
  refine ⟨fun x hx => ?_, fun c x hx horph => ?_⟩
  · rw [hwaiting] at hx
    exact h.1 x (State.mem_of_mem_assemble (.inr hx))
  · rw [State.burstAt_beginBurst, Function.update_apply] at hx
    split at hx
    · exact h.1 x (State.mem_of_mem_assemble (.inl hx))
    · exact h.2 c x hx horph

theorem serveFetch_within (h : s.Within q) : (serveFetch s r).Within q := by
  refine h.reading r fun x => ?_
  dsimp only
  split
  · exact h.answer _ _
  · exact State.Within.reply (h.of_frames (by simp) fun _ hf => State.framesFor_beginBurst _ hf) _ _ _

theorem State.Within.restartUnits (h : s.Within q) (p : ReqRef) : (s.restartUnits p).Within q := by
  have hregistry : ∀ u : State, u.registry = s.registry → Allows q u.restartRegistry.registry := by
    intro u hu e he
    have hlook : look u.restartRegistry.registry.entries e = (s.entry e).restarted u.now u.nowSec := by
      simp [State.restartRegistry, look, hu, State.entry]
    unfold queuesIn at he
    rw [hlook] at he
    exact h.1 e he
  have hcleared : ∀ u : State, Allows q u.registry → (u.restartDownlink.restartPool.restartCranes).Within q := by
    intro u hu
    refine ⟨hu, fun x hx => ?_, fun b x hx => ?_⟩
    · cases hx
    · simp [State.burstAt, State.beam, State.restartDownlink, State.restartPool, State.restartCranes, look, burstFrames] at hx
  unfold State.restartUnits
  dsimp only
  have hreefer : ∀ u : State, u.Within q → u.restartReefer.Within q := fun u hu =>
    hu.of_downlink (by simp) (by simp) fun f hq hf => State.framesFor_restartReefer hq hf
  refine State.Within.judge (hreefer _ (hcleared _ ?_))
  have hbeams : ∀ u : State, u.restartBeams.registry = u.registry := fun u => u.restartBeams_keepsAllBut .registry (by simp)
  rw [hbeams]
  exact hregistry _ (State.restartLinks_keepsAllBut s p .registry (by simp))

theorem serveRestart_within (h : s.Within q) : (serveRestart s r).Within q := by
  have hbusy : (s.bumpSet 10).Within q := h.of_parts (by simp) (by simp) (State.burstAt_of_beamCtl (by simp))
  have hmarked : (State.bumpSet { s with settings := { s.settings with restart := some r.ref } } 9).Within q :=
    h.of_parts (by simp) (by simp) (State.burstAt_of_beamCtl (by simp))
  unfold serveRestart
  refine h.reading r fun _ => ?_
  split
  · exact hbusy.answer _ _
  · exact hmarked.restartUnits _

end

end

end Sys2Proof.Machine
end

section
/-! PROOFS. Every command leaves frames waiting and flying, orphans apart, for terminals that have queues alone (R20, R22). -/

namespace Sys2Proof.Machine

section
variable {q : EntryNo → Bool} {s t : State}

/-! ### Frames from terminals -/

theorem State.framesFor_takeTelemetry {f : BeamNo → Option Burst} (e : EntryNo) (c : CraneNo) (b : Bool) (bs : List Byte)
    (hf : FramesFor q s.downlink f) : FramesFor q (s.takeTelemetry e c b bs).downlink f := by
  unfold State.takeTelemetry
  dsimp only
  (repeat' split) <;> simp [*]

theorem State.framesFor_takeUplink {f : BeamNo → Option Burst} (l : LinkNo) (u : Word × List Byte)
    (hf : FramesFor q s.downlink f) :
    FramesFor q (s.takeUplink l u).1.downlink f := by
  unfold State.takeUplink
  split
  · simpa using hf
  · dsimp only
    split
    · simpa using State.framesFor_takeTelemetry (s := State.setEntry _ _ _) _ _ _ _ (by simpa using hf)
    · simpa using hf
    · simpa using hf

theorem State.framesFor_takeUplinks {f : BeamNo → Option Burst} (l : LinkNo) (us : List (Word × List Byte)) (s : State)
    (hf : FramesFor q s.downlink f) : FramesFor q (s.takeUplinks l us).1.downlink f := by
  induction us generalizing s with
  | nil => exact hf
  | cons u us ih => exact ih _ (State.framesFor_takeUplink l u hf)

theorem serveDeliver_framesFor (r : Request) {f : BeamNo → Option Burst} (hf : FramesFor q s.downlink f) :
    FramesFor q (serveDeliver s r).downlink f :=
  State.reading_keeps (P := fun u => FramesFor q u.downlink f) (by simpa using hf) fun us _ => by
    simpa using State.framesFor_takeUplinks _ us s hf

/-! ### Commands -/

theorem framesFor_of_writes {c : Instr} (hdown : Part.downlink ∉ writesOf c) (hbursts : makesBursts c = false)
    (h : exec c s = .next t) (hs : FramesFor q s.downlink s.burstAt) : FramesFor q t.downlink t.burstAt := by
  rw [exec_next_keeps h .downlink hdown]
  exact hs.fade (exec_ends_bursts_only c hbursts s t h)

theorem framesFor_of_serve {code : ReqCode} {l : LinkNo} (hserve : ∀ (u : State) (r : Request),
    u.Within q → (serveOf code u r).Within q)
    (h : exec (code.command l) s = .next t) (hs : s.Within q) : FramesFor q t.downlink t.burstAt := by
  obtain rfl : s.taking code l (serveOf code) = t := by simpa [exec_command] using h
  exact (State.taking_keeps (P := State.Within q) hs (fun _ => hs) fun u r hu => hserve u r hu).2

theorem request_framesFor (code : ReqCode) (l : LinkNo) (h : exec (code.command l) s = .next t) (hs : s.Within q) :
    FramesFor q t.downlink t.burstAt := by
  cases code with
  | readCounters => exact framesFor_of_serve (code := .readCounters) (fun u r => serveReadCounters_within r) h hs
  | move => exact framesFor_of_serve (code := .move) (fun u r => serveMove_within r) h hs
  | markCell => exact framesFor_of_serve (code := .markCell) (fun u r => serveMarkCell_within r) h hs
  | unmarkCell => exact framesFor_of_serve (code := .unmarkCell) (fun u r => serveUnmarkCell_within r) h hs
  | send => exact framesFor_of_serve (code := .send) (fun u r => serveSend_within r) h hs
  | purgeQueue => exact framesFor_of_serve (code := .purgeQueue) (fun u r => servePurgeQueue_within r) h hs
  | fetch => exact framesFor_of_serve (code := .fetch) (fun u r => serveFetch_within r) h hs
  | done => exact framesFor_of_serve (code := .done) (fun u r => serveDone_within r) h hs
  | cut => exact framesFor_of_serve (code := .cut) (fun u r => serveCut_within r) h hs
  | tune => exact framesFor_of_serve (code := .tune) (fun u r => serveTune_within r) h hs
  | restart => exact framesFor_of_serve (code := .restart) (fun u r => serveRestart_within r) h hs
  | deliver =>
    rw [State.burstAt_of_beamCtl (exec_next_keeps h .beamCtl (by simp [ReqCode.command, writesOf]))]
    obtain rfl : s.taking .deliver l serveDeliver = t := by simpa [exec_command, serveOf] using h
    exact State.taking_keeps (P := fun u => FramesFor q u.downlink s.burstAt) hs.2 (fun _ => hs.2) fun u r hu =>
      serveDeliver_framesFor r hu
  | _ => exact framesFor_of_writes (by simp [ReqCode.command, writesOf]) rfl h hs.2

theorem State.Within.answered (hs : s.Within q) (i : HeadNo) (o : Outstanding) {f : State → State}
    (hf : ∀ u : State, u.Within q → (f u).Within q) : (s.answered i o f).Within q := by
  have hend : (s.endOutstanding i).Within q := hs.of_parts (by simp) (by simp) (by simp)
  have hdone : (if o.leftToFinish then s.endOutstanding i else f (s.endOutstanding i)).Within q := .ite hend (hf _ hend)
  unfold State.answered
  exact hdone.of_parts (by simp) (by simp) (by simp)

/-- Every command but the withdrawal of a terminal from the downlink queues leaves frames only for terminals that had queues. -/
theorem exec_framesFor {c : Instr} (hdiscard : ∀ e, c ≠ .downlinkWithdrawal e) (h : exec c s = .next t) (hs : s.Within q) :
    FramesFor q t.downlink t.burstAt := by
  rcases hc : requestOf c with _ | ⟨code, l⟩
  case some =>
    obtain rfl := requestOf_eq_some_iff.mp hc
    exact request_framesFor code l h hs
  cases c with
  | downlinkWithdrawal e => exact absurd rfl (hdiscard e)
  | pinReset =>
    cases h
    refine ⟨fun x hx => ?_, fun b x hx => ?_⟩
    · cases hx
    · simp [State.burstAt, State.beam, State.reset, BeamCtl.reset, Beam.reset, burstFrames] at hx
  | linkDown l receiving =>
    cases h
    split
    · exact State.framesFor_tearDown l hs.2
    · exact hs.2
  | settingsLoadEnd readA readB =>
    rw [exec_next_keeps h .downlink (by simp [writesOf])]
    refine ⟨hs.2.1, fun b x hx => ?_⟩
    cases h
    split at hx
    · exact hs.2.2 b x hx
    · rw [State.burstAt_firstLoad] at hx
      cases hx
  | silenceExpiry e =>
    cases h
    split
    · next hover => exact (hs.goSilent (State.silenceOver_heard hover)).judge.2
    · exact hs.2
  | steerRefused i bs =>
    cases h
    (repeat' split)
    · exact (State.Within.answered hs i _ fun u hu => hu.of_frames (by simp) fun hq hf => by simp [*]).judge.2
    · exact hs.2
    · exact hs.2
  | sweepResult i bs =>
    cases h
    split
    · exact (State.Within.answered hs i _ fun u hu => hu.of_frames (by simp) fun hq hf => by simp [*]).judge.2
    · exact hs.2
  | probeAnswered i bs =>
    cases h
    (repeat' split)
    · exact (State.Within.answered hs i _ fun u hu => hu.of_frames (by simp) fun hq hf => by simp [*]).judge.2
    · exact hs.2
    · exact hs.2
  | answerLimitExpiry i =>
    cases h
    split
    · exact (hs.of_frames (by simp) fun hq hf => State.framesFor_answerRunsOut i hq hf).judge.2
    · exact hs.2
  | burstLimitExpiry b =>
    cases h
    split
    · exact (hs.of_frames (by simp) fun hq hf => State.framesFor_expireBurst b hf).judge.2
    · exact hs.2
  | deadlineExpiry i =>
    cases h
    split
    · exact (hs.of_downlink (by simp) (by simp) fun f hq hf => State.framesFor_dropFrames _ _ _ hf).judge.2
    · exact hs.2
  | _ => first | cases hc; done | exact framesFor_of_writes (by simp [writesOf]) rfl h hs.2

end

end Sys2Proof.Machine
end

section
/-! PROOFS. The roles of the registry's entries: what the registry's map, counts and numbers have to agree with (R17, R18, R21,
R22,
R29), and the operations that leave them as they were. -/

namespace Sys2Proof.Machine

/-! ### Roles -/

/-- What of an entry the map, the counts and the numbers have to agree with. -/
def Entry.standing (x : Entry) : Bool × Option Word × Bool × Option Kind × Option CraneNo × Option RackNo :=
  (x.state == .free, x.addr, x.withdrawal.isSome, x.kind, x.crane, x.rack)

/-- What others look for in an entry: its standing, and whether its terminal has queues. -/
def Entry.role (x : Entry) : Bool × Bool × Option Word × Bool × Option Kind × Option CraneNo × Option RackNo :=
  (x.hasQueues, x.standing)

/-- The roles of all entries, the map, the counts and the unknown-source list. -/
def rolesOf (g : Registry) : (EntryNo → Bool × Bool × Option Word × Bool × Option Kind × Option CraneNo × Option RackNo) ×
    List (Word × EntryNo) × Nat × Nat × List UnknownRec :=
  (fun e => (look g.entries e).role, g.addrMap, g.craneCount, g.rackCount, g.unknowns)

theorem Entry.sound_of_standing {x y : Entry} (h : y.standing = x.standing) (hx : x.sound) : y.sound := by
  simp only [Entry.standing, Prod.mk.injEq] at h
  obtain ⟨hfree, haddr, hwith, hkind, hcrane, hrack⟩ := h
  have hstate : y.state = .free ↔ x.state = .free := by rw [← beq_iff_eq, hfree, beq_iff_eq]
  have hnone : y.withdrawal = none ↔ x.withdrawal = none := by
    rw [← Option.not_isSome_iff_eq_none, hwith, Option.not_isSome_iff_eq_none]
  unfold Entry.sound at hx ⊢
  rwa [haddr, hwith, hkind, hcrane, hrack, Ne, hstate, hnone]

section
variable {s t : State}

theorem State.entry_of_roles (h : rolesOf t.registry = rolesOf s.registry) (e : EntryNo) : (t.entry e).role = (s.entry e).role :=
  congrFun (congrArg Prod.fst h) e

theorem State.queues_of_roles (h : rolesOf t.registry = rolesOf s.registry) : queuesIn t.registry = queuesIn s.registry :=
  funext fun e => congrArg Prod.fst (State.entry_of_roles h e)

theorem State.registryAgrees_of_standing (hstanding : ∀ e, (t.entry e).standing = (s.entry e).standing)
    (hmap : t.registry.addrMap = s.registry.addrMap) (hcranes : t.registry.craneCount = s.registry.craneCount)
    (hracks : t.registry.rackCount = s.registry.rackCount) (hunknowns : t.registry.unknowns = s.registry.unknowns)
    (hs : s.registryAgrees) : t.registryAgrees := by
  have haddr : ∀ e, (t.entry e).addr = (s.entry e).addr := fun e => congrArg (fun r => r.2.1) (hstanding e)
  have hkind : ∀ e, (t.entry e).kind = (s.entry e).kind := fun e => congrArg (fun r => r.2.2.2.1) (hstanding e)
  have hcrane : ∀ e, (t.entry e).crane = (s.entry e).crane := fun e => congrArg (fun r => r.2.2.2.2.1) (hstanding e)
  have hrack : ∀ e, (t.entry e).rack = (s.entry e).rack := fun e => congrArg (fun r => r.2.2.2.2.2) (hstanding e)
  have hholding : ∀ k, t.holding k = s.holding k := fun k => by simp only [State.holding, hkind]
  obtain ⟨hsound, hrest⟩ := hs
  refine ⟨fun e => Entry.sound_of_standing (hstanding e) (hsound e), ?_⟩
  simpa only [haddr, hcrane, hrack, hholding, hmap, hcranes, hracks, hunknowns] using hrest

theorem State.registryAgrees_of_roles (h : rolesOf t.registry = rolesOf s.registry) (hs : s.registryAgrees) :
    t.registryAgrees := by
  have hrole := State.entry_of_roles h
  simp only [rolesOf, Prod.mk.injEq] at h
  obtain ⟨-, hmap, hcranes, hracks, hunknowns⟩ := h
  exact State.registryAgrees_of_standing (fun e => congrArg Prod.snd (hrole e)) hmap hcranes hracks hunknowns hs

/-! ### What leaves the roles as they were -/

@[simp] theorem State.roles_bumpReg (s : State) (k : Fin 12) : rolesOf (s.bumpReg k).registry = rolesOf s.registry := rfl

@[simp] theorem State.roles_clearGroup (s : State) (k : Nat) : rolesOf (s.clearGroup k).registry = rolesOf s.registry := by
  unfold State.clearGroup
  split <;> rfl

theorem State.roles_setEntry {e : EntryNo} {x : Entry} (hx : x.role = (s.entry e).role) :
    rolesOf (s.setEntry e x).registry = rolesOf s.registry := by
  have hroles : (fun i => (look (s.setEntry e x).registry.entries i).role) = fun i => (look s.registry.entries i).role := by
    funext i
    have hlook : look (s.setEntry e x).registry.entries i = if i = e then x else s.entry i := look_put _ _ _ _
    rw [hlook]
    split
    · next hie => rw [hie, hx, State.entry]
    · rfl
  unfold rolesOf
  rw [hroles]
  rfl

theorem Entry.hasQueues_of_enrolled {x : Entry} (h : x.state ≠ .free) : x.hasQueues = true := by
  rw [Entry.hasQueues, bne_iff_ne.mpr h, Bool.true_or]

theorem Entry.role_silent {x : Entry} (h : x.state ≠ .free) : ({ x with state := .silent } : Entry).role = x.role := by
  unfold Entry.role Entry.standing
  rw [Entry.hasQueues_of_enrolled h, Entry.hasQueues_of_enrolled (by simp)]
  simp [h]

theorem Entry.role_hear {x : Entry} (h : x.state ≠ .free) (t : Time) : (x.hear t).role = x.role := by
  unfold Entry.role Entry.standing
  rw [Entry.hasQueues_of_enrolled h, Entry.hasQueues_of_enrolled (by simp [Entry.hear])]
  simp [Entry.hear, h]

theorem State.roles_goSilent {e : EntryNo} (h : s.silenceOver e = true) :
    rolesOf (s.goSilent e).registry = rolesOf s.registry := by
  have hfree : (s.entry e).state ≠ .free := by simp [State.silenceOver_heard h]
  have hsilent := State.roles_setEntry (Entry.role_silent hfree)
  unfold State.goSilent
  dsimp only
  split <;> simpa using hsilent

@[simp] theorem State.roles_moveEntry (s : State) (e : EntryNo) (g : SegNo) : rolesOf (s.moveEntry e g).registry =
    rolesOf s.registry := by
  have hmoved : rolesOf (s.setEntry e { s.entry e with seg := some g }).registry = rolesOf s.registry := State.roles_setEntry rfl
  unfold State.moveEntry
  dsimp only
  split <;> simpa using hmoved

@[simp] theorem State.roles_placeCrane (s : State) (e : EntryNo) (g : Half) : rolesOf (s.placeCrane e g).registry =
    rolesOf s.registry := by
  unfold State.placeCrane
  split
  · split
    · rfl
    · have hplaced : rolesOf (s.setEntry e { s.entry e with seg := some ⟨g.toNat, by assumption⟩ }).registry =
      rolesOf s.registry :=
        State.roles_setEntry rfl
      simpa using hplaced
  · simp

@[simp] theorem State.roles_takeTelemetry (s : State) (e : EntryNo) (c : CraneNo) (b : Bool) (bs : List Byte) :
    rolesOf (s.takeTelemetry e c b bs).registry = rolesOf s.registry := by
  unfold State.takeTelemetry
  dsimp only
  (repeat' split) <;> simp

/-- An accepted report writes its entry, and nothing else of the registry (R145). -/
theorem State.registry_reportApplied (s : State) (e : EntryNo) (r : RackNo) (k : RackRec) (c : Byte) (qs : List Reading) :
    (s.reportApplied e r k c qs).registry = (s.setEntry e { (s.entry e).hear s.nowSec with lastReport := some c }).registry := by
  have hback : ∀ u : State, (u.endSilence r k).registry = u.registry := fun u => by
    unfold State.endSilence
    split <;> simp
  have hnoted : ∀ u : State, (u.noteAccepted r).registry = u.registry := fun u => by
    unfold State.noteAccepted
    split <;> simp
  unfold State.reportApplied
  simp only [State.bumpReef_frame, hnoted]
  rw [foldl_keeps State.registry _ fun u q => by simp]
  simp only [State.bumpReefBy_frame, hback]

theorem State.roles_takeReport {e : EntryNo} (h : (s.entry e).state ≠ .free) (r : RackNo) (bs : List Byte) :
    rolesOf (s.takeReport e r bs).registry = rolesOf s.registry := by
  have haccept : ∀ (u : State) (k : RackRec) (c : Byte) (qs : List Reading), u.registry = s.registry →
      rolesOf (u.acceptReport e r k c qs).registry = rolesOf s.registry := by
    intro u k c qs hu
    have hentry : u.entry e = s.entry e := by rw [State.entry, hu, State.entry]
    have hheard : rolesOf (u.setEntry e { (u.entry e).hear u.nowSec with lastReport := some c }).registry =
      rolesOf s.registry := by
      rw [State.roles_setEntry, hu]
      exact Entry.role_hear (x := u.entry e) (hentry ▸ h) u.nowSec
    rw [State.acceptReport_eq]
    simp only [State.offerDigests_frame, State.registry_reportApplied]
    exact hheard
  unfold State.takeReport
  dsimp only
  split
  · simp
  · simp
  · split
    · exact haccept _ _ _ _ (by simp)
    · simp
    · simp

theorem State.roles_afterTune (s : State) (i : Fin 19) : rolesOf (s.afterTune i).registry = rolesOf s.registry := by
  have hsilence : ∀ k, rolesOf (s.recheckSilence k).registry = rolesOf s.registry := fun k => by
    refine foldl_keeps (fun u : State => rolesOf u.registry) _ (fun u e => ?_) _ s
    split
    · next hover => exact State.roles_goSilent (Bool.and_eq_true _ _ ▸ hover).1
    · rfl
  have hsame : ∀ {β : Type} (f : State → β → State) (bs : List β), (∀ u b, (f u b).registry = u.registry) →
      rolesOf (bs.foldl f s).registry = rolesOf s.registry := fun f bs hf => by rw [foldl_keeps State.registry f hf]
  unfold State.afterTune
  split
  · exact hsame _ _ fun u i => by split <;> simp
  · exact hsame _ _ fun u i => by split <;> simp
  · exact hsame _ _ fun u i => by (repeat' split) <;> simp
  · exact hsame _ _ fun u w => by simp
  · exact hsame _ _ fun u b => by split <;> simp
  · exact hsilence .crane
  · exact hsame _ _ fun u c => by split <;> simp
  · exact hsilence .rack
  · rfl

theorem State.roles_tunePair (s : State) (i : Fin 19) (v : Nat) : rolesOf (s.tunePair i v).registry = rolesOf s.registry := by
  rw [State.tunePair_eq]
  split <;> simp [State.roles_afterTune]

theorem State.roles_restartUnits (s : State) (p : ReqRef) : rolesOf (s.restartUnits p).registry = rolesOf s.registry := by
  have hregistry : ∀ u : State, rolesOf u.restartRegistry.registry = rolesOf u.registry := by
    intro u
    simp [rolesOf, State.restartRegistry, look, Entry.role, Entry.standing, Entry.hasQueues, Entry.restarted]
  have hlinks : (s.restartLinks p).registry = s.registry := s.restartLinks_keepsAllBut p .registry (by simp)
  have hbeams : ∀ u : State, u.restartBeams.registry = u.registry := fun u => u.restartBeams_keepsAllBut .registry (by simp)
  have hdown : ∀ u : State, u.restartDownlink.restartPool.restartCranes.registry = u.registry := fun _ => rfl
  unfold State.restartUnits
  dsimp only
  simp only [State.judge_frame, State.restartReefer_frame]
  rw [hdown, hbeams, hregistry, hlinks]

end

end Sys2Proof.Machine
end

section
/-! PROOFS. Every step keeps the registry's map, counts and numbers in agreement with its entries, and frames for terminals
that have
queues (R17 to R22, R29). -/

namespace Sys2Proof.Machine

/-! ### How many entries hold a kind -/

/-- One entry changes: the entries for which a test holds change by that one. -/
theorem length_filter_change (f g : EntryNo → Bool) (e : EntryNo) (h : ∀ i, i ≠ e → g i = f i) :
    (allEntries.filter g).length + (f e).toNat = (allEntries.filter f).length + (g e).toNat := by
  have hlength : ∀ p : EntryNo → Bool, (allEntries.filter p).length = (allEntries.map (fun i => (p i).toNat)).sum := by
    intro p
    generalize allEntries = l
    induction l with
    | nil => rfl
    | cons i l ih =>
      cases hp : p i
      · simp [hp, ih]
      · simp [hp, ih]
        omega
  rw [hlength, hlength]
  exact sum_map_change allEntries (List.nodup_finRange 256) (fun i => (f i).toNat) (fun i => (g i).toNat) e
    (List.mem_finRange e) fun i hi => by rw [h i hi]

/-! ### An entry that is written -/

theorem State.entry_setEntries (s : State) (e i : EntryNo) (x : Entry) (g : Registry) (hg : g.entries =
    put s.registry.entries e x) :
    look g.entries i = if i = e then x else s.entry i := by rw [hg, look_put]; rfl

section
variable {s : State}

theorem Registry.lookup_eq_none {g : Registry} {w : Word} (h : (g.lookup w).isSome = false) : ∀ p ∈ g.addrMap, p.1 ≠ w := by
  intro p hp hpw
  have hfind : (g.addrMap.find? (fun p => p.1 == w)).isSome = true := List.find?_isSome.mpr ⟨p, hp, by simp [hpw]⟩
  rw [Registry.lookup, Option.isSome_map, hfind] at h
  cases h

theorem Registry.mem_of_lookup {g : Registry} {w : Word} {e : EntryNo} (h : g.lookup w = some e) : (w, e) ∈ g.addrMap := by
  obtain ⟨p, hp, rfl⟩ := Option.map_eq_some_iff.mp h
  have hkey : p.1 = w := by simpa using List.find?_some hp
  rw [← hkey]
  exact List.mem_of_find?_eq_some hp

/-- The address that leads to an entry is that of an enrolled terminal (R18). -/
theorem State.registryAgrees.enrolled_of_lookup (h : s.registryAgrees) {w : Word} {e : EntryNo} (he : s.registry.lookup w =
    some e) :
    (s.entry e).state ≠ .free := by
  obtain ⟨hsound, -, hmap, -⟩ := h
  have haddr := (hmap w e).mp (Registry.mem_of_lookup he)
  exact (hsound e).1.mp (by rw [haddr]; rfl)

/-! ### WITHDRAW and the end of a withdrawal -/

/-- A field that the change of one entry leaves as it was is every entry's as it was. -/
theorem field_of_written {β : Type} {x : Entry} {e : EntryNo} {new old : EntryNo → Entry} (hnew : ∀ i, new i = if i =
    e then x else old i)
    (f : Entry → β) (hf : f x = f (old e)) (i : EntryNo) : f (new i) = f (old i) := by
  rw [hnew]
  split
  · next hi => rw [hi, hf]
  · rfl

theorem State.withdrawEntry_agrees {e : EntryNo} (h : s.registryAgrees) (he : (s.entry e).state ≠ .free) :
    (s.withdrawEntry e).registryAgrees := by
  have hentry : ∀ i, (s.withdrawEntry e).entry i = if i = e then (s.entry e).withdrawn else s.entry i := fun i =>
    s.entry_setEntries e i _ _ rfl
  have hkind := field_of_written hentry Entry.kind rfl
  have hcrane := field_of_written hentry Entry.crane rfl
  have hrack := field_of_written hentry Entry.rack rfl
  have hholding : ∀ k, (s.withdrawEntry e).holding k = s.holding k := fun k => by simp only [State.holding, hkind]
  obtain ⟨hsound, hnodup, hmap, hcranes, hracks, hrest⟩ := h
  refine ⟨fun i => ?_, hnodup.sublist (List.filter_sublist.map _), fun w i => ?_, ?_, ?_, ?_⟩
  · rw [hentry]
    split
    · obtain ⟨-, -, hnone, hc, hr⟩ := hsound e
      have hsome : (s.entry e).kind ≠ none := fun hno => he (hnone.mp hno).1
      exact ⟨by simp [Entry.withdrawn], by simp [Entry.withdrawn], by simp [Entry.withdrawn, hsome], hc, hr⟩
    · exact hsound i
  · have hmem : (w, i) ∈ (s.withdrawEntry e).registry.addrMap ↔ (w, i) ∈ s.registry.addrMap ∧ i ≠ e := by
      simp [State.withdrawEntry]
    rw [hmem, hmap, hentry]
    split
    · next hi => simp [hi, Entry.withdrawn]
    · next hi => simp [hi]
  · simpa only [hcrane] using hcranes
  · simpa only [hrack] using hracks
  · rw [hholding, hholding]
    exact hrest

/-- The entry once what a withdrawal kept is released (R22). -/
def Entry.released (x : Entry) : Entry := { x with kind := none, crane := none, rack := none, yard := none, withdrawal := none }

theorem State.entry_releaseEntry (s : State) (e i : EntryNo) :
    (s.releaseEntry e).entry i = if i = e then (s.entry e).released else s.entry i := s.entry_setEntries e i _ _ rfl

theorem State.holding_releaseEntry (s : State) (e : EntryNo) (k : Kind) :
    (s.releaseEntry e).holding k = if (s.entry e).kind = some k then s.holding k - 1 else s.holding k := by
  have hchange :=
    length_filter_change (fun i => (s.entry i).kind == some k) (fun i => ((s.releaseEntry e).entry i).kind == some k) e
    fun i hi => by rw [State.entry_releaseEntry, if_neg hi]
  have hself : (((s.releaseEntry e).entry e).kind == some k) = false := by rw [State.entry_releaseEntry, if_pos rfl]; rfl
  rw [hself] at hchange
  unfold State.holding
  split
  · next hk =>
    simp [hk] at hchange
    omega
  · next hk => simpa [beq_eq_false_iff_ne.mpr hk] using hchange

theorem State.releaseEntry_agrees {e : EntryNo} (h : s.registryAgrees) (he : (s.entry e).withdrawal.isSome = true) :
    (s.releaseEntry e).registryAgrees := by
  have hentry := s.entry_releaseEntry e
  obtain ⟨hsound, hnodup, hmap, hcranes, hracks, hcc, hrc, hcl, hrl, hunknowns⟩ := h
  obtain ⟨haddr, hwith, -⟩ := hsound e
  have hfree := hwith he
  have hnumber : ∀ {α : Type} (f : Entry → Option α) (v : α) (i : EntryNo), f (s.entry e).released = none →
      f ((s.releaseEntry e).entry i) = some v → f (s.entry i) = some v := by
    intro α f v i hnone hv
    rw [hentry] at hv
    split at hv
    · rw [hnone] at hv
      cases hv
    · exact hv
  have hcc' : (s.releaseEntry e).registry.craneCount = (s.releaseEntry e).holding .crane := by
    rw [State.holding_releaseEntry, ← hcc]
    rfl
  have hrc' : (s.releaseEntry e).registry.rackCount = (s.releaseEntry e).holding .rack := by
    rw [State.holding_releaseEntry, ← hrc]
    rfl
  refine ⟨fun i => ?_, hnodup, fun w i => ?_, ?_, ?_, hcc', hrc', ?_, ?_, hunknowns⟩
  · rw [hentry]
    split
    · exact ⟨haddr, by simp [Entry.released], by simp [Entry.released, hfree], by simp [Entry.released], by simp [Entry.released]⟩
    · exact hsound i
  · rw [field_of_written hentry Entry.addr rfl]
    exact hmap w i
  · exact fun i j c hi hj => hcranes i j c (hnumber Entry.crane c i rfl hi) (hnumber Entry.crane c j rfl hj)
  · exact fun i j c hi hj => hracks i j c (hnumber Entry.rack c i rfl hi) (hnumber Entry.rack c j rfl hj)
  · rw [hcc', State.holding_releaseEntry]
    split <;> omega
  · rw [hrc', State.holding_releaseEntry]
    split <;> omega

theorem State.partDone_agrees (h : s.registryAgrees) (e : EntryNo) (f : Withdrawal → Withdrawal) :
    (s.partDone e f).registryAgrees := by
  unfold State.partDone
  split
  · exact h
  · next w hw =>
    split
    · exact State.releaseEntry_agrees h (by rw [hw]; rfl)
    · have hentry : ∀ i, (s.setEntry e { s.entry e with withdrawal := some (f w) }).entry i =
          if i = e then { s.entry e with withdrawal := some (f w) } else s.entry i := fun i => s.entry_setEntries e i _ _ rfl
      refine State.registryAgrees_of_standing (s := s) (fun i => ?_) rfl rfl rfl rfl h
      exact field_of_written hentry Entry.standing (by simp [Entry.standing, hw]) i

/-! ### ENROLL -/

/-- An ENROLL body that can be read gives a crane number exactly for a crane (R19). -/
theorem readEnroll_crane {body : List Byte} {q : EnrollReq} (h : readEnroll body = some q) :
    q.kind = .crane ↔ q.crane.isSome = true := by
  have hrun := Reader.whole_eq_some_iff.mp h
  simp only [Reader.run_bind, Option.bind_eq_some_iff, Prod.exists] at hrun
  obtain ⟨k, _, _, w, _, _, a, _, _, g, _, _, c, _, _, y, _, _, _, _, _, _, _, hcheck, hreturn⟩ := hrun
  obtain ⟨hform, rfl⟩ := Reader.require_eq_some_iff.mp hcheck
  cases hreturn
  cases k <;> cases c <;> simp_all

/-- What an ENROLL that passes finds (R18 to R20). -/
structure State.EnrollPasses (s : State) (q : EnrollReq) (e : EntryNo) (rack : Option RackNo) : Prop where
  free : (s.entry e).state = .free
  quiet : (s.entry e).withdrawal = none
  address : ∀ p ∈ s.registry.addrMap, p.1 ≠ q.addr
  room : s.registry.count q.kind < kindLimit q.kind
  crane : ∀ c i, q.crane = some c → (s.entry i).crane ≠ some c
  kind : q.kind = .crane ↔ q.crane.isSome = true
  racked : q.kind = .rack ↔ rack.isSome = true
  rack : ∀ n i, rack = some n → (s.entry i).rack ≠ some n

theorem State.enrollEntry_agrees {q : EnrollReq} {e : EntryNo} {rack : Option RackNo} (h : s.registryAgrees)
    (hq : s.EnrollPasses q e rack) : (s.enrollEntry e q rack).registryAgrees := by
  have hentry : ∀ i, (s.enrollEntry e q rack).entry i = if i = e then (s.entry e).enrolled q rack else s.entry i := fun i =>
    s.entry_setEntries e i _ _ rfl
  obtain ⟨hsound, hnodup, hmap, hcranes, hracks, hcc, hrc, hcl, hrl, hlength, hunknowns⟩ := h
  obtain ⟨haddr, -, hkind, hcrane, hrack⟩ := hsound e
  have hnoaddr : (s.entry e).addr = none := by
    rw [← Option.not_isSome_iff_eq_none, haddr]
    exact not_not.mpr hq.free
  have hnokind : (s.entry e).kind = none := hkind.mpr ⟨hq.free, hq.quiet⟩
  have hholding : ∀ k, (s.enrollEntry e q rack).holding k = if q.kind = k then s.holding k + 1 else s.holding k := by
    intro k
    have hchange := length_filter_change (fun i => (s.entry i).kind == some k)
      (fun i => ((s.enrollEntry e q rack).entry i).kind == some k) e fun i hi => by rw [hentry, if_neg hi]
    have hself : (((s.enrollEntry e q rack).entry e).kind == some k) = (q.kind == k) := by
      rw [hentry, if_pos rfl]
      rfl
    rw [hself, hnokind] at hchange
    unfold State.holding
    split
    · next hk => simpa [hk] using hchange
    · next hk => simpa [beq_eq_false_iff_ne.mpr hk] using hchange
  have hcc' : (s.enrollEntry e q rack).registry.craneCount = (s.enrollEntry e q rack).holding .crane := by
    rw [hholding, ← hcc]
    rfl
  have hrc' : (s.enrollEntry e q rack).registry.rackCount = (s.enrollEntry e q rack).holding .rack := by
    rw [hholding, ← hrc]
    rfl
  have hroom := hq.room
  refine ⟨fun i => ?_, ?_, fun w i => ?_, fun i j c => ?_, fun i j n => ?_, hcc', hrc', ?_, ?_, ?_, ?_⟩
  · rw [hentry]
    split
    · exact ⟨by simp [Entry.enrolled], by simp [Entry.enrolled], by simp [Entry.enrolled],
      by simpa [Entry.enrolled] using hq.kind,
        by simpa [Entry.enrolled] using hq.racked⟩
    · exact hsound i
  · have hnew : q.addr ∉ s.registry.addrMap.map Prod.fst := by
      intro hmem
      obtain ⟨p, hp, hpw⟩ := List.mem_map.mp hmem
      exact hq.address p hp hpw
    simp only [State.enrollEntry, List.map_append, List.map_singleton]
    rw [List.nodup_append_comm]
    exact List.nodup_cons.mpr ⟨hnew, hnodup⟩
  · have hmem : (w, i) ∈ (s.enrollEntry e q rack).registry.addrMap ↔ (w, i) ∈ s.registry.addrMap ∨ w = q.addr ∧ i = e := by
      simp [State.enrollEntry]
    rw [hmem, hmap, hentry]
    split
    · next hi => simp [hi, hnoaddr, Entry.enrolled, eq_comm]
    · next hi => simp [hi]
  · rw [hentry, hentry]
    split
    · next hi =>
      split
      · next hj => exact fun _ _ => hi.trans hj.symm
      · exact fun hc hc' => absurd hc' (hq.crane c j hc)
    · split
      · exact fun hc hc' => absurd hc (hq.crane c i hc')
      · exact hcranes i j c
  · rw [hentry, hentry]
    split
    · next hi =>
      split
      · next hj => exact fun _ _ => hi.trans hj.symm
      · exact fun hn hn' => absurd hn' (hq.rack n j hn)
    · split
      · exact fun hn hn' => absurd hn (hq.rack n i hn')
      · exact hracks i j n
  · rw [hcc', hholding, ← hcc]
    split
    · next hk =>
      rw [hk] at hroom
      exact hroom
    · exact hcl
  · rw [hrc', hholding, ← hrc]
    split
    · next hk =>
      rw [hk] at hroom
      exact hroom
    · exact hrl
  · exact (List.length_filter_le _ _).trans hlength
  · exact hunknowns.sublist (List.filter_sublist.map _)

theorem State.enrollPasses {q : EnrollReq} {e : EntryNo} {rack : Option RackNo} (hpass : s.enrollRefusal q = none)
    (hfree : s.freeEntry = some e) (hkind : q.kind = .crane ↔ q.crane.isSome = true)
    (hracked : q.kind = .rack ↔ rack.isSome = true) (hrack : ∀ n, rack = some n → s.freeRack =
      some n) : s.EnrollPasses q e rack := by
  unfold State.enrollRefusal at hpass
  split_ifs at hpass with haddr hroom hcrane
  have hentry := List.find?_some (p := fun e => (s.entry e).state == .free && (s.entry e).withdrawal.isNone) hfree
  rw [Bool.and_eq_true, beq_iff_eq, Option.isNone_iff_eq_none] at hentry
  refine ⟨hentry.1, hentry.2, Registry.lookup_eq_none (by simpa using haddr), by omega, fun c i hc hi => ?_, hkind, hracked,
    fun n i hn hi => ?_⟩
  · refine hcrane ⟨hkind.mpr (by rw [hc]; rfl), ?_⟩
    rw [hc]
    simp only [Option.any_some, State.craneHeld, List.any_eq_true]
    exact ⟨i, List.mem_finRange i, by simp [hi]⟩
  · have hno := List.find?_some (hrack n hn)
    simp only [Bool.not_eq_true', List.any_eq_false] at hno
    exact hno i (List.mem_finRange i) (by simp [hi])

/-! ### DELIVER -/

/-- The unknown-source list stays within 8 records, one an address (R29). -/
theorem noteUnknown_fits {us : List UnknownRec} (hlength : us.length ≤ 8) (hnodup : (us.map UnknownRec.addr).Nodup) (w : Word)
    (now : Time) :
    (noteUnknown us w now).1.length ≤ 8 ∧ ((noteUnknown us w now).1.map UnknownRec.addr).Nodup := by
  have hjoin : ∀ (vs : List UnknownRec) (x : UnknownRec), x.addr = w → (vs.map UnknownRec.addr).Nodup → (∀ u ∈ vs, u.addr ≠ w) →
      ((vs ++ [x]).map UnknownRec.addr).Nodup := by
    intro vs x hx hvs hnone
    rw [List.map_append, List.map_singleton, List.nodup_append_comm]
    refine List.nodup_cons.mpr ⟨fun hmem => ?_, hvs⟩
    obtain ⟨u, hu, hux⟩ := List.mem_map.mp hmem
    exact hnone u hu (hux.trans hx)
  unfold noteUnknown
  split
  · next u hu =>
    have haddr : u.addr = w := by simpa using List.find?_some hu
    have hmem := List.mem_of_find?_eq_some hu
    refine ⟨?_, hjoin _ _ haddr (hnodup.sublist (List.filter_sublist.map _)) fun v hv => ?_⟩
    · have hshorter : (us.filter (fun v => v.addr != w)).length < us.length := by
        refine List.length_filter_lt_length_iff_exists.mpr ⟨u, hmem, ?_⟩
        simp [haddr]
      rw [List.length_append, List.length_singleton]
      omega
    · simpa using (List.mem_filter.mp hv).2
  · next hnone =>
    have hfresh : ∀ u ∈ us, u.addr ≠ w := fun u hu => by simpa using List.find?_eq_none.mp hnone u hu
    dsimp only
    split
    · next hfull =>
      refine ⟨?_, hjoin _ _ rfl (hnodup.sublist ((List.tail_sublist us).map _)) fun u hu => hfresh u (List.mem_of_mem_tail hu)⟩
      simp only [List.length_append, List.length_tail, List.length_singleton]
      omega
    · next hfull =>
      refine ⟨?_, hjoin _ _ rfl hnodup hfresh⟩
      simp only [List.length_append, List.length_singleton]
      simp only [decide_eq_true_eq] at hfull
      omega

/-- A frame from an address that is not in the map changes the unknown-source list, and nothing else that entries agree with. -/
theorem State.registry_takeUnknown (s : State) (l : LinkNo) (w : Word) :
    (s.takeUnknown l w).registry.entries = s.registry.entries ∧ (s.takeUnknown l w).registry.addrMap = s.registry.addrMap ∧
    (s.takeUnknown l w).registry.craneCount = s.registry.craneCount ∧ (s.takeUnknown l w).registry.rackCount =
      s.registry.rackCount ∧
    (s.takeUnknown l w).registry.unknowns = (noteUnknown s.registry.unknowns w s.now).1 := by
  unfold State.takeUnknown
  dsimp only
  (repeat' split) <;> simp [State.bumpReg]

theorem State.takeUnknown_agrees (h : s.registryAgrees) (l : LinkNo) (w : Word) : (s.takeUnknown l w).registryAgrees := by
  obtain ⟨hentries, hmap, hcranes, hracks, hunknowns⟩ := s.registry_takeUnknown l w
  have hentry : ∀ e, (s.takeUnknown l w).entry e = s.entry e := fun e => by rw [State.entry, hentries, State.entry]
  have hholding : ∀ k, (s.takeUnknown l w).holding k = s.holding k := fun k => by simp only [State.holding, hentry]
  obtain ⟨h1, h2, h3, h4, h5, h6, h7, h8, h9, hlength, hnodup⟩ := h
  unfold State.registryAgrees
  simp only [hentry, hmap, hcranes, hracks, hunknowns, hholding]
  exact ⟨h1, h2, h3, h4, h5, h6, h7, h8, h9, noteUnknown_fits hlength hnodup w s.now⟩

theorem State.takeUplink_agrees (h : s.registryAgrees) (l : LinkNo) (f : Word × List Byte) :
    (s.takeUplink l f).1.registryAgrees := by
  unfold State.takeUplink
  split
  · exact State.takeUnknown_agrees h l _
  · next e he =>
    have hfree := h.enrolled_of_lookup he
    dsimp only
    split
    · refine State.registryAgrees_of_roles (s := s) ?_ h
      simp only [State.judge_frame, State.roles_takeTelemetry]
      rw [State.roles_setEntry]
      · rfl
      · exact Entry.role_hear (x := s.entry e) hfree _
    · refine State.registryAgrees_of_roles (s := s) ?_ h
      simp only [State.judge_frame]
      rw [State.roles_takeReport (s := s.bumpReg 1) hfree]
      rfl
    · exact State.takeUnknown_agrees h l _

theorem State.takeUplinks_agrees (l : LinkNo) (fs : List (Word × List Byte)) (s : State) (h : s.registryAgrees) :
    (s.takeUplinks l fs).1.registryAgrees := by
  induction fs generalizing s with
  | nil => exact h
  | cons f fs ih => exact ih _ (State.takeUplink_agrees h l f)

end

end Sys2Proof.Machine
end

section
/-! PROOFS. Every step keeps the registry in agreement, and frames for terminals that have queues: the commands (R17 to R22,
R29). -/

namespace Sys2Proof.Machine

/-! ### Commands that leave the roles as they were -/

/-- The commands that enrol, withdraw or hear a terminal, or release what a withdrawal kept. -/
def writesRoles : Instr → Bool
  | .pinReset | .enroll _ | .withdraw _ | .downlinkWithdrawal _ | .craneWithdrawal _ | .reeferWithdrawal _ | .deliver _ => true
  | _ => false

section
variable {s t : State}

theorem State.roles_reading {α : Type} {r : Request} {o : Option α} {f : α → State} (hf : ∀ q, rolesOf (f q).registry =
    rolesOf s.registry) :
    rolesOf (s.reading r o f).registry = rolesOf s.registry :=
  State.reading_keeps (P := fun u => rolesOf u.registry = rolesOf s.registry) (by simp) fun q _ => hf q

theorem roles_serveReadCounters (s : State) (r : Request) : rolesOf (serveReadCounters s r).registry = rolesOf s.registry := by
  refine State.roles_reading fun q => ?_
  split
  · simp
  · simp only [State.reply_frame]
    split
    · exact s.roles_clearGroup _
    · rfl

theorem roles_serveMove (s : State) (r : Request) : rolesOf (serveMove s r).registry = rolesOf s.registry := by
  refine State.roles_reading fun q => ?_
  dsimp only
  split
  · simp
  · simp only [State.reply_frame]
    split <;> simp

theorem roles_serveTune (s : State) (r : Request) : rolesOf (serveTune s r).registry = rolesOf s.registry := by
  refine State.roles_reading fun ps => ?_
  simp only [State.reply_frame, State.bumpSet_frame]
  exact foldl_keeps (fun u : State => rolesOf u.registry) _ (fun u p => u.roles_tunePair _ _) _ s

theorem roles_serveRestart (s : State) (r : Request) : rolesOf (serveRestart s r).registry = rolesOf s.registry := by
  refine State.roles_reading fun _ => ?_
  split
  · simp
  · rw [State.roles_restartUnits]
    simp

theorem roles_of_serve {code : ReqCode} {l : LinkNo} (hserve : ∀ (u : State) (r : Request),
    rolesOf (serveOf code u r).registry = rolesOf u.registry)
    (h : exec (code.command l) s = .next t) : rolesOf t.registry = rolesOf s.registry := by
  obtain rfl : s.taking code l (serveOf code) = t := by simpa [exec_command] using h
  exact State.taking_view (v := fun u => rolesOf u.registry) (fun _ _ => rfl) hserve

theorem exec_roles {c : Instr} (hc : writesRoles c = false) (h : exec c s = .next t) :
    rolesOf t.registry = rolesOf s.registry := by
  by_cases hreg : Part.registry ∈ writesOf c
  case neg => rw [exec_next_keeps h .registry hreg]
  cases c with
  | readCounters l => exact roles_of_serve (code := .readCounters) roles_serveReadCounters h
  | move l => exact roles_of_serve (code := .move) roles_serveMove h
  | tune l => exact roles_of_serve (code := .tune) roles_serveTune h
  | restart l => exact roles_of_serve (code := .restart) roles_serveRestart h
  | silenceExpiry e =>
    cases h
    split
    · next hover => simpa using State.roles_goSilent hover
    · rfl
  | _ => first | cases hc; done | exact absurd hreg (by simp [writesOf])

/-! ### Commands that write roles -/

theorem registryAgrees_of_serve {code : ReqCode} {l : LinkNo}
    (hserve : ∀ (u : State) (r : Request), u.registryAgrees → (serveOf code u r).registryAgrees)
    (h : exec (code.command l) s = .next t) (hs : s.registryAgrees) : t.registryAgrees := by
  obtain rfl : s.taking code l (serveOf code) = t := by simpa [exec_command] using h
  exact State.taking_keeps (P := State.registryAgrees) hs (fun _ => hs) hserve

theorem State.registryAgrees.same (hs : s.registryAgrees) (h : t.registry = s.registry) : t.registryAgrees :=
  State.registryAgrees_of_roles (by rw [h]) hs

theorem serveEnroll_agrees (s : State) (r : Request) (h : s.registryAgrees) : (serveEnroll s r).registryAgrees := by
  have henrolled : ∀ (e : EntryNo) (q : EnrollReq) (rack : Option RackNo) (u : State), s.EnrollPasses q e rack →
      rolesOf u.registry = rolesOf (s.enrollEntry e q rack).registry → u.registryAgrees := fun e q rack u hpass hu =>
    State.registryAgrees_of_roles hu (State.enrollEntry_agrees h hpass)
  have hrefused : ∀ (k : Fin 12) (st : Status), ((s.bumpReg k).answer r.ref st).registryAgrees := fun k st =>
    State.registryAgrees_of_roles (by simp) h
  refine State.reading_keeps (h.same (by simp)) fun q hq => ?_
  have hcrane := readEnroll_crane hq
  split
  · exact hrefused _ _
  · next hpass =>
    split
    · next e n hfree hrack =>
      refine henrolled e q (if q.kind = .rack then some n else none) _ (State.enrollPasses hpass hfree hcrane ?_ ?_) ?_
      · split <;> simp [*]
      · intro m hm
        split at hm
        · cases hm
          exact hrack
        · cases hm
      · simp
    · next e hfree hnone =>
      split
      · exact hrefused _ _
      · next hkind =>
        refine henrolled e q none _ (State.enrollPasses hpass hfree hcrane (by simp [hkind]) fun m hm => ?_) ?_
        · cases hm
        · simp
    · exact hrefused _ _

theorem serveWithdraw_agrees (s : State) (r : Request) (h : s.registryAgrees) : (serveWithdraw s r).registryAgrees := by
  refine State.reading_keeps (h.same (by simp)) fun q _ => ?_
  dsimp only
  split
  · exact h.same (by simp)
  · next hfree =>
    refine State.registryAgrees_of_roles (s := s.withdrawEntry q.1) (by simp) (State.withdrawEntry_agrees h fun he => hfree
      (.inl he))

theorem serveDeliver_agrees (s : State) (r : Request) (h : s.registryAgrees) : (serveDeliver s r).registryAgrees :=
  State.reading_keeps (h.same (by simp)) fun fs _ =>
    State.registryAgrees.same (State.takeUplinks_agrees r.ref.link fs s h) (by simp)

theorem State.reset_registryAgrees : State.reset.registryAgrees := by
  have hentry : ∀ e, State.reset.entry e = Entry.reset := by
    intro e
    simp [State.entry, State.reset, Registry.reset, look]
  have hholding : ∀ k, State.reset.holding k = 0 := by
    intro k
    simp [State.holding, hentry, Entry.reset]
  have hregistry : State.reset.registry = Registry.reset := rfl
  refine ⟨fun e => ?_, ?_, fun w e => ?_, fun e f c hc => ?_, fun e f r hr => ?_, ?_, ?_, ?_, ?_, ?_, ?_⟩
  · rw [hentry]
    simp [Entry.sound, Entry.reset]
  · exact List.nodup_nil
  · rw [hentry, hregistry]
    simp [Registry.reset, Entry.reset]
  · rw [hentry] at hc
    cases hc
  · rw [hentry] at hr
    cases hr
  · rw [hholding]
    rfl
  · rw [hholding]
    rfl
  · exact Nat.zero_le _
  · exact Nat.zero_le _
  · exact Nat.zero_le _
  · exact List.nodup_nil

theorem exec_keeps_registryAgrees {c : Instr} (h : exec c s = .next t) (hs : s.registryAgrees) : t.registryAgrees := by
  cases hc : writesRoles c with
  | false => exact State.registryAgrees_of_roles (exec_roles hc h) hs
  | true =>
    have hpart : ∀ (u : State) (e : EntryNo) (f : Withdrawal → Withdrawal), u.registry =
      s.registry → (u.partDone e f).registryAgrees :=
      fun u e f hu => State.partDone_agrees (hs.same hu) e f
    cases c with
    | pinReset =>
      cases h
      exact State.reset_registryAgrees
    | enroll l => exact registryAgrees_of_serve (code := .enroll) serveEnroll_agrees h hs
    | withdraw l => exact registryAgrees_of_serve (code := .withdraw) serveWithdraw_agrees h hs
    | deliver l => exact registryAgrees_of_serve (code := .deliver) serveDeliver_agrees h hs
    | downlinkWithdrawal e =>
      cases h
      split
      · exact (hpart (s.discardTerminal e) e (fun w => { w with downlinkDone := true }) (by simp)).same (by simp)
      · exact hs
    | craneWithdrawal e =>
      cases h
      (repeat' split)
      · exact hpart _ e _ (by simp)
      · exact hs
      · exact hs
    | reeferWithdrawal e =>
      cases h
      (repeat' split)
      · exact hpart _ e _ (by simp)
      · exact hs
      · exact hs
    | _ => cases hc

/-! ### Terminals that have queues -/

/-- No terminal has lost its queues. -/
def State.KeepsQueues (s t : State) : Prop := Allows (queuesIn t.registry) s.registry

theorem State.KeepsQueues.of_roles (h : rolesOf t.registry = rolesOf s.registry) : s.KeepsQueues t := by
  unfold State.KeepsQueues
  rw [State.queues_of_roles h]
  exact fun _ he => he

theorem State.KeepsQueues.trans {u : State} (h : s.KeepsQueues t) (g : t.KeepsQueues u) : s.KeepsQueues u :=
    fun e he => g e (h e he)

theorem State.KeepsQueues.of_written {e : EntryNo} {x : Entry}
    (ht : t.registry.entries = put s.registry.entries e x) (hx : (s.entry e).hasQueues = true → x.hasQueues =
      true) : s.KeepsQueues t := by
  intro i hi
  unfold queuesIn at hi ⊢
  rw [s.entry_setEntries e i x t.registry ht]
  split
  · next hie => exact hx (hie ▸ hi)
  · exact hi

theorem State.keepsQueues_partDone (s : State) (e : EntryNo) {f : Withdrawal → Withdrawal} (hf : ∀ w, (f w).downlinkDone =
    w.downlinkDone) :
    s.KeepsQueues (s.partDone e f) := by
  unfold State.partDone
  split
  · exact .of_roles rfl
  · next w hw =>
    split
    · next hdone =>
      refine .of_written (e := e) rfl fun h => ?_
      simp only [Bool.and_eq_true, hf] at hdone
      simpa [Entry.hasQueues, hw, hdone.1] using h
    · exact .of_written (e := e) rfl fun h => by simpa [Entry.hasQueues, hw, hf] using h

theorem State.keepsQueues_of_heard {e : EntryNo} {x : Entry} (hx : x.state = .heard) (ht : t.registry =
    (s.setEntry e x).registry) :
    s.KeepsQueues t :=
  .of_written (e := e) (by rw [ht]; rfl) fun _ => Entry.hasQueues_of_enrolled (by simp [hx])

theorem State.keepsQueues_takeReport (s : State) (e : EntryNo) (r : RackNo) (bs : List Byte) :
    s.KeepsQueues (s.takeReport e r bs) := by
  have haccept : ∀ (u : State) (k : RackRec) (c : Byte) (qs : List Reading), u.KeepsQueues (u.acceptReport e r k c qs) := by
    intro u k c qs
    refine State.keepsQueues_of_heard (e := e) (x := { (u.entry e).hear u.nowSec with lastReport := some c }) rfl ?_
    rw [State.acceptReport_eq]
    simp only [State.offerDigests_frame, State.registry_reportApplied]
  unfold State.takeReport
  dsimp only
  split
  · exact .of_roles (by simp)
  · exact .of_roles (by simp)
  · split
    · exact State.KeepsQueues.trans (t := s.bumpReef 0) (.of_roles (by simp)) (haccept _ _ _ _)
    · exact .of_roles (by simp)
    · exact .of_roles (by simp)

theorem State.keepsQueues_takeUplink (s : State) (l : LinkNo) (f : Word × List Byte) : s.KeepsQueues (s.takeUplink l f).1 := by
  have hunknown : ∀ (u : State) (w : Word), u.KeepsQueues (u.takeUnknown l w) := by
    intro u w e he
    obtain ⟨hentries, -⟩ := u.registry_takeUnknown l w
    unfold queuesIn at he ⊢
    rwa [hentries]
  have hjudged : ∀ u : State, s.KeepsQueues u → s.KeepsQueues u.judge := fun u hu => hu.trans (.of_roles (by simp))
  unfold State.takeUplink
  split
  · exact hunknown s _
  · next e _ =>
    dsimp only
    split
    · refine hjudged _ (State.KeepsQueues.trans (t := (s.bumpReg 0).setEntry e ((s.entry e).hear s.now)) ?_ (.of_roles (by simp)))
      exact State.keepsQueues_of_heard (s := s.bumpReg 0) (e := e) (x := (s.entry e).hear s.now) rfl rfl
    · exact hjudged _ (State.KeepsQueues.trans (t := s.bumpReg 1) (.of_roles (by simp)) (State.keepsQueues_takeReport _ _ _ _))
    · exact hunknown s _

theorem State.keepsQueues_takeUplinks (l : LinkNo) (fs : List (Word × List Byte)) (s : State) :
    s.KeepsQueues (s.takeUplinks l fs).1 := by
  induction fs generalizing s with
  | nil => exact .of_roles rfl
  | cons f fs ih => exact (s.keepsQueues_takeUplink l f).trans (ih _)

theorem keepsQueues_of_serve {code : ReqCode} {l : LinkNo} (hserve : ∀ (u : State) (r : Request),
    u.KeepsQueues (serveOf code u r))
    (h : exec (code.command l) s = .next t) : s.KeepsQueues t := by
  obtain rfl : s.taking code l (serveOf code) = t := by simpa [exec_command] using h
  unfold State.taking
  split
  · exact .of_roles rfl
  · split
    · exact State.KeepsQueues.trans (t := s.taken _) (.of_roles rfl) (hserve _ _)
    · exact .of_roles rfl

theorem keepsQueues_serveEnroll (s : State) (r : Request) : s.KeepsQueues (serveEnroll s r) := by
  have henrolled : ∀ (e : EntryNo) (q : EnrollReq) (rack : Option RackNo) (u : State),
      rolesOf u.registry = rolesOf (s.enrollEntry e q rack).registry → s.KeepsQueues u := fun e q rack u hu =>
    State.KeepsQueues.trans (t := s.enrollEntry e q rack) (.of_written (e := e) rfl fun _ => rfl) (.of_roles hu)
  refine State.reading_keeps (.of_roles (by simp)) fun q _ => ?_
  split
  · exact .of_roles (by simp)
  · split
    · next e n _ _ => exact henrolled e q (if q.kind = .rack then some n else none) _ (by simp)
    · next e _ _ =>
      split
      · exact .of_roles (by simp)
      · exact henrolled e q none _ (by simp)
    · exact .of_roles (by simp)

theorem keepsQueues_serveWithdraw (s : State) (r : Request) : s.KeepsQueues (serveWithdraw s r) := by
  refine State.reading_keeps (.of_roles (by simp)) fun q _ => ?_
  dsimp only
  split
  · exact .of_roles (by simp)
  · exact State.KeepsQueues.trans (t := s.withdrawEntry q.1) (.of_written (e := q.1) rfl fun _ => rfl) (.of_roles (by simp))

theorem keepsQueues_serveDeliver (s : State) (r : Request) : s.KeepsQueues (serveDeliver s r) :=
  State.reading_keeps (.of_roles (by simp)) fun fs _ => (State.keepsQueues_takeUplinks r.ref.link fs s).trans (.of_roles
    (by simp))

theorem exec_keepsQueues {c : Instr} (hdiscard : ∀ e, c ≠ .downlinkWithdrawal e) (hreset : c ≠ .pinReset) (h : exec c s =
    .next t) :
    s.KeepsQueues t := by
  have hpart : ∀ (u : State) (e : EntryNo), u.registry = s.registry →
      s.KeepsQueues (u.partDone e (fun w => { w with kindDone := true })) := fun u e hu =>
    State.KeepsQueues.trans (t := u) (.of_roles (by rw [hu])) (u.keepsQueues_partDone e fun _ => rfl)
  cases hc : writesRoles c with
  | false => exact .of_roles (exec_roles hc h)
  | true =>
    cases c with
    | pinReset => exact absurd rfl hreset
    | downlinkWithdrawal e => exact absurd rfl (hdiscard e)
    | enroll l => exact keepsQueues_of_serve (code := .enroll) keepsQueues_serveEnroll h
    | withdraw l => exact keepsQueues_of_serve (code := .withdraw) keepsQueues_serveWithdraw h
    | deliver l => exact keepsQueues_of_serve (code := .deliver) keepsQueues_serveDeliver h
    | craneWithdrawal e =>
      cases h
      (repeat' split)
      · exact hpart _ e (by simp)
      · exact .of_roles rfl
      · exact .of_roles rfl
    | reeferWithdrawal e =>
      cases h
      (repeat' split)
      · exact hpart _ e (by simp)
      · exact .of_roles rfl
      · exact .of_roles rfl
    | _ => cases hc

/-! ### The downlink queue block's part of a withdrawal -/

/-- A terminal's frames are dropped where they wait and orphaned where they fly (R114). -/
theorem State.framesFor_discardTerminal {q q' : EntryNo → Bool} {e : EntryNo} (hq : ∀ i, i ≠ e → q i = true → q' i = true)
    (h : FramesFor q s.downlink s.burstAt) : FramesFor q' (s.discardTerminal e).downlink (s.discardTerminal e).burstAt := by
  refine ⟨fun x hx => ?_, fun b x hx horph => ?_⟩
  · have hwaiting : (s.discardTerminal e).downlink.waiting = s.downlink.waiting.filter (fun f => !(f.terminal == e)) :=
      State.waiting_dropFrames s _ _ _
    rw [hwaiting, List.mem_filter] at hx
    exact hq _ (by simpa using hx.2) (h.1 x hx.1)
  · rw [State.burstAt_discardTerminal] at hx
    have hmap : burstFrames ((s.burstAt b).map (fun u =>
        { u with frames := u.frames.map (fun f => if f.terminal = e then { f with orphaned := true } else f) })) =
        (burstFrames (s.burstAt b)).map (fun f => if f.terminal = e then { f with orphaned := true } else f) := by
      cases s.burstAt b <;> rfl
    rw [hmap] at hx
    obtain ⟨y, hy, rfl⟩ := List.mem_map.mp hx
    split at horph
    · cases horph
    · next hye =>
      rw [if_neg hye]
      exact hq _ hye (h.2 b y hy horph)

theorem State.queues_partDone_other (s : State) {e i : EntryNo} (f : Withdrawal → Withdrawal) (hi : i ≠ e)
    (h : queuesIn s.registry i = true) : queuesIn (s.partDone e f).registry i = true := by
  have hwritten : ∀ (g : Registry) (x : Entry), g.entries = put s.registry.entries e x → queuesIn g i = true := by
    intro g x hg
    rw [queuesIn, s.entry_setEntries e i x g hg, if_neg hi]
    exact h
  unfold State.partDone
  split
  · exact h
  · split
    · exact hwritten _ _ rfl
    · exact hwritten _ _ rfl

theorem exec_keeps_framesHaveTerminals {c : Instr} (h : exec c s = .next t) (hs : s.framesHaveTerminals) :
    t.framesHaveTerminals := by
  rw [State.framesHaveTerminals_iff] at hs ⊢
  by_cases hdiscard : ∃ e, c = .downlinkWithdrawal e
  · obtain ⟨e, rfl⟩ := hdiscard
    cases h
    split
    · have hother := State.framesFor_discardTerminal (e := e) (s := s)
        (q' := queuesIn ((s.discardTerminal e).partDone e (fun w => { w with downlinkDone := true })).registry)
        (fun i hi hq => State.queues_partDone_other _ _ hi (by simpa using hq)) hs
      have hbursts : ∀ u : State, (u.partDone e (fun w => { w with downlinkDone := true })).judge.burstAt = u.burstAt := fun u =>
        State.burstAt_of_beamCtl (by simp)
      rw [hbursts]
      simpa using hother
    · exact hs
  · have hdiscard' : ∀ e, c ≠ .downlinkWithdrawal e := fun e he => hdiscard ⟨e, he⟩
    by_cases hreset : c = .pinReset
    · subst hreset
      cases h
      refine ⟨fun x hx => ?_, fun b x hx => ?_⟩
      · cases hx
      · simp [State.burstAt, State.beam, State.reset, BeamCtl.reset, Beam.reset, burstFrames] at hx
    · have hkept : s.KeepsQueues t := exec_keepsQueues hdiscard' hreset h
      exact exec_framesFor hdiscard' h ⟨hkept, fun x hx => hkept _ (hs.1 x hx), fun b x hx ho => hkept _ (hs.2 b x hx ho)⟩

/-- Settles O56: the roles that entries play are written by the registry's own operations alone, each of which keeps map,
counts and
numbers in step; and a frame joins the queues of a terminal that has them. -/
theorem stepsKeepTheRegistryAgreeing : Obligations.StepsKeepTheRegistryAgreeing := by
  intro s t h
  exact ⟨fun hs => step_keeps (P := State.registryAgrees) (fun _ _ hu => hu) (fun _ _ _ => exec_keeps_registryAgrees) hs h,
    fun hs => step_keeps (P := State.framesHaveTerminals) (fun _ _ hu => hu) (fun _ _ _ => exec_keeps_framesHaveTerminals) hs h⟩

end

end Sys2Proof.Machine
end

section
/-! PROOFS. What a command is: the front of the queue, a request asked of its owner, or an event (R7, R179); and the reset state
that PIN_RESET leaves (R1). -/

namespace Sys2Proof.Machine

/-- A command that its owner is asked for does what the owner's row says. -/
theorem exec_asks {c : ReqCode} {s : State} {r : Request} (h : s.Asks c r) :
    exec (c.command r.ref.link) s = .next (serveOf c (s.taken r) r) := by
  rw [exec_command, State.taking_of_asks h]

theorem State.reading_malformed {α : Type} {s : State} {r : Request} {o : Option α} (h : o.isSome = false) (f : α → State) :
    s.reading r o f = s.answer r.ref .badRequest := by
  rw [Option.isSome_eq_false_iff, Option.isNone_iff_eq_none] at h
  rw [h, State.reading_none]

/-- Every owner reads the body of its request before anything else. -/
theorem serveOf_malformed {c : ReqCode} {r : Request} (h : c.bodyOk r.body = false) (s : State) :
    serveOf c s r = s.answer r.ref .badRequest := by
  cases c <;> exact State.reading_malformed h _

/-- Settles O1: the step takes the front command off the queue and runs it. -/
theorem stepRunsTheFrontCommand : Obligations.StepRunsTheFrontCommand := by
  intro c rest s
  rfl

/-- Settles O2: an empty queue leaves the state, an owner that is not asked takes nothing, and each body is read first. -/
theorem unaskedIdlesAndMalformedIsBadRequest : Obligations.UnaskedIdlesAndMalformedIsBadRequest := by
  refine ⟨fun s hs => ?_, fun c l s hnot => ?_, fun c r s hasks hbody => ?_⟩
  · rw [step, hs]
  · rw [exec_command, State.taking_of_not hnot]
  · rw [exec_asks hasks, serveOf_malformed hbody]

/-- Settles O4: PIN_RESET restores the reset state but for the memory, the marks of a write that was cut off and the queue of
commands; the rest are values of that constant. -/
theorem pinResetLeavesTheResetState : Obligations.PinResetLeavesTheResetState := by
  refine ⟨fun s => rfl, rfl, rfl, fun l => ?_, fun e => look_replicate _ _, rfl, rfl, rfl, rfl, fun l n i => ?_, fun g => ?_,
    fun h g => ?_, fun h => ?_, rfl, rfl, rfl, rfl, fun l => ?_, rfl, rfl, fun b => ?_, fun c => look_replicate _ _,
    fun r => look_replicate _ _, State.reset_slot, rfl, rfl, rfl, rfl⟩
  · simp [State.link, State.reset, Link.reset]
  · cases n <;> simp [State.accessList, State.reset, Access.reset]
  · simp [State.segRec, State.reset, Coverage.reset]
  · simp [State.cell, State.reset, Coverage.reset]
  · simp [State.head, State.reset, BeamCtl.reset, Head.reset]
  · simp [State.reset, Pool.reset, Reefer.reset]
  · simp [State.reset, Downlink.reset, State.beam, BeamCtl.reset, Beam.reset]

end Sys2Proof.Machine
end

section
/-! PROOFS. The links: coming UP over fill marks (R2), placing replies and notices (R7 to R9), and the message that leaves (R5,
R8). -/

namespace Sys2Proof.Machine

/-! ### One link's record -/

theorem State.onLink_congr {s : State} {l : LinkNo} {f g : Link → Link} (h : f (s.link l) = g (s.link l)) :
    s.onLink l f = s.onLink l g := by
  simp only [State.onLink, tweak]
  exact congrArg (fun k => { s with links := put s.links l k }) h

/-- A command that changes one link's record alone, told by what that record becomes. -/
theorem next_onLink {s : State} {l : LinkNo} {f : Link → Link} {k : Link} (h : f (s.link l) = k) :
    (.next (s.onLink l f) : Answered) = .next (s.onLink l (fun _ => k)) :=
  congrArg _ (State.onLink_congr h)

/-! ### Sending -/

theorem Link.beginSend_of_quiet {k : Link} (h : k.up = false ∨ k.sending = true ∨ k.outQ = []) : k.beginSend = k := by
  unfold Link.beginSend
  rcases h with h | h | h <;> simp [h]

theorem Link.beginSend_reply {k : Link} {p : Reply} {q : List Msg} (hup : k.up = true) (hidle : k.sending = false)
    (hq : k.outQ = .reply p :: q) : k.beginSend = { k with sending := true } := by
  simp [Link.beginSend, hup, hidle, hq]

theorem Link.beginSend_notice {k : Link} {n : Notice} {x : Nat} {q : List Msg} (hup : k.up = true) (hidle : k.sending = false)
    (hq : k.outQ = .notice n x :: q) :
    k.beginSend = { k with sending := true, outQ := .notice n k.lost :: q, lost := 0 } := by
  simp [Link.beginSend, hup, hidle, hq]

theorem Link.reply_of_holds {k : Link} {r : ReqRef} (h : k.holds r.serial = true) (st : Status) (body : ReplyBody) :
    k.reply r st body = k.place (.reply { tag := r.tag, serial := some r.serial, status := st, body := body }) :=
  if_pos h

theorem Link.reply_of_not_holds {k : Link} {r : ReqRef} (h : k.holds r.serial = false) (st : Status) (body : ReplyBody) :
    k.reply r st body = { k with counters := bump k.counters 9 } := by
  simp [Link.reply, h]

theorem Link.raise_placed {k : Link} (hup : k.up = true) (hroom : k.noticeCount < 55) (n : Notice) :
    k.raise n = k.place (.notice n 0) := by
  simp [Link.raise, hup, hroom]

theorem Link.raise_lost {k : Link} (hup : k.up = true) (hfull : 55 ≤ k.noticeCount) (n : Notice) :
    k.raise n = { k with lost := satInc k.lost, counters := bump k.counters 8 } := by
  simp [Link.raise, hup, Nat.not_lt.mpr hfull]

/-- Settles O7: each case of the sending, replying and raising of a link. -/
theorem repliesAndNoticesArePlaced : Obligations.RepliesAndNoticesArePlaced :=
  ⟨fun _ _ => rfl, fun _ => Link.beginSend_of_quiet, fun _ _ _ => Link.beginSend_reply, fun _ _ _ _ => Link.beginSend_notice,
    fun _ _ st body h => Link.reply_of_holds h st body, fun _ _ st body h => Link.reply_of_not_holds h st body,
    fun _ n h => Link.raise_down h n, fun _ n hup hroom => Link.raise_placed hup hroom n,
    fun _ n hup hfull => Link.raise_lost hup hfull n⟩

/-! ### The message that has gone -/

theorem exec_messageSent {l : LinkNo} {s : State} {k : Link}
    (h : (if (s.link l).up && (s.link l).sending then (s.link l).sent else s.link l) = k) :
    exec (.messageSent l) s = .next (s.onLink l (fun _ => k)) :=
  next_onLink h

theorem exec_messageSent_sending {l : LinkNo} {s : State} {k : Link} (hup : (s.link l).up = true)
    (hsending : (s.link l).sending = true) (h : (s.link l).sent = k) :
    exec (.messageSent l) s = .next (s.onLink l (fun _ => k)) :=
  exec_messageSent (by rw [hup, hsending]; exact h)

/-- Settles O11: nothing is being sent, or the front message goes: a notice, a reply to a request, or the refusal. -/
theorem theFrontMessageLeavesAndFreesItsTag : Obligations.TheFrontMessageLeavesAndFreesItsTag := by
  intro l s
  refine ⟨fun h => exec_messageSent ?_, fun n x q hup hsending hq => exec_messageSent_sending hup hsending ?_,
    fun p n q hup hsending hq hserial => exec_messageSent_sending hup hsending ?_,
    fun p q hup hsending hq hserial => exec_messageSent_sending hup hsending ?_⟩
  · rcases h with h | h | h <;> simp [h, Link.sent]
  · simp [Link.sent, hq]
  · simp [Link.sent, hq, hserial]
  · simp [Link.sent, hq, hserial]

/-! ### Fill marks -/

theorem fillMarkSecondOk_iff (b : Byte) : fillMarkSecondOk b = true ↔ b = 0 ∨ b = 1 := by
  simp [fillMarkSecondOk]

theorem exec_fillMark {l : LinkNo} {s : State} {b : Byte} {k : Link} (hb : b = 0 ∨ b = 1)
    (h : (s.link l).fillMark (s.runCounts (s.link l)) s.clock.ms = k) :
    exec (.fillMarkReceived l b) s = .next (s.onLink l (fun _ => k)) := by
  have hmark : exec (.fillMarkReceived l b) s = .next (s.onLink l (fun k => k.fillMark (s.runCounts k) s.now)) :=
    congrArg _ (if_pos ((fillMarkSecondOk_iff b).mpr hb))
  rw [hmark]
  exact next_onLink h

theorem exec_fillMarkGap {l : LinkNo} {s : State} {receiving : Bool} {k : Link}
    (h : (if !receiving && decide (5 ≤ elapsed s.clock.ms (s.link l).lastMark) then (s.link l).cutRun else s.link l) = k) :
    exec (.fillMarkGap { link := l, receiving := receiving }) s = .next (s.onLink l (fun _ => k)) :=
  next_onLink h

theorem exec_linkUp {l : LinkNo} {s : State} {k : Link}
    (h : (if s.runCounts (s.link l) && (s.link l).runComplete s.clock.ms then (s.link l).comeUp else s.link l) = k) :
    exec (.linkUp l) s = .next (s.onLink l (fun _ => k)) :=
  next_onLink h

theorem Link.runComplete_iff (k : Link) (now : Time) :
    k.runComplete now = true ↔ ∃ t : Time, k.runStart = some t ∧ 10 ≤ elapsed now t ∧ elapsed now k.lastMark < 5 := by
  unfold Link.runComplete
  split <;> simp_all

/-- Settles O8: a mark begins, continues or does not count into the run, a fault or a gap cuts it, and a complete run brings
the link
UP. -/
theorem tenMillisecondsOfFillMarksBringALinkUp : Obligations.TenMillisecondsOfFillMarksBringALinkUp := by
  intro l s
  refine ⟨fun b hb hcounts => exec_fillMark hb ?_, fun b hb hcounts hnew => exec_fillMark hb ?_,
    fun b t hb hcounts hrun hgap => exec_fillMark hb ?_, fun b hb0 hb1 => ?_, next_onLink rfl,
    fun hgap => exec_fillMarkGap ?_, fun hgap => exec_fillMarkGap ?_, exec_fillMarkGap ?_,
    fun t hcounts hrun hlong hgap => exec_linkUp ?_, fun hnot => exec_linkUp ?_⟩
  · have hcounts' : s.runCounts (s.link l) = false := hcounts
    simp [Link.fillMark, hcounts']
  · have hcounts' : s.runCounts (s.link l) = true := hcounts
    rcases hrun : (s.link l).runStart with _ | t
    · simp [Link.fillMark, hcounts', hrun]
    · have hgap : 5 ≤ elapsed s.clock.ms (s.link l).lastMark := by simpa [hrun] using hnew
      simp [Link.fillMark, hcounts', hrun, hgap]
  · have hcounts' : s.runCounts (s.link l) = true := hcounts
    simp [Link.fillMark, hcounts', hrun, Nat.not_le.mpr hgap]
  · have hfault : exec (.fillMarkReceived l b) s = .next (s.onLink l Link.framingFault) :=
      congrArg _ (if_neg fun h => ((fillMarkSecondOk_iff b).mp h).elim hb0 hb1)
    rw [hfault]
    exact next_onLink rfl
  · simp [hgap, Link.cutRun]
  · simp [Nat.not_le.mpr hgap]
  · simp
  · have hcounts' : s.runCounts (s.link l) = true := hcounts
    have hcomplete := ((s.link l).runComplete_iff s.clock.ms).mpr ⟨t, hrun, hlong, hgap⟩
    simp [hcounts', hcomplete, Link.comeUp]
  · rw [if_neg]
    rw [Bool.and_eq_true, Link.runComplete_iff]
    rintro ⟨hcounts, t, hrun, hlong, hgap⟩
    have hcounts' : (s.settings.loaded && (s.link l).ax != 0 && !(s.link l).up) = true := hcounts
    rcases hnot with h | h | ⟨u, hu, hshort⟩ | h
    · exact absurd hcounts' (by simp [h])
    · exact absurd hrun (by simp [h])
    · obtain rfl : u = t := by simpa [hrun] using hu.symm
      omega
    · omega

end Sys2Proof.Machine
end

section
/-! PROOFS. Requests that answer from the tables: IDENTIFY and READ_COUNTERS (R12, R13), REVOKE and READ_ENTRY (R39, R40); and
what
the reserve and the quota admit (R93, R99). -/

namespace Sys2Proof.Machine

/-- A command that its owner is asked for, whose body reads as `v`. -/
theorem exec_asks_reading {α : Type} {c : ReqCode} {s : State} {r : Request} {o : Option α} {v : α} {f : State → α → State}
    (h : s.Asks c r) (hserve : ∀ u : State, serveOf c u r = u.reading r o (f u)) (hread : o = some v) :
    exec (c.command r.ref.link) s = .next (f (s.taken r) v) := by
  rw [exec_asks h, hserve, hread, State.reading_some]

theorem exec_asks_unreadable {α : Type} {c : ReqCode} {s : State} {r : Request} {o : Option α} {f : State → α → State}
    (h : s.Asks c r) (hserve : ∀ u : State, serveOf c u r = u.reading r o (f u)) (hread : o = none) :
    exec (c.command r.ref.link) s = .next ((s.taken r).answer r.ref .badRequest) := by
  rw [exec_asks h, hserve, hread, State.reading_none]

/-! ### IDENTIFY and READ_COUNTERS -/

/-- What READ_COUNTERS does with a group and its clear flag. -/
def State.giveCounters (s : State) (r : Request) (q : Nat × Bool) : State :=
  match s.counterGroup q.1 with
  | none => s.answer r.ref .badRequest
  | some vs => State.reply (if q.2 then s.clearGroup q.1 else s) r.ref .ok (.counters vs)

theorem exec_readCounters {s : State} {r : Request} {q : Nat × Bool} (h : s.Asks .readCounters r)
    (hread : readCountersBody r.body = some q) :
    exec (.readCounters r.ref.link) s = .next ((s.taken r).giveCounters r q) :=
  exec_asks_reading (f := fun u q => u.giveCounters r q) h (fun _ => rfl) hread

theorem State.counterGroup_taken (s : State) (r : Request) (g : Nat) : (s.taken r).counterGroup g = s.counterGroup g := rfl

theorem State.counterGroup_ge (s : State) {g : Nat} (h : 12 ≤ g) : s.counterGroup g = none := by
  obtain ⟨n, rfl⟩ := Nat.exists_eq_add_of_le h
  rw [Nat.add_comm]
  rfl

theorem State.counterGroup_link (s : State) (l : LinkNo) : s.counterGroup l.val = some (s.link l).counters.toList := by
  fin_cases l <;> rfl

theorem State.clearGroup_link (s : State) (l : LinkNo) :
    s.clearGroup l.val = s.onLink l (fun k => { k with counters := Vector.replicate 12 0 }) := by
  fin_cases l <;> rfl

/-- How many counters a group has does not depend on the state. -/
theorem State.counterGroup_length {s t : State} {g : Nat} {vs ws : List Nat} (hs : s.counterGroup g = some vs)
    (ht : t.counterGroup g = some ws) : ws.length = vs.length := by
  unfold State.counterGroup at hs
  split at hs <;> cases hs <;> cases ht
  all_goals exact Vector.length_toList.trans Vector.length_toList.symm

theorem State.counterGroup_clearGroup {s : State} {g : Nat} {vs : List Nat} (h : (s.clearGroup g).counterGroup g = some vs) :
    ∀ w ∈ vs, w = 0 := by
  have hzeros : ∀ n : Nat, ∀ w ∈ (Vector.replicate n 0).toList, w = 0 := fun n w hw =>
    List.eq_of_mem_replicate (by rwa [Vector.toList_replicate] at hw)
  by_cases hlink : g < 4
  · rw [show g = (⟨g, hlink⟩ : LinkNo).val from rfl, State.clearGroup_link, State.counterGroup_link, State.link_onLink_self] at h
    cases h
    exact hzeros 12
  · by_cases hgroup : g < 12
    · interval_cases g
      all_goals
        cases h
        exact hzeros _
    · rw [State.counterGroup_ge _ (by omega)] at h
      cases h

theorem exec_identify {s : State} {r : Request} (h : s.Asks .identify r) (hbody : r.body = []) :
    exec (.identify r.ref.link) s = .next ((s.taken r).reply r.ref .ok (.identity (s.identity r.ref.link))) :=
  exec_asks_reading (c := .identify) (f := fun u _ => u.reply r.ref .ok (.identity (u.identity r.ref.link))) (v := ()) h
    (fun _ => rfl) (by rw [hbody, readNothing_nil])

theorem exec_readCounters_giving {s : State} {r : Request} {g : Nat} {clear : Bool} {vs : List Nat} (h : s.Asks .readCounters r)
    (hread : readCountersBody r.body = some (g, clear)) (hvs : s.counterGroup g = some vs) :
    exec (.readCounters r.ref.link) s =
      .next (State.reply (if clear then (s.taken r).clearGroup g else s.taken r) r.ref .ok (.counters vs)) := by
  rw [exec_readCounters h hread, State.giveCounters, State.counterGroup_taken, hvs]

/-- Settles O13: the identity and the groups are read off the state; clearing a group leaves it as long as it was, and zeros. -/
theorem identifyAndReadCountersAnswer : Obligations.IdentifyAndReadCountersAnswer := by
  refine ⟨fun r s h hbody => ?_, fun r s g clear h hread => ⟨fun hg => ?_, fun vs hvs => ⟨fun hclear => ?_, fun hclear => ?_⟩⟩,
    fun s => ?_, fun s => ?_⟩
  · exact ⟨s.identity r.ref.link, exec_identify h hbody, rfl, Nat.le_add_left 1 _, Nat.succ_le_of_lt Config.revision.isLt,
      rfl, rfl, rfl, rfl, rfl, rfl, rfl⟩
  · rw [exec_readCounters h hread, State.giveCounters, State.counterGroup_ge _ hg]
  · rw [exec_readCounters_giving h hread hvs, hclear]
    rfl
  · refine ⟨?_, fun ws hws => ⟨State.counterGroup_length hvs hws, State.counterGroup_clearGroup hws⟩⟩
    rw [exec_readCounters_giving h hread hvs, hclear]
    rfl
  · exact ⟨s.counterGroup_link, rfl, rfl, rfl, rfl, rfl, rfl, rfl, rfl⟩
  · exact ⟨s.clearGroup_link, rfl, rfl, rfl, rfl, rfl, rfl, rfl, rfl⟩

/-! ### REVOKE and READ_ENTRY -/

theorem entryIndex_of_ge {b : Byte} (h : 128 ≤ b.toNat) : entryIndex b = none := dif_neg (by omega)

theorem entryIndex_of_eq {b : Byte} {i : Fin 128} (h : b.toNat = i.val) : entryIndex b = some i := by
  rw [entryIndex, dif_pos (by omega)]
  exact congrArg some (Fin.ext h)

theorem State.accessList_taken (s : State) (r : Request) (l : LinkNo) (n : ListName) :
    (s.taken r).accessList l n = s.accessList l n := by
  cases n <;> rfl

/-- What REVOKE does with the token that it reads. -/
def State.revokeEntry (s : State) (r : Request) (t : Token) : State :=
  match entryIndex t.entry with
  | none => s.answer r.ref .tokenRange
  | some i =>
    let x := look (s.accessList r.ref.link t.list) i
    if !x.valid then s.answer r.ref .entryInvalid
    else if t.seq ≠ x.seq then s.answer r.ref .entryStale
    else ((s.setAccessEntry r.ref.link t.list i x.revoked).bumpAcc 3).reply r.ref .ok (.revoked x.revoked.seq)

theorem exec_revoke {s : State} {r : Request} {t : Token} (h : s.Asks .revoke r) (hread : readToken r.body = some t) :
    exec (.revoke r.ref.link) s = .next ((s.taken r).revokeEntry r t) :=
  exec_asks_reading (c := .revoke) (f := fun u t => u.revokeEntry r t) h (fun _ => rfl) hread

/-- What READ_ENTRY does with the list and the byte that it reads. -/
def State.giveEntry (s : State) (r : Request) (q : ListName × Byte) : State :=
  match entryIndex q.2 with
  | none => s.answer r.ref .tokenRange
  | some i =>
    let x := look (s.accessList r.ref.link q.1) i
    s.reply r.ref .ok (.accessEntry x.shown (if x.valid then some (s.entryCurrent x) else none))

theorem exec_readEntry {s : State} {r : Request} {q : ListName × Byte} (h : s.Asks .readEntry r)
    (hread : readReadEntry r.body = some q) : exec (.readEntry r.ref.link) s = .next ((s.taken r).giveEntry r q) :=
  exec_asks_reading (c := .readEntry) (f := fun u q => u.giveEntry r q) h (fun _ => rfl) hread

theorem State.entryCurrent_of_terminal (s : State) {x : AccessEntry} {e : EntryNo} (h : x.terminal = some e) :
    s.entryCurrent x = decide ((s.entry e).state ≠ .free ∧ x.snapshot = some (s.entry e).seq) := by
  rcases hsnap : x.snapshot with _ | q
  · simp [State.entryCurrent, h, hsnap]
  · simp [State.entryCurrent, h, hsnap, bne, Bool.beq_eq_decide_eq, eq_comm (a := q)]

/-- Settles O24: the entry number, the valid flag and the sequence decide a REVOKE, in that order; READ_ENTRY shows the entry. -/
theorem revokeAndReadEntryActOnTheEntryNamed : Obligations.RevokeAndReadEntryActOnTheEntryNamed := by
  refine ⟨fun r s t h hread => ⟨fun hrange => ?_, fun i hi => ⟨fun hinvalid => ?_, fun hvalid hseq => ?_, fun hvalid hseq => ?_⟩⟩,
    fun r s h => ⟨fun hread => ?_, fun n b hread => ⟨fun hrange => ?_, fun i hi => ⟨fun hinvalid => ?_, fun e hvalid he => ?_⟩⟩⟩⟩
  · rw [exec_revoke h hread, State.revokeEntry, entryIndex_of_ge hrange]
  · simp [exec_revoke h hread, State.revokeEntry, entryIndex_of_eq hi, State.accessList_taken, hinvalid]
  · simp [exec_revoke h hread, State.revokeEntry, entryIndex_of_eq hi, State.accessList_taken, hvalid, hseq]
  · simp [exec_revoke h hread, State.revokeEntry, entryIndex_of_eq hi, State.accessList_taken, hvalid, hseq,
    AccessEntry.revoked, AccessEntry.reset]
  · exact exec_asks_unreadable (c := .readEntry) (f := fun u q => u.giveEntry r q) h (fun _ => rfl) hread
  · rw [exec_readEntry h hread, State.giveEntry, entryIndex_of_ge hrange]
  · simp [exec_readEntry h hread, State.giveEntry, entryIndex_of_eq hi, State.accessList_taken, hinvalid, AccessEntry.shown]
  · have hcurrent := (s.taken r).entryCurrent_of_terminal he
    simp only [exec_readEntry h hread, State.giveEntry, entryIndex_of_eq hi, State.accessList_taken, AccessEntry.shown, hvalid,
      if_true, hcurrent]
    rfl

/-! ### The reserve and the quota -/

theorem State.offerCopy_of_down {s : State} {l : LinkNo} (h : (s.link l).up = false) (c : Content) : s.offerCopy l c = s := by
  simp [State.offerCopy, h]

theorem State.dropCopy_eq (s : State) (l : LinkNo) (k : Fin 13) : s.dropCopy l k = { s with pool := { s.pool with
    dropped := put s.pool.dropped l (satInc (look s.pool.dropped l)), counters := bump s.pool.counters k } } := rfl

/-- Settles O38: what each kind of allocation needs free, and the quota, the reserve and the queue's front in the order in which a
copy meets them. -/
theorem theReserveAndTheQuotaAdmitFramesAndCopies : Obligations.TheReserveAndTheQuotaAdmitFramesAndCopies := by
  refine ⟨fun p reserve n => ?_, fun s l c => ⟨fun hdown => State.offerCopy_of_down hdown c, fun hup hbeyond => ?_,
    fun hup hquota hshort => ?_, fun hup hquota hroom hq => ?_, fun hup hquota hroom hq => ?_⟩⟩
  · simp [Pool.admits]
  · simp [State.offerCopy, hup, hbeyond, State.dropCopy_eq]
  · simp [State.offerCopy, hup, hquota, hshort, State.dropCopy_eq]
  · simp [State.offerCopy, hup, hquota, hroom, hq, State.now]
  · rw [hq] at hquota
    simp [State.offerCopy, hup, hquota, hroom, hq, State.now]

end Sys2Proof.Machine
end

section
/-! PROOFS. What is computed from plain values: cells (R55 to R60), conditions (R129), grades (R163), and what a reading makes
of a
slot (R146 to R149, R159 to R162). -/

namespace Sys2Proof.Machine

/-! ### Cells -/

theorem sampleQ_le {q m k : Nat} (hq : q ≤ 255) (hm : m ≤ 255) (hk : 1 ≤ k) : sampleQ q m k ≤ 255 := by
  obtain ⟨n, rfl⟩ := Nat.exists_eq_add_of_le' hk
  have hmul : q * n ≤ 255 * n := Nat.mul_le_mul_right n hq
  apply Nat.le_of_lt_succ
  rw [sampleQ, Nat.add_sub_cancel, Nat.div_lt_iff_lt_mul (by omega)]
  omega

/-- The quality from which a usable cell stays or becomes GOOD. -/
def CellState.line (x : CellState) : Nat := if x = .good then 128 else 160

theorem stateAfter_usable {x : CellState} (h : x = .good ∨ x = .weak) (q : Nat) :
    stateAfter x q = if q < 64 then .retired else if q < x.line then .weak else .good := by
  rcases h with rfl | rfl <;> rfl

theorem Cell.sampled_usable {c : Cell} (h : c.state = .good ∨ c.state = .weak) (m k : Nat) :
    let q := sampleQ c.q m k
    (q < 64 → c.sampled m k = { c with q := q, state := .retired, recovery := 0 }) ∧
    (64 ≤ q → q < c.state.line → c.sampled m k = { c with q := q, state := .weak }) ∧
    (64 ≤ q → c.state.line ≤ q → c.sampled m k = { c with q := q, state := .good }) := by
  refine ⟨fun hlow => ?_, fun hhigh hline => ?_, fun hhigh hline => ?_⟩
  · simp [Cell.sampled, stateAfter_usable h, hlow]
  · simp [Cell.sampled, stateAfter_usable h, Nat.not_lt.mpr hhigh, hline]
  · simp [Cell.sampled, stateAfter_usable h, Nat.not_lt.mpr hhigh, Nat.not_lt.mpr hline]

theorem Cell.recovering_cases (c : Cell) (m : Nat) :
    (m < 160 → c.recovering m = { c with recovery := 0 }) ∧
    (160 ≤ m → c.recovery = 0 → c.recovering m = { c with recovery := 1 }) ∧
    (160 ≤ m → 1 ≤ c.recovery → c.recovering m = { c with state := .good, q := m, recovery := 0 }) := by
  refine ⟨fun hlow => ?_, fun hhigh hfirst => ?_, fun hhigh hsecond => ?_⟩
  · simp [Cell.recovering, hlow]
  · simp [Cell.recovering, Nat.not_lt.mpr hhigh, hfirst]
  · simp [Cell.recovering, Nat.not_lt.mpr hhigh, show ¬c.recovery + 1 < 2 by omega]

/-! ### Conditions and grades -/

theorem conditionOf_heard {g : Option SegClass} (h : g ≠ some .good) : conditionOf .heard g = some .degraded := by
  rcases g with _ | _ | _ | _
  · rfl
  · exact absurd rfl h
  · rfl
  · rfl

/-- The grade is the highest that a reason calls for (R163). -/
theorem Reasons.grade_cases (r : Reasons) :
    let alarm := r.doseAlarm = true
    let warn := r.silent = true ∨ r.unitCode = true ∨ r.doseWarn = true
    let watch := r.excursion = true ∨ r.probe = true ∨ r.dark = true ∨ r.unitOff = true
    (alarm → r.grade = .alarm) ∧ (¬alarm → warn → r.grade = .warn) ∧ (¬alarm → ¬warn → watch → r.grade = .watch) ∧
    (¬alarm → ¬warn → ¬watch → r.grade = .noGrade) := by
  simp only [Reasons.grade, Bool.or_eq_true, or_assoc]
  refine ⟨fun ha => ?_, fun ha hw => ?_, fun ha hw hx => ?_, fun ha hw hx => ?_⟩
  · rw [if_pos ha]
  · rw [if_neg ha, if_pos hw]
  · rw [if_neg ha, if_neg hw, if_pos hx]
  · rw [if_neg ha, if_neg hw, if_neg hx]

/-- Settles O46: the tables of cells, conditions and grades, case by case; a sample is a weighted mean of values up to 255. -/
theorem cellsConditionsAndGradesFollowTheirTables : Obligations.CellsConditionsAndGradesFollowTheirTables := by
  refine ⟨fun c m k h => Cell.sampled_usable h m k, fun c m k hq hm hk => sampleQ_le hq hm hk, fun c m _ => c.recovering_cases m,
    fun g => ⟨rfl, rfl, fun h => ?_, conditionOf_heard⟩, fun x => ?_⟩
  · rw [h]
    rfl
  · obtain ⟨halarm, hwarn, hwatch, hnone⟩ := x.reasons.grade_cases
    exact ⟨halarm, hwarn, hwatch, hnone, rfl⟩

/-! ### Probes and the control temperature -/

theorem Probe.take_valid (p : Probe) {v : Int} (h : -500 ≤ v ∧ v ≤ 500) :
    p.take (some v) = { health := if p.valid + 1 < 3 then p.health else .good, invalid := 0, valid := min 3 (p.valid + 1) } := by
  have hfull : min 3 (p.valid + 1) = 3 ↔ ¬p.valid + 1 < 3 := by omega
  simp only [Probe.take, validTemp, h.1, h.2, hfull, ite_not, decide_true, Bool.and_self, if_true]

theorem Probe.take_invalid (p : Probe) {v : Int} (h : ¬(-500 ≤ v ∧ v ≤ 500)) :
    p.take (some v) =
      { health := if p.invalid + 1 < 2 then p.health else .bad, invalid := min 2 (p.invalid + 1), valid := 0 } := by
  have hfull : min 2 (p.invalid + 1) = 2 ↔ ¬p.invalid + 1 < 2 := by omega
  have hinvalid : validTemp v = false := by simpa [validTemp] using h
  simp [Probe.take, hinvalid, hfull]

theorem usableValue_eq_some_iff {v : Option Int} {t : Int} : usableValue v = some t ↔ v = some t ∧ -500 ≤ t ∧ t ≤ 500 := by
  simp [usableValue, Option.filter_eq_some_iff, validTemp]

theorem usableValue_eq_none_iff {v : Option Int} : usableValue v = none ↔ ∀ z : Int, ¬(v = some z ∧ -500 ≤ z ∧ z ≤ 500) := by
  simp only [← usableValue_eq_some_iff, Option.eq_none_iff_forall_ne_some, ne_eq]

/-- The control temperature once the controlling probe, its value and the other value are known (R149). -/
def chooseTemp (control : Probe) (own other : Option Int) : Option (Int × Bool) :=
  match (if control.health = .good then usableValue own else none) with
  | some t => some (t, false)
  | none => (usableValue other).map (fun t => (t, true))

theorem controlTemp_eq (setpoint : Int) (supply ret : Probe) (v w : Option Int) :
    controlTemp setpoint supply ret v w = chooseTemp (if setpoint < -100 then ret else supply)
      (if setpoint < -100 then w else v) (if setpoint < -100 then v else w) := by
  unfold controlTemp chooseTemp frozen
  by_cases h : setpoint < -100
  · simp only [h, decide_true, if_true] <;> rfl
  · simp only [h, decide_false, if_false, Bool.false_eq_true] <;> rfl

theorem chooseTemp_own {control : Probe} {own other : Option Int} {t : Int} (hgood : control.health = .good)
    (hown : own = some t ∧ -500 ≤ t ∧ t ≤ 500) : chooseTemp control own other = some (t, false) := by
  simp [chooseTemp, hgood, usableValue_eq_some_iff.mpr hown]

theorem chooseTemp_other {control : Probe} {own : Option Int} (other : Option Int)
    (hown : control.health = .bad ∨ ∀ z : Int, ¬(own = some z ∧ -500 ≤ z ∧ z ≤ 500)) :
    chooseTemp control own other = (usableValue other).map (fun t => (t, true)) := by
  have hnone : (if control.health = .good then usableValue own else none) = none := by
    rcases hown with hbad | hno
    · rw [hbad, if_neg (by decide)]
    · rw [usableValue_eq_none_iff.mpr hno, ite_self]
  rw [chooseTemp, hnone]

/-! ### The dose -/

theorem excess_chilled (chilled frozenBand : Nat) {setpoint : Int} (temp : Int) (h : -100 ≤ setpoint) :
    (excess chilled frozenBand setpoint temp : Int) =
      min 600 (max 0 (max (temp - setpoint) (setpoint - temp) - chilled)) := by
  have hchilled : frozen setpoint = false := by simpa [frozen] using h
  simp only [excess, hchilled, Bool.false_eq_true, if_false]
  omega

theorem excess_frozen (chilled frozenBand : Nat) {setpoint : Int} (temp : Int) (h : setpoint < -100) :
    (excess chilled frozenBand setpoint temp : Int) = min 600 (max 0 (temp - setpoint - frozenBand)) := by
  have hfrozen : frozen setpoint = true := by simpa [frozen] using h
  simp only [excess, hfrozen, if_true]
  omega

theorem Slot.addExcess_first {x : Slot} (h : x.lastUsable = none) (now : Time) (maxGap e : Nat) :
    x.addExcess now maxGap e = { x with ePrev := e, lastUsable := some now } := by
  simp [Slot.addExcess, h]

theorem Slot.addExcess_next {x : Slot} {since : Time} (h : x.lastUsable = some since) (now : Time) (maxGap e : Nat) :
    let t := elapsed now since
    let area := (x.ePrev + e) * min t maxGap
    let d := x.dose + (x.residue + area) / 120
    let y := x.addExcess now maxGap e
    y.ePrev = e ∧ y.lastUsable = some now ∧
    (t ≤ maxGap → y.unobserved = min x.unobserved 4294967295 ∧ y.flags.gap = x.flags.gap) ∧
    (maxGap < t → y.unobserved = min (x.unobserved + (t - maxGap)) 4294967295 ∧ y.flags.gap = true) ∧
    (d < 1000000 → y.dose = d ∧ y.residue = (x.residue + area) % 120 ∧ y.flags.saturated = x.flags.saturated) ∧
    (1000000 ≤ d → y.dose = 1000000 ∧ y.residue = 0 ∧ y.flags.saturated = true) ∧ y.reasons = x.reasons := by
  simp only [Slot.addExcess, h]
  refine ⟨trivial, trivial, fun hgap => ?_, fun hgap => ?_, fun hdose => ?_, fun hdose => ?_, trivial⟩
  · simp [Nat.sub_eq_zero_of_le hgap]
  · simp [Nat.sub_pos_of_lt hgap]
  · simp [Nat.not_le.mpr hdose, Nat.min_eq_left hdose.le]
  · simp [hdose]

theorem Slot.judgeExcursion_out (x : Slot) (clear : Nat) {e : Nat} (h : 0 < e) :
    x.judgeExcursion clear e = { x with inBand := 0, reasons := { x.reasons with excursion := true } } := by
  simp [Slot.judgeExcursion, h]

theorem Slot.judgeExcursion_ends {x : Slot} {clear : Nat} (h : clear ≤ min 10 (x.inBand + 1)) :
    x.judgeExcursion clear 0 = { x with inBand := min 10 (x.inBand + 1), reasons := { x.reasons with excursion := false } } := by
  simp [Slot.judgeExcursion, Nat.not_lt.mpr h]

theorem Slot.judgeExcursion_goesOn {x : Slot} {clear : Nat} (h : min 10 (x.inBand + 1) < clear) :
    x.judgeExcursion clear 0 = { x with inBand := min 10 (x.inBand + 1) } := by
  simp [Slot.judgeExcursion, h]

/-! ### A whole reading -/

/-- The setpoint that a reading writes. -/
def Reading.clamped (q : Reading) : Int := max (-400) (min 300 q.setpoint)

/-- The control temperature of a reading on a slot, by the probes as the reading leaves them. -/
def Slot.control (x : Slot) (q : Reading) : Option (Int × Bool) :=
  controlTemp q.clamped (x.supply.take q.supply) (x.ret.take q.ret) q.supply q.ret

/-- The slot after steps 1 to 5 of R146. -/
def Slot.noted (x : Slot) (q : Reading) : Slot := { x with
  plugState := q.plugState, code := q.code, setpoint := some q.clamped, supply := x.supply.take q.supply
  ret := x.ret.take q.ret, temp := (x.control q).map Prod.fst
  flags := { gap := false, substituted := (x.control q).any Prod.snd, saturated := false
             setpointClamped := decide (q.clamped ≠ q.setpoint) }
  reasons := { x.reasons with
    unitOff := decide (q.plugState = .off), unitCode := decide (q.code ≠ 0)
    probe := decide ((x.supply.take q.supply).health = .bad ∨ (x.ret.take q.ret).health = .bad) } }

theorem Slot.probed_written (x : Slot) (q : Reading) : (x.written q).probed q = { x with
    plugState := q.plugState, code := q.code, setpoint := some q.clamped, supply := x.supply.take q.supply
    ret := x.ret.take q.ret
    flags := { ReadingFlags.clear with setpointClamped := decide (q.clamped ≠ q.setpoint) }
    reasons := { x.reasons with
      unitOff := decide (q.plugState = .off), unitCode := decide (q.code ≠ 0)
      probe := decide ((x.supply.take q.supply).health = .bad ∨ (x.ret.take q.ret).health = .bad) } } := by
  simp [Slot.probed, Slot.written, clampSetpoint, Reading.clamped, Bool.beq_eq_decide_eq, bne]
  by_cases h : max (-400) (min 300 q.setpoint) = q.setpoint <;> simp [h]

theorem Slot.controlled_eq_noted (x : Slot) (q : Reading) : ((x.written q).probed q).controlled q = x.noted q := by
  have hcontrol : controlTemp (clampSetpoint q.setpoint) ((x.written q).probed q).supply ((x.written q).probed q).ret q.supply
      q.ret = x.control q := by
    simp [Slot.probed_written, Slot.control, clampSetpoint, Reading.clamped]
  rw [Slot.controlled, hcontrol, Slot.probed_written, Slot.noted]
  rcases x.control q with _ | ⟨t, sub⟩ <;> rfl

theorem Slot.excessOf_noted (x : Slot) (ps : Vector Nat 19) (q : Reading) : (x.noted q).excessOf ps q =
    if q.plugState = .defrost then some 0 else
      (x.control q).map (fun t => excess (look ps pChilledBand) (look ps pFrozenBand) q.clamped t.1) := by
  simp only [Slot.excessOf, Slot.noted, Option.map_map]
  rfl

theorem Slot.afterReading_usable {x : Slot} {ps : Vector Nat 19} {q : Reading} {e : Nat} (h : (x.noted q).excessOf ps q = some e)
    (now : Time) :
    x.afterReading ps now q =
      (((x.noted q).addExcess now (look ps 14) e).judgeExcursion (look ps 18) e).judgeDose (look ps 16) (look ps 17) := by
  rw [Slot.afterReading, Slot.controlled_eq_noted, Slot.dosed, h]
  rfl

theorem Slot.afterReading_unusable {x : Slot} {ps : Vector Nat 19} {q : Reading} (h : (x.noted q).excessOf ps q = none)
    (now : Time) : x.afterReading ps now q = (x.noted q).judgeDose (look ps 16) (look ps 17) := by
  rw [Slot.afterReading, Slot.controlled_eq_noted, Slot.dosed, h]
  rfl

/-- Settles O47: steps 1 to 5 of a reading note it on the slot, and a usable one moves the dose; then each computation by its
cases. -/
theorem readingsMoveProbesAndDose : Obligations.ReadingsMoveProbesAndDose := by
  refine ⟨fun x ps now q => ⟨fun e he => ?_, fun hnone => ?_⟩,
    fun p v => ⟨rfl, fun hlow hhigh => p.take_valid ⟨hlow, hhigh⟩, fun hout => p.take_invalid (by omega)⟩,
    fun setpoint supply ret v w => ⟨fun t hgood hown => ?_, fun t hown hother => ?_, fun hown hother => ?_⟩,
    fun chilled frozenBand setpoint temp => ⟨excess_chilled chilled frozenBand temp, excess_frozen chilled frozenBand temp⟩,
    fun x now maxGap e => ⟨fun h => Slot.addExcess_first h now maxGap e, fun since h => Slot.addExcess_next h now maxGap e⟩,
    fun x clear e => ⟨x.judgeExcursion_out clear, fun he h => ?_, fun he h => ?_⟩, fun x warn alarm => rfl⟩
  · exact Slot.afterReading_usable ((x.excessOf_noted ps q).trans he) now
  · have hy := Slot.afterReading_unusable ((x.excessOf_noted ps q).trans hnone) now
    refine ⟨hy, ?_⟩
    simp only [hy, Slot.judgeDose, Slot.noted, and_self]
  · rw [controlTemp_eq]
    exact chooseTemp_own hgood hown
  · rw [controlTemp_eq, chooseTemp_other _ hown, usableValue_eq_some_iff.mpr hother]
    rfl
  · rw [controlTemp_eq, chooseTemp_other _ hown, usableValue_eq_none_iff.mpr hother]
    rfl
  · rw [he, Slot.judgeExcursion_ends h]
  · rw [he, Slot.judgeExcursion_goesOn h]

end Sys2Proof.Machine
end

section
/-! PROOFS. Messages received: their codes, owners and rights, and the check, the window and the right in turn (R4 to R6). -/

namespace Sys2Proof.Machine

/-! ### Codes and rights -/

theorem requestOfCode_of_ge {c : Half} (h : 36 ≤ c.toNat) : requestOfCode c = none := by
  have hne : c ≠ 0 := by
    rintro rfl
    exact absurd h (by decide)
  rw [requestOfCode, if_neg hne, List.getElem?_eq_none_iff]
  exact (show requestCodes.length ≤ c.toNat - 1 by rw [show requestCodes.length = 35 from rfl]; omega)

/-- GRANT and REVOKE need what the list byte that begins their body says. -/
theorem rightNeeded_ofList {c : ReqCode} (h : c ∈ [ReqCode.grant, .revoke]) (body : List Byte) :
    rightNeeded c body = (match body.head? with
      | none => .unreadable
      | some b => if b = 0 then .admin else if b = 1 then .noneNeeded else .unreadable) := by
  have hbody : rightNeeded .grant body = (match body.head? with
      | none => .unreadable
      | some b => if b = 0 then .admin else if b = 1 then .noneNeeded else .unreadable) := by
    rcases body with _ | ⟨b, bs⟩
    · rfl
    · by_cases hzero : b = 0
      · rw [hzero]
        rfl
      · by_cases hone : b = 1
        · rw [hone]
          rfl
        · simp only [List.head?_cons, if_neg hzero, if_neg hone]
          change (match b :: bs with
            | 0 :: _ => RightNeeded.admin
            | 1 :: _ => .noneNeeded
            | _ => .unreadable) = .unreadable
          split
          · next heq => exact absurd (List.cons.inj heq).1 hzero
          · next heq => exact absurd (List.cons.inj heq).1 hone
          · rfl
  simp only [List.mem_cons, List.not_mem_nil, or_false] at h
  rcases h with rfl | rfl
  · exact hbody
  · exact hbody

theorem ReqCode.rights_needed (body : List Byte) :
    (∀ c ∈ [ReqCode.enroll, .withdraw, .move, .markCell, .unmarkCell, .tune, .storeSettings, .restart],
      rightNeeded c body = .admin) ∧
    (∀ c ∈ [ReqCode.openBeam, .release, .readBeams, .fetch, .done, .cut, .deliver], rightNeeded c body = .traffic) ∧
    (∀ c ∈ [ReqCode.send, .purgeQueue, .acknowledge, .clearDose], rightNeeded c body = .command) ∧
    rightNeeded .survey body = .trafficOrAdmin ∧
    (∀ c ∈ [ReqCode.identify, .readTime, .readCounters, .readTerminal, .listUnknown, .readEntry, .readCoverage, .take,
      .subscribe, .readCrane, .setInterest, .readRack, .readAlarms], rightNeeded c body = .noneNeeded) := by
  simp [rightNeeded]

theorem ReqCode.owners :
    (∀ c ∈ [ReqCode.identify, .readTime, .readCounters], c.owner = .linkUnit) ∧
    (∀ c ∈ [ReqCode.enroll, .withdraw, .move, .readTerminal, .listUnknown, .deliver], c.owner = .registry) ∧
    (∀ c ∈ [ReqCode.grant, .revoke, .readEntry], c.owner = .access) ∧
    (∀ c ∈ [ReqCode.readCoverage, .markCell, .unmarkCell], c.owner = .coverage) ∧
    (∀ c ∈ [ReqCode.openBeam, .release, .readBeams, .survey], c.owner = .beam) ∧ ReqCode.owner .take = .pool ∧
    (∀ c ∈ [ReqCode.send, .purgeQueue, .fetch, .done, .cut], c.owner = .downlink) ∧
    (∀ c ∈ [ReqCode.subscribe, .readCrane], c.owner = .crane) ∧
    (∀ c ∈ [ReqCode.setInterest, .readRack, .readAlarms, .acknowledge, .clearDose], c.owner = .reefer) ∧
    (∀ c ∈ [ReqCode.tune, .storeSettings, .restart], c.owner = .settings) := by
  decide

/-! ### A message -/

@[simp] theorem put_put {α : Type} {n : Nat} (t : Vector α n) (i : Fin n) (a b : α) : put (put t i a) i b = put t i b := by
  simp [put]

theorem State.onLink_onLink (s : State) (l : LinkNo) (f g : Link → Link) :
    (s.onLink l f).onLink l g = s.onLink l (fun k => g (f k)) := by
  simp [State.onLink, tweak]

/-- A link's record once the first byte of a message has been heard. -/
def Link.hears (k : Link) (now : Time) : Link := { k with lastValid := now, discarding := false }

/-- What a message comes to on the link that heard it. -/
def State.takeMessage (s : State) (l : LinkNo) (bytes : List Byte) : State :=
  match readMessage bytes with
  | none => s.onLink l Link.damaged
  | some q => if (s.link l).up then s.takeRequest l q else s.onLink l (fun k => k.passOver s.now)

section
variable {s : State} {l : LinkNo} {bytes : List Byte} {q : RawRequest}

theorem exec_messageReceived : exec (.messageReceived l bytes) s =
    .next ((s.onLink l (fun k => k.hears s.clock.ms)).takeMessage l bytes) := rfl

theorem exec_messageReceived_damaged (h : readMessage bytes = none) : exec (.messageReceived l bytes) s =
    .next (s.onLink l (fun k => (k.hears s.clock.ms).damaged)) := by
  rw [exec_messageReceived, State.takeMessage, h]
  exact congrArg _ (State.onLink_onLink s l _ _)

theorem exec_messageReceived_down (h : readMessage bytes = some q) (hdown : (s.link l).up = false) :
    exec (.messageReceived l bytes) s = .next (s.onLink l (fun k => (k.hears s.clock.ms).passOver s.clock.ms)) := by
  have hdown' : ((s.onLink l (fun k => k.hears s.clock.ms)).link l).up = false := by
    rw [State.link_onLink_self]
    exact hdown
  rw [exec_messageReceived, State.takeMessage, h]
  simp only [hdown', Bool.false_eq_true, if_false]
  exact congrArg _ (State.onLink_onLink s l _ _)

theorem exec_messageReceived_up (h : readMessage bytes = some q) (hup : (s.link l).up = true) :
    exec (.messageReceived l bytes) s = .next ((s.onLink l (fun k => k.hears s.clock.ms)).takeRequest l q) := by
  have hup' : ((s.onLink l (fun k => k.hears s.clock.ms)).link l).up = true := by
    rw [State.link_onLink_self]
    exact hup
  rw [exec_messageReceived, State.takeMessage, h]
  simp only [hup', if_true]

end

/-! ### The window -/

section
variable {s : State} {l : LinkNo} {q : RawRequest}

theorem State.takeRequest_held (h : (s.link l).holdsTag q.tag = true) :
    s.takeRequest l q = s.onLink l (fun k => { k with counters := bump k.counters 2 }) := by
  simp [State.takeRequest, h]

theorem State.takeRequest_busy (h : (s.link l).holdsTag q.tag = false) (hfull : 8 ≤ (s.link l).window.length)
    (hplace : (s.link l).refusal = none) : s.takeRequest l q = s.onLink l (fun k => k.refuseBusy q.tag) := by
  simp [State.takeRequest, h, Nat.not_lt.mpr hfull, hplace]

theorem State.takeRequest_lost (h : (s.link l).holdsTag q.tag = false) (hfull : 8 ≤ (s.link l).window.length)
    (hplace : (s.link l).refusal ≠ none) :
    s.takeRequest l q = s.onLink l (fun k => { k with counters := bump k.counters 4 }) := by
  simp [State.takeRequest, h, Nat.not_lt.mpr hfull, hplace]

theorem State.takeRequest_accepted (h : (s.link l).holdsTag q.tag = false) (hroom : (s.link l).window.length < 8) :
    s.takeRequest l q = State.decodeRequest (s.onLink l (fun k => k.accept q.tag))
      { link := l, serial := (s.link l).nextSerial, tag := q.tag } q := by
  simp [State.takeRequest, h, hroom]

end

/-! ### The code and the right -/

section
variable {s : State} {r : ReqRef} {q : RawRequest} {c : ReqCode}

theorem State.decodeRequest_unknown (h : requestOfCode q.code = none) : s.decodeRequest r q = s.answer r .badRequest := by
  rw [State.decodeRequest, h]

theorem State.decodeRequest_unreadable (h : requestOfCode q.code = some c) (hright : rightNeeded c q.body = .unreadable) :
    s.decodeRequest r q = s.answer r .badRequest := by
  simp only [State.decodeRequest, h, hright]

theorem State.decodeRequest_readable (h : requestOfCode q.code = some c) (hright : rightNeeded c q.body ≠ .unreadable) :
    s.decodeRequest r q = if (s.link r.link).rights.satisfy (rightNeeded c q.body) then
        { s with handed := s.handed ++ [{ ref := r, code := c, body := q.body }] }
      else State.onLink (s.answer r .noRight) r.link (fun k => { k with counters := bump k.counters 5 }) := by
  simp only [State.decodeRequest, h]

theorem Rights.satisfy_readable {x : Rights} {n : RightNeeded} (h : x.satisfy n = true) : n ≠ .unreadable := by
  rintro rfl
  cases h

end

/-- The link that heard a request and accepted it. -/
def State.accepting (s : State) (l : LinkNo) (tag : Byte) : State := s.onLink l (fun k => (k.hears s.clock.ms).accept tag)

theorem exec_messageReceived_accepted {s : State} {l : LinkNo} {bytes : List Byte} {q : RawRequest}
    (h : readMessage bytes = some q) (hup : (s.link l).up = true) (hnew : (s.link l).holdsTag q.tag = false)
    (hroom : (s.link l).window.length < 8) :
    exec (.messageReceived l bytes) s = .next (State.decodeRequest (s.accepting l q.tag)
      { link := l, serial := (s.link l).nextSerial, tag := q.tag } q) := by
  rw [exec_messageReceived_up h hup, State.takeRequest_accepted (by rw [State.link_onLink_self]; exact hnew)
    (by rw [State.link_onLink_self]; exact hroom), State.onLink_onLink, State.link_onLink_self]
  rfl

theorem State.rights_accepting (s : State) (l : LinkNo) (tag : Byte) :
    ((s.accepting l tag).link l).rights = (s.link l).rights := by
  rw [State.accepting, State.link_onLink_self]
  rfl

/-- Settles O10: the tables of codes, rights and owners; then the checks that a message meets, in their order. -/
theorem messagesAreCheckedAndTaken : Obligations.MessagesAreCheckedAndTaken := by
  refine ⟨by decide, fun c => requestOfCode_of_ge, fun body => ?_, ReqCode.owners, fun r => ⟨rfl, rfl, rfl, rfl, rfl, rfl⟩,
    fun l bytes s => ⟨next_onLink rfl, next_onLink rfl, fun h => ?_, fun q h => ⟨fun hdown => ?_, fun hup hheld => ?_,
      fun hup hnew hfull hplace => ?_, fun hup hnew hfull hplace => ?_, fun hup hnew hroom => ?_⟩⟩⟩
  · obtain ⟨hadmin, htraffic, hcommand, hsurvey, hnone⟩ := ReqCode.rights_needed body
    exact ⟨hadmin, htraffic, hcommand, hsurvey, hnone, fun c hc => rightNeeded_ofList hc body⟩
  · rw [exec_messageReceived_damaged h]
    exact next_onLink rfl
  · rw [exec_messageReceived_down h hdown]
    exact next_onLink rfl
  · rw [exec_messageReceived_up h hup, State.takeRequest_held (by rw [State.link_onLink_self]; exact hheld), State.onLink_onLink]
    exact next_onLink rfl
  · rw [exec_messageReceived_up h hup, State.takeRequest_busy (by rw [State.link_onLink_self]; exact hnew)
      (by rw [State.link_onLink_self]; exact hfull) (by rw [State.link_onLink_self]; exact hplace), State.onLink_onLink]
    exact next_onLink rfl
  · rw [exec_messageReceived_up h hup, State.takeRequest_lost (by rw [State.link_onLink_self]; exact hnew)
      (by rw [State.link_onLink_self]; exact hfull) (by rw [State.link_onLink_self]; exact hplace), State.onLink_onLink]
    exact next_onLink rfl
  · have haccept := exec_messageReceived_accepted h hup hnew hroom
    have hstate : s.accepting l q.tag = s.onLink l (fun _ => ((s.link l).hears s.clock.ms).accept q.tag) :=
      State.onLink_congr rfl
    have hrights := s.rights_accepting l q.tag
    refine ⟨fun hcode => ?_, fun c hcode => ⟨fun hright => ?_, fun hright hlacks => ?_, fun hhas => ?_⟩⟩
    · rw [haccept, State.decodeRequest_unknown hcode, hstate]
      rfl
    · rw [haccept, State.decodeRequest_unreadable hcode hright, hstate]
      rfl
    · rw [haccept, State.decodeRequest_readable hcode hright, hrights, hlacks, if_neg Bool.false_ne_true, hstate]
      rfl
    · rw [haccept, State.decodeRequest_readable hcode (Rights.satisfy_readable hhas), hrights, hhas, if_pos rfl, hstate]
      rfl

end Sys2Proof.Machine
end

section
/-! PROOFS. What comes in reads back as it was encoded: request messages (R179), answers on a head line (R183), rack reports
(R181). -/

namespace Sys2Proof.Machine

/-! ### Numbers in bytes -/

theorem half_bytes (v : Half) : half ((v >>> 8).setWidth 8) (v.setWidth 8) = v := by
  apply BitVec.eq_of_getLsbD_eq
  intro i hi
  rw [half, BitVec.getLsbD_append]
  by_cases hlow : i < 8
  · simp [hlow]
  · simp [hlow, show i - 8 < 8 by omega, show 8 + (i - 8) = i by omega]

theorem toNat_ofNat_byte {n : Nat} (h : n ≤ 255) : (BitVec.ofNat 8 n).toNat = n := by
  rw [BitVec.toNat_ofNat, Nat.mod_eq_of_lt (by omega)]

theorem toInt_ofInt_half {v : Int} (hlow : -32768 ≤ v) (hhigh : v ≤ 32767) : (BitVec.ofInt 16 v).toInt = v := by
  rw [BitVec.toInt_ofInt, Int.bmod_eq_of_le (by omega) (by omega)]

/-! ### Request messages -/

theorem readMessage_requestMessage (tag : Byte) (code : Half) {body : List Byte} (h : body.length ≤ 24576) :
    readMessage (requestMessage tag code body) = some { tag := tag, code := code, body := body } := by
  have hlength : (BitVec.ofNat 16 body.length).toNat = body.length := by
    rw [BitVec.toNat_ofNat, Nat.mod_eq_of_lt (by omega)]
  rw [requestMessage]
  generalize BitVec.ofNat 16 body.length = count at hlength
  simp [readMessage, be16, half_bytes, hlength, h]

/-! ### Answers on a head line -/

theorem sumOk_checked (m : List Byte) : sumOk (m ++ [checkByte m]) = true := by
  simp [sumOk, checkByte, List.foldl_append]

/-- The number whose bits, from the lowest on, are set where an entry is none. -/
def noneBits : List (Option Nat) → Nat
  | [] => 0
  | e :: es => e.isNone.toNat + 2 * noneBits es

theorem noneMask_sum (es : List (Option Nat)) (k : Nat) :
    (((es.zipIdx k).map (fun p => if p.1.isNone then 2 ^ p.2 else 0)).sum) = 2 ^ k * noneBits es := by
  induction es generalizing k with
  | nil => rfl
  | cons e es ih =>
    rw [List.zipIdx_cons, List.map_cons, List.sum_cons, ih, noneBits]
    cases e.isNone <;> simp [Nat.pow_succ] <;> ring

theorem noneBits_testBit (es : List (Option Nat)) (i : Nat) : (noneBits es).testBit i = es[i]?.any Option.isNone := by
  induction es generalizing i with
  | nil => simp [noneBits]
  | cons e es ih =>
    cases i with
    | zero => cases he : e.isNone <;> simp [noneBits, he, Nat.testBit_zero]
    | succ i =>
      rw [Nat.testBit_succ, List.getElem?_cons_succ, ← ih, noneBits]
      congr 1
      have := Bool.toNat_le e.isNone
      omega

theorem getLsbD_noneMask (es : List (Option Nat)) {i : Nat} (hi : i < 16) :
    (noneMask es).getLsbD i = es[i]?.any Option.isNone := by
  rw [noneMask, BitVec.getLsbD_ofNat, noneMask_sum es 0, Nat.pow_zero, Nat.one_mul, noneBits_testBit]
  simp [hi]

theorem sweepEntries_encoded {es : List (Option Nat)} (hlength : es.length ≤ 16) (hsmall : ∀ m, some m ∈ es → m ≤ 255) :
    sweepEntries (noneMask es) (es.map (fun e => BitVec.ofNat 8 (e.getD 0))) = es := by
  apply List.ext_getElem
  · simp [sweepEntries]
  · intro i hleft hright
    simp only [sweepEntries, List.getElem_map, List.getElem_zipIdx, Nat.zero_add, getLsbD_noneMask es (show i < 16 by omega),
      List.getElem?_eq_getElem hright, Option.any_some]
    rcases he : es[i] with _ | m
    · rfl
    · simp only [Option.isNone_some, Bool.false_eq_true, if_false, Option.getD_some]
      rw [toNat_ofNat_byte (hsmall m (he ▸ List.getElem_mem hright))]

theorem readAnswer_bytes {a : Answer}
    (h : ∀ es : List (Option Nat), a.kind = .sweepResult es → es.length ≤ 16 ∧ ∀ m, some m ∈ es → m ≤ 255) :
    readAnswer a.bytes = some a := by
  obtain ⟨number, kind⟩ := a
  cases kind with
  | done => simp only [readAnswer, Answer.bytes, sumOk_checked, Bool.not_true, Bool.false_eq_true, if_false]; rfl
  | refused => simp only [readAnswer, Answer.bytes, sumOk_checked, Bool.not_true, Bool.false_eq_true, if_false]; rfl
  | sweepResult es =>
    obtain ⟨hlength, hsmall⟩ := h es rfl
    have hcount : (BitVec.ofNat 8 es.length).toNat = es.length := toNat_ofNat_byte (by omega)
    simp only [readAnswer, Answer.bytes, sumOk_checked, Bool.not_true, Bool.false_eq_true, if_false]
    simp [out1, be16, half_bytes, hcount, hlength, sweepEntries_encoded hlength hsmall]

/-! ### Rack reports -/

theorem Reader.fin_cons {n : Nat} (hn : n ≤ 256) (i : Fin n) (rest : List Byte) :
    Reader.fin n (BitVec.ofNat 8 i.val :: rest) = some (i, rest) := by
  have hi : (BitVec.ofNat 8 i.val).toNat = i.val := toNat_ofNat_byte (by omega)
  have hrun : Reader.fin n (BitVec.ofNat 8 i.val :: rest) = (if h : (BitVec.ofNat 8 i.val).toNat < n then
    (pure ⟨(BitVec.ofNat 8 i.val).toNat, h⟩ : Reader (Fin n)) else Reader.fail) rest := rfl
  rw [hrun, dif_pos (by omega)]
  exact congrArg (fun j => some (j, rest)) (Fin.ext hi)

theorem Reader.num16_be16 (v : Half) (rest : List Byte) : Reader.num16 (be16 v ++ rest) = some (v, rest) := by
  have hrun : Reader.num16 (be16 v ++ rest) = some (half ((v >>> 8).setWidth 8) (v.setWidth 8), rest) := rfl
  rw [hrun, half_bytes]

theorem Reader.plugState_cons (p : PlugState) (rest : List Byte) :
    Reader.named [PlugState.empty, .running, .defrost, .off] (BitVec.ofNat 8 p.num :: rest) = some (p, rest) := by
  cases p <;> rfl

theorem Reader.byte_cons (b : Byte) (rest : List Byte) : Reader.byte (b :: rest) = some (b, rest) := rfl

theorem Reader.run_pure {α : Type} (v : α) (bs : List Byte) : (pure v : Reader α) bs = some (v, bs) := rfl

/-- The half that carries a temperature. -/
def tempHalf : Option Int → Half
  | none => 0x8000
  | some t => BitVec.ofInt 16 t

theorem outTemp_eq (t : Option Int) : outTemp t = be16 (tempHalf t) := by
  cases t <;> rfl

theorem tempOf_tempHalf {t : Option Int} (h : ∀ v, t = some v → Present16 v) : tempOf (tempHalf t) = t := by
  cases t with
  | none => rfl
  | some v =>
    obtain ⟨hlow, hhigh⟩ := h v rfl
    have hv : (BitVec.ofInt 16 v).toInt = v := toInt_ofInt_half (by omega) hhigh
    have hpresent : BitVec.ofInt 16 v ≠ 0x8000 := by
      intro habsent
      rw [habsent] at hv
      have : (0x8000 : Half).toInt = -32768 := by decide
      omega
    rw [tempHalf, tempOf, if_neg hpresent, hv]

/-- The bytes of one reading in a report. -/
def Reading.bytes (q : Reading) : List Byte :=
  out1 q.plug.val ++ out1 q.plugState.num ++ be16 (BitVec.ofInt 16 q.setpoint) ++ outTemp q.supply ++ outTemp q.ret ++ [q.code]

theorem readReading_bytes {q : Reading} (h : q.carried) (rest : List Byte) : readReading (q.bytes ++ rest) = some (q, rest) := by
  obtain ⟨⟨hlow, hhigh⟩, hsupply, hret⟩ := h
  simp only [Reading.bytes, readReading, out1, outTemp_eq, List.append_assoc, List.cons_append, List.nil_append, Reader.run_bind,
    Reader.fin_cons (show 24 ≤ 256 by decide), Option.bind_some, Reader.plugState_cons, Reader.num16_be16, Reader.byte_cons,
    Reader.run_pure, toInt_ofInt_half hlow hhigh, tempOf_tempHalf hsupply, tempOf_tempHalf hret]

theorem many_readReading {qs : List Reading} (h : ∀ q ∈ qs, q.carried) :
    Reader.many readReading qs.length (qs.flatMap Reading.bytes) = some (qs, []) := by
  induction qs with
  | nil => rfl
  | cons q qs ih =>
    simp only [List.length_cons, List.flatMap_cons, Reader.many, Reader.run_bind, readReading_bytes (h q List.mem_cons_self),
      Option.bind_some, ih fun x hx => h x (List.mem_cons_of_mem q hx), Reader.run_pure]

theorem readReport_bytes (c : Byte) {qs : List Reading} (hsome : 1 ≤ qs.length) (hfew : qs.length ≤ 24)
    (h : ∀ q ∈ qs, q.carried) : readReport (reportBytes c qs) = some (c, qs) := by
  have hcount : (BitVec.ofNat 8 qs.length).toNat = qs.length := toNat_ofNat_byte (by omega)
  apply Reader.whole_eq_some
  have hbytes : reportBytes c qs = c :: BitVec.ofNat 8 qs.length :: qs.flatMap Reading.bytes := rfl
  simp [hbytes, Reader.run_bind, Reader.run_map, Reader.byte_cons, Reader.num1_cons, Reader.run_require, hcount, hsome, hfew,
    many_readReading h]

/-- Settles O12: each reader takes apart what the encoding put together, field by field. -/
theorem encodedMessagesReadBack : Obligations.EncodedMessagesReadBack :=
  ⟨fun tag code _ h => readMessage_requestMessage tag code h, fun _ h => readAnswer_bytes h,
    fun c _ hsome hfew h => readReport_bytes c hsome hfew h, fun _ => rfl⟩

end Sys2Proof.Machine
end

section
/-! PROOFS. What the alarm queue makes of a derived grade, and what of that is written back (R165, R166). -/

namespace Sys2Proof.Machine

theorem Slot.calls_iff (x : Slot) : x.calls = true ↔ 2 ≤ x.grade.rank ∧ x.ack.rank < x.grade.rank := by
  simp [Slot.calls]

/-! ### A slot that has a record, or lost it -/

section
variable {as : List AlarmRec} {x : Slot} {r : RackNo} {p : PlugNo} {now : Time}

/-- What a slot's grade makes of a record: of its own, while it is not released, a fresh account (R165). -/
def AlarmRec.follow (x : Slot) (r : RackNo) (p : PlugNo) (now : Time) (a : AlarmRec) : AlarmRec :=
  if a.rack = r ∧ a.plug = p ∧ a.released = false then
    { a with grade := x.grade, dose := x.dose, raisedAt := if a.grade.rank < x.grade.rank then now else a.raisedAt }
  else a

theorem AlarmRec.held_iff (a : AlarmRec) : (a.isOf r p && !a.released) = true ↔ a.rack = r ∧ a.plug = p ∧ a.released = false := by
  simp [AlarmRec.isOf, and_assoc]

theorem consult_of_queued (h : x.queued = true) (reading : Bool) :
    let k := consult as x r p now reading
    k.slot = x ∧ k.placed = false ∧ k.displacement = none ∧ k.alarms = as.map (AlarmRec.follow x r p now) ∧
    (k.raised = true ↔ ∃ a ∈ as, a.rack = r ∧ a.plug = p ∧ a.released = false ∧ a.grade.rank < x.grade.rank) := by
  simp only [consult, h, if_true, true_and]
  refine ⟨List.map_congr_left fun a _ => ?_, ?_⟩
  · simp only [AlarmRec.held_iff, AlarmRec.follow]
  · simp [AlarmRec.isOf, and_assoc]

theorem consult_of_displaced (hq : x.queued = false) (hd : x.displaced = true) (reading : Bool) :
    consult as x r p now reading =
      if reading = false then { alarms := as, slot := x }
      else if x.calls = false then { alarms := as, slot := { x with displaced := false } }
      else if as.length < 256 then Consult.place as x r p now else { alarms := as, slot := x } := by
  simp [consult, hq, hd]

theorem consult_of_neither (hq : x.queued = false) (hd : x.displaced = false) (reading : Bool) :
    consult as x r p now reading =
      if x.calls = true then
        (if (as.filter (fun a => !(a.rack == r && a.plug == p && a.released))).length < 256 then
          Consult.place (as.filter (fun a => !(a.rack == r && a.plug == p && a.released))) x r p now
        else Consult.full (as.filter (fun a => !(a.rack == r && a.plug == p && a.released))) x r p now)
      else { alarms := as, slot := x } := by
  simp only [consult, hq, hd, Bool.false_eq_true, if_false, AlarmRec.isOf] <;> rfl

end

/-! ### An arrival at a full queue -/

theorem lowestRank_spec (as : List AlarmRec) (m : Nat) :
    as.foldl (fun n a => min n a.grade.rank) m ≤ m ∧ (∀ a ∈ as, as.foldl (fun n a => min n a.grade.rank) m ≤ a.grade.rank) ∧
    ∀ n, n ≤ m → (∀ a ∈ as, n ≤ a.grade.rank) → n ≤ as.foldl (fun n a => min n a.grade.rank) m := by
  induction as generalizing m with
  | nil => simp
  | cons a as ih =>
    obtain ⟨hle, hall, hmost⟩ := ih (min m a.grade.rank)
    refine ⟨hle.trans (Nat.min_le_left _ _), fun b hb => ?_, fun n hn h => ?_⟩
    · rcases List.mem_cons.mp hb with rfl | hb
      · exact hle.trans (Nat.min_le_right _ _)
      · exact hall b hb
    · exact hmost n (Nat.le_min.mpr ⟨hn, h a List.mem_cons_self⟩) fun b hb => h b (List.mem_cons_of_mem a hb)

theorem Grade.rank_le (g : Grade) : g.rank ≤ 3 := by
  cases g <;> decide

section
variable {before after : List AlarmRec} {a : AlarmRec}

theorem lowestRank_split (hbefore : ∀ c ∈ before, a.grade.rank < c.grade.rank) (hafter : ∀ c ∈ after,
    a.grade.rank ≤ c.grade.rank) :
    lowestRank (before ++ a :: after) = a.grade.rank := by
  obtain ⟨-, hall, hmost⟩ := lowestRank_spec (before ++ a :: after) 3
  refine Nat.le_antisymm (hall a (by simp)) (hmost _ (Grade.rank_le _) fun b hb => ?_)
  rcases List.mem_append.mp hb with hb | hb
  · exact (hbefore b hb).le
  · rcases List.mem_cons.mp hb with rfl | hb
    · exact Nat.le_refl _
    · exact hafter b hb

/-- The oldest record of the lowest grade leaves for an arrival above it. -/
theorem Consult.full_split {x : Slot} (hlower : a.grade.rank < x.grade.rank)
    (hbefore : ∀ c ∈ before, a.grade.rank < c.grade.rank) (hafter : ∀ c ∈ after, a.grade.rank ≤ c.grade.rank) (r : RackNo)
    (p : PlugNo) (now : Time) :
    Consult.full (before ++ a :: after) x r p now =
      { Consult.place (before ++ after) x r p now with displacement := some a } := by
  have hnot : a ∉ before := fun hmem => Nat.lt_irrefl _ (hbefore a hmem)
  have hfind : (before ++ a :: after).find? (fun b => b.grade.rank == lowestRank (before ++ a :: after)) = some a := by
    rw [lowestRank_split hbefore hafter, List.find?_append, List.find?_eq_none.mpr, Option.none_or,
      List.find?_cons_of_pos (by simp)]
    intro c hc
    simpa using (hbefore c hc).ne'
  rw [Consult.full, hfind]
  simp only [hlower, if_true, List.erase_append_right _ hnot, List.erase_cons_head]

/-- An arrival above no record is dropped. -/
theorem Consult.full_dropped {as : List AlarmRec} {x : Slot} (h : ∀ a ∈ as, x.grade.rank ≤ a.grade.rank) (r : RackNo) (p : PlugNo)
    (now : Time) : Consult.full as x r p now = { alarms := as, slot := { x with displaced := true }, dropped := true } := by
  unfold Consult.full
  split
  · next a ha => rw [if_neg (Nat.not_lt.mpr (h a (List.mem_of_find?_eq_some ha)))]
  · rfl

end

/-! ### What is written back -/

/-- The state once a consulting's records and slots are written. -/
def State.rewritten (s : State) (r : RackNo) (p : PlugNo) (k : Consult) : State :=
  let s := (s.setAlarms k.alarms).setSlot r p k.slot
  match k.displacement with
  | none => s
  | some a =>
    let s := s.bumpReef 20
    if a.released then s
    else s.setSlot a.rack a.plug { s.slot a.rack a.plug with queued := false, displaced := true }

/-- The state once the placing and the dropping are counted, before anything is raised. -/
def State.consulted (s : State) (r : RackNo) (p : PlugNo) (k : Consult) : State :=
  let s := s.rewritten r p k
  let s := if k.placed then s.bumpReef 19 else s
  if k.dropped then s.bumpReef 21 else s

section
variable (s : State) (r : RackNo) (p : PlugNo) (k : Consult)

theorem State.applyConsult_eq : s.applyConsult r p k =
    if k.raised then (s.consulted r p k).raiseAlarm r p else s.consulted r p k := rfl

/-- A property of states that writing alarms, slots and counters keeps holds of what a consulting writes. -/
theorem State.consulted_keeps {P : State → Prop} (hs : P s) (halarms : ∀ u as, P u → P (State.setAlarms u as))
    (hslot : ∀ u i j x, P u → P (State.setSlot u i j x)) (hbump : ∀ u n,
      P u → P (State.bumpReef u n)) : P (s.consulted r p k) := by
  have hwritten := hslot _ r p k.slot (halarms s k.alarms hs)
  have hcount : ∀ (b : Bool) (n : Fin 25) (u : State), P u → P (if b then u.bumpReef n else u) := fun b n u hu => by
    cases b
    · exact hu
    · exact hbump u n hu
  unfold State.consulted State.rewritten
  refine hcount _ _ _ (hcount _ _ _ ?_)
  split
  · exact hwritten
  · split
    · exact hbump _ _ hwritten
    · exact hslot _ _ _ _ (hbump _ _ hwritten)

theorem State.consulted_keepsAllBut : s.KeepsAllBut (s.consulted r p k) [.reefer] := by
  refine s.consulted_keeps r p k (P := fun u => s.KeepsAllBut u [.reefer]) (State.KeepsAllBut.refl s _) ?_ ?_ ?_ <;> intro u
  · exact fun as hu => hu.trans fun q hq => by cases q <;> simp_all [Part.same]
  · exact fun i j x hu => hu.trans fun q hq => by cases q <;> simp_all [Part.same]
  · exact fun n hu => hu.trans fun q hq => by cases q <;> simp_all [Part.same]

theorem State.interest_consulted : (s.consulted r p k).reefer.interest = s.reefer.interest :=
  s.consulted_keeps r p k (P := fun u => u.reefer.interest = s.reefer.interest) rfl (fun _ _ hu => hu) (fun _ _ _ _ hu => hu)
    fun _ _ hu => hu

theorem State.racks_consulted : (s.consulted r p k).reefer.racks = s.reefer.racks :=
  s.consulted_keeps r p k (P := fun u => u.reefer.racks = s.reefer.racks) rfl (fun _ _ hu => hu) (fun _ _ _ _ hu => hu)
    fun _ _ hu => hu

theorem State.covers_consulted (l : LinkNo) (i : RackNo) : (s.consulted r p k).covers l i = s.covers l i := by
  have hregistry : (s.consulted r p k).registry = s.registry := s.consulted_keepsAllBut r p k .registry (by simp)
  simp only [State.covers, State.rackRec, State.entry, hregistry, s.racks_consulted, s.interest_consulted]

theorem State.applyConsult_links_of_quiet (h : k.raised = false) : (s.applyConsult r p k).links = s.links := by
  rw [State.applyConsult_eq, h]
  exact s.consulted_keepsAllBut r p k .links (by simp)

theorem State.applyConsult_link_of_raised (h : k.raised = true) (l : LinkNo) :
    (s.applyConsult r p k).link l = if s.covers l r = true ∨ (look s.reefer.interest l).allAlarms = true then
      (s.link l).raise (.alarmRaised r p ((s.applyConsult r p k).slot r p).grade ((s.applyConsult r p k).slot r p).dose
        ((s.applyConsult r p k).slot r p).reasons) else s.link l := by
  have hlinks : (s.consulted r p k).links = s.links := s.consulted_keepsAllBut r p k .links (by simp)
  rw [State.applyConsult_eq, h, if_pos rfl, State.slot_raiseAlarm]
  simp only [State.raiseAlarm, State.bumpReef_frame, State.link]
  have hraise := (s.consulted r p k).raiseWhere_link
    (fun l _ => (s.consulted r p k).covers l r || (look (s.consulted r p k).reefer.interest l).allAlarms)
    (.alarmRaised r p ((s.consulted r p k).slot r p).grade ((s.consulted r p k).slot r p).dose
      ((s.consulted r p k).slot r p).reasons) l
  simp only [State.link, hlinks, s.covers_consulted, s.interest_consulted, Bool.or_eq_true] at hraise
  simpa only [s.covers_consulted, s.interest_consulted] using hraise

/-! ### What is counted -/

theorem State.counter_bumpReef (m n : Fin 25) : look (s.bumpReef m).reefer.counters n =
    if n = m then satInc (look s.reefer.counters n) else look s.reefer.counters n := by
  by_cases h : n = m
  · simp [State.bumpReef, h]
  · simp [State.bumpReef, h]

theorem State.counters_rewritten : (s.rewritten r p k).reefer.counters =
    if k.displacement.isSome then bump s.reefer.counters 20 else s.reefer.counters := by
  unfold State.rewritten
  split
  · next h => rw [h]; rfl
  · next a h =>
    rw [h]
    split <;> rfl

/-- The placing counts at 19 and the dropping at 21, and nothing else here. -/
theorem State.counter_consulted {n : Fin 25} (h19 : n ≠ 19) (h21 : n ≠ 21) :
    look (s.consulted r p k).reefer.counters n = look (s.rewritten r p k).reefer.counters n := by
  unfold State.consulted
  cases k.placed <;> cases k.dropped <;> simp [State.counter_bumpReef, h19, h21]

/-- The raising counts at 18. -/
theorem State.counter_applyConsult (n : Fin 25) : look (s.applyConsult r p k).reefer.counters n =
    if k.raised = true ∧ n = 18 then satInc (look (s.consulted r p k).reefer.counters n)
    else look (s.consulted r p k).reefer.counters n := by
  rw [State.applyConsult_eq]
  cases k.raised <;> simp [State.raiseAlarm, State.counter_bumpReef]

theorem State.displaced_counted {a : AlarmRec} (h : k.displacement = some a) :
    look (s.applyConsult r p k).reefer.counters 20 = satInc (look s.reefer.counters 20) := by
  rw [State.counter_applyConsult, if_neg (by simp), s.counter_consulted r p k (by decide) (by decide), s.counters_rewritten, h]
  exact look_bump_self _ _

theorem State.raised_counted (h : k.raised = true) :
    look (s.applyConsult r p k).reefer.counters 18 = satInc (look s.reefer.counters 18) := by
  have hkept : look (s.rewritten r p k).reefer.counters 18 = look s.reefer.counters 18 := by
    rw [s.counters_rewritten]
    split
    · exact look_bump_ne _ (by decide)
    · rfl
  rw [State.counter_applyConsult, if_pos ⟨h, rfl⟩, s.counter_consulted r p k (by decide) (by decide), hkept]

/-! ### What the slots become -/

theorem State.applyConsult_slot_of_none (h : k.displacement = none) : (s.applyConsult r p k).slot r p = k.slot := by
  rw [State.slots_applyConsult, Consult.slots, h]
  exact withSlot_self _ _ _ _

theorem State.applyConsult_slots_of_some {a : AlarmRec} (h : k.displacement = some a) (hother : (a.rack, a.plug) ≠ (r, p)) :
    (s.applyConsult r p k).slot r p = k.slot ∧ (s.applyConsult r p k).slot a.rack a.plug =
      (if a.released then s.slot a.rack a.plug else { s.slot a.rack a.plug with queued := false, displaced := true }) := by
  have hother' : ¬(a.rack = r ∧ a.plug = p) := fun he => hother (by rw [he.1, he.2])
  rw [State.slots_applyConsult, Consult.slots_of_displacement h hother']
  refine ⟨withSlot_self _ _ _ _, ?_⟩
  rw [withSlot_other _ _ hother']
  split
  · rfl
  · exact withSlot_self _ _ _ _

theorem State.applyConsult_keepsAllBut : s.KeepsAllBut (s.applyConsult r p k) [.links, .reefer] := by
  intro q hq
  cases q <;> simp_all [Part.same]

end

/-- Settles O48: the queue's answer for a slot with a record, one that lost its record, and one with neither, the last by what the
queue has room for; and what of the answer is written back. -/
theorem theAlarmQueueTakesGrades : Obligations.TheAlarmQueueTakesGrades := by
  refine ⟨fun as x r p now reading => ⟨fun hq => consult_of_queued hq reading, ?_, ?_, ?_, ?_, ?_, ?_, ?_⟩,
    fun s r p reading => ?_⟩
  · rintro hq hd rfl
    rw [consult_of_displaced hq hd, if_pos rfl]
  · rintro hq hd rfl hcalls
    rw [consult_of_displaced hq hd, if_neg (by decide), if_pos (Bool.eq_false_iff.mpr (mt x.calls_iff.mp hcalls))]
  · rintro hq hd rfl hcalls hroom
    rw [consult_of_displaced hq hd, if_neg (by decide), if_neg (by simpa using x.calls_iff.mpr hcalls), if_pos hroom]
    rfl
  · rintro hq hd rfl hcalls hfull
    rw [consult_of_displaced hq hd, if_neg (by decide), if_neg (by simpa using x.calls_iff.mpr hcalls),
      if_neg (Nat.not_lt.mpr hfull)]
  · rintro hq hd hcalls
    rw [consult_of_neither hq hd, if_neg (mt x.calls_iff.mp hcalls)]
  · rintro hq hd hcalls hroom
    rw [consult_of_neither hq hd, if_pos (x.calls_iff.mpr hcalls), if_pos hroom]
    rfl
  · rintro hq hd hcalls hfull
    rw [consult_of_neither hq hd, if_pos (x.calls_iff.mpr hcalls), if_neg (Nat.not_lt.mpr hfull)]
    refine ⟨fun before after a hsplit hlower hbefore hafter => ?_, fun hnone => Consult.full_dropped hnone r p now⟩
    rw [hsplit, Consult.full_split hlower hbefore hafter]
    rfl
  · refine ⟨s.alarms_applyConsult r p _, s.applyConsult_slot_of_none r p _, fun a ha hother => ?_,
      s.applyConsult_links_of_quiet r p _, fun hraised => ⟨s.raised_counted r p _ hraised, fun l => ?_⟩,
      s.applyConsult_keepsAllBut r p _⟩
    · obtain ⟨hslot, hlost⟩ := s.applyConsult_slots_of_some r p _ ha hother
      exact ⟨hslot, hlost, s.displaced_counted r p _ ha⟩
    · exact s.applyConsult_link_of_raised r p _ hraised l

end Sys2Proof.Machine
end

section
/-! PROOFS. Who holds the beams (R68 to R70): the invariant for each beam, for each head and between the two, and what the head
lines
make of it. -/

namespace Sys2Proof.Machine

/-! ### Link sets and beam numbers -/

theorem LinkSet.isNone_iff (m : LinkSet) : m.isNone = true ↔ ∀ l : LinkNo, look m l = false := by
  have hall : ∀ l : LinkNo, l ∈ allLinks := by decide
  simp [LinkSet.isNone, LinkSet.members, hall]

theorem LinkSet.isNone_eq_false_iff (m : LinkSet) : m.isNone = false ↔ ∃ l : LinkNo, look m l = true := by
  rw [← Bool.not_eq_true, LinkSet.isNone_iff]
  simp

@[simp] theorem LinkSet.look_none (l : LinkNo) : look LinkSet.none l = false := look_replicate _ _

theorem LinkSet.look_only (l m : LinkNo) : look (LinkSet.only l) m = true ↔ m = l := by
  rw [LinkSet.only, look_put]
  split <;> simp_all

@[simp] theorem headOf_beamOf (h : HeadNo) (v : Side) : headOf (beamOf h v) = h := by
  cases v <;> simp only [beamOf, headOf, Fin.ext_iff] <;> omega

theorem beamOf_ne (h : HeadNo) : beamOf h .b ≠ beamOf h .a := by
  simp [beamOf, Fin.ext_iff]

theorem beam_of_head {b : BeamNo} {h : HeadNo} (hb : headOf b = h) : b = beamOf h .a ∨ b = beamOf h .b := by
  subst hb
  simp only [beamOf, headOf, Fin.ext_iff]
  omega

/-! ### The invariant -/

/-- A beam is held as R68 and R69 have it: by UP links alone, STEERING and OPEN exactly while it has a holder, a burst only
while it is
OPEN for a holder. `lost`: the owners whom a link DOWN has already taken out of the holders; `empty`: the beam may stand without
holders until it is closed. -/
structure Beam.Fits (x : Beam) (up : LinkNo → Bool) (lost : LinkNo → Prop) (empty : Prop) : Prop where
  held : x.heldState → (∃ l, look x.holders l = true) ∨ empty
  holders : ∀ l, look x.holders l = true → x.heldState ∧ up l = true
  burst : ∀ u ∈ x.burst, x.state = .opened ∧ (look x.holders u.owner = true ∨ lost u.owner)
  awaiting : ∀ q ∈ x.awaiting, up q.ref.link = true

/-- A head's line: commands wait only behind an outstanding one, and one sweep is on hand at most (R70, R79). -/
structure Head.Fits (x : Head) : Prop where
  sends : x.outstanding = none → x.queue = []
  sweeps : x.sweeps ≤ 1

/-- What a head asks of its beams (R69, R79). -/
structure Head.Rules (x : Head) (y : Beam) : Prop where
  down : x.state ≠ .ready → y.state = .down
  surveying : x.sweeps = 1 → y.state = .surveying

structure State.Held (s : State) (up : LinkNo → Bool) (lost : BeamNo → LinkNo → Prop) (empty : BeamNo → Prop) : Prop where
  beam : ∀ b : BeamNo, (s.beam b).Fits up (lost b) (empty b)
  head : ∀ h : HeadNo, (s.head h).Fits
  rules : ∀ b : BeamNo, (s.head (headOf b)).Rules (s.beam b)
  waits : ∀ w ∈ s.beamCtl.waitList, up w.req.ref.link = true
  few : s.beamCtl.waitList.length ≤ 16

/-- The invariant of a machine at rest: no beam is about to be closed. -/
abbrev State.HeldBy (s : State) (up : LinkNo → Bool) : Prop := s.Held up (fun _ _ => False) (fun _ => False)

theorem State.beamsHeld_iff (s : State) :
    s.beamsHeld ↔ s.HeldBy (upOf s.links) ∧ ∀ r ∈ s.handed, upOf s.links r.ref.link = true := by
  constructor
  · rintro ⟨hheld, hup, hburst, hawaiting, hwaits, hhanded, hfew, hsends, hdown, hsweeps, hsurveying⟩
    exact ⟨⟨fun b => ⟨fun h => .inl ((hheld b).mp h), fun l h => ⟨(hheld b).mpr ⟨l, h⟩, hup b l h⟩,
      fun u hu => ⟨(hburst b u hu).1, .inl (hburst b u hu).2⟩, hawaiting b⟩, fun h => ⟨hsends h, hsweeps h⟩,
      fun b => ⟨hdown b, hsurveying b⟩, hwaits, hfew⟩, hhanded⟩
  · rintro ⟨⟨hbeam, hhead, hrules, hwaits, hfew⟩, hhanded⟩
    exact ⟨fun b => ⟨fun h => ((hbeam b).held h).resolve_right id, fun ⟨l, h⟩ => ((hbeam b).holders l h).1⟩,
      fun b l h => ((hbeam b).holders l h).2, fun b u hu => ⟨((hbeam b).burst u hu).1, ((hbeam b).burst u hu).2.resolve_right id⟩,
      fun b => (hbeam b).awaiting, hwaits, hhanded, hfew, fun h => (hhead h).sends, fun b => (hrules b).down,
      fun h => (hhead h).sweeps, fun b => (hrules b).surveying⟩

/-! ### One beam -/

section
variable {x : Beam} {up : LinkNo → Bool} {lost : LinkNo → Prop} {empty : Prop}

theorem Beam.Fits.mono {lost' : LinkNo → Prop} {empty' : Prop} (h : x.Fits up lost empty) (hl : ∀ l, lost l → lost' l)
    (he : empty → empty') : x.Fits up lost' empty' :=
  ⟨fun hs => (h.held hs).imp_right he, h.holders, fun u hu => (h.burst u hu).imp_right fun ho => ho.imp_right (hl _), h.awaiting⟩

/-- A beam that is neither STEERING nor OPEN has no holder and no burst. -/
theorem Beam.Fits.free (h : x.Fits up lost empty) (hx : ¬x.heldState) : x.burst = none ∧ ∀ l, look x.holders l = false := by
  refine ⟨Option.eq_none_iff_forall_ne_some.mpr fun u hu => hx (.inr (h.burst u hu).1), fun l => ?_⟩
  by_contra hl
  exact hx (h.holders l (by simpa using hl)).1

/-- A beam that is not OPEN has no burst. -/
theorem Beam.Fits.burst_none (h : x.Fits up lost empty) (hx : x.state ≠ .opened) : x.burst = none :=
  Option.eq_none_iff_forall_ne_some.mpr fun u hu => hx (h.burst u hu).1

/-- A beam without holders, burst or requests in a state that is not held fits. -/
theorem Beam.fits_of_free (hstate : ¬x.heldState) (hholders : ∀ l, look x.holders l = false) (hburst : x.burst = none)
    (hawaiting : ∀ q ∈ x.awaiting, up q.ref.link = true) : x.Fits up lost empty :=
  ⟨fun h => absurd h hstate, fun l h => absurd h (by simp [hholders l]), fun u h => (by rw [hburst] at h; cases h), hawaiting⟩

/-- A beam goes from one state in which it is not held to another. -/
theorem Beam.Fits.restate (h : x.Fits up lost empty) (hx : ¬x.heldState) {v : BeamState} (hv : v ≠ .steering ∧ v ≠ .opened) :
    Beam.Fits { x with state := v } up lost empty :=
  Beam.fits_of_free (not_or.mpr hv) (h.free hx).2 (h.free hx).1 h.awaiting

theorem Beam.not_heldState_iff : ¬x.heldState ↔ x.state ≠ .steering ∧ x.state ≠ .opened := not_or

end

/-! ### Writing one beam or one head -/

section
variable {s t : State} {up : LinkNo → Bool} {lost : BeamNo → LinkNo → Prop} {empty : BeamNo → Prop}

theorem State.Held.of_beamCtl (h : t.beamCtl = s.beamCtl) (hs : s.Held up lost empty) : t.Held up lost empty := by
  obtain ⟨hbeam, hhead, hrules, hwaits, hfew⟩ := hs
  refine ⟨fun b => ?_, fun i => ?_, fun b => ?_, ?_, ?_⟩
  · rw [State.beam_of_beamCtl h]; exact hbeam b
  · rw [State.head_of_beamCtl h]; exact hhead i
  · rw [State.beam_of_beamCtl h, State.head_of_beamCtl h]; exact hrules b
  · rw [h]; exact hwaits
  · rw [h]; exact hfew

theorem State.Held.mono {lost' : BeamNo → LinkNo → Prop} {empty' : BeamNo → Prop} (hs : s.Held up lost empty)
    (hl : ∀ b l, lost b l → lost' b l) (he : ∀ b, empty b → empty' b) : s.Held up lost' empty' :=
  ⟨fun b => (hs.beam b).mono (hl b) (he b), hs.head, hs.rules, hs.waits, hs.few⟩

/-- A head whose beam is neither DOWN nor SURVEYING is READY and has no sweep on hand, and so asks nothing of its beams. -/
theorem State.Held.rules_of_free (hs : s.Held up lost empty) {b : BeamNo} (hdown : (s.beam b).state ≠ .down)
    (hsurveying : (s.beam b).state ≠ .surveying) (y : Beam) : (s.head (headOf b)).Rules y :=
  ⟨fun h => absurd ((hs.rules b).down h) hdown, fun h => absurd ((hs.rules b).surveying h) hsurveying⟩

theorem State.Held.rules_of_held (hs : s.Held up lost empty) {b : BeamNo} (h : (s.beam b).heldState) (y : Beam) :
    (s.head (headOf b)).Rules y := by
  rcases h with h | h <;> exact hs.rules_of_free (by rw [h]; decide) (by rw [h]; decide) y

/-- A beam is written; the others may be judged anew. -/
theorem State.Held.setBeam_of {lost' : BeamNo → LinkNo → Prop} {empty' : BeamNo → Prop} (hs : s.Held up lost empty) {b : BeamNo}
    {y : Beam} (hy : y.Fits up (lost' b) (empty' b)) (hrules : (s.head (headOf b)).Rules y)
    (hother : ∀ i, i ≠ b → (∀ l, lost i l → lost' i l) ∧ (empty i → empty' i)) : (s.setBeam b y).Held up lost' empty' := by
  refine ⟨fun i => ?_, hs.head, fun i => ?_, hs.waits, hs.few⟩
  · rw [State.beam_setBeam]
    split
    · next hi => rw [hi]; exact hy
    · next hi => exact (hs.beam i).mono (hother i hi).1 (hother i hi).2
  · rw [State.beam_setBeam, State.head_setBeam]
    split
    · next hi => rw [hi]; exact hrules
    · exact hs.rules i

theorem State.Held.setBeam (hs : s.Held up lost empty) {b : BeamNo} {y : Beam} (hy : y.Fits up (lost b) (empty b))
    (hrules : (s.head (headOf b)).Rules y) : (s.setBeam b y).Held up lost empty :=
  hs.setBeam_of hy hrules fun _ _ => ⟨fun _ hl => hl, id⟩

/-- A beam is written with the state, the holders and the burst it had. -/
theorem State.Held.setBeam_same (hs : s.Held up lost empty) {b : BeamNo} {y : Beam} (hstate : y.state = (s.beam b).state)
    (hholders : y.holders = (s.beam b).holders) (hburst : y.burst = (s.beam b).burst)
    (hawaiting : y.awaiting = (s.beam b).awaiting) : (s.setBeam b y).Held up lost empty := by
  obtain ⟨hheld, hup, hb, haw⟩ := hs.beam b
  refine hs.setBeam ⟨?_, ?_, ?_, ?_⟩ ⟨?_, ?_⟩
  · rw [Beam.heldState, hstate, hholders]; exact hheld
  · rw [Beam.heldState, hstate, hholders]; exact hup
  · rw [hburst, hstate, hholders]; exact hb
  · rw [hawaiting]; exact haw
  · rw [hstate]; exact (hs.rules b).down
  · rw [hstate]; exact (hs.rules b).surveying

theorem State.Held.setHead (hs : s.Held up lost empty) {h : HeadNo} {y : Head} (hy : y.Fits)
    (hrules : ∀ b, headOf b = h → y.Rules (s.beam b)) : (s.setHead h y).Held up lost empty := by
  refine ⟨hs.beam, fun i => ?_, fun b => ?_, hs.waits, hs.few⟩
  · rw [State.head_setHead]
    split
    · exact hy
    · exact hs.head i
  · rw [State.head_setHead, State.beam_setHead]
    split
    · next hb => exact hrules b hb
    · exact hs.rules b

/-- A head's line may lose sweeps, and its state stays. -/
theorem State.Held.setHead_line (hs : s.Held up lost empty) {h : HeadNo} {y : Head} (hstate : y.state = (s.head h).state)
    (hsends : y.outstanding = none → y.queue = []) (hsweeps : y.sweeps ≤ (s.head h).sweeps) :
    (s.setHead h y).Held up lost empty := by
  refine hs.setHead ⟨hsends, hsweeps.trans (hs.head h).sweeps⟩ fun b hb => ?_
  subst hb
  refine ⟨fun hnot => (hs.rules b).down (hstate ▸ hnot), fun hone => (hs.rules b).surveying ?_⟩
  have := (hs.head (headOf b)).sweeps
  omega

/-- What a head's line does not show may be written. -/
theorem State.Held.setHead_same (hs : s.Held up lost empty) {h : HeadNo} {y : Head} (hstate : y.state = (s.head h).state)
    (houtstanding : y.outstanding = (s.head h).outstanding) (hqueue : y.queue = (s.head h).queue)
    (hretry : y.retryAt = (s.head h).retryAt) : (s.setHead h y).Held up lost empty := by
  refine hs.setHead_line hstate ?_ ?_
  · rw [houtstanding, hqueue]; exact (hs.head h).sends
  · rw [Head.sweeps, Head.sweeps, houtstanding, hqueue, hretry]

theorem State.Held.setWaitList (hs : s.Held up lost empty) {ws : List WaitEntry} (hwaits : ∀ w ∈ ws, up w.req.ref.link = true)
    (hfew : ws.length ≤ 16) : (s.setWaitList ws).Held up lost empty :=
  ⟨hs.beam, hs.head, hs.rules, hwaits, hfew⟩

/-! ### The head lines -/

/-- A line that is idle sends the front of its queue. -/
def Head.next (x : Head) (now : Time) : Head :=
  match x.outstanding, x.queue with
  | none, c :: rest => { x with
      outstanding := some { cmd := c, number := x.nextNumber, sentAt := now, leftToFinish := false }
      queue := rest, nextNumber := x.nextNumber + 1, lineOut := c.bytes x.nextNumber }
  | _, _ => x

theorem State.setHead_self (s : State) (h : HeadNo) : s.setHead h (s.head h) = s := by
  simp [State.setHead, State.head, put, look]

theorem State.sendNext_beamCtl (s : State) (h : HeadNo) :
    (s.sendNext h).beamCtl = (s.setHead h ((s.head h).next s.clock.ms)).beamCtl := by
  unfold State.sendNext Head.next
  rcases hout : (s.head h).outstanding with _ | o
  · rcases hqueue : (s.head h).queue with _ | ⟨c, rest⟩
    · simp only [hout, hqueue, State.setHead_self]
    · simp only [hout, hqueue]
      split <;> rfl
  · simp only [hout, State.setHead_self]

theorem Head.next_state (x : Head) (now : Time) : (x.next now).state = x.state ∧ (x.next now).survey = x.survey ∧
    (x.next now).retryAt = x.retryAt ∧ (x.next now).restartProbe = x.restartProbe := by
  unfold Head.next
  split <;> simp

theorem Head.next_sends (x : Head) (now : Time) (h : (x.next now).outstanding = none) : (x.next now).queue = [] := by
  unfold Head.next at *
  split at h
  · cases h
  · next hx =>
    cases hq : x.queue with
    | nil => rfl
    | cons c rest => exact absurd hq (hx c rest h)

theorem Head.next_sweeps (x : Head) (now : Time) : (x.next now).sweeps = x.sweeps := by
  unfold Head.next
  split
  · next c rest hout hqueue =>
    by_cases hc : c = .sweep
    · simp [Head.sweeps, hout, hqueue, hc, Nat.add_comm]
    · simp [Head.sweeps, hout, hqueue, hc]
  · rfl

theorem State.setHead_setHead (s : State) (h : HeadNo) (x y : Head) : (s.setHead h x).setHead h y = s.setHead h y := by
  simp [State.setHead]

/-- What joins the queue of a line that sends counts as a sweep or does not. -/
theorem Head.sweeps_push (x : Head) (c : HeadCmd) :
    Head.sweeps { x with queue := x.queue ++ [c] } = x.sweeps + if c = .sweep then 1 else 0 := by
  unfold Head.sweeps
  by_cases hc : c = .sweep
  · simp [hc]
    omega
  · simp [hc]

theorem State.pushCmd_beamCtl (s : State) (h : HeadNo) (c : HeadCmd) :
    (s.pushCmd h c).beamCtl =
      (s.setHead h (Head.next { s.head h with queue := (s.head h).queue ++ [c] } s.clock.ms)).beamCtl := by
  rw [State.pushCmd, State.sendNext_beamCtl, State.setHead_setHead, State.head_setHead_self]
  rfl

theorem State.endOutstanding_beamCtl (s : State) (h : HeadNo) :
    (s.endOutstanding h).beamCtl = (s.setHead h (Head.next { s.head h with outstanding := none } s.clock.ms)).beamCtl := by
  rw [State.endOutstanding, State.sendNext_beamCtl, State.setHead_setHead, State.head_setHead_self]
  rfl

theorem State.Held.pushCmd (hs : s.Held up lost empty) (h : HeadNo) {c : HeadCmd} (hc : c ≠ .sweep) :
    (s.pushCmd h c).Held up lost empty := by
  refine .of_beamCtl (s.pushCmd_beamCtl h c) (hs.setHead_line (Head.next_state _ _).1 (Head.next_sends _ _) ?_)
  rw [Head.next_sweeps, Head.sweeps_push, if_neg hc, Nat.add_zero]

/-- A sweep joins the queue of a head that has none, over SURVEYING beams. -/
theorem State.Held.pushSweep (hs : s.Held up lost empty) {h : HeadNo} (hnone : (s.head h).sweeps = 0)
    (hready : (s.head h).state = .ready) (hbeams : ∀ b, headOf b = h → (s.beam b).state = .surveying) :
    (s.pushCmd h .sweep).Held up lost empty := by
  refine .of_beamCtl (s.pushCmd_beamCtl h .sweep) (hs.setHead ⟨Head.next_sends _ _, ?_⟩ fun b hb => ⟨fun hnot => ?_,
    fun _ => hbeams b hb⟩)
  · rw [Head.next_sweeps, Head.sweeps_push, hnone]
    decide
  · rw [(Head.next_state _ _).1] at hnot
    exact absurd hready hnot

theorem Head.sweeps_endOutstanding_le (x : Head) : Head.sweeps { x with outstanding := none } ≤ x.sweeps := by
  simp [Head.sweeps]

theorem State.Held.endOutstanding (hs : s.Held up lost empty) (h : HeadNo) : (s.endOutstanding h).Held up lost empty := by
  refine .of_beamCtl (s.endOutstanding_beamCtl h) (hs.setHead_line (Head.next_state _ _).1 (Head.next_sends _ _) ?_)
  rw [Head.next_sweeps]
  exact Head.sweeps_endOutstanding_le _

/-- Once the sweep that is on hand has been answered there is none. -/
theorem State.Held.sweeps_endOutstanding (hs : s.Held up lost empty) {h : HeadNo} {o : Outstanding}
    (ho : (s.head h).outstanding = some o) (hsweep : o.cmd = .sweep) (hleft : o.leftToFinish = false) :
    ((s.endOutstanding h).head h).sweeps = 0 := by
  have hone := (hs.head h).sweeps
  rw [State.head_of_beamCtl (s.endOutstanding_beamCtl h), State.head_setHead_self, Head.next_sweeps]
  simp only [Head.sweeps, ho, hsweep, hleft, and_self, if_true] at hone ⊢
  omega

@[simp] theorem State.beam_pushCmd (s : State) (h : HeadNo) (c : HeadCmd) (b : BeamNo) : (s.pushCmd h c).beam b = s.beam b := by
  rw [State.beam_of_beamCtl (s.pushCmd_beamCtl h c), State.beam_setHead]

@[simp] theorem State.beam_endOutstanding (s : State) (h : HeadNo) (b : BeamNo) : (s.endOutstanding h).beam b = s.beam b := by
  rw [State.beam_of_beamCtl (s.endOutstanding_beamCtl h), State.beam_setHead]

end

end Sys2Proof.Machine
end

section
/-! PROOFS. Who holds the beams: steering, joining, serving the wait list, sweeps, closing and losses (R73 to R83). -/

namespace Sys2Proof.Machine

section
variable {s : State} {up : LinkNo → Bool} {lost : BeamNo → LinkNo → Prop} {empty : BeamNo → Prop}

/-! ### Steering and joining -/

theorem State.Held.steer (hs : s.Held up lost empty) {b : BeamNo} (hidle : (s.beam b).state = .idle) {r : OpenReq}
    (hr : up r.ref.link = true) (g : SegNo) (oneShot : Bool) : (s.steer b r g oneShot).Held up lost empty := by
  have hfree := (hs.beam b).free (Beam.not_heldState_iff.mpr (by rw [hidle]; decide))
  refine State.Held.pushCmd (hs.setBeam ⟨fun _ => ?_, fun l hl => ?_, fun u hu => ?_, fun q hq => ?_⟩ ?_) _ (by simp)
  · exact .inl ⟨r.ref.link, (LinkSet.look_only _ _).mpr rfl⟩
  · rw [(LinkSet.look_only _ _).mp hl]
    exact ⟨.inl rfl, hr⟩
  · rw [show _ = none from hfree.1] at hu
    cases hu
  · rw [List.mem_singleton.mp hq]
    exact hr
  · exact hs.rules_of_free (by rw [hidle]; decide) (by rw [hidle]; decide) _

/-- A beam that a request has joined. -/
def Beam.joined (x : Beam) (r : OpenReq) : Beam :=
  { x with holders := put x.holders r.ref.link true, awaiting := if x.state = .opened then x.awaiting else x.awaiting ++ [r] }

theorem State.join_beamCtl (s : State) (b : BeamNo) (r : OpenReq) (g : SegNo) :
    (s.join b r g).beamCtl = (s.setBeam b ((s.beam b).joined r)).beamCtl := by
  unfold State.join Beam.joined
  dsimp only
  split
  · simp
  · simp

theorem Beam.Fits.joined {x : Beam} {gone : LinkNo → Prop} {vacant : Prop} (hx : x.Fits up gone vacant) (hheld : x.heldState)
    {r : OpenReq} (hr : up r.ref.link = true) : (x.joined r).Fits up gone vacant := by
  refine ⟨fun _ => .inl ⟨r.ref.link, look_put_self _ _ _⟩, fun l hl => ⟨hheld, ?_⟩, fun u hu => ?_, fun q hq => ?_⟩
  · by_cases h : l = r.ref.link
    · rw [h]; exact hr
    · exact (hx.holders l (by simpa [Beam.joined, h] using hl)).2
  · refine ⟨(hx.burst u hu).1, (hx.burst u hu).2.imp_left fun ho => ?_⟩
    simp only [Beam.joined, look_put]
    split
    · rfl
    · exact ho
  · simp only [Beam.joined] at hq
    split at hq
    · exact hx.awaiting q hq
    · rcases List.mem_append.mp hq with hq | hq
      · exact hx.awaiting q hq
      · rw [List.mem_singleton.mp hq]; exact hr

theorem State.Held.join (hs : s.Held up lost empty) {b : BeamNo} (hheld : (s.beam b).heldState) {r : OpenReq}
    (hr : up r.ref.link = true) (g : SegNo) : (s.join b r g).Held up lost empty :=
  .of_beamCtl (s.join_beamCtl b r g) (hs.setBeam ((hs.beam b).joined hheld hr) (hs.rules_of_held hheld _))

theorem State.heldState_join {b : BeamNo} (hheld : (s.beam b).heldState) (r : OpenReq) (g : SegNo) :
    ((s.join b r g).beam b).heldState := by
  rw [State.beam_of_beamCtl (s.join_beamCtl b r g), State.beam_setBeam_self]
  exact hheld

/-- A held beam takes waiting entries of links that are UP. -/
theorem State.Held.foldl_join (hs : s.Held up lost empty) {b : BeamNo} (hheld : (s.beam b).heldState) (g : SegNo)
    {ws : List WaitEntry} (hws : ∀ w ∈ ws, up w.req.ref.link = true) :
    (ws.foldl (fun s w => s.join b w.req g) s).Held up lost empty := by
  induction ws generalizing s with
  | nil => exact hs
  | cons w ws ih =>
    exact ih (hs.join hheld (hws w List.mem_cons_self) g) (State.heldState_join hheld w.req g)
      fun v hv => hws v (List.mem_cons_of_mem w hv)

theorem State.Held.joinWaiting (hs : s.Held up lost empty) {b : BeamNo} (hheld : (s.beam b).heldState) (g : SegNo) :
    (s.joinWaiting b g).Held up lost empty := by
  refine State.Held.foldl_join (hs.setWaitList (fun w hw => hs.waits w (List.mem_of_mem_filter hw)) ?_) hheld g
    fun w hw => hs.waits w (List.mem_of_mem_filter hw)
  exact (List.length_filter_le _ _).trans hs.few

theorem State.heldState_steer (s : State) (b : BeamNo) (r : OpenReq) (g : SegNo) (oneShot : Bool) :
    ((s.steer b r g oneShot).beam b).heldState := by
  simp only [State.steer, State.beam_pushCmd, State.beam_setBeam_self]
  exact .inl rfl

theorem State.Held.serveIdle (hs : s.Held up lost empty) (b : BeamNo) : (s.serveIdle b).Held up lost empty := by
  unfold State.serveIdle
  dsimp only
  split
  · next hidle =>
    split
    · exact hs
    · next w hw =>
      have hmem := List.mem_of_find?_eq_some hw
      have hlist : (s.setWaitList (s.beamCtl.waitList.erase w)).Held up lost empty :=
        hs.setWaitList (fun v hv => hs.waits v (List.mem_of_mem_erase hv)) ((List.length_erase_le).trans hs.few)
      have hsteer := hlist.steer (b := b) hidle.1 (hs.waits w hmem) w.seg w.oneShot
      split
      · exact hsteer
      · exact hsteer.joinWaiting (State.heldState_steer _ _ _ _ _) _
  · exact hs

theorem State.heldState_of_joinable {b : BeamNo} (h : s.joinable b = true) : (s.beam b).heldState := by
  simp only [State.joinable, Bool.and_eq_true, Bool.or_eq_true, beq_iff_eq] at h
  exact h.1.1.1.1.symm

theorem State.Held.serveOpen (hs : s.Held up lost empty) (b : BeamNo) : (s.serveOpen b).Held up lost empty := by
  unfold State.serveOpen
  split
  · split
    · next h => exact hs.joinWaiting (State.heldState_of_joinable h) _
    · exact hs
  · exact hs

/-! ### Sweeps -/

/-- A beam that is not held goes to a state in which it is not held, as its head allows. -/
theorem State.Held.restate (hs : s.Held up lost empty) {b : BeamNo} (hb : ¬(s.beam b).heldState) {v : BeamState}
    (hv : v ≠ .steering ∧ v ≠ .opened) (hrules : (s.head (headOf b)).Rules { s.beam b with state := v }) :
    (s.setBeam b { s.beam b with state := v }).Held up lost empty :=
  hs.setBeam ((hs.beam b).restate hb hv) hrules

theorem State.sweepMay_spec {h : HeadNo} (hmay : s.sweepMay h = true) :
    (s.head h).state = .ready ∧ (s.beam (beamOf h .a)).state = .idle ∧ (s.beam (beamOf h .b)).state = .idle ∧
    (s.head h).sweeps = 0 := by
  simp only [State.sweepMay, Bool.and_eq_true, beq_iff_eq, Option.isNone_iff_eq_none, List.isEmpty_iff] at hmay
  obtain ⟨⟨⟨⟨⟨⟨⟨hready, -⟩, ha⟩, hb⟩, hout⟩, hqueue⟩, hretry⟩, -⟩ := hmay
  exact ⟨hready, ha, hb, by simp [Head.sweeps, hout, hqueue, hretry]⟩

/-- A READY head without a sweep asks nothing of its beams. -/
theorem Head.rules_of_ready {x : Head} (hready : x.state = .ready) (hnone : x.sweeps = 0) (y : Beam) : x.Rules y :=
  ⟨fun h => absurd hready h, fun h => absurd (hnone.symm.trans h) (by decide)⟩

theorem State.Held.trySweep (hs : s.Held up lost empty) (h : HeadNo) : (s.trySweep h).Held up lost empty := by
  unfold State.trySweep
  split
  · next hmay =>
    obtain ⟨hready, ha, hb, hnone⟩ := State.sweepMay_spec hmay
    have hrules : ∀ (v : Side) (y : Beam), (s.head (headOf (beamOf h v))).Rules y := fun v y => by
      rw [headOf_beamOf]
      exact Head.rules_of_ready hready hnone y
    have hfirst := hs.restate (v := .surveying) (Beam.not_heldState_iff.mpr (by rw [ha]; decide)) (by decide) (hrules .a _)
    have hother : ((s.setBeam (beamOf h .a) { s.beam (beamOf h .a) with state := .surveying }).beam (beamOf h .b)).state =
      .idle := by
      rw [State.beam_setBeam, if_neg (beamOf_ne h), hb]
    have hboth := hfirst.restate (v := .surveying) (Beam.not_heldState_iff.mpr (by rw [hother]; decide)) (by decide) (hrules .b _)
    refine .of_beamCtl (State.bumpCov_frame _ _).2.2.2.2.2.1 (hboth.pushSweep hnone hready fun b hbh => ?_)
    rcases beam_of_head hbh with rfl | rfl
    · rw [State.beam_setBeam, if_neg (beamOf_ne h).symm, State.beam_setBeam_self]
    · rw [State.beam_setBeam_self]
  · exact hs

theorem State.Held.becameIdle (hs : s.Held up lost empty) (b : BeamNo) : (s.becameIdle b).Held up lost empty :=
  (hs.trySweep (headOf b)).serveIdle b

/-! ### Closing -/

theorem Beam.cleared_holders (x : Beam) (v : BeamState) (l : LinkNo) : look (x.cleared v).holders l = false :=
  LinkSet.look_none l

/-- A beam without a burst, cleared into a state in which it is not held, fits. -/
theorem Beam.cleared_fits {x : Beam} (hburst : x.burst = none) {v : BeamState} (hv : v ≠ .steering ∧ v ≠ .opened)
    (gone : LinkNo → Prop) (vacant : Prop) : (x.cleared v).Fits up gone vacant :=
  Beam.fits_of_free (not_or.mpr hv) (x.cleared_holders v) hburst fun q hq => by cases hq

theorem Head.sweeps_dropSteer (x : Head) (v : Side) : (x.dropSteer v).sweeps = x.sweeps := by
  unfold Head.sweeps Head.dropSteer
  dsimp only
  rw [List.filter_filter]
  congr 3
  refine List.filter_congr fun c _ => ?_
  cases c <;> simp

theorem State.Held.dropSteer (hs : s.Held up lost empty) (h : HeadNo) (v : Side) :
    (s.setHead h ((s.head h).dropSteer v)).Held up lost empty := by
  refine hs.setHead_line rfl (fun hout => ?_) (Head.sweeps_dropSteer _ _).le
  have : (s.head h).queue = [] := (hs.head h).sends hout
  simp [Head.dropSteer, this]

/-- A beam that is held closes, which settles that it stood without holders. -/
theorem State.Held.closeBeam (hs : s.Held up lost empty) {b : BeamNo} (hburst : (s.beam b).burst = none)
    (r : Option LossReason) : (s.closeBeam b r).Held up lost (fun i => empty i ∧ i ≠ b) := by
  have hother : ∀ i, i ≠ b → (∀ l, lost i l → lost i l) ∧ (empty i → empty i ∧ i ≠ b) :=
    fun i hi => ⟨fun _ => id, fun he => ⟨he, hi⟩⟩
  unfold State.closeBeam
  dsimp only
  split
  · next h =>
    have hheld : (s.beam b).heldState := .inl h.1
    exact ((hs.dropSteer _ _).setBeam_of (Beam.cleared_fits hburst (by decide) _ _)
      ((hs.dropSteer _ _).rules_of_held hheld _) hother).becameIdle b
  · split
    · next h =>
      have hheld : (s.beam b).heldState := h.symm
      have hset : ∀ u : State, u.beamCtl = s.beamCtl →
          (u.setBeam b { (s.beam b).cleared .closing with seg := (s.beam b).seg }).Held up lost (fun i => empty i ∧ i ≠ b) := by
        intro u hu
        refine (hs.of_beamCtl hu).setBeam_of ?_ ?_ hother
        · exact Beam.fits_of_free (not_or.mpr (by simp [Beam.cleared]))
            ((s.beam b).cleared_holders .closing) hburst fun q hq => by cases hq
        · rw [State.head_of_beamCtl hu]
          exact hs.rules_of_held hheld _
      refine State.Held.pushCmd ?_ _ (by simp)
      split
      · exact hset _ (by simp)
      · exact hset s rfl
    · next h =>
      refine ⟨fun i => ?_, hs.head, hs.rules, hs.waits, hs.few⟩
      by_cases hi : i = b
      · rw [hi]
        exact ⟨fun hheld => absurd hheld.symm h, (hs.beam b).holders, (hs.beam b).burst, (hs.beam b).awaiting⟩
      · exact (hs.beam i).mono (fun _ => id) fun he => ⟨he, hi⟩

/-- A beam that has its holders closes. -/
theorem State.Held.closeBeam_held (hs : s.Held up lost empty) {b : BeamNo} (hburst : (s.beam b).burst = none)
    (r : Option LossReason) : (s.closeBeam b r).Held up lost empty :=
  (hs.closeBeam hburst r).mono (fun _ _ => id) fun _ h => h.1

/-! ### The end of a burst -/

theorem State.settleBurst_beamCtl (s : State) (b : BeamNo) (u : Burst) (o : Nat → FrameOutcome) :
    (s.settleBurst b u o).beamCtl = (s.setBeam b { s.beam b with burst := none }).beamCtl := by
  have hfold : ∀ (ps : List (Frame × Settled)) (v : State), (ps.foldl State.noteSettled v).beamCtl = v.beamCtl := fun ps v =>
    foldl_keeps State.beamCtl State.noteSettled (fun _ _ => by simp) ps v
  unfold State.settleBurst
  dsimp only
  simp only [State.reportFronts_frame, State.bumpDownBy_frame, hfold]
  rfl

theorem State.Held.settleBurst (hs : s.Held up lost empty) (b : BeamNo) (u : Burst) (o : Nat → FrameOutcome) :
    (s.settleBurst b u o).Held up (fun i l => lost i l ∧ i ≠ b) empty := by
  refine .of_beamCtl (s.settleBurst_beamCtl b u o) (hs.setBeam_of ?_ ?_ fun i hi => ⟨fun _ hl => ⟨hl, hi⟩, id⟩)
  · exact ⟨(hs.beam b).held, (hs.beam b).holders, fun v hv => (by cases hv), (hs.beam b).awaiting⟩
  · exact ⟨(hs.rules b).down, (hs.rules b).surveying⟩

/-- What the beam controller does when a burst of a link has ended: an OPEN beam left without holders closes. -/
theorem State.Held.burstEnded (hs : s.Held up lost empty) {b : BeamNo} (hburst : (s.beam b).burst = none) (l : LinkNo) :
    (s.burstEnded b l).Held up lost empty := by
  unfold State.burstEnded
  dsimp only
  generalize hx : (if (s.beam b).releaseDeferred = true then
    { s.beam b with holders := put (s.beam b).holders l false, releaseDeferred := false } else s.beam b) = x
  have hstate : x.state = (s.beam b).state := by rw [← hx]; split <;> rfl
  have hnone : x.burst = none := by rw [← hx]; split <;> exact hburst
  have hawaiting : x.awaiting = (s.beam b).awaiting := by rw [← hx]; split <;> rfl
  have hholders : ∀ m, look x.holders m = true → look (s.beam b).holders m = true := by
    intro m
    rw [← hx]
    split
    · rw [look_put]
      split
      · intro h; cases h
      · exact id
    · exact id
  have hset : (s.setBeam b x).Held up lost (fun i => empty i ∨ i = b) := by
    refine hs.setBeam_of ⟨fun _ => .inr (.inr rfl), fun m hm => ?_, fun u hu => ?_, ?_⟩ ⟨?_, ?_⟩ fun i _ => ⟨fun _ => id, .inl⟩
    · rw [Beam.heldState, hstate]
      exact (hs.beam b).holders m (hholders m hm)
    · rw [hnone] at hu
      cases hu
    · rw [hawaiting]; exact (hs.beam b).awaiting
    · rw [hstate]; exact (hs.rules b).down
    · rw [hstate]; exact (hs.rules b).surveying
  have hclosed : ∀ r, ((s.setBeam b x).closeBeam b r).Held up lost empty := fun r =>
    (hset.closeBeam (by rw [State.beam_setBeam_self]; exact hnone) r).mono (fun _ _ => id)
      fun i ⟨h, hi⟩ => h.resolve_right hi
  split
  · exact hclosed _
  · split
    · exact hclosed _
    · next h =>
      obtain ⟨-, hsome⟩ := Bool.or_eq_false_iff.mp (Bool.eq_false_iff.mpr h)
      refine ⟨fun i => ?_, hset.head, hset.rules, hset.waits, hset.few⟩
      by_cases hi : i = b
      · have hb := hset.beam b
        rw [State.beam_setBeam_self] at hb
        rw [hi, State.beam_setBeam_self]
        exact ⟨fun _ => .inl ((LinkSet.isNone_eq_false_iff _).mp hsome), hb.holders, hb.burst, hb.awaiting⟩
      · exact (hset.beam i).mono (fun _ => id) fun he => he.resolve_right hi

theorem State.burst_settleBurst (s : State) (b : BeamNo) (u : Burst) (o : Nat → FrameOutcome) :
    ((s.settleBurst b u o).beam b).burst = none := by
  rw [State.beam_of_beamCtl (s.settleBurst_beamCtl b u o), State.beam_setBeam_self]

theorem State.Held.endBurst (hs : s.HeldBy up) (b : BeamNo) (u : Burst) (o : Nat → FrameOutcome) : (s.endBurst b u o).HeldBy up :=
  ((hs.settleBurst b u o).burstEnded (s.burst_settleBurst b u o) u.owner).mono (fun _ _ h => h.1) fun _ => id

/-! ### Losses -/

theorem State.Held.loseBeam (hs : s.Held up lost empty) (b : BeamNo) (g : SegNo) (r : LossReason) :
    (s.loseBeam b g r).Held up lost empty := by
  unfold State.loseBeam
  dsimp only
  split
  · exact hs
  · split
    · split
      · next h => exact hs.closeBeam_held (Option.isNone_iff_eq_none.mp h) _
      · exact hs.setBeam_same rfl rfl rfl rfl
    · exact hs.setBeam_same rfl rfl rfl rfl
    · exact hs

theorem State.Held.cellLost (hs : s.Held up lost empty) (h : HeadNo) (g : SegNo) (r : LossReason) :
    (s.cellLost h g r).Held up lost empty := (hs.loseBeam _ _ _).loseBeam _ _ _

theorem State.Held.sample (hs : s.Held up lost empty) (h : HeadNo) (g : SegNo) (m k : Nat) (n : Fin 24) :
    (s.sample h g m k n).Held up lost empty := by
  unfold State.sample
  split
  · exact hs
  · dsimp only
    split
    · split
      · exact State.Held.cellLost (.of_beamCtl (by simp) hs) _ _ _
      · exact .of_beamCtl (by simp) hs
    · exact .of_beamCtl (by simp) hs

theorem State.Held.burstSample (hs : s.Held up lost empty) (b : BeamNo) (g : Option SegNo) (x y : Nat) :
    (s.burstSample b g x y).Held up lost empty := by
  unfold State.burstSample
  split
  · split
    · exact hs
    · exact hs.sample _ _ _ _ _
  · exact hs

end

end Sys2Proof.Machine
end

section
/-! PROOFS. Who holds the beams: head faults and recovery, requests, the answers of the heads and the timers (R71 to R89). -/

namespace Sys2Proof.Machine

section
variable {s : State} {up : LinkNo → Bool} {lost : BeamNo → LinkNo → Prop} {empty : BeamNo → Prop}

/-! ### Head faults and recovery -/

theorem State.setBeam_congr {t : State} (h : t.beamCtl = s.beamCtl) (b : BeamNo) (y : Beam) :
    (t.setBeam b y).beamCtl = (s.setBeam b y).beamCtl := by
  simp only [State.setBeam, h]

theorem State.setHead_congr {t : State} (h : t.beamCtl = s.beamCtl) (i : HeadNo) (y : Head) :
    (t.setHead i y).beamCtl = (s.setHead i y).beamCtl := by
  simp only [State.setHead, h]

theorem State.setBeam_setBeam (s : State) (b : BeamNo) (x y : Beam) : (s.setBeam b x).setBeam b y = s.setBeam b y := by
  simp [State.setBeam]

/-- A beam of a head in FAULT. -/
def Beam.faulted (x : Beam) : Beam := { x.cleared .down with burst := none }

theorem State.beamFault_beamCtl (s : State) (b : BeamNo) :
    (s.beamFault b).beamCtl = (s.setBeam b (s.beam b).faulted).beamCtl := by
  have hanswers : ∀ (qs : List OpenReq) (u : State), (qs.foldl (fun s r => s.answer r.ref .headFault) u).beamCtl = u.beamCtl :=
    fun qs u => foldl_keeps State.beamCtl (fun s (r : OpenReq) => s.answer r.ref .headFault) (fun _ _ => by simp) qs u
  have hlost : (if (s.beam b).state = .opened then s.raiseLost b .headFault else s).beamCtl = s.beamCtl := by
    split <;> simp
  unfold State.beamFault
  dsimp only
  generalize (if (s.beam b).state = .opened then s.raiseLost b .headFault else s) = v at hlost
  have hset : ((match (s.beam b).burst with
      | some u => v.forcedReturn b u
      | none => v).setBeam b (s.beam b).faulted).beamCtl = (s.setBeam b (s.beam b).faulted).beamCtl := by
    split
    · next u _ =>
      have hreturn : (v.forcedReturn b u).beamCtl = (v.setBeam b { v.beam b with burst := none }).beamCtl := by
        rw [State.forcedReturn, (State.bumpDown_frame _ _).2.2.2.2.2.2.1, State.settleBurst_beamCtl]
      rw [State.setBeam_congr hreturn, State.setBeam_setBeam, State.setBeam_congr hlost]
    · exact State.setBeam_congr hlost _ _
  split
  · rw [hanswers]
    exact hset
  · exact hset

/-- A head once its line and its retry are dropped. -/
def Head.silenced (x : Head) : Head := { x with outstanding := none, queue := [], retryAt := none }

theorem Head.sweeps_silenced (x : Head) : x.silenced.sweeps = 0 := rfl

theorem Beam.faulted_fits (x : Beam) (gone : LinkNo → Prop) (vacant : Prop) : x.faulted.Fits up gone vacant :=
  Beam.fits_of_free (not_or.mpr (by simp [Beam.faulted, Beam.cleared])) (x.cleared_holders .down) rfl fun q hq => by cases hq

theorem State.Held.silence (hs : s.Held up lost empty) (h : HeadNo) :
    (s.setHead h (s.head h).silenced).Held up lost empty :=
  hs.setHead_line rfl (fun _ => rfl) (Nat.zero_le _)

/-- Both beams of a head whose line is dropped go DOWN. -/
theorem State.Held.beamsFault (hs : s.Held up lost empty) {h : HeadNo} (hnone : (s.head h).sweeps = 0) :
    ((s.beamFault (beamOf h .a)).beamFault (beamOf h .b)).Held up lost empty ∧
    ∀ b, headOf b = h → (((s.beamFault (beamOf h .a)).beamFault (beamOf h .b)).beam b).state = .down := by
  have hone : ∀ (u : State) (v : Side), u.Held up lost empty → (u.head h).sweeps = 0 →
      (u.beamFault (beamOf h v)).Held up lost empty ∧ ((u.beamFault (beamOf h v)).head h).sweeps = 0 := fun u v hu hn => by
    refine ⟨.of_beamCtl (u.beamFault_beamCtl _) (hu.setBeam ((u.beam _).faulted_fits _ _) ?_), ?_⟩
    · rw [headOf_beamOf]
      exact ⟨fun _ => rfl, fun h1 => absurd (hn.symm.trans h1) (by decide)⟩
    · rw [State.head_of_beamCtl (u.beamFault_beamCtl _)]
      exact hn
  obtain ⟨ha, hna⟩ := hone s .a hs hnone
  refine ⟨(hone _ .b ha hna).1, fun b hb => ?_⟩
  rw [State.beam_of_beamCtl (State.beamFault_beamCtl _ _), State.beam_setBeam]
  rcases beam_of_head hb with rfl | rfl
  · rw [if_neg (beamOf_ne h).symm, State.beam_of_beamCtl (State.beamFault_beamCtl _ _), State.beam_setBeam_self]
    rfl
  · rw [if_pos rfl]
    rfl

theorem State.beamsFault_beamCtl (s : State) (h : HeadNo) :
    ((s.beamFault (beamOf h .a)).beamFault (beamOf h .b)).beamCtl =
      ((s.setBeam (beamOf h .a) (s.beam (beamOf h .a)).faulted).setBeam (beamOf h .b) (s.beam
        (beamOf h .b)).faulted).beamCtl := by
  rw [State.beamFault_beamCtl, State.setBeam_congr (s.beamFault_beamCtl _), State.beam_of_beamCtl (s.beamFault_beamCtl _),
    State.beam_setBeam, if_neg (beamOf_ne h)]

theorem State.Held.headFault (hs : s.Held up lost empty) (h : HeadNo) : (s.headFault h).Held up lost empty := by
  unfold State.headFault
  dsimp only
  generalize hy : ({ s.head h with state := .fault, outstanding := none, queue := [], retryAt := none, restartProbe := false,
                                   probeAt := some (s.now + 1000) } : Head) = y
  obtain ⟨hfaults, hdown⟩ := (hs.silence h).beamsFault (h := h) (by rw [State.head_setHead_self]; rfl)
  have hfault := hfaults.setHead (h := h) (y := y) (by rw [← hy]; exact ⟨fun _ => rfl, Nat.zero_le _⟩) fun b hb =>
    ⟨fun _ => hdown b hb, fun hone => absurd hone (by rw [← hy]; simp [Head.sweeps])⟩
  have hsame : (((s.setHead h y).beamFault (beamOf h .a)).beamFault (beamOf h .b)).beamCtl =
      (((((s.setHead h (s.head h).silenced).beamFault (beamOf h .a)).beamFault (beamOf h .b))).setHead h y).beamCtl := by
    rw [State.setHead_congr (State.beamsFault_beamCtl _ _), State.beamsFault_beamCtl]
    simp [State.setHead, State.setBeam, State.beam]
  exact .of_beamCtl (by simpa using hsame) hfault

/-- A head whose beams are all DOWN has no sweep on hand. -/
theorem State.Held.noSweep (hs : s.Held up lost empty) {h : HeadNo} (hdown : (s.beam (beamOf h .a)).state ≠ .surveying) :
    (s.head h).sweeps = 0 := by
  have hrules := hs.rules (beamOf h .a)
  rw [headOf_beamOf] at hrules
  have := (hs.head h).sweeps
  by_contra hone
  exact hdown (hrules.surveying (by omega))

/-- Both beams of a READY head without a sweep become IDLE. -/
theorem State.Held.beamsIdle (hs : s.Held up lost empty) {h : HeadNo} (hready : (s.head h).state = .ready)
    (hnone : (s.head h).sweeps = 0) (hbeams : ∀ b, headOf b = h → ¬(s.beam b).heldState) :
    ((s.setBeam (beamOf h .a) { s.beam (beamOf h .a) with state := .idle }).setBeam (beamOf h .b)
      { (s.setBeam (beamOf h .a) { s.beam (beamOf h .a) with state := .idle }).beam (beamOf h .b) with state := .idle }).Held
        up lost empty := by
  have hrules : ∀ (v : Side) (y : Beam), (s.head (headOf (beamOf h v))).Rules y := fun v y => by
    rw [headOf_beamOf]
    exact Head.rules_of_ready hready hnone y
  have hfirst := hs.restate (v := .idle) (hbeams _ (headOf_beamOf h .a)) (by decide) (hrules .a _)
  refine hfirst.restate ?_ (by decide) (hrules .b _)
  rw [State.beam_setBeam, if_neg (beamOf_ne h)]
  exact hbeams _ (headOf_beamOf h .b)

theorem State.Held.recoverHead (hs : s.Held up lost empty) {h : HeadNo} (hfault : (s.head h).state = .fault) :
    (s.recoverHead h).Held up lost empty := by
  have hdown : ∀ b, headOf b = h → (s.beam b).state = .down := fun b hb => (hs.rules b).down (by rw [hb, hfault]; decide)
  have hnone : (s.head h).sweeps = 0 := hs.noSweep (by rw [hdown _ (headOf_beamOf h .a)]; decide)
  unfold State.recoverHead
  dsimp only
  generalize hy : ({ s.head h with state := .ready, probeAt := none, reference := s.now, survey := .due } : Head) = y
  have hready : y.state = .ready := by rw [← hy]
  have hsweeps : y.sweeps = 0 := by rw [← hy]; exact hnone
  have hhead : (s.setHead h y).Held up lost empty := by
    refine hs.setHead ⟨?_, by omega⟩ fun b _ => Head.rules_of_ready hready hsweeps _
    rw [← hy]
    exact (hs.head h).sends
  refine .of_beamCtl (by simp) (hhead.beamsIdle (h := h) (by rw [State.head_setHead_self]; exact hready)
    (by rw [State.head_setHead_self]; exact hsweeps) fun b hb => Beam.not_heldState_iff.mpr ?_)
  rw [State.beam_setHead, hdown b hb]
  decide

theorem State.Held.probed (hs : s.Held up lost empty) (h : HeadNo) : (s.probed h).Held up lost empty := by
  unfold State.probed
  split
  · next hfault => exact hs.recoverHead hfault
  · exact hs.setHead_same rfl rfl rfl rfl

theorem State.Held.answerRunsOut (hs : s.Held up lost empty) (h : HeadNo) : (s.answerRunsOut h).Held up lost empty := by
  unfold State.answerRunsOut
  split
  · exact hs.endOutstanding h
  · exact hs.headFault h

/-! ### Answers -/

theorem State.Held.answered (hs : s.Held up lost empty) {h : HeadNo} {o : Outstanding} {f : State → State}
    (hf : o.leftToFinish = false → (f (s.endOutstanding h)).Held up lost empty) : (s.answered h o f).Held up lost empty := by
  refine State.Held.trySweep ?_ h
  split
  · exact hs.endOutstanding h
  · next hleft => exact hf (by simpa using hleft)

theorem State.Held.foldl_keep {β : Type} {f : State → β → State} (hf : ∀ (u : State) (b : β), (f u b).beamCtl = u.beamCtl)
    (bs : List β) (hs : s.Held up lost empty) : (bs.foldl f s).Held up lost empty :=
  .of_beamCtl (foldl_keeps State.beamCtl f hf bs s) hs

theorem State.Held.steered (hs : s.Held up lost empty) (b : BeamNo) : (s.steered b).Held up lost empty := by
  unfold State.steered
  dsimp only
  split
  · next hsteering =>
    have hburst := (hs.beam b).burst_none (by rw [hsteering]; decide)
    have hset : (s.setBeam b { s.beam b with state := .opened, awaiting := [] }).Held up lost empty := by
      refine hs.setBeam ⟨fun _ => (hs.beam b).held (.inl hsteering), fun l hl => ⟨.inr rfl, ((hs.beam b).holders l hl).2⟩,
        fun u hu => ?_, fun q hq => by cases hq⟩ (hs.rules_of_held (.inl hsteering) _)
      rw [show _ = none from hburst] at hu
      cases hu
    have hclose : ∀ (v : State) (r : Option LossReason),
        v.beamCtl = (s.setBeam b { s.beam b with state := .opened, awaiting := [] }).beamCtl →
        (v.closeBeam b r).Held up lost empty := fun v r hv => by
      refine (hset.of_beamCtl hv).closeBeam_held ?_ r
      rw [State.beam_of_beamCtl hv, State.beam_setBeam_self]
      exact hburst
    have hserve : ∀ v : State, v.beamCtl = (s.setBeam b { s.beam b with state := .opened, awaiting := [] }).beamCtl →
        (v.serveOpen b).Held up lost empty := fun v hv => (hset.of_beamCtl hv).serveOpen b
    split
    · refine hclose _ _ ?_
      split <;> simp
    · refine hserve _ ?_
      split <;> simp
  · exact hs

/-- Requests that come back onto the wait list are of links that are UP, and 16 at most are kept. -/
theorem mem_insertByAge {now : Time} {w v : WaitEntry} {ws : List WaitEntry} (h : v ∈ insertByAge now w ws) : v = w ∨ v ∈ ws := by
  induction ws with
  | nil => exact .inl (List.mem_singleton.mp h)
  | cons x ws ih =>
    unfold insertByAge at h
    split at h
    · exact List.mem_cons.mp h
    · rcases List.mem_cons.mp h with h | h
      · exact .inr (List.mem_cons.mpr (.inl h))
      · exact (ih h).imp_right (List.mem_cons_of_mem x)

theorem mem_foldl_insertByAge {now : Time} {v : WaitEntry} {ws l : List WaitEntry}
    (h : v ∈ ws.foldl (fun l w => insertByAge now w l) l) : v ∈ ws ∨ v ∈ l := by
  induction ws generalizing l with
  | nil => exact .inr h
  | cons w ws ih =>
    rcases ih h with h | h
    · exact .inl (List.mem_cons_of_mem w h)
    · rcases mem_insertByAge h with rfl | h
      · exact .inl List.mem_cons_self
      · exact .inr h

theorem State.Held.requeue (hs : s.Held up lost empty) {ws : List WaitEntry} (hws : ∀ w ∈ ws, up w.req.ref.link = true) :
    (s.requeue ws).Held up lost empty := by
  unfold State.requeue
  dsimp only
  refine .foldl_keep (fun _ _ => by simp) _ (.foldl_keep (fun _ _ => by simp) _ (hs.setWaitList (fun w hw => ?_) ?_))
  · rcases mem_foldl_insertByAge (List.mem_of_mem_take hw) with h | h
    · exact hws w (List.mem_of_mem_filter h)
    · exact hs.waits w h
  · exact List.length_take_le _ _

/-- A STEERING beam stays so while a cell is lost. -/
theorem State.steering_loseBeam {b : BeamNo} (h : (s.beam b).state = .steering) (i : BeamNo) (g : SegNo) (r : LossReason) :
    ((s.loseBeam i g r).beam b).state = .steering := by
  have hset : ∀ y : Beam, y.state = (s.beam i).state → ((s.setBeam i y).beam b).state = .steering := fun y hy => by
    rw [State.beam_setBeam]
    split
    · next hb => rw [hy, ← hb, h]
    · exact h
  unfold State.loseBeam
  dsimp only
  split
  · exact h
  · split
    · next hopened =>
      have hne : b ≠ i := by
        rintro rfl
        rw [h] at hopened
        cases hopened
      split
      · have hclosed : ∀ c, ((s.closeBeam i c).beam b).state = .steering := fun c => by
          unfold State.closeBeam
          dsimp only
          rw [if_neg (by rw [hopened]; simp), if_pos (.inl hopened), State.beam_pushCmd, State.beam_setBeam, if_neg hne]
          split
          · rw [State.beam_raiseLost, h]
          · exact h
        exact hclosed _
      · exact hset _ rfl
    · exact hset _ rfl
    · exact h

theorem State.steering_sample {b : BeamNo} (h : (s.beam b).state = .steering) (i : HeadNo) (g : SegNo) (m k : Nat) (n : Fin 24) :
    ((s.sample i g m k n).beam b).state = .steering := by
  have hkept : ∀ u : State, u.beamCtl = s.beamCtl → (u.beam b).state = .steering := fun u hu => by
    rw [State.beam_of_beamCtl hu, h]
  unfold State.sample
  split
  · exact h
  · dsimp only
    split
    · split
      · exact State.steering_loseBeam (State.steering_loseBeam (hkept _ (by simp)) _ _ _) _ _ _
      · exact hkept _ (by simp)
    · exact hkept _ (by simp)

theorem State.Held.steerRefused (hs : s.Held up lost empty) (b : BeamNo) (g : SegNo) :
    (s.steerRefused b g).Held up lost empty := by
  unfold State.steerRefused
  dsimp only
  have hsample := hs.sample (headOf b) g 0 2 2
  split
  · next hsteering =>
    have hstill := State.steering_sample hsteering (headOf b) g 0 2 2
    generalize s.sample (headOf b) g 0 2 2 = v at hsample hstill
    have hfree := (hsample.beam b).burst_none (by rw [hstill]; decide)
    have hidle : ((v.bumpCov 10).setBeam b { (v.bumpCov 10).beam b with
        state := .idle, seg := none, holders := LinkSet.none, awaiting := [], oneShot := false, closePending := none }).Held
          up lost empty := by
      refine State.Held.setBeam (.of_beamCtl (State.bumpCov_frame _ _).2.2.2.2.2.1 hsample) ?_ ?_
      · exact Beam.fits_of_free (not_or.mpr (by simp)) LinkSet.look_none hfree fun q hq => by cases hq
      · exact hsample.rules_of_held (.inl hstill) _
    refine State.Held.becameIdle (hidle.requeue fun w hw => ?_) b
    obtain ⟨q, hq, rfl⟩ := List.mem_map.mp hw
    exact (hs.beam b).awaiting q hq
  · exact hsample

theorem State.Held.released (hs : s.Held up lost empty) (b : BeamNo) (refused : Bool) :
    (s.released b refused).Held up lost empty := by
  unfold State.released
  dsimp only
  have hcount : (if refused = true then s.bumpCov 11 else s).Held up lost empty := .of_beamCtl (by split <;> simp) hs
  generalize (if refused = true then s.bumpCov 11 else s) = v at hcount
  split
  · next hclosing =>
    have hfree := (hcount.beam b).free (Beam.not_heldState_iff.mpr (by rw [hclosing]; decide))
    refine (hcount.setBeam ?_ (hcount.rules_of_free (by rw [hclosing]; decide) (by rw [hclosing]; decide) _)).becameIdle b
    exact Beam.fits_of_free (not_or.mpr (by simp)) hfree.2 hfree.1 (hcount.beam b).awaiting
  · exact hcount

/-! ### Sweep results -/

theorem State.loseBeam_of_surveying {b : BeamNo} (h : (s.beam b).state = .surveying) (g : SegNo) (r : LossReason) :
    s.loseBeam b g r = s := by
  unfold State.loseBeam
  dsimp only
  split
  · rfl
  · rw [h]

theorem State.cellLost_of_surveying {h : HeadNo} (ha : (s.beam (beamOf h .a)).state = .surveying)
    (hb : (s.beam (beamOf h .b)).state = .surveying) (g : SegNo) (r : LossReason) : s.cellLost h g r = s := by
  rw [State.cellLost, State.loseBeam_of_surveying ha, State.loseBeam_of_surveying hb]

/-- A sweep result takes no beam from a head that is being surveyed. -/
theorem State.applySweep_beamCtl {h : HeadNo} (ha : (s.beam (beamOf h .a)).state = .surveying)
    (hb : (s.beam (beamOf h .b)).state = .surveying) (ms : List (Option Nat)) : (s.applySweep h ms).beamCtl = s.beamCtl := by
  have hfold : ∀ (gs : List SegNo) (u : State), u.beamCtl = s.beamCtl →
      (gs.foldl (fun u g => u.cellLost h g .retired) u).beamCtl = s.beamCtl := by
    intro gs
    induction gs with
    | nil => exact fun u hu => hu
    | cons g gs ih =>
      intro u hu
      refine ih _ ?_
      dsimp only
      rw [State.cellLost_of_surveying (by rw [State.beam_of_beamCtl hu, ha]) (by rw [State.beam_of_beamCtl hu, hb]), hu]
  unfold State.applySweep
  dsimp only
  refine hfold _ _ ?_
  rw [(State.rechoose_frame _ _).2.2.2.2.1]
  exact foldl_keeps State.beamCtl _ (fun _ _ => by simp) _ s

theorem State.Held.swept (hs : s.Held up lost empty) {h : HeadNo} (hready : (s.head h).state = .ready)
    (hnone : (s.head h).sweeps = 0) (hbeams : ∀ b, headOf b = h → (s.beam b).state = .surveying) (ms : List (Option Nat)) :
    (s.swept h ms).Held up lost empty := by
  have hkept := State.applySweep_beamCtl (hbeams _ (headOf_beamOf h .a)) (hbeams _ (headOf_beamOf h .b)) ms
  unfold State.swept
  dsimp only
  generalize s.applySweep h ms = v at hkept
  have hidle := (hs.of_beamCtl hkept).beamsIdle (h := h) (by rw [State.head_of_beamCtl hkept, hready])
    (by rw [State.head_of_beamCtl hkept, hnone]) fun b hb => Beam.not_heldState_iff.mpr
      (by rw [State.beam_of_beamCtl hkept, hbeams b hb]; decide)
  refine State.Held.serveIdle (State.Held.serveIdle (.of_beamCtl (State.bumpCov_frame _ _).2.2.2.2.2.1 ?_) _) _
  exact hidle.setHead_same rfl rfl rfl rfl

end

end Sys2Proof.Machine
end

section
/-! PROOFS. Who holds the beams: the beam controller's requests and timers, bursts, and what TUNE and a warm restart do (R73 to
R89). -/

namespace Sys2Proof.Machine

section
variable {s : State} {up : LinkNo → Bool} {lost : BeamNo → LinkNo → Prop} {empty : BeamNo → Prop}

/-! ### Surveys -/

theorem State.Held.setSurvey (hs : s.Held up lost empty) (h : HeadNo) (v : SurveyStatus) : (s.setSurvey h v).Held up lost empty :=
  hs.setHead_same rfl rfl rfl rfl

theorem State.Held.makeDue (hs : s.Held up lost empty) (h : HeadNo) : (s.makeDue h).Held up lost empty :=
  (hs.setSurvey h .due).trySweep h

theorem State.Held.overdueBeam (hs : s.Held up lost empty) (b : BeamNo) : (s.overdueBeam b).Held up lost empty := by
  have hset : ∀ r : Option LossReason, (s.setBeam b { s.beam b with closePending := r }).Held up lost empty := fun r =>
    hs.setBeam_same rfl rfl rfl rfl
  unfold State.overdueBeam
  dsimp only
  split
  · split
    · next h =>
      refine (hset _).closeBeam_held ?_ _
      rw [State.beam_setBeam_self]
      exact Option.isNone_iff_eq_none.mp h
    · exact hset _
  · exact hset _
  · exact hs

theorem State.Held.makeOverdue (hs : s.Held up lost empty) (h : HeadNo) : (s.makeOverdue h).Held up lost empty :=
  (((hs.setSurvey h .overdue).overdueBeam _).overdueBeam _).trySweep h

theorem State.Held.expireWait (hs : s.Held up lost empty) (w : WaitEntry) : (s.expireWait w).Held up lost empty := by
  unfold State.expireWait
  refine .of_beamCtl (s := s.setWaitList (s.beamCtl.waitList.erase w)) (by simp) (hs.setWaitList ?_ ?_)
  · exact fun v hv => hs.waits v (List.mem_of_mem_erase hv)
  · exact List.length_erase_le.trans hs.few

/-! ### Requests -/

theorem State.servingOrder_idle {b : BeamNo} {g : SegNo} (h : s.beamToSteer g = some b) : (s.beam b).state = .idle := by
  obtain ⟨i, -, hi⟩ := List.exists_of_findSome?_eq_some h
  split at hi
  · simpa using List.find?_some hi
  · cases hi

theorem State.Held.steerOrWait (hs : s.Held up lost empty) {q : OpenReq} (hq : up q.ref.link =
    true) (g : SegNo) (oneShot : Bool) :
    (s.steerOrWait q g oneShot).Held up lost empty := by
  unfold State.steerOrWait
  split
  · next b hb => exact hs.steer (State.servingOrder_idle hb) hq g oneShot
  · split
    · next hroom =>
      refine .of_beamCtl (State.bumpCov_frame _ _).2.2.2.2.2.1 (hs.setWaitList (fun w hw => ?_) ?_)
      · rcases List.mem_append.mp hw with hw | hw
        · exact hs.waits w hw
        · rw [List.mem_singleton.mp hw]
          exact hq
      · rw [List.length_append]
        exact hroom
    · exact .of_beamCtl (by simp) hs

theorem State.Held.serveOpenBeam (hs : s.Held up lost empty) {r : Request} (hr : up r.ref.link = true) :
    (serveOpenBeam s r).Held up lost empty := by
  refine State.reading_keeps (P := fun u => u.Held up lost empty) (.of_beamCtl (by simp) hs) fun q _ => ?_
  dsimp only
  split
  · exact .of_beamCtl (by simp) hs
  · split
    · next b hb =>
      split at hb
      · cases hb
      · have hjoin := List.find?_some hb
        exact hs.join (State.heldState_of_joinable (Bool.and_eq_true _ _ ▸ hjoin).2) hr _
    · exact hs.steerOrWait hr _ _

theorem Beam.holders_without (x : Beam) (l m : LinkNo) :
    look (x.without l).holders m = true ↔ look x.holders m = true ∧ m ≠ l := by
  simp only [Beam.without, look_put]
  split <;> simp_all

theorem State.leaveBeam_eq (s : State) (b : BeamNo) (l : LinkNo) : s.leaveBeam b l =
    let u := ((s.beam b).awaiting.filter (fun q => q.ref.link == l)).foldl (fun s q => s.answer q.ref .noBeam)
      (s.setBeam b ((s.beam b).without l))
    if ((s.beam b).without l).holders.isNone then u.closeBeam b none else u := rfl

theorem Beam.ownedBy_iff (x : Beam) (l : LinkNo) : x.ownedBy l = true ↔ ∃ u ∈ x.burst, u.owner = l := by
  unfold Beam.ownedBy
  cases x.burst <;> simp

/-- A link that owns no burst on a beam leaves it. -/
theorem State.Held.leaveBeam (hs : s.HeldBy up) {b : BeamNo} {l : LinkNo} (howned : (s.beam b).ownedBy l = false) :
    (s.leaveBeam b l).HeldBy up := by
  rw [State.leaveBeam_eq]
  generalize hy : (s.beam b).without l = y
  have hstate : y.state = (s.beam b).state := by rw [← hy]; rfl
  have hburst : y.burst = (s.beam b).burst := by rw [← hy]; rfl
  have hholders : ∀ m, look y.holders m = true ↔ look (s.beam b).holders m = true ∧ m ≠ l := fun m => by
    rw [← hy, Beam.holders_without]
  have howner : ∀ u ∈ y.burst, u.owner ≠ l := fun u hu => by
    rintro rfl
    exact absurd ((Beam.ownedBy_iff _ _).mpr ⟨u, hburst ▸ hu, rfl⟩) (by simp [howned])
  have hset : (s.setBeam b y).Held up (fun _ _ => False) (fun i => i = b) := by
    refine hs.setBeam_of ⟨fun _ => .inr rfl, fun m hm => ?_, fun u hu => ?_, fun q hq => ?_⟩ ⟨?_, ?_⟩ fun i _ => ⟨fun _ => id,
      False.elim⟩
    · rw [Beam.heldState, hstate]
      exact (hs.beam b).holders m ((hholders m).mp hm).1
    · obtain ⟨hopened, howns⟩ := (hs.beam b).burst u (hburst ▸ hu)
      exact ⟨hstate ▸ hopened, .inl ((hholders _).mpr ⟨howns.resolve_right id, howner u hu⟩)⟩
    · rw [← hy] at hq
      exact (hs.beam b).awaiting q (List.mem_of_mem_filter hq)
    · rw [hstate]; exact (hs.rules b).down
    · rw [hstate]; exact (hs.rules b).surveying
  have hanswered : ∀ u : State, u.beamCtl =
    (s.setBeam b y).beamCtl → (if y.holders.isNone = true then u.closeBeam b none else u).HeldBy up := by
    intro u hu
    have hheld := hset.of_beamCtl hu
    have hbeam : u.beam b = y := by rw [State.beam_of_beamCtl hu, State.beam_setBeam_self]
    split
    · next hnone =>
      refine (hheld.closeBeam ?_ none).mono (fun _ _ => id) fun i h => h.2 h.1
      rw [hbeam]
      refine Option.eq_none_iff_forall_ne_some.mpr fun v hv => ?_
      have hb := hheld.beam b
      rw [hbeam] at hb
      have howns := (hb.burst v hv).2.resolve_right id
      rw [(LinkSet.isNone_iff _).mp hnone] at howns
      cases howns
    · next hsome =>
      refine ⟨fun i => ?_, hheld.head, hheld.rules, hheld.waits, hheld.few⟩
      by_cases hi : i = b
      · have hb := hheld.beam b
        rw [hbeam] at hb
        rw [hi, hbeam]
        exact ⟨fun _ => .inl ((LinkSet.isNone_eq_false_iff _).mp (by simpa using hsome)), hb.holders, hb.burst, hb.awaiting⟩
      · exact (hheld.beam i).mono (fun _ => id) hi
  exact hanswered _ (foldl_keeps State.beamCtl (fun s (q : OpenReq) => s.answer q.ref .noBeam) (fun _ _ => by simp) _ _)

theorem State.Held.serveRelease (hs : s.HeldBy up) (r : Request) : (serveRelease s r).HeldBy up := by
  refine State.reading_keeps (P := fun u => u.HeldBy up) (.of_beamCtl (by simp) hs) fun b _ => ?_
  dsimp only
  split
  · exact .of_beamCtl (by simp) hs
  · next hholds =>
    refine .of_beamCtl (State.answer_frame _ _ _).2.2.2.2.2.1 ?_
    split
    · exact hs.setBeam_same rfl rfl rfl rfl
    · next hnot =>
      refine hs.leaveBeam (Bool.eq_false_iff.mpr fun howned => hnot ⟨?_, howned⟩)
      obtain ⟨u, hu, -⟩ := (Beam.ownedBy_iff _ _).mp howned
      exact ((hs.beam b).burst u hu).1

theorem State.Held.serveSurvey (hs : s.Held up lost empty) (r : Request) : (serveSurvey s r).Held up lost empty := by
  refine State.reading_keeps (P := fun u => u.Held up lost empty) (.of_beamCtl (by simp) hs) fun h _ => ?_
  dsimp only
  split
  · exact .of_beamCtl (by simp) hs
  · exact .of_beamCtl (by simp) hs
  · refine .of_beamCtl (State.reply_frame _ _ _ _).2.2.2.2.2.1 ?_
    split
    · exact hs.makeDue h
    · exact hs

theorem State.Held.markCell (hs : s.Held up lost empty) (h : HeadNo) (g : SegNo) (c : Cell) :
    (s.markCell h g c).Held up lost empty := by
  unfold State.markCell
  dsimp only
  split
  · exact State.Held.cellLost (.of_beamCtl (by simp) hs) _ _ _
  · exact .of_beamCtl (by simp) hs

theorem State.Held.serveMarkCell (hs : s.Held up lost empty) (r : Request) : (serveMarkCell s r).Held up lost empty := by
  refine State.reading_keeps (P := fun u => u.Held up lost empty) (.of_beamCtl (by simp) hs) fun q _ => ?_
  split
  · exact .of_beamCtl (by simp) hs
  · refine .of_beamCtl (State.reply_frame _ _ _ _).2.2.2.2.2.1 ?_
    split
    · exact hs
    · exact .of_beamCtl (State.judge_frame _).2.2.2.2.2.1 (hs.markCell _ _ _)

/-! ### Bursts -/

theorem State.beginBurst_beamCtl (s : State) (b : BeamNo) (l : LinkNo) (placed stay : List Frame) :
    (s.beginBurst b l placed stay).beamCtl = (s.setBeam b { s.beam b with
      burst := some { number := look s.downlink.nextBurst b, owner := l, frames := placed, start := s.now } }).beamCtl := by
  unfold State.beginBurst
  dsimp only
  split <;> simp

theorem State.fetchRefusal_none {b : BeamNo} {l : LinkNo} (h : s.fetchRefusal b l = none) :
    (s.beam b).state = .opened ∧ look (s.beam b).holders l = true := by
  unfold State.fetchRefusal at h
  dsimp only at h
  split at h
  · cases h
  · next hnot =>
    rw [not_or, not_not, Bool.not_eq_false] at hnot
    exact hnot

theorem State.Held.serveFetch (hs : s.Held up lost empty) (r : Request) : (serveFetch s r).Held up lost empty := by
  refine State.reading_keeps (P := fun u => u.Held up lost empty) (.of_beamCtl (by simp) hs) fun q _ => ?_
  dsimp only
  split
  · exact .of_beamCtl (by simp) hs
  · next hnone =>
    obtain ⟨hopened, hholds⟩ := State.fetchRefusal_none hnone
    refine .of_beamCtl (State.reply_frame _ _ _ _).2.2.2.2.2.1 (.of_beamCtl (s.beginBurst_beamCtl _ _ _ _) (hs.setBeam ?_ ?_))
    · refine ⟨(hs.beam _).held, (hs.beam _).holders, fun u hu => ?_, (hs.beam _).awaiting⟩
      obtain rfl := Option.some.inj hu
      exact ⟨hopened, .inl hholds⟩
    · exact hs.rules_of_held (.inr hopened) _

theorem State.Held.reportBurst (hs : s.HeldBy up) (b : BeamNo) (u : Burst) (o : Nat → FrameOutcome) (k : Fin 21) :
    (s.reportBurst b u o k).HeldBy up :=
  .of_beamCtl (State.judge_frame _).2.2.2.2.2.1
    (State.Held.burstSample (.of_beamCtl (State.bumpDown_frame _ _).2.2.2.2.2.2.1 (hs.endBurst b u o)) _ _ _ _)

theorem State.Held.burstReport (hs : s.HeldBy up) (r : Request) (b : BeamNo) (n : Byte) (o : Nat → FrameOutcome) (k : Fin 21) :
    (s.burstReport r b n o k).HeldBy up := by
  unfold State.burstReport
  split
  · exact .of_beamCtl (by simp) hs
  · split
    · exact .of_beamCtl (by simp) hs
    · split
      · exact .of_beamCtl (by simp) hs
      · exact .of_beamCtl (State.reply_frame _ _ _ _).2.2.2.2.2.1 (hs.reportBurst _ _ _ _)

theorem State.Held.expireBurst (hs : s.HeldBy up) (b : BeamNo) : (s.expireBurst b).HeldBy up := by
  unfold State.expireBurst
  split
  · exact hs
  · exact .of_beamCtl (State.bumpDown_frame _ _).2.2.2.2.2.2.1 (hs.endBurst _ _ _)

/-- Bursts that change, but not their owners. -/
theorem State.Held.mapBursts (hs : s.Held up lost empty) {g : Burst → Burst} (hg : ∀ u, (g u).owner = u.owner) {t : State}
    (hbeam : ∀ b, t.beam b = { s.beam b with burst := (s.beam b).burst.map g }) (hhead : t.beamCtl.heads = s.beamCtl.heads)
    (hwaits : t.beamCtl.waitList = s.beamCtl.waitList) : t.Held up lost empty := by
  have hhead' : ∀ h, t.head h = s.head h := fun h => by rw [State.head, hhead, State.head]
  refine ⟨fun b => ?_, fun h => ?_, fun b => ?_, ?_, ?_⟩
  · rw [hbeam]
    refine ⟨(hs.beam b).held, (hs.beam b).holders, fun u hu => ?_, (hs.beam b).awaiting⟩
    obtain ⟨v, hv, rfl⟩ := Option.map_eq_some_iff.mp hu
    rw [hg]
    exact (hs.beam b).burst v hv
  · rw [hhead']; exact hs.head h
  · rw [hbeam, hhead']; exact ⟨(hs.rules b).down, (hs.rules b).surveying⟩
  · rw [hwaits]; exact hs.waits
  · rw [hwaits]; exact hs.few

theorem State.Held.discardTerminal (hs : s.Held up lost empty) (e : EntryNo) : (s.discardTerminal e).Held up lost empty := by
  have hdrop : (s.dropFrames (fun f => f.terminal == e) .withdrawn 18).Held up lost empty := .of_beamCtl (by simp) hs
  exact hdrop.mapBursts (t := s.discardTerminal e)
    (g := fun u => { u with frames := u.frames.map (fun f => if f.terminal = e then { f with orphaned := true } else f) })
    (fun _ => rfl) (fun b => State.beam_map_beams _ _ b) rfl rfl

/-! ### TUNE -/

theorem State.Held.foldl {β : Type} {f : State → β → State} (hf : ∀ (u : State) (b : β), u.HeldBy up → (f u b).HeldBy up)
    (bs : List β) (hs : s.HeldBy up) : (bs.foldl f s).HeldBy up :=
  foldl_invariant hf bs s hs

theorem State.Held.afterTune (hs : s.HeldBy up) (i : Fin 19) : (s.afterTune i).HeldBy up := by
  have hanswers : ∀ sweep, (s.recheckAnswers sweep).HeldBy up := fun sweep => hs.foldl (fun u h hu => by
    split
    · exact hu.answerRunsOut h
    · exact hu) _
  unfold State.afterTune
  split
  · exact hanswers _
  · exact hanswers _
  · exact hs.foldl (fun u h hu => by
      split
      · exact hu.makeOverdue h
      · split
        · exact hu.makeDue h
        · exact hu) _
  · exact hs.foldl (fun u w hu => hu.expireWait w) _
  · exact hs.foldl (fun u b hu => by
      split
      · exact hu.expireBurst b
      · exact hu) _
  · exact hs.foldl (fun u e hu => by
      split
      · exact .of_beamCtl (by simp) hu
      · exact hu) _
  · exact hs.foldl (fun u c hu => by
      split
      · exact .of_beamCtl (by simp) hu
      · exact hu) _
  · exact hs.foldl (fun u e hu => by
      split
      · exact .of_beamCtl (by simp) hu
      · exact hu) _
  · exact hs

theorem State.Held.tunePair (hs : s.HeldBy up) (i : Fin 19) (v : Nat) : (s.tunePair i v).HeldBy up := by
  have hpair : (s.withPair i v).HeldBy up := .of_beamCtl (by simp) hs
  rw [State.tunePair_eq]
  refine .of_beamCtl (State.judge_frame _).2.2.2.2.2.1 ?_
  split
  · exact hpair.afterTune i
  · exact hpair

theorem State.Held.serveTune (hs : s.HeldBy up) (r : Request) : (serveTune s r).HeldBy up :=
  State.reading_keeps (P := fun u => u.HeldBy up) (.of_beamCtl (by simp) hs) fun ps _ =>
    .of_beamCtl (by simp) (hs.foldl (f := fun s (p : Fin 19 × Nat) => s.tunePair p.1 p.2) (fun _ p hu => hu.tunePair p.1 p.2) ps)

/-! ### Warm restart -/

theorem Head.sweeps_restarted {x : Head} (h : x.state ≠ .ready → x.sweeps = 0) : x.restarted.sweeps = 0 := by
  unfold Head.restarted
  split
  · next hx => exact h (by rw [hx]; decide)
  · next hx =>
    have hnone := h (by rw [hx]; decide)
    simp only [Head.sweeps] at hnone ⊢
    simp only [List.filter_nil, List.length_nil, Option.isSome_none, Bool.false_eq_true, if_false]
    omega
  · cases x.outstanding <;> simp [Head.sweeps]

theorem Head.state_restarted (x : Head) : x.restarted.state = x.state := by
  unfold Head.restarted
  split <;> rfl

theorem Head.sends_restarted {x : Head} (h : x.Fits) (hout : x.restarted.outstanding = none) : x.restarted.queue = [] := by
  unfold Head.restarted at *
  split at hout
  · exact h.sends hout
  · rfl
  · rfl

theorem Beam.Fits.restarted {x : Beam} {gone : LinkNo → Prop} {vacant : Prop} (h : x.Fits up gone vacant) :
    x.restarted.Fits up gone vacant := by
  unfold Beam.restarted
  split
  · exact h
  · exact Beam.fits_of_free (not_or.mpr (by simp [Beam.cleared])) (x.cleared_holders .idle) rfl fun q hq => by cases hq

theorem State.Held.restartBeams (hs : s.HeldBy up) : s.restartBeams.HeldBy up := by
  unfold State.restartBeams
  dsimp only
  refine State.Held.foldl (fun u h hu => ?_) _ ?_
  · split
    · exact hu.pushCmd h (by decide)
    · exact hu
  · have hhead : ∀ i, look (s.beamCtl.heads.map Head.restarted) i = (s.head i).restarted := fun i => by simp [look, State.head]
    have hbeam : ∀ b, look (s.beamCtl.beams.map Beam.restarted) b = (s.beam b).restarted := fun b => by simp [look, State.beam]
    have hnone : ∀ i, (s.head i).restarted.sweeps = 0 := fun i => Head.sweeps_restarted fun hnot => hs.noSweep (by
      rw [(hs.rules (beamOf i .a)).down (by rw [headOf_beamOf]; exact hnot)]
      decide)
    refine ⟨fun b => ?_, fun i => ?_, fun b => ?_, fun w hw => (by cases hw), Nat.zero_le _⟩
    · rw [State.beam, hbeam]
      exact (hs.beam b).restarted
    · rw [State.head, hhead]
      exact ⟨Head.sends_restarted (hs.head i), by rw [hnone]; decide⟩
    · rw [State.head, State.beam, hhead, hbeam]
      refine ⟨fun hnot => ?_, fun hone => absurd hone (by rw [hnone]; decide)⟩
      rw [Head.state_restarted] at hnot
      have hdown := (hs.rules b).down hnot
      rw [Beam.restarted, if_pos hdown, hdown]

theorem State.Held.restartDownlink (hs : s.HeldBy up) : s.restartDownlink.HeldBy up := by
  have hbeam : ∀ b, s.restartDownlink.beam b = { s.beam b with burst := none } := fun b => by
    rw [State.restartDownlink, State.beam_map_beams]
    rfl
  refine ⟨fun b => ?_, hs.head, fun b => ?_, hs.waits, hs.few⟩
  · rw [hbeam]
    exact ⟨(hs.beam b).held, (hs.beam b).holders, fun u hu => (by cases hu), (hs.beam b).awaiting⟩
  · rw [hbeam]
    exact ⟨(hs.rules b).down, (hs.rules b).surveying⟩

theorem State.Held.restartUnits (hs : s.HeldBy up) (r : ReqRef) : (s.restartUnits r).HeldBy up := by
  have hunits : (((s.restartLinks r).restartRegistry).restartBeams).restartDownlink.HeldBy up := by
    refine State.Held.restartDownlink (State.Held.restartBeams ?_)
    exact .of_beamCtl ((s.restartLinks_keepsAllBut r) .beamCtl (by simp)) hs
  unfold State.restartUnits
  dsimp only
  refine .of_beamCtl (State.judge_frame _).2.2.2.2.2.1 (.of_beamCtl ?_ hunits)
  simp [State.restartCranes]

theorem State.Held.serveRestart (hs : s.HeldBy up) (r : Request) : (serveRestart s r).HeldBy up := by
  refine State.reading_keeps (P := fun u => u.HeldBy up) (.of_beamCtl (by simp) hs) fun _ _ => ?_
  dsimp only
  split
  · exact .of_beamCtl (by simp) hs
  · exact State.Held.restartUnits (hs.of_beamCtl (by simp)) r.ref

/-! ### The end of the settings load -/

theorem State.Held.handOut (hs : s.HeldBy up) (d : Load) : (s.handOut d).HeldBy up := by
  have hhead : ∀ h, (s.handOut d).head h = loadedHead (look d.heads h).isSome s.now := fun h => by
    simp [State.handOut, State.head, look]
  have hbeam : ∀ b, (s.handOut d).beam b = loadedBeam (look d.heads (headOf b)).isSome := fun b => by
    simp [State.handOut, State.beam, look]
  refine ⟨fun b => ?_, fun h => ?_, fun b => ?_, hs.waits, hs.few⟩
  · rw [hbeam, loadedBeam]
    split <;> exact Beam.fits_of_free (not_or.mpr (by simp [Beam.reset])) LinkSet.look_none rfl fun q hq => by cases hq
  · rw [hhead]
    exact ⟨fun _ => rfl, Nat.zero_le _⟩
  · rw [hhead, hbeam]
    refine ⟨fun hnot => ?_, fun hone => by cases hone⟩
    cases hc : (look d.heads (headOf b)).isSome
    · rfl
    · exact absurd (by rw [hc]; rfl) hnot

theorem State.Held.settingsLoad (hs : s.HeldBy up) (d : Load) : ((s.handOut d).firstChoice).firstSweeps.HeldBy up :=
  State.Held.foldl (f := fun s h => s.trySweep h) (fun _ h hu => hu.trySweep h) _ ((hs.handOut d).of_beamCtl
    (State.beamCtl_firstChoice _))

end

end Sys2Proof.Machine
end

section
/-! PROOFS. Who holds the beams: requests handed on, a link that goes DOWN, and every command (R68 to R89). -/

namespace Sys2Proof.Machine

/-! ### Requests handed on -/

theorem State.handed_clearGroup (s : State) (g : Nat) : (s.clearGroup g).handed = s.handed := by
  unfold State.clearGroup
  split <;> rfl

theorem State.handed_burstReport (s : State) (r : Request) (b : BeamNo) (n : Byte) (o : Nat → FrameOutcome) (k : Fin 21) :
    (s.burstReport r b n o k).handed = s.handed := by
  unfold State.burstReport
  (repeat' split) <;> simp

theorem State.handed_tunePair (s : State) (p : Fin 19 × Nat) : (s.tunePair p.1 p.2).handed = s.handed :=
  s.tunePair_keepsAllBut p.1 p.2 .handed (by decide)

/-- What is done for a request hands no other on. -/
theorem handed_serveOf {code : ReqCode} (h : code ≠ .restart) (s : State) (r : Request) :
    (serveOf code s r).handed = s.handed := by
  cases code <;> refine State.reading_keeps (P := fun u => u.handed = s.handed) (by simp) fun q _ => ?_
  case restart => exact absurd rfl h
  case subscribe =>
    refine State.withToken_keeps (P := fun u => u.handed = s.handed) (by simp) fun e => ?_
    refine State.withCrane_keeps (P := fun u => u.handed = s.handed) (by simp) fun c k _ => ?_
    dsimp only
    rw [(State.reply_frame _ _ _ _).2.1]
    (repeat' split) <;> simp
  case readCrane =>
    refine State.withToken_keeps (P := fun u => u.handed = s.handed) (by simp) fun e => ?_
    exact State.withCrane_keeps (P := fun u => u.handed = s.handed) (by simp) fun c k _ => by simp
  case clearDose =>
    refine State.withToken_keeps (P := fun u => u.handed = s.handed) (by simp) fun e => ?_
    refine State.withRack_keeps (P := fun u => u.handed = s.handed) (by simp) fun n k _ => ?_
    dsimp only
    split <;> simp
  case readRack | acknowledge =>
    refine State.withToken_keeps (P := fun u => u.handed = s.handed) (by simp) fun e => ?_
    refine State.withRack_keeps (P := fun u => u.handed = s.handed) (by simp) fun n k _ => ?_
    (repeat' split) <;> simp
  case readTerminal | purgeQueue => exact State.withToken_keeps (P := fun u => u.handed = s.handed) (by simp) fun e => by simp
  case send =>
    refine State.withToken_keeps (P := fun u => u.handed = s.handed) (by simp) fun e => ?_
    unfold State.sendTo
    dsimp only
    (repeat' split) <;> simp
  case readCounters =>
    split
    · simp
    · rw [(State.reply_frame _ _ _ _).2.1]
      split
      · exact s.handed_clearGroup _
      · rfl
  case done | cut => exact s.handed_burstReport r _ _ _ _
  case deliver =>
    dsimp only
    rw [(State.reply_frame _ _ _ _).2.1]
    exact s.takeUplinks_keepsAllBut _ _ .handed (by decide)
  case tune =>
    dsimp only
    rw [(State.reply_frame _ _ _ _).2.1, (State.bumpSet_frame _ _).2.2.1]
    exact foldl_keeps State.handed (fun u (p : Fin 19 × Nat) => u.tunePair p.1 p.2) State.handed_tunePair q s
  case withdraw | move | grant | revoke | release | fetch =>
    dsimp only
    (repeat' split) <;> simp
  all_goals (repeat' split) <;> simp

theorem State.handed_restartLinks (s : State) (r : ReqRef) : (s.restartLinks r).handed = [] := by
  unfold State.restartLinks
  exact foldl_keeps State.handed (fun u l => u.onLink l fun k => k.restarted (if l = r.link then some r.serial else none))
    (fun _ _ => rfl) allLinks { s with handed := [] }

theorem State.handed_restartUnits (s : State) (r : ReqRef) : (s.restartUnits r).handed = [] := by
  have hbeams : ((s.restartLinks r).restartRegistry).restartBeams.handed = [] :=
    (State.restartBeams_keepsAllBut _ .handed (by decide)).trans
      ((State.restartRegistry_keepsAllBut _ .handed (by decide)).trans (s.handed_restartLinks r))
  have hunits : ((((s.restartLinks r).restartRegistry).restartBeams).restartDownlink).restartPool.restartCranes.handed = [] :=
    (State.restartCranes_keepsAllBut _ .handed (by decide)).trans
      ((State.restartPool_keepsAllBut _ .handed (by decide)).trans ((State.restartDownlink_keepsAllBut _ .handed
        (by decide)).trans hbeams))
  rw [State.restartUnits, (State.judge_frame _).2.1]
  exact (State.restartReefer_keepsAllBut _ .handed (by decide)).trans hunits

theorem handed_serveRestart (s : State) (r : Request) : ∀ x ∈ (serveRestart s r).handed, x ∈ s.handed := by
  refine State.reading_keeps (P := fun u => ∀ x ∈ u.handed, x ∈ s.handed) (by simp) fun _ _ => ?_
  split
  · simp
  · rw [State.handed_restartUnits]
    exact fun x hx => absurd hx (by simp)

theorem mem_handed_serveOf {code : ReqCode} {s : State} {r x : Request} (hx : x ∈ (serveOf code s r).handed) : x ∈ s.handed := by
  by_cases hcode : code = .restart
  · subst hcode
    exact handed_serveRestart s r x hx
  · rwa [handed_serveOf hcode] at hx

theorem mem_handed_taking {code : ReqCode} {l : LinkNo} {s : State} {x : Request}
    (hx : x ∈ (s.taking code l (serveOf code)).handed) : x ∈ s.handed := by
  unfold State.taking at hx
  split at hx
  · exact hx
  · split at hx
    · exact List.mem_of_mem_erase (mem_handed_serveOf hx)
    · exact hx

theorem mem_handed_decodeRequest {s : State} {r : ReqRef} {q : RawRequest} {x : Request} (hx : x ∈ (s.decodeRequest r q).handed) :
    x ∈ s.handed ∨ x.ref = r := by
  unfold State.decodeRequest at hx
  split at hx
  · exact .inl (by simpa using hx)
  · split at hx
    · exact .inl (by simpa using hx)
    · split at hx
      · rcases List.mem_append.mp hx with hx | hx
        · exact .inl hx
        · exact .inr (by rw [List.mem_singleton.mp hx])
      · exact .inl (by simpa using hx)

/-- A message hands on a request of its own link, which is UP, if any. -/
theorem mem_handed_messageReceived {l : LinkNo} {bytes : List Byte} {s t : State} {x : Request}
    (h : exec (.messageReceived l bytes) s = .next t) (hx : x ∈ t.handed) : x ∈ s.handed ∨ (x.ref.link = l ∧ (s.link l).up =
      true) := by
  rw [exec_messageReceived] at h
  cases h
  unfold State.takeMessage at hx
  split at hx
  · exact .inl hx
  · next q _ =>
    split at hx
    · next hup =>
      have hup' : (s.link l).up = true := by
        rw [State.link_onLink_self] at hup
        exact hup
      unfold State.takeRequest at hx
      dsimp only at hx
      split at hx
      · exact .inl hx
      · split at hx
        · exact (mem_handed_decodeRequest hx).imp id fun href => ⟨by rw [href], hup'⟩
        · split at hx
          · exact .inl hx
          · exact .inl hx
    · exact .inl hx

/-- A command that leaves the links as UP as they were hands on requests of UP links alone. -/
theorem exec_handed {c : Instr} (hup : movesUp c = false) {s t : State} (h : exec c s =
    .next t) {x : Request} (hx : x ∈ t.handed) :
    x ∈ s.handed ∨ upOf s.links x.ref.link = true := by
  by_cases hpart : Part.handed ∈ writesOf c
  · rcases hc : requestOf c with _ | ⟨code, l⟩
    · cases c with
      | messageReceived l bytes => exact (mem_handed_messageReceived h hx).imp_right fun ⟨hl, hlup⟩ => by rw [hl]; exact hlup
      | pinReset | linkDown => cases hup
      | _ => simp_all [writesOf, requestOf]
    · obtain rfl : s.taking code l (serveOf code) = t := by simpa [exec_of_requestOf hc] using h
      exact .inl (mem_handed_taking hx)
  · rw [show t.handed = s.handed from exec_next_keeps h .handed hpart] at hx
    exact .inl hx

/-! ### A link that goes DOWN -/

section
variable {s : State} {up : LinkNo → Bool} {lost : BeamNo → LinkNo → Prop} {empty : BeamNo → Prop}

/-- The links that are UP once one has gone DOWN. -/
def downOf (up : LinkNo → Bool) (l : LinkNo) : LinkNo → Bool := fun m => up m && m != l

theorem downOf_eq_true {l m : LinkNo} : downOf up l m = true ↔ up m = true ∧ m ≠ l := by
  simp [downOf]

theorem upOf_goDown (s : State) (l : LinkNo) : upOf (s.onLink l Link.goDown).links = downOf (upOf s.links) l := by
  funext m
  have hlink : upOf (s.onLink l Link.goDown).links m = ((s.onLink l Link.goDown).link m).up := rfl
  rw [hlink, State.link_onLink, downOf]
  by_cases h : m = l
  · simp [h, Link.goDown]
  · simp only [h, if_false, Bool.and_true, bne_iff_ne.mpr h]
    rfl

/-- A link leaves every beam: its bursts are still to be returned, and a beam may be left without holders. -/
theorem State.Held.without (hs : s.HeldBy up) (l : LinkNo) {t : State} (hbeam : ∀ b, t.beam b = (s.beam b).without l)
    (hhead : ∀ h, t.head h = s.head h)
    (hwaits : t.beamCtl.waitList = s.beamCtl.waitList.filter (fun w => w.req.ref.link != l)) :
    t.Held (downOf up l) (fun _ m => m = l) (fun _ => True) := by
  refine ⟨fun b => ?_, fun h => ?_, fun b => ?_, fun w hw => ?_, ?_⟩
  · rw [hbeam]
    refine ⟨fun _ => .inr trivial, fun m hm => ?_, fun u hu => ?_, fun q hq => ?_⟩
    · obtain ⟨hm, hne⟩ := (Beam.holders_without _ _ _).mp hm
      exact ⟨((hs.beam b).holders m hm).1, downOf_eq_true.mpr ⟨((hs.beam b).holders m hm).2, hne⟩⟩
    · obtain ⟨hopened, howns⟩ := (hs.beam b).burst u hu
      refine ⟨hopened, ?_⟩
      by_cases hl : u.owner = l
      · exact .inr hl
      · exact .inl ((Beam.holders_without _ _ _).mpr ⟨howns.resolve_right id, hl⟩)
    · obtain ⟨hq, hne⟩ := List.mem_filter.mp hq
      exact downOf_eq_true.mpr ⟨(hs.beam b).awaiting q hq, by simpa using hne⟩
  · rw [hhead]; exact hs.head h
  · rw [hbeam, hhead]; exact ⟨(hs.rules b).down, (hs.rules b).surveying⟩
  · rw [hwaits] at hw
    obtain ⟨hw, hne⟩ := List.mem_filter.mp hw
    exact downOf_eq_true.mpr ⟨hs.waits w hw, by simpa using hne⟩
  · rw [hwaits]
    exact (List.length_filter_le _ _).trans hs.few

/-- The burst of a link that has left is returned. -/
theorem State.Held.returnOwned (hs : s.Held up lost (fun _ => True)) {b : BeamNo} {l : LinkNo} (hlost : ∀ m, lost b m → m = l) :
    (s.returnOwned b l).Held up (fun i m => lost i m ∧ i ≠ b) (fun _ => True) := by
  have hfree : ∀ u : State, u.Held up lost (fun _ => True) → (∀ v ∈ (u.beam b).burst, ¬lost b v.owner) →
      u.Held up (fun i m => lost i m ∧ i ≠ b) (fun _ => True) := fun u hu hnot => by
    refine ⟨fun i => ?_, hu.head, hu.rules, hu.waits, hu.few⟩
    refine ⟨(hu.beam i).held, (hu.beam i).holders, fun v hv => ⟨((hu.beam i).burst v hv).1, ?_⟩, (hu.beam i).awaiting⟩
    refine ((hu.beam i).burst v hv).2.imp_right fun hl => ⟨hl, ?_⟩
    rintro rfl
    exact hnot v hv hl
  unfold State.returnOwned
  split
  · next hnone => exact hfree s hs fun v hv => by rw [hnone] at hv; cases hv
  · next u hu =>
    split
    · have hreturn : (s.forcedReturn b u).Held up (fun i m => lost i m ∧ i ≠ b) (fun _ => True) :=
        .of_beamCtl (State.bumpDown_frame _ _).2.2.2.2.2.2.1 (hs.settleBurst b u _)
      refine hreturn.burstEnded ?_ l
      rw [State.forcedReturn, State.beam_of_beamCtl (State.bumpDown_frame _ _).2.2.2.2.2.2.1]
      exact s.burst_settleBurst b u _
    · next hne =>
      refine hfree s hs fun v hv hl => hne ?_
      obtain rfl : u = v := Option.some.inj (hu.symm.trans hv)
      exact hlost _ hl

/-- A beam that a link has left without holders closes. -/
theorem State.Held.closeIfEmpty (hs : s.Held up (fun _ _ => False) empty) (b : BeamNo) :
    (s.closeIfEmpty b).Held up (fun _ _ => False) (fun i => empty i ∧ i ≠ b) := by
  unfold State.closeIfEmpty
  dsimp only
  split
  · next h =>
    refine hs.closeBeam (Option.eq_none_iff_forall_ne_some.mpr fun u hu => ?_) none
    have howns := ((hs.beam b).burst u hu).2.resolve_right id
    rw [(LinkSet.isNone_iff _).mp h.2] at howns
    cases howns
  · next h =>
    refine ⟨fun i => ?_, hs.head, hs.rules, hs.waits, hs.few⟩
    refine ⟨fun hheld => ?_, (hs.beam i).holders, (hs.beam i).burst, (hs.beam i).awaiting⟩
    by_cases hi : i = b
    · subst hi
      refine .inl ((LinkSet.isNone_eq_false_iff _).mp (Bool.eq_false_iff.mpr fun hnone => h ⟨?_, hnone⟩))
      exact hheld.symm
    · exact ((hs.beam i).held hheld).imp_right fun he => ⟨he, hi⟩

theorem State.Held.foldl_returnOwned (l : LinkNo) (bs : List BeamNo) (hlost : ∀ b m, lost b m → m = l)
    (hs : s.Held up lost (fun _ => True)) :
    (bs.foldl (fun s b => s.returnOwned b l) s).Held up (fun i m => lost i m ∧ i ∉ bs) (fun _ => True) := by
  induction bs generalizing s lost with
  | nil => exact hs.mono (fun _ _ h => ⟨h, by simp⟩) fun _ => id
  | cons b bs ih =>
    refine (ih (fun i m h => hlost i m h.1) (hs.returnOwned (hlost b))).mono (fun i m h => ⟨h.1.1, ?_⟩) fun _ => id
    rw [List.mem_cons, not_or]
    exact ⟨h.1.2, h.2⟩

theorem State.Held.foldl_closeIfEmpty (bs : List BeamNo) (hs : s.Held up (fun _ _ => False) empty) :
    (bs.foldl (fun s b => s.closeIfEmpty b) s).Held up (fun _ _ => False) (fun i => empty i ∧ i ∉ bs) := by
  induction bs generalizing s empty with
  | nil => exact hs.mono (fun _ _ => id) fun _ h => ⟨h, by simp⟩
  | cons b bs ih =>
    refine (ih (hs.closeIfEmpty b)).mono (fun _ _ => id) fun i h => ⟨h.1.1, ?_⟩
    rw [List.mem_cons, not_or]
    exact ⟨h.1.2, h.2⟩

theorem mem_allBeams (b : BeamNo) : b ∈ allBeams := List.mem_finRange b

theorem State.Held.downBeams (hs : s.HeldBy up) (l : LinkNo) : (s.downBeams l).HeldBy (downOf up l) := by
  have hforgot : (s.forgetOrigin l).HeldBy up := hs.mapBursts (t := s.forgetOrigin l)
    (g := fun u => { u with frames := u.frames.map (fun f => f.forget l) }) (fun _ => rfl)
    (fun b => State.beam_map_beams _ _ b) rfl rfl
  unfold State.downBeams
  dsimp only
  have hleft := hforgot.without l (t := { (s.forgetOrigin l).setWaitList
      ((s.forgetOrigin l).beamCtl.waitList.filter (fun w => w.req.ref.link != l)) with
    beamCtl :=
      { ((s.forgetOrigin l).setWaitList ((s.forgetOrigin l).beamCtl.waitList.filter (fun w => w.req.ref.link != l))).beamCtl with
      beams := (s.forgetOrigin l).beamCtl.beams.map (fun x => x.without l) } })
    (fun b => State.beam_map_beams ((s.forgetOrigin l).setWaitList _) _ b) (fun _ => rfl) rfl
  have hreturned := (hleft.foldl_returnOwned l allBeams fun _ _ => id).mono (lost' := fun _ _ => False)
    (fun b _ h => absurd (mem_allBeams b) h.2) fun _ => id
  exact (hreturned.foldl_closeIfEmpty allBeams).mono (fun _ _ => id) fun b h => absurd (mem_allBeams b) h.2

theorem State.Held.tearDown (hs : s.HeldBy up) (l : LinkNo) : (s.tearDown l).HeldBy (downOf up l) := by
  have hbefore : (State.emptyDeliveries { s.onLink l Link.goDown with
      handed := (s.onLink l Link.goDown).handed.filter (fun r => r.ref.link != l) } l).HeldBy up := hs.of_beamCtl (by simp)
  unfold State.tearDown
  dsimp only
  exact (hbefore.downBeams l).of_beamCtl (by simp [State.endSubscriptions, State.clearInterest, State.invalidateOwn])

end

end Sys2Proof.Machine
end

section
/-! PROOFS. Who holds the beams: every step keeps it (R68 to R70). -/

namespace Sys2Proof.Machine

section
variable {s t : State} {up : LinkNo → Bool}

/-- The answer's command is outstanding on the head. -/
theorem State.matched_some {h : HeadNo} {bs : List Byte} {o : Outstanding} {k : AnswerKind} (hm : s.matched h bs = some (o, k)) :
    (s.head h).outstanding = some o ∧ o.cmd.fits k (s.reachSegs h).length = true := by
  unfold State.matched at hm
  split at hm
  · next hout _ =>
    split at hm
    · next hfits =>
      cases hm
      exact ⟨hout, hfits.2⟩
    · cases hm
  · cases hm

theorem HeadCmd.eq_sweep_of_fits {c : HeadCmd} {es : List (Option Nat)} {n : Nat} (h : c.fits (.sweepResult es) n = true) :
    c = .sweep := by
  simp only [HeadCmd.fits, Bool.and_eq_true, beq_iff_eq] at h
  exact h.1

/-- A head with a sweep on hand, not left behind by a restart, is READY over SURVEYING beams. -/
theorem State.Held.surveying (hs : s.HeldBy up) {h : HeadNo} (hone : 1 ≤ (s.head h).sweeps) :
    (s.head h).state = .ready ∧ ∀ b, headOf b = h → (s.beam b).state = .surveying := by
  have hexact : (s.head h).sweeps = 1 := Nat.le_antisymm (hs.head h).sweeps hone
  have hbeams : ∀ b, headOf b = h → (s.beam b).state = .surveying := fun b hb => (hs.rules b).surveying (by rw [hb, hexact])
  refine ⟨?_, hbeams⟩
  by_contra hnot
  have hdown := (hs.rules (beamOf h .a)).down (by rw [headOf_beamOf]; exact hnot)
  rw [hbeams _ (headOf_beamOf h .a)] at hdown
  cases hdown

theorem Head.sweeps_of_outstanding {x : Head} {o : Outstanding} (ho : x.outstanding = some o) (hsweep : o.cmd = .sweep)
    (hleft : o.leftToFinish = false) : 1 ≤ x.sweeps := by
  simp only [Head.sweeps, ho, hsweep, hleft, and_self, if_true]
  omega

theorem Head.sweeps_of_retry {x : Head} {v : Time} (hretry : x.retryAt = some v) : 1 ≤ x.sweeps := by
  simp only [Head.sweeps, hretry, Option.isSome_some, if_true]
  omega

/-- A READY head without a sweep takes one for later, over SURVEYING beams. -/
theorem State.Held.retry (hs : s.HeldBy up) {h : HeadNo} (hnone : (s.head h).sweeps = 0) (hready : (s.head h).state = .ready)
    (hbeams : ∀ b, headOf b = h → (s.beam b).state = .surveying) (v : Time) :
    (s.setHead h { s.head h with retryAt := some v }).HeldBy up := by
  have hone : Head.sweeps { s.head h with retryAt := some v } = 1 := by
    simp only [Head.sweeps] at hnone ⊢
    simp only [Option.isSome_some, if_true]
    omega
  exact hs.setHead ⟨(hs.head h).sends, hone.le⟩ fun b hb => ⟨fun hnot => absurd hready hnot, fun _ => hbeams b hb⟩

/-- The retried sweep joins the queue in place of the retry. -/
theorem State.Held.retrySweep (hs : s.HeldBy up) {h : HeadNo} {v : Time} (hretry : (s.head h).retryAt = some v) :
    ((s.setHead h { s.head h with retryAt := none }).pushCmd h .sweep).HeldBy up := by
  obtain ⟨hready, hbeams⟩ := hs.surveying (Head.sweeps_of_retry hretry)
  have hnone : Head.sweeps { s.head h with retryAt := none } = 0 := by
    have hle := (hs.head h).sweeps
    simp only [Head.sweeps, hretry, Option.isSome_some, if_true] at hle
    simp only [Head.sweeps, Option.isSome_none, Bool.false_eq_true, if_false]
    omega
  have hcleared : (s.setHead h { s.head h with retryAt := none }).HeldBy up :=
    hs.setHead_line rfl (hs.head h).sends (by rw [hnone]; exact Nat.zero_le _)
  exact hcleared.pushSweep (by rw [State.head_setHead_self]; exact hnone) (by rw [State.head_setHead_self]; exact hready) hbeams

/-! ### Events -/

theorem Held_execSteerDone {h : HeadNo} {bs : List Byte} (hexec : execSteerDone h bs s = .next t) (hs : s.HeldBy up) :
    t.HeldBy up := by
  cases hexec
  split
  · split
    · exact hs.answered fun _ => (hs.endOutstanding h).steered _
    · exact hs
  · exact hs

theorem Held_execSteerRefused {h : HeadNo} {bs : List Byte} (hexec : execSteerRefused h bs s = .next t) (hs : s.HeldBy up) :
    t.HeldBy up := by
  cases hexec
  split
  · split
    · exact .of_beamCtl (State.judge_frame _).2.2.2.2.2.1 (hs.answered fun _ => (hs.endOutstanding h).steerRefused _ _)
    · exact hs
  · exact hs

theorem Held_execReleaseAnswered {h : HeadNo} {bs : List Byte} (hexec : execReleaseAnswered h bs s = .next t) (hs : s.HeldBy up) :
    t.HeldBy up := by
  cases hexec
  split
  · split
    · exact hs.answered fun _ => (hs.endOutstanding h).released _ _
    · exact hs
  · exact hs

theorem Held_execSweepResult {h : HeadNo} {bs : List Byte} (hexec : execSweepResult h bs s = .next t) (hs : s.HeldBy up) :
    t.HeldBy up := by
  cases hexec
  split
  · next o ms hm =>
    obtain ⟨hout, hfits⟩ := State.matched_some hm
    have hsweep := HeadCmd.eq_sweep_of_fits hfits
    refine .of_beamCtl (State.judge_frame _).2.2.2.2.2.1 (hs.answered fun hleft => ?_)
    obtain ⟨hready, hbeams⟩ := hs.surveying (Head.sweeps_of_outstanding hout hsweep hleft)
    refine (hs.endOutstanding h).swept ?_ (hs.sweeps_endOutstanding hout hsweep hleft) (fun b hb => ?_) ms
    · rw [State.head_of_beamCtl (s.endOutstanding_beamCtl h), State.head_setHead_self, (Head.next_state _ _).1]
      exact hready
    · rw [State.beam_endOutstanding, hbeams b hb]
  · exact hs

theorem Held_execSweepRefused {h : HeadNo} {bs : List Byte} (hexec : execSweepRefused h bs s = .next t) (hs : s.HeldBy up) :
    t.HeldBy up := by
  cases hexec
  split
  · next o hm =>
    split
    · next hsweep =>
      obtain ⟨hout, -⟩ := State.matched_some hm
      refine hs.answered fun hleft => .of_beamCtl (State.bumpCov_frame _ _).2.2.2.2.2.1 ?_
      obtain ⟨hready, hbeams⟩ := hs.surveying (Head.sweeps_of_outstanding hout hsweep hleft)
      refine (hs.endOutstanding h).retry (hs.sweeps_endOutstanding hout hsweep hleft) ?_ (fun b hb => ?_) _
      · rw [State.head_of_beamCtl (s.endOutstanding_beamCtl h), State.head_setHead_self, (Head.next_state _ _).1]
        exact hready
      · rw [State.beam_endOutstanding, hbeams b hb]
    · exact hs
  · exact hs

theorem Held_execProbeAnswered {h : HeadNo} {bs : List Byte} (hexec : execProbeAnswered h bs s = .next t) (hs : s.HeldBy up) :
    t.HeldBy up := by
  cases hexec
  split
  · split
    · exact .of_beamCtl (State.judge_frame _).2.2.2.2.2.1 (hs.answered fun _ => (hs.endOutstanding h).probed h)
    · exact hs
  · exact hs

theorem Held_execAnswerLimitExpiry {h : HeadNo} (hexec : execAnswerLimitExpiry h s = .next t) (hs : s.HeldBy up) :
    t.HeldBy up := by
  cases hexec
  split
  · exact .of_beamCtl (State.judge_frame _).2.2.2.2.2.1 (hs.answerRunsOut h)
  · exact hs

theorem Held_execProbeTime {h : HeadNo} (hexec : execProbeTime h s = .next t) (hs : s.HeldBy up) : t.HeldBy up := by
  cases hexec
  split
  · next v _ =>
    split
    · have hset : (s.setHead h { s.head h with probeAt := some (v + 1000) }).HeldBy up := hs.setHead_same rfl rfl rfl rfl
      exact (hset.pushCmd h (c := .probe) (by decide)).of_beamCtl (State.bumpCov_frame _ _).2.2.2.2.2.1
    · exact hs
  · exact hs

theorem Held_execSweepRetryTime {h : HeadNo} (hexec : execSweepRetryTime h s = .next t) (hs : s.HeldBy up) : t.HeldBy up := by
  cases hexec
  split
  · next v hv =>
    split
    · exact hs.retrySweep hv
    · exact hs
  · exact hs

theorem Held_execSurveyDue {h : HeadNo} (hexec : execSurveyDue h s = .next t) (hs : s.HeldBy up) : t.HeldBy up := by
  cases hexec
  split
  · exact hs.makeDue h
  · exact hs

theorem Held_execSurveyOverdue {h : HeadNo} (hexec : execSurveyOverdue h s = .next t) (hs : s.HeldBy up) : t.HeldBy up := by
  cases hexec
  split
  · exact hs.makeOverdue h
  · exact hs

theorem Held_execWaitExpiry {i : Fin 16} (hexec : execWaitExpiry i s = .next t) (hs : s.HeldBy up) : t.HeldBy up := by
  cases hexec
  split
  · split
    · exact hs.expireWait _
    · exact hs
  · exact hs

theorem Held_execBurstLimitExpiry {b : BeamNo} (hexec : execBurstLimitExpiry b s = .next t) (hs : s.HeldBy up) : t.HeldBy up := by
  cases hexec
  split
  · exact .of_beamCtl (State.judge_frame _).2.2.2.2.2.1 (hs.expireBurst b)
  · exact hs

theorem Held_execDownlinkWithdrawal {e : EntryNo} (hexec : execDownlinkWithdrawal e s = .next t) (hs : s.HeldBy up) :
    t.HeldBy up := by
  cases hexec
  split
  · exact .of_beamCtl ((State.judge_frame _).2.2.2.2.2.1.trans (by simp)) (hs.discardTerminal e)
  · exact hs

theorem Held_execSettingsLoadEnd {a b : Bool} (hexec : execSettingsLoadEnd a b s = .next t) (hs : s.HeldBy up) : t.HeldBy up := by
  cases hexec
  split
  · exact hs
  · exact hs.settingsLoad _

/-! ### Requests -/

theorem State.Held.serveOf (hs : s.HeldBy up) {code : ReqCode} {l : LinkNo} (hpart : Part.beamCtl ∈ writesOf (code.command l))
    {r : Request} (hr : up r.ref.link = true) : (serveOf code s r).HeldBy up := by
  cases code with
  | markCell => exact hs.serveMarkCell r
  | openBeam => exact hs.serveOpenBeam hr
  | release => exact hs.serveRelease r
  | survey => exact hs.serveSurvey r
  | fetch => exact hs.serveFetch r
  | done => exact State.reading_keeps (P := fun u => u.HeldBy up) (.of_beamCtl (by simp) hs) fun q _ => hs.burstReport r _ _ _ _
  | cut => exact State.reading_keeps (P := fun u => u.HeldBy up) (.of_beamCtl (by simp) hs) fun q _ => hs.burstReport r _ _ _ _
  | tune => exact hs.serveTune r
  | restart => exact hs.serveRestart r
  | _ => simp [ReqCode.command, writesOf] at hpart

/-- A request that is taken is of a link that is UP. -/
theorem State.Held.taking (hs : s.HeldBy up) (hhanded : ∀ r ∈ s.handed, up r.ref.link = true) {code : ReqCode} {l : LinkNo}
    (hpart : Part.beamCtl ∈ writesOf (code.command l)) : (s.taking code l (Machine.serveOf code)).HeldBy up := by
  unfold State.taking
  split
  · exact hs
  · next r hr =>
    split
    · have htaken : (s.taken r).HeldBy up := State.Held.of_beamCtl (s := s) rfl hs
      exact htaken.serveOf hpart (hhanded r (List.mem_of_find?_eq_some hr))
    · exact hs

/-- Every command that leaves the links as UP as they were keeps the beams held. -/
theorem exec_keeps_held {c : Instr} (hup : movesUp c = false) (hexec : exec c s = .next t) (hs : s.HeldBy up)
    (hhanded : ∀ r ∈ s.handed, up r.ref.link = true) : t.HeldBy up := by
  by_cases hpart : Part.beamCtl ∈ writesOf c
  · rcases hc : requestOf c with _ | ⟨code, l⟩
    · cases c with
      | settingsLoadEnd a b => exact Held_execSettingsLoadEnd hexec hs
      | downlinkWithdrawal e => exact Held_execDownlinkWithdrawal hexec hs
      | steerDone h bs => exact Held_execSteerDone hexec hs
      | steerRefused h bs => exact Held_execSteerRefused hexec hs
      | releaseAnswered h bs => exact Held_execReleaseAnswered hexec hs
      | sweepResult h bs => exact Held_execSweepResult hexec hs
      | sweepRefused h bs => exact Held_execSweepRefused hexec hs
      | probeAnswered h bs => exact Held_execProbeAnswered hexec hs
      | answerLimitExpiry h => exact Held_execAnswerLimitExpiry hexec hs
      | probeTime h => exact Held_execProbeTime hexec hs
      | sweepRetryTime h => exact Held_execSweepRetryTime hexec hs
      | surveyDue h => exact Held_execSurveyDue hexec hs
      | surveyOverdue h => exact Held_execSurveyOverdue hexec hs
      | waitExpiry i => exact Held_execWaitExpiry hexec hs
      | burstLimitExpiry b => exact Held_execBurstLimitExpiry hexec hs
      | pinReset | linkDown => cases hup
      | _ => simp_all [writesOf, requestOf]
    · obtain rfl : s.taking code l (serveOf code) = t := by simpa [exec_of_requestOf hc] using hexec
      obtain rfl := requestOf_eq_some_iff.mp hc
      exact hs.taking hhanded hpart
  · exact hs.of_beamCtl (exec_next_keeps hexec .beamCtl hpart)

/-! ### Links that come UP and go DOWN -/

theorem State.Held.mono_up {up' : LinkNo → Bool} (hs : s.HeldBy up) (hle : ∀ l, up l = true → up' l = true) : s.HeldBy up' :=
  ⟨fun b => ⟨(hs.beam b).held, fun l hl => ⟨((hs.beam b).holders l hl).1, hle l ((hs.beam b).holders l hl).2⟩, (hs.beam b).burst,
    fun q hq => hle _ ((hs.beam b).awaiting q hq)⟩, hs.head, hs.rules, fun w hw => hle _ (hs.waits w hw), hs.few⟩

/-- What follows the beams' part of a link DOWN writes neither the links' being UP nor the requests on hand. -/
theorem State.up_handed_downBeams (s : State) (l : LinkNo) :
    upOf (((((s.downBeams l).invalidateOwn l).clearInterest l).endSubscriptions l).judge).links = upOf s.links ∧
    (((((s.downBeams l).invalidateOwn l).clearInterest l).endSubscriptions l).judge).handed = s.handed := by
  rw [State.upOf_judge, (State.judge_frame _).2.1, ← s.upOf_downBeams l, ← (s.downBeams_frame l).2.1]
  generalize s.downBeams l = u
  exact ⟨rfl, rfl⟩

theorem State.up_tearDown (s : State) (l : LinkNo) : upOf (s.tearDown l).links = downOf (upOf s.links) l := by
  rw [← upOf_goDown]
  exact (State.up_handed_downBeams _ l).1

theorem State.handed_tearDown (s : State) (l : LinkNo) : (s.tearDown l).handed = s.handed.filter (fun r => r.ref.link != l) :=
  (State.up_handed_downBeams _ l).2

theorem State.upOf_comeUp {p : Link → Bool} (l : LinkNo) {m : LinkNo} (h : upOf s.links m = true) :
    upOf (s.onLink l (fun k => if p k then k.comeUp else k)).links m = true := by
  have hlink : (s.link m).up = true := h
  change ((s.onLink l _).link m).up = true
  rw [State.link_onLink]
  split
  · next heq =>
    subst heq
    split
    · rfl
    · exact hlink
  · exact hlink

theorem State.reset_beamsHeld : State.reset.beamsHeld := by
  rw [State.beamsHeld_iff]
  have hbeam : ∀ b, State.reset.beam b = Beam.reset := fun b => look_replicate _ _
  have hhead : ∀ h, State.reset.head h = Head.reset := fun h => look_replicate _ _
  refine ⟨⟨fun b => ?_, fun h => ?_, fun b => ?_, fun w hw => (by cases hw), Nat.zero_le _⟩, fun r hr => (by cases hr)⟩
  · rw [hbeam]
    exact Beam.fits_of_free (not_or.mpr (by decide)) LinkSet.look_none rfl fun q hq => by cases hq
  · rw [hhead]
    exact ⟨fun _ => rfl, by decide⟩
  · rw [hbeam, hhead]
    exact ⟨fun _ => rfl, by decide⟩

/-- A pin reset leaves the beams, the links and the requests on hand as the reset state has them. -/
theorem State.beamsHeld_execPinReset (hexec : execPinReset s = .next t) : t.beamsHeld := by
  cases hexec
  exact State.reset_beamsHeld

theorem exec_keeps_beamsHeld {c : Instr} (hexec : exec c s = .next t) (hs : s.beamsHeld) : t.beamsHeld := by
  by_cases hup : movesUp c = true
  · obtain ⟨hheld, hhanded⟩ := s.beamsHeld_iff.mp hs
    cases c with
    | linkUp l =>
      cases hexec
      refine (State.beamsHeld_iff _).mpr ⟨.of_beamCtl (s := s) rfl (hheld.mono_up fun m => State.upOf_comeUp l), fun r hr => ?_⟩
      exact State.upOf_comeUp l (hhanded r hr)
    | linkDown l receiving =>
      cases hexec
      split
      · refine (State.beamsHeld_iff _).mpr ⟨?_, fun r hr => ?_⟩
        · rw [State.up_tearDown]
          exact hheld.tearDown l
        · rw [State.up_tearDown]
          rw [State.handed_tearDown, List.mem_filter] at hr
          exact downOf_eq_true.mpr ⟨hhanded r hr.1, by simpa using hr.2⟩
      · exact hs
    | pinReset => exact State.beamsHeld_execPinReset hexec
    | _ => cases hup
  · have hkept : movesUp c = false := by simpa using hup
    obtain ⟨hheld, hhanded⟩ := s.beamsHeld_iff.mp hs
    rw [State.beamsHeld_iff, exec_upOf hkept hexec]
    exact ⟨exec_keeps_held hkept hexec hheld hhanded, fun r hr => (exec_handed hkept hexec hr).elim (hhanded r) id⟩

/-- Settles O59: each operation on a beam, a head or the wait list keeps what the beams' state says of holders, bursts, sweeps and
queues, and a link that goes DOWN leaves with all it has on the beams. -/
theorem stepsKeepBeamsHeld : Obligations.StepsKeepBeamsHeld :=
  fun _ _ hs h => step_keeps (P := State.beamsHeld) (fun _ _ hu => hu) (fun _ _ _ => exec_keeps_beamsHeld) hs h

end

end Sys2Proof.Machine
end

section
/-! PROOFS. The reset state has every invariant. -/

namespace Sys2Proof.Machine

namespace State

theorem reset_link (l : LinkNo) : State.reset.link l = Link.reset := look_replicate _ _
theorem reset_beam (b : BeamNo) : State.reset.beam b = Beam.reset := look_replicate _ _

/-- No unit owes an answer after a reset. -/
theorem reset_owed : State.reset.owed = [] := by
  simp only [State.owed, reset_beam]
  simp [State.reset, BeamCtl.reset, Settings.reset, Beam.reset]

theorem reset_linksSound : State.reset.linksSound := by
  refine ⟨fun l => ?_, by rw [reset_owed]; exact List.nodup_nil, fun r hr => ?_⟩
  · rw [reset_link]
    simp [Link.sound, Link.reset, Link.replies, Link.noticeCount]
  · rw [reset_owed] at hr
    cases hr

/-- Every default parameter lies in its range. -/
theorem reset_paramsInRange : State.reset.paramsInRange := by
  change ∀ i : Fin 19, (paramRange paramDefaults i).1 ≤ look paramDefaults i ∧ look paramDefaults i ≤ (paramRange paramDefaults i).2
  decide

theorem reset_inFlight : State.reset.inFlight = [] := by
  rw [State.inFlight_eq, List.flatMap_eq_nil_iff]
  intro b _
  rw [reset_beam]
  rfl

/-- Every block of the pool is free after a reset. -/
theorem reset_poolAccounted : State.reset.poolAccounted := by
  refine ⟨?_, fun _ => ⟨rfl, fun l => ?_, fun b => ?_⟩⟩
  · have hnone : State.reset.deliveryBlocks = 0 := by
      simp [State.deliveryBlocks, State.reset, Pool.reset, deliveriesBlocks]
    rw [reset_inFlight, hnone]
    rfl
  · rw [reset_link]
    rfl
  · rw [reset_beam]
    rfl

theorem reset_slotsBounded : State.reset.slotsBounded := fun r p => by
  rw [State.reset_slot]
  exact Slot.clear_bounded

theorem reset_segmentsFollow : State.reset.segmentsFollow := fun h => by cases h

theorem reset_framesHaveTerminals : State.reset.framesHaveTerminals := by
  refine ⟨fun f hf => (by cases hf), fun f hf => ?_⟩
  rw [reset_inFlight] at hf
  cases hf

theorem reset_oneSafety : State.reset.oneSafety := fun e => by
  rw [State.inFlightOf, reset_inFlight]
  exact Nat.zero_le 1

theorem reset_reachFits : State.reset.reachFits := fun h w hw => by
  rw [show look State.reset.coverage.reach h = none from look_replicate _ _] at hw
  cases hw

end State

/-- Settles O60, one invariant at a time: nothing waits, flies, is held or is owed after a reset. -/
theorem theResetStateHasEveryInvariant : Obligations.TheResetStateHasEveryInvariant :=
  ⟨State.reset_linksSound, State.reset_memory_wf, State.reset_paramsInRange, State.reset_poolAccounted, State.reset_slotsBounded,
    State.reset_alarmsAgree, State.reset_registryAgrees, State.reset_segmentsFollow, State.reset_oneSafety, State.reset_beamsHeld,
    State.reset_framesHaveTerminals, State.reset_reachFits⟩

end Sys2Proof.Machine
end

section
/-! PROOFS. The token check and the reads under a token (R31, R35, R41, R43, R138, R156). -/

namespace Sys2Proof.Machine

/-! ### The stages of the check -/

section
variable {s : State} {l : LinkNo} {t : Token} {writing : Bool} {i : Fin 128} {x : AccessEntry} {e : EntryNo}

/-- The entry that a token names passes the first stage. -/
structure State.Names (s : State) (l : LinkNo) (t : Token) (x : AccessEntry) : Prop where
  named : ∃ i : Fin 128, t.entry.toNat = i.val ∧ look (s.accessList l t.list) i = x
  valid : x.valid = true

theorem State.checkToken_invalid (hi : t.entry.toNat = i.val) (h : (look (s.accessList l t.list) i).valid = false) :
    s.checkToken l t writing = .failed .entryInvalid 6 := by
  simp [State.checkToken, entryIndex_of_eq hi, h]

theorem State.Names.checkToken_stale (hx : s.Names l t x) (hseq : t.seq ≠ x.seq) :
    s.checkToken l t writing = .failed .entryStale 7 := by
  obtain ⟨⟨i, hi, rfl⟩, hvalid⟩ := hx
  simp [State.checkToken, entryIndex_of_eq hi, hvalid, hseq]

theorem State.Names.checkToken_gone (hx : s.Names l t x) (hseq : t.seq = x.seq)
    (hgone : ¬∃ e, x.terminal = some e ∧ (s.entry e).state ≠ .free ∧ x.snapshot = some (s.entry e).seq) :
    s.checkToken l t writing = .failed .terminalGone 8 := by
  obtain ⟨⟨i, hi, rfl⟩, hvalid⟩ := hx
  unfold State.checkToken
  rw [entryIndex_of_eq hi]
  simp only [hvalid, hseq, Bool.not_true, Bool.false_eq_true, ne_eq, not_true_eq_false, if_false]
  split
  · rfl
  · next e he =>
    have hnot : s.entryCurrent (look (s.accessList l t.list) i) = false := by
      rw [s.entryCurrent_of_terminal he]
      exact decide_eq_false fun h => hgone ⟨e, he, h⟩
    simp [hnot]

/-- An entry whose terminal is as it was has the last two stages decide. -/
theorem State.Names.checkToken_current (hx : s.Names l t x) (hseq : t.seq = x.seq)
    (hcurrent : x.terminal = some e ∧ (s.entry e).state ≠ .free ∧ x.snapshot = some (s.entry e).seq) :
    s.checkToken l t writing =
      if x.priv = true ∧ x.ax ≠ some (s.link l).ax ∧ (s.entry e).auth.getLsbD (s.link l).ax.val = false then
        .failed .notAuthorised 9
      else if writing = true ∧ x.readOnly = true then .failed .readOnly 10
      else .passed e := by
  obtain ⟨⟨i, hi, rfl⟩, hvalid⟩ := hx
  obtain ⟨hterminal, hrest⟩ := hcurrent
  have hyes : s.entryCurrent (look (s.accessList l t.list) i) = true := by
    rw [s.entryCurrent_of_terminal hterminal]
    exact decide_eq_true hrest
  unfold State.checkToken
  rw [entryIndex_of_eq hi]
  simp only [hvalid, hseq, hterminal, hyes, Bool.not_true, Bool.false_eq_true, ne_eq, not_true_eq_false, if_false]
  simp only [Bool.and_eq_true, Bool.not_eq_true', bne_iff_ne, ne_eq, and_assoc]

end

/-! ### Requests under a token -/

theorem State.reading_withToken {α : Type} {r : Request} {o : Option α} {q : α} (hread : o = some q) (k : α → Token) (w : Bool)
    (f : α → State → EntryNo → State) (u : State) :
    u.reading r o (fun q => u.withToken r (k q) w (f q)) = u.withToken r (k q) w (f q) := by
  rw [hread, State.reading_some]

/-- The owner of a request that carries a token has the token checked first. -/
theorem serveOf_of_token {c : ReqCode} {r : Request} {t : Token} {writing : Bool} (h : c.token r.body = some (t, writing)) :
    ∃ f : State → EntryNo → State, ∀ u : State, serveOf c u r = u.withToken r t writing f := by
  cases c
  case readTerminal | readCrane | subscribe | readRack | send | purgeQueue | acknowledge | clearDose =>
    obtain ⟨q, hq, hpair⟩ := Option.map_eq_some_iff.mp h
    cases hpair
    exact ⟨_, State.reading_withToken hq _ _ _⟩
  all_goals cases h

theorem State.checkToken_taken (s : State) (r : Request) (l : LinkNo) (t : Token) (writing : Bool) :
    (s.taken r).checkToken l t writing = s.checkToken l t writing :=
  State.checkToken_congr rfl rfl rfl l t writing

/-- A request whose token fails is answered the stage's code. -/
theorem exec_asks_failed {c : ReqCode} {r : Request} {s : State} {t : Token} {writing : Bool} {st : Status} {k : Fin 12}
    (h : s.Asks c r) (htoken : c.token r.body = some (t, writing)) (hfailed : s.checkToken r.ref.link t writing = .failed st k) :
    exec (c.command r.ref.link) s = .next (((s.taken r).bumpAcc k).answer r.ref st) := by
  obtain ⟨f, hf⟩ := serveOf_of_token htoken
  rw [exec_asks h, hf, State.withToken_failed (by rw [State.checkToken_taken, hfailed])]

/-- Settles O22: one case for each stage of the check, and the owner's answer where a stage fails. -/
theorem tokensPassSixStagesOrAreRefused : Obligations.TokensPassSixStagesOrAreRefused := by
  refine ⟨fun _ _ => ⟨rfl, rfl⟩, fun s l t writing hge => ?_, fun s l t writing i hi => ?_,
    fun c r s t writing st k => exec_asks_failed⟩
  · simp [State.checkToken, entryIndex_of_ge hge]
  · intro x current shut
    have hnames : x.valid = true → s.Names l t x := fun hvalid => ⟨⟨i, hi, rfl⟩, hvalid⟩
    refine ⟨State.checkToken_invalid hi, fun hv => (hnames hv).checkToken_stale, fun hv => (hnames hv).checkToken_gone,
      fun e hv hseq hcurrent => ?_⟩
    rw [(hnames hv).checkToken_current hseq hcurrent]
    refine ⟨fun hshut => if_pos hshut, fun hopen hw hro => ?_, fun hopen hok => ?_⟩
    · rw [if_neg hopen, if_pos ⟨hw, hro⟩]
    · rw [if_neg hopen, if_neg (fun h => by rcases hok with hf | hf <;> simp_all)]

/-! ### The reads -/

/-- A request under a token that passes goes on with the token's terminal, the check counted. -/
theorem exec_asks_passed {α : Type} {c : ReqCode} {s : State} {r : Request} {o : Option α} {q : α} {k : α → Token}
    {w : Bool} {f : α → State → EntryNo → State} {e : EntryNo} (h : s.Asks c r)
    (hserve : ∀ u : State, serveOf c u r = u.reading r o (fun q => u.withToken r (k q) w (f q))) (hread : o = some q)
    (hpassed : s.checkToken r.ref.link (k q) w = .passed e) :
    exec (c.command r.ref.link) s = .next (f q ((s.taken r).bumpAcc 4) e) := by
  rw [exec_asks h, hserve, hread, State.reading_some, State.withToken_passed (by rw [State.checkToken_taken, hpassed])]

theorem State.withCrane_wrong {s : State} {e : EntryNo} (h : (s.entry e).kind ≠ some .crane) (r : Request)
    (f : CraneNo → CraneRec → State) : s.withCrane r e f = s.answer r.ref .wrongState := by
  unfold State.withCrane
  split
  · next hk _ => exact absurd hk h
  · rfl

theorem State.withCrane_of {s : State} {e : EntryNo} {c : CraneNo} {k : CraneRec} (hk : (s.entry e).kind = some .crane)
    (hc : (s.entry e).crane = some c) (hrec : s.craneRec c = some k) (r : Request) (f : CraneNo → CraneRec → State) :
    s.withCrane r e f = f c k := by
  simp [State.withCrane, hk, hc, hrec]

theorem State.withRack_wrong {s : State} {e : EntryNo} (h : (s.entry e).kind ≠ some .rack) (r : Request)
    (f : RackNo → RackRec → State) : s.withRack r e f = s.answer r.ref .wrongState := by
  unfold State.withRack
  split
  · next hk _ => exact absurd hk h
  · rfl

theorem State.withRack_of {s : State} {e : EntryNo} {n : RackNo} {k : RackRec} (hk : (s.entry e).kind = some .rack)
    (hn : (s.entry e).rack = some n) (hrec : s.rackRec n = some k) (r : Request) (f : RackNo → RackRec → State) :
    s.withRack r e f = f n k := by
  simp [State.withRack, hk, hn, hrec]

/-- The plugs that a READ RACK names: those within its range, or all. -/
def plugsNamed (range : Option (Nat × Nat)) : List PlugNo :=
  allPlugs.filter (fun p => match range with
    | none => true
    | some (f, c) => decide (f ≤ p.val) && decide (p.val < f + c))

theorem rackRange_bad {range : Option (Nat × Nat)} (h : ∃ f c : Nat, range = some (f, c) ∧ (24 ≤ f ∨ c = 0 ∨ 24 < f + c)) :
    rackRange range = none := by
  obtain ⟨f, c, rfl, hbad⟩ := h
  exact if_neg (by omega)

theorem rackRange_good {range : Option (Nat × Nat)}
    (h : ¬∃ f c : Nat, range = some (f, c) ∧ (24 ≤ f ∨ c = 0 ∨ 24 < f + c)) : rackRange range = some (plugsNamed range) := by
  rcases range with _ | ⟨f, c⟩
  · simp [rackRange, plugsNamed]
  · have hgood : f < 24 ∧ 1 ≤ c ∧ f + c ≤ 24 := by
      by_contra hnot
      exact h ⟨f, c, rfl, by omega⟩
    rw [rackRange, if_pos hgood]
    rfl

section
variable {r : Request} {s : State} {t : Token} {e : EntryNo}

theorem exec_readTerminal (h : s.Asks .readTerminal r) (hread : readToken r.body = some t)
    (hpassed : s.checkToken r.ref.link t false = .passed e) :
    exec (.readTerminal r.ref.link) s =
      .next (((s.taken r).bumpAcc 4).reply r.ref .ok (.terminal (((s.taken r).bumpAcc 4).terminalView e))) :=
  exec_asks_passed (c := .readTerminal) (k := id)
    (f := fun _ u e => u.reply r.ref .ok (.terminal (u.terminalView e))) h (fun _ => rfl) hread hpassed

theorem exec_readCrane (h : s.Asks .readCrane r) (hread : readToken r.body = some t)
    (hpassed : s.checkToken r.ref.link t false = .passed e) :
    exec (.readCrane r.ref.link) s = .next (((s.taken r).bumpAcc 4).withCrane r e
      (fun c k => ((s.taken r).bumpAcc 4).reply r.ref .ok (.crane (((s.taken r).bumpAcc 4).craneView e c k)))) :=
  exec_asks_passed (c := .readCrane) (k := id)
    (f := fun _ u e => u.withCrane r e (fun c k => u.reply r.ref .ok (.crane (u.craneView e c k)))) h (fun _ => rfl) hread hpassed

/-- What READ_RACK does with a range of plugs of a rack. -/
def State.giveRack (s : State) (r : Request) (range : Option (Nat × Nat)) (e : EntryNo) (n : RackNo) (k : RackRec) : State :=
  match rackRange range with
  | none => s.answer r.ref .badRequest
  | some ps => s.reply r.ref .ok (.rack (s.rackView e n k ps))

theorem State.giveRack_bad {range : Option (Nat × Nat)} (h : rackRange range = none) (u : State) (n : RackNo) (k : RackRec) :
    u.giveRack r range e n k = u.answer r.ref .badRequest := by
  rw [State.giveRack, h]

theorem State.giveRack_good {range : Option (Nat × Nat)} {ps : List PlugNo} (h : rackRange range = some ps) (u : State)
    (n : RackNo) (k : RackRec) : u.giveRack r range e n k = u.reply r.ref .ok (.rack (u.rackView e n k ps)) := by
  rw [State.giveRack, h]

theorem exec_readRack {range : Option (Nat × Nat)} (h : s.Asks .readRack r) (hread : readReadRack r.body = some (t, range))
    (hpassed : s.checkToken r.ref.link t false = .passed e) :
    exec (.readRack r.ref.link) s =
      .next (((s.taken r).bumpAcc 4).withRack r e (((s.taken r).bumpAcc 4).giveRack r range e)) :=
  exec_asks_passed (c := .readRack) (k := Prod.fst) (f := fun q u e => u.withRack r e (u.giveRack r q.2 e)) h (fun _ => rfl)
    hread hpassed

end

/-- Settles O25: each read is the view of the terminal that passed. -/
theorem readsUnderATokenGiveTheTerminal : Obligations.ReadsUnderATokenGiveTheTerminal := by
  refine ⟨fun r s t e h hread hpassed => ?_, fun r s t e h hread hpassed => ⟨fun hkind => ?_, fun c k hkind hc hrec => ?_⟩,
    fun r s t e range h hread hpassed => ⟨fun hkind => ?_, fun n k hkind hn hrec => ⟨fun hbad => ?_, fun hgood => ?_⟩⟩⟩
  · exact ⟨_, exec_readTerminal h hread hpassed, rfl, rfl, rfl, rfl, rfl, rfl⟩
  · rw [exec_readCrane h hread hpassed, State.withCrane_wrong (s := (s.taken r).bumpAcc 4) hkind]
  · refine ⟨((s.taken r).bumpAcc 4).craneView e c k, ?_, rfl, rfl, rfl, rfl,
      rfl, rfl, rfl, rfl, rfl, fun m g hm hg => ?_, fun hnone => ?_, rfl, rfl, rfl, rfl, rfl⟩
    · rw [exec_readCrane h hread hpassed, State.withCrane_of (s := (s.taken r).bumpAcc 4) hkind hc hrec]
    · simp [State.craneView, hm, hg]
    · rcases hnone with hnone | hnone <;> simp [State.craneView, hnone]
  · rw [exec_readRack h hread hpassed, State.withRack_wrong (s := (s.taken r).bumpAcc 4) hkind]
  · rw [exec_readRack h hread hpassed, State.withRack_of (s := (s.taken r).bumpAcc 4) hkind hn hrec, State.giveRack_bad (rackRange_bad hbad)]
  · refine ⟨((s.taken r).bumpAcc 4).rackView e n k (plugsNamed range), ?_, rfl, rfl, rfl, rfl, rfl, rfl, rfl, rfl, rfl, rfl, rfl, rfl, rfl⟩
    rw [exec_readRack h hread hpassed, State.withRack_of (s := (s.taken r).bumpAcc 4) hkind hn hrec, State.giveRack_good (rackRange_good hgood)]

end Sys2Proof.Machine
end

section
/-! PROOFS. SET_INTEREST, ACKNOWLEDGE and CLEAR_DOSE (R153, R168, R169). -/

namespace Sys2Proof.Machine

/-- What ACKNOWLEDGE does with a slot. -/
def State.giveAcknowledge (s : State) (r : Request) (n : RackNo) (p : PlugNo) : State :=
  (s.acknowledgeSlot n p).reply r.ref .ok
    (.acknowledged n p (s.slot n p).grade (s.reefer.alarms.any (fun a => a.isOf n p)))

/-- The state once a slot's dose is cleared and its grade derived afresh. -/
def State.clearDose (s : State) (n : RackNo) (p : PlugNo) : State :=
  ((s.setSlot n p (s.slot n p).doseCleared).regrade n p false).bumpReef 24

/-- What CLEAR_DOSE does with a slot. -/
def State.giveClearDose (s : State) (r : Request) (n : RackNo) (p : PlugNo) : State :=
  if !(s.slot n p).occupied then s.answer r.ref .wrongState
  else (s.clearDose n p).reply r.ref .ok (.doseCleared (s.slot n p).dose ((s.clearDose n p).slot n p).grade)

section
variable {r : Request} {s : State} {q : Token} {p : PlugNo} {e : EntryNo}

theorem serveAcknowledge_eq (u : State) : serveAcknowledge u r = u.reading r (readPlugReq r.body) (fun q =>
    u.withToken r q.1 true (fun u e => u.withRack r e (fun n _ => u.giveAcknowledge r n q.2))) := by
  simp only [serveAcknowledge, State.giveAcknowledge]

theorem serveClearDose_eq (u : State) : serveClearDose u r = u.reading r (readPlugReq r.body) (fun q =>
    u.withToken r q.1 true (fun u e => u.withRack r e (fun n _ => u.giveClearDose r n q.2))) := by
  simp only [serveClearDose, State.giveClearDose, State.clearDose]

theorem exec_acknowledge (h : s.Asks .acknowledge r) (hread : readPlugReq r.body = some (q, p))
    (hpassed : s.checkToken r.ref.link q true = .passed e) :
    exec (.acknowledge r.ref.link) s =
      .next (((s.taken r).bumpAcc 4).withRack r e (fun n _ => ((s.taken r).bumpAcc 4).giveAcknowledge r n p)) := by
  have hserve : exec (.acknowledge r.ref.link) s = .next (serveAcknowledge (s.taken r) r) := exec_asks h
  rw [hserve, serveAcknowledge_eq, hread, State.reading_some, State.withToken_passed (by rw [State.checkToken_taken, hpassed])]

theorem exec_clearDose (h : s.Asks .clearDose r) (hread : readPlugReq r.body = some (q, p))
    (hpassed : s.checkToken r.ref.link q true = .passed e) :
    exec (.clearDose r.ref.link) s =
      .next (((s.taken r).bumpAcc 4).withRack r e (fun n _ => ((s.taken r).bumpAcc 4).giveClearDose r n p)) :=
  exec_asks_passed (c := .clearDose) (k := Prod.fst)
    (f := fun q u e => u.withRack r e (fun n _ => u.giveClearDose r n q.2)) h serveClearDose_eq hread hpassed

end

section
variable (s : State) (n : RackNo) (p : PlugNo)

/-! ### What ACKNOWLEDGE writes -/

theorem State.acknowledgeSlot_slot_self : (s.acknowledgeSlot n p).slot n p =
    { s.slot n p with ack := (s.slot n p).grade, queued := false, displaced := false } := by
  simp only [State.acknowledgeSlot, State.slot_bumpReef, State.slot_setSlot_self]

theorem State.acknowledgeSlot_slot_other {m : RackNo} {o : PlugNo} (h : (m, o) ≠ (n, p)) :
    (s.acknowledgeSlot n p).slot m o = s.slot m o := by
  have hother : ¬(m = n ∧ o = p) := fun he => h (by rw [he.1, he.2])
  simp only [State.acknowledgeSlot, State.slot_bumpReef, State.slot_setSlot, hother, if_false, State.slot_setAlarms]

theorem State.acknowledgeSlot_keepsAllBut : s.KeepsAllBut (s.acknowledgeSlot n p) [.reefer] := by
  intro q hq
  cases q <;> simp_all [Part.same, State.acknowledgeSlot]

/-! ### What CLEAR_DOSE writes -/

/-- The slot without its dose, its grade derived afresh. -/
def Slot.cleared (x : Slot) : Slot := x.doseCleared.regraded

/-- A slot like the cleared one has its grade and what falls with it derived from its reasons. -/
theorem Slot.eq_of_cleared_like {x y : Slot} (h : x.cleared.Like y) : y = { x with
    dose := 0, residue := 0, unobserved := 0, ePrev := 0
    reasons := { x.reasons with doseWarn := false, doseAlarm := false }
    grade := y.reasons.grade, ack := (if y.grade.rank < x.ack.rank then y.grade else x.ack)
    queued := y.queued, displaced := y.displaced } := by
  obtain ⟨a, b, rfl⟩ := h.exists
  rfl

theorem Slot.cleared_queued (x : Slot) : x.cleared.queued = x.queued := rfl

theorem State.clearDose_eq : s.clearDose n p = ((s.setSlot n p (s.slot n p).doseCleared).applyConsult n p
    (consult s.reefer.alarms (s.slot n p).cleared n p s.nowSec false)).bumpReef 24 := by
  simp only [State.clearDose, State.regrade, State.slot_setSlot_self]
  rfl

/-- The slot is as its clearing leaves it, but for the queue's flags. -/
theorem State.clearDose_slot_self : (s.slot n p).cleared.Like ((s.clearDose n p).slot n p) := by
  have hslot := (s.setSlot n p (s.slot n p).doseCleared).regrade_slot n p false n p
  rw [if_pos ⟨rfl, rfl⟩, State.slot_setSlot_self] at hslot
  exact hslot

theorem State.clearDose_slot_other {m : RackNo} {o : PlugNo} (h : (m, o) ≠ (n, p)) :
    (s.slot m o).Like ((s.clearDose n p).slot m o) := by
  have hother : ¬(m = n ∧ o = p) := fun he => h (by rw [he.1, he.2])
  have hslot := (s.setSlot n p (s.slot n p).doseCleared).regrade_slot n p false m o
  rw [if_neg hother, State.slot_setSlot, if_neg hother] at hslot
  exact hslot

/-- A slot that has a record keeps it, with the cleared slot's grade and dose. -/
theorem State.clearDose_of_queued (h : (s.slot n p).queued = true) :
    ((s.clearDose n p).slot n p).queued = true ∧
    (s.clearDose n p).reefer.alarms = s.reefer.alarms.map (AlarmRec.follow (s.slot n p).cleared n p s.nowSec) := by
  obtain ⟨hslot, -, hnone, halarms, -⟩ :=
    consult_of_queued (as := s.reefer.alarms) (r := n) (p := p) (now := s.nowSec) ((s.slot n p).cleared_queued.trans h) false
  rw [State.clearDose_eq]
  refine ⟨?_, ?_⟩
  · rw [State.slot_bumpReef, State.applyConsult_slot_of_none _ _ _ _ hnone, hslot]
    exact h
  · exact (State.alarms_applyConsult _ _ _ _).trans halarms

theorem State.clearDose_counted : look (s.clearDose n p).reefer.counters 24 = satInc (look s.reefer.counters 24) := by
  rw [State.clearDose_eq, State.counter_bumpReef, if_pos rfl, State.counter_applyConsult, if_neg (by simp),
    State.counter_consulted _ _ _ _ (by decide) (by decide), State.counters_rewritten]
  split
  · rw [look_bump_ne _ (by decide)]
    rfl
  · rfl

theorem State.raiseAlarm_reefer : (s.raiseAlarm n p).reefer.racks = s.reefer.racks ∧
    (s.raiseAlarm n p).reefer.interest = s.reefer.interest := by
  have hbump : ∀ u : State, u.reefer = s.reefer → (u.bumpReef 18).reefer.racks = s.reefer.racks ∧
      (u.bumpReef 18).reefer.interest = s.reefer.interest := fun u hu => by rw [← hu]; exact ⟨rfl, rfl⟩
  exact hbump _ (by simp)

theorem State.applyConsult_reefer (k : Consult) : (s.applyConsult n p k).reefer.racks = s.reefer.racks ∧
    (s.applyConsult n p k).reefer.interest = s.reefer.interest := by
  rw [State.applyConsult_eq]
  split
  · rw [(State.raiseAlarm_reefer _ n p).1, (State.raiseAlarm_reefer _ n p).2]
    exact ⟨s.racks_consulted n p k, s.interest_consulted n p k⟩
  · exact ⟨s.racks_consulted n p k, s.interest_consulted n p k⟩

theorem State.clearDose_keeps : (s.clearDose n p).reefer.racks = s.reefer.racks ∧
    (s.clearDose n p).reefer.interest = s.reefer.interest ∧ s.KeepsAllBut (s.clearDose n p) [.links, .reefer] := by
  rw [State.clearDose_eq]
  generalize consult s.reefer.alarms (s.slot n p).cleared n p s.nowSec false = k
  obtain ⟨hracks, hinterest⟩ := (s.setSlot n p (s.slot n p).doseCleared).applyConsult_reefer n p k
  have hset : s.KeepsAllBut (s.setSlot n p (s.slot n p).doseCleared) [.links, .reefer] := by
    intro q hq
    cases q <;> simp_all [Part.same]
  have happlied := hset.trans (State.applyConsult_keepsAllBut _ n p k)
  refine ⟨hracks, hinterest, happlied.trans fun q hq => ?_⟩
  cases q <;> simp_all [Part.same]

end

/-- Settles O45: the interest written, and under a token that passes the slot acknowledged or its dose cleared. -/
theorem interestAcknowledgeAndClearDose : Obligations.InterestAcknowledgeAndClearDose := by
  refine ⟨fun r s i h hread => exec_asks_reading (c := .setInterest) (f := fun u i => State.reply { u with reefer := { u.reefer with
      interest := put u.reefer.interest r.ref.link i } } r.ref .ok (.interest i)) h (fun _ => rfl) hread,
    fun c r s q p e hc h hread hpassed => ⟨fun hkind => ?_, fun n k hkind hn hrec => ⟨?_, ?_, ?_⟩⟩⟩
  · rcases hc with rfl | rfl
    · exact (exec_acknowledge h hread hpassed).trans
        (congrArg _ (State.withRack_wrong (s := (s.taken r).bumpAcc 4) hkind r _))
    · exact (exec_clearDose h hread hpassed).trans
        (congrArg _ (State.withRack_wrong (s := (s.taken r).bumpAcc 4) hkind r _))
  · rintro rfl
    refine ⟨((s.taken r).bumpAcc 4).acknowledgeSlot n p, ?_, State.acknowledgeSlot_slot_self _ n p,
      fun m o hmo => State.acknowledgeSlot_slot_other _ n p hmo, rfl, rfl, rfl, rfl, State.acknowledgeSlot_keepsAllBut _ n p⟩
    exact (exec_acknowledge h hread hpassed).trans
      (congrArg _ (State.withRack_of (s := (s.taken r).bumpAcc 4) hkind hn hrec r _))
  · rintro rfl hvacant
    have hgive : ((s.taken r).bumpAcc 4).giveClearDose r n p = ((s.taken r).bumpAcc 4).answer r.ref .wrongState :=
      if_pos (by rw [show (((s.taken r).bumpAcc 4).slot n p).occupied = false from hvacant]; rfl)
    rw [← hgive]
    exact (exec_clearDose h hread hpassed).trans
      (congrArg _ (State.withRack_of (s := (s.taken r).bumpAcc 4) hkind hn hrec r _))
  · rintro rfl hoccupied
    generalize hu : (s.taken r).bumpAcc 4 = u
    have hslot : u.slot = s.slot := by rw [← hu]; rfl
    have hlike := u.clearDose_slot_self n p
    obtain ⟨hracks, hinterest, hkeeps⟩ := u.clearDose_keeps n p
    refine ⟨u.clearDose n p, (u.clearDose n p).slot n p, ?_, rfl, ?_, fun hqueued => ?_, fun m o hmo z hz => ?_, ?_, ?_, ?_, hkeeps⟩
    · have hgive : u.giveClearDose r n p = _ := if_neg (by rw [hslot, hoccupied]; simp)
      rw [hslot] at hgive
      rw [← hgive, ← hu]
      exact (exec_clearDose h hread hpassed).trans
        (congrArg _ (State.withRack_of (s := (s.taken r).bumpAcc 4) hkind hn hrec r _))
    · rw [← hslot]
      exact Slot.eq_of_cleared_like hlike
    · rw [← hslot] at hqueued
      obtain ⟨hstays, halarms⟩ := u.clearDose_of_queued n p hqueued
      obtain ⟨a, b, hy⟩ := hlike.exists
      refine ⟨hstays, ?_⟩
      rw [halarms, hy, ← hu]
      rfl
    · subst hz
      rw [← hslot]
      exact u.clearDose_slot_other n p hmo
    · rw [hracks, ← hu]
      rfl
    · rw [hinterest, ← hu]
      rfl
    · rw [u.clearDose_counted n p, ← hu]
      rfl

end Sys2Proof.Machine
end

section
/-! PROOFS. A head's line: which answer matches its command, the sweep that starts, READ_BEAMS and SURVEY (R70, R71, R79, R82, R87). -/

namespace Sys2Proof.Machine

@[simp] theorem State.head_bumpCov (s : State) (k : Fin 24) (h : HeadNo) : (s.bumpCov k).head h = s.head h := rfl
@[simp] theorem State.beam_bumpCov (s : State) (k : Fin 24) (b : BeamNo) : (s.bumpCov k).beam b = s.beam b := rfl

theorem State.head_setHead_other (s : State) {h i : HeadNo} (x : Head) (hi : i ≠ h) : (s.setHead h x).head i = s.head i := by
  rw [State.head_setHead, if_neg hi]

/-! ### Commands on the line -/

/-- An idle head with a command on the line. -/
def Head.sending (x : Head) (c : HeadCmd) (now : Time) : Head :=
  { x with outstanding := some { cmd := c, number := x.nextNumber, sentAt := now, leftToFinish := false }, queue := []
           nextNumber := x.nextNumber + 1, lineOut := c.bytes x.nextNumber }

section
variable {s : State} {h : HeadNo}

/-- A command for an idle head is on the line at once. -/
theorem State.pushCmd_idle (hout : (s.head h).outstanding = none) (hqueue : (s.head h).queue = []) (c : HeadCmd) :
    s.pushCmd h c = if c.isSteer then (s.setHead h ((s.head h).sending c s.clock.ms)).bumpCov 9
      else s.setHead h ((s.head h).sending c s.clock.ms) := by
  unfold State.pushCmd State.sendNext
  rw [hqueue, List.nil_append]
  simp only [State.head_setHead_self, hout, State.setHead_setHead, Head.sending]
  rfl

/-- A command for a head that is not idle waits behind the outstanding one. -/
theorem State.pushCmd_busy (hout : (s.head h).outstanding ≠ none) (c : HeadCmd) :
    s.pushCmd h c = s.setHead h { s.head h with queue := (s.head h).queue ++ [c] } := by
  obtain ⟨o, ho⟩ := Option.ne_none_iff_exists'.mp hout
  simp only [State.pushCmd, State.sendNext, State.head_setHead_self, ho]

/-! ### A sweep that starts -/

theorem State.sweepMay_iff : s.sweepMay h = true ↔ (s.head h).state = .ready ∧ (s.head h).survey ≠ .current ∧
    (s.beam (beamOf h .a)).state = .idle ∧ (s.beam (beamOf h .b)).state = .idle ∧ (s.head h).outstanding = none ∧
    (s.head h).queue = [] ∧ (s.head h).retryAt = none ∧ (s.head h).restartProbe = false := by
  simp [State.sweepMay, and_assoc]

theorem State.trySweep_of_not (hnot : ¬s.sweepMay h = true) : s.trySweep h = s := if_neg hnot

/-- The two beams of a head SURVEYING. -/
def State.surveyBeams (s : State) (h : HeadNo) : State :=
  let s := s.setBeam (beamOf h .a) { s.beam (beamOf h .a) with state := .surveying }
  s.setBeam (beamOf h .b) { s.beam (beamOf h .b) with state := .surveying }

theorem State.surveyBeams_beam (s : State) (h : HeadNo) (v : Side) :
    (s.surveyBeams h).beam (beamOf h v) = { s.beam (beamOf h v) with state := .surveying } := by
  cases v
  · rw [State.surveyBeams, State.beam_setBeam, if_neg (beamOf_ne h).symm, State.beam_setBeam_self]
  · rw [State.surveyBeams, State.beam_setBeam_self, State.beam_setBeam, if_neg (beamOf_ne h)]

theorem State.head_surveyBeams (s : State) (h i : HeadNo) : (s.surveyBeams h).head i = s.head i := rfl

/-- A sweep that starts: its beams SURVEYING, the command on the line. -/
theorem State.trySweep_of_may (hmay : s.sweepMay h = true) :
    s.trySweep h = ((s.surveyBeams h).setHead h ((s.head h).sending .sweep s.clock.ms)).bumpCov 12 := by
  obtain ⟨-, -, -, -, hout, hqueue, -, -⟩ := State.sweepMay_iff.mp hmay
  have hpush := State.pushCmd_idle (s := s.surveyBeams h) (h := h) hout hqueue .sweep
  rw [State.trySweep, if_pos hmay]
  exact congrArg (fun u => u.bumpCov 12) hpush

theorem State.trySweep_head_other {i : HeadNo} (hi : i ≠ h) : (s.trySweep h).head i = s.head i := by
  by_cases hmay : s.sweepMay h = true
  · rw [State.trySweep_of_may hmay]
    exact State.head_setHead_other _ _ hi
  · rw [State.trySweep_of_not hmay]

theorem State.trySweep_keepsAllBut : s.KeepsAllBut (s.trySweep h) [.coverage, .beamCtl] := by
  by_cases hmay : s.sweepMay h = true
  · rw [State.trySweep_of_may hmay]
    intro q hq
    cases q <;> simp_all [Part.same] <;> rfl
  · rw [State.trySweep_of_not hmay]
    exact State.KeepsAllBut.refl s _

/-! ### Answers and the outstanding command (R71, R183) -/

section
variable {bs : List Byte} {o : Outstanding} {a : Answer} {k : AnswerKind}

theorem State.matched_of_answer (hout : (s.head h).outstanding = some o) (hread : readAnswer bs = some a) :
    s.matched h bs = if a.number = o.number ∧ o.cmd.fits a.kind (s.reachSegs h).length = true then some (o, a.kind) else none := by
  simp only [State.matched, hout, hread]

/-- Which kinds of answer fit a command. -/
theorem HeadCmd.fits_iff (c : HeadCmd) (k : AnswerKind) (n : Nat) : c.fits k n = true ↔ match k with
    | .done => c ≠ .sweep
    | .sweepResult es => c = .sweep ∧ es.length = n
    | .refused => True := by
  cases k <;> simp [HeadCmd.fits]

/-- An answer to a command that a restart left on the line ends it and no more (R89). -/
theorem State.answered_left (hleft : o.leftToFinish = true) (f : State → State) :
    s.answered h o f = (s.endOutstanding h).trySweep h := by
  rw [State.answered, hleft, if_pos rfl]

/-- An answer that matches nothing has no effect in any answer's row. -/
theorem exec_answer_unmatched (hnone : s.matched h bs = none) :
    exec (.unmatchedAnswer h bs) s = .next (s.bumpCov 18) ∧ exec (.steerDone h bs) s = .next s ∧
    exec (.steerRefused h bs) s = .next s ∧ exec (.releaseAnswered h bs) s = .next s ∧
    exec (.sweepResult h bs) s = .next s ∧ exec (.sweepRefused h bs) s = .next s ∧ exec (.probeAnswered h bs) s = .next s := by
  simp only [exec, execUnmatchedAnswer, execSteerDone, execSteerRefused, execReleaseAnswered, execSweepResult,
    execSweepRefused, execProbeAnswered, hnone, Option.isNone_none, if_true, and_self]

end

end

/-- Settles O31: the match by number, kind and count, and what an answer left behind by a restart does in each row. -/
theorem answersMatchByNumberKindAndCount : Obligations.AnswersMatchByNumberKindAndCount := by
  refine ⟨fun s h bs hread => ?_, fun s h bs hout => ?_, fun s h bs o a hread hout => ?_, fun s h bs => exec_answer_unmatched,
    fun s h bs hsome => ?_, fun s h bs o k hm hleft => ?_⟩
  · rw [State.matched, hread]
    split <;> simp_all
  · simp only [State.matched, hout]
  · rw [State.matched_of_answer hout hread]
    have hiff := o.cmd.fits_iff a.kind (s.reachSegs h).length
    exact ⟨fun hfits => if_pos ⟨hfits.1, hiff.mpr hfits.2⟩, fun hnot => if_neg fun hfits => hnot ⟨hfits.1, hiff.mp hfits.2⟩⟩
  · have hnot : (s.matched h bs).isNone = false := by simpa [Option.isNone_eq_false_iff] using hsome
    simp only [exec, execUnmatchedAnswer, hnot, Bool.false_eq_true, if_false]
  · refine ⟨fun sd g hcmd hk => ?_, fun sd g hcmd hk => ?_, fun sd hcmd => ?_, fun es hk => ?_, fun hcmd hk => ?_, fun hcmd => ?_⟩
    · subst hk
      simp only [exec, execSteerDone, hm, hcmd, State.answered_left hleft]
    · subst hk
      simp only [exec, execSteerRefused, hm, hcmd, State.answered_left hleft]
    · simp only [exec, execReleaseAnswered, hm, hcmd, State.answered_left hleft]
    · subst hk
      simp only [exec, execSweepResult, hm, State.answered_left hleft]
    · subst hk
      simp only [exec, execSweepRefused, hm, hcmd, if_true, State.answered_left hleft]
    · simp only [exec, execProbeAnswered, hm, hcmd, if_true, State.answered_left hleft]

/-! ### SURVEY (R82) -/

/-- What SURVEY does with a head. -/
def State.giveSurvey (s : State) (r : Request) (h : HeadNo) : State :=
  match (s.head h).state with
  | .offline => s.answer r.ref .wrongState
  | .fault => s.answer r.ref .headFault
  | .ready =>
    let s := if (s.head h).survey = .current then s.makeDue h else s
    s.reply r.ref .ok (.survey (s.head h).survey)

theorem exec_survey {s : State} {r : Request} {h : HeadNo} (hasks : s.Asks .survey r) (hread : readHeadNo r.body = some h) :
    exec (.survey r.ref.link) s = .next ((s.taken r).giveSurvey r h) := by
  rw [show exec (.survey r.ref.link) s = .next (serveSurvey (s.taken r) r) from exec_asks hasks, serveSurvey, hread]
  rfl

section
variable {s : State} {h : HeadNo}

/-- What a head's becoming DUE does to it: the sweep starts where R79 allows. -/
theorem State.makeDue_sweeps (hready : (s.head h).state = .ready)
    (hmay : (s.beam (beamOf h .a)).state = .idle ∧ (s.beam (beamOf h .b)).state = .idle ∧ (s.head h).outstanding = none ∧
      (s.head h).queue = [] ∧ (s.head h).retryAt = none ∧ (s.head h).restartProbe = false) :
    s.makeDue h = (((s.setSurvey h .due).surveyBeams h).setHead h
      (Head.sending { s.head h with survey := .due } .sweep s.clock.ms)).bumpCov 12 := by
  have hdue : (s.setSurvey h .due).head h = { s.head h with survey := .due } := State.head_setHead_self _ _ _
  have hsweep : (s.setSurvey h .due).sweepMay h = true := by
    rw [State.sweepMay_iff, hdue]
    exact ⟨hready, SurveyStatus.noConfusion, hmay⟩
  rw [State.makeDue, State.trySweep_of_may hsweep, hdue]
  rfl

theorem State.makeDue_waits (hnot : ¬((s.beam (beamOf h .a)).state = .idle ∧ (s.beam (beamOf h .b)).state = .idle ∧
    (s.head h).outstanding = none ∧ (s.head h).queue = [] ∧ (s.head h).retryAt = none ∧ (s.head h).restartProbe = false)) :
    s.makeDue h = s.setSurvey h .due := by
  have hdue : (s.setSurvey h .due).head h = { s.head h with survey := .due } := State.head_setHead_self _ _ _
  refine State.trySweep_of_not fun hmay => hnot ?_
  rw [State.sweepMay_iff, hdue] at hmay
  exact hmay.2.2

theorem State.makeDue_head (hready : (s.head h).state = .ready) : ((s.makeDue h).head h).survey = .due ∧
    ((s.makeDue h).head h).reference = (s.head h).reference ∧ ((s.makeDue h).head h).state = .ready := by
  by_cases hmay : (s.beam (beamOf h .a)).state = .idle ∧ (s.beam (beamOf h .b)).state = .idle ∧
    (s.head h).outstanding = none ∧ (s.head h).queue = [] ∧ (s.head h).retryAt = none ∧ (s.head h).restartProbe = false
  · rw [State.makeDue_sweeps hready hmay, State.head_bumpCov, State.head_setHead_self]
    exact ⟨rfl, rfl, hready⟩
  · rw [State.makeDue_waits hmay, State.setSurvey, State.head_setHead_self]
    exact ⟨rfl, rfl, hready⟩

theorem State.makeDue_head_other {i : HeadNo} (hi : i ≠ h) : (s.makeDue h).head i = s.head i := by
  rw [State.makeDue, State.trySweep_head_other hi]
  exact State.head_setHead_other _ _ hi

theorem State.makeDue_keepsLinks : s.KeepsAllBut (s.makeDue h) [.coverage, .beamCtl] := by
  have hset : s.KeepsAllBut (s.setSurvey h .due) [.coverage, .beamCtl] := by
    intro q hq
    cases q <;> simp_all [Part.same, State.setSurvey]
  exact hset.trans State.trySweep_keepsAllBut

end

/-- Settles O30: the views are READ_BEAMS' own, and SURVEY follows the head's state. -/
theorem readBeamsReadsAndSurveyMakesDue : Obligations.ReadBeamsReadsAndSurveyMakesDue := by
  refine ⟨fun r s hasks => ⟨fun hbody => ?_, fun hbody => ?_⟩, fun r s h hasks hread => ?_⟩
  · exact exec_asks_unreadable (c := .readBeams) (f := fun u _ => u.reply r.ref .ok (u.beamsView r.ref.link)) hasks
      (fun _ => rfl) (by
        obtain ⟨b, bs, hb⟩ := List.exists_cons_of_ne_nil hbody
        rw [hb, readNothing_cons])
  · refine ⟨_, _, _, ?_, rfl, rfl, rfl⟩
    exact exec_asks_reading (c := .readBeams) (v := ()) (f := fun u _ => u.reply r.ref .ok (u.beamsView r.ref.link)) hasks
      (fun _ => rfl) (by rw [hbody, readNothing_nil])
  · have hserve := exec_survey hasks hread
    refine ⟨fun hstate => ?_, fun hstate => ?_, fun hstate hsurvey => ?_, fun hstate hsurvey => ?_⟩
    · rw [hserve, State.giveSurvey, show ((s.taken r).head h).state = .offline from hstate]
    · rw [hserve, State.giveSurvey, show ((s.taken r).head h).state = .fault from hstate]
    · rw [hserve, State.giveSurvey, show ((s.taken r).head h).state = .ready from hstate]
      dsimp only
      rw [if_neg (show ¬((s.taken r).head h).survey = .current from hsurvey)]
      rfl
    · have hready : ((s.taken r).head h).state = .ready := hstate
      obtain ⟨hdue, hreference, hstays⟩ := State.makeDue_head hready
      refine ⟨(s.taken r).makeDue h, ?_, hdue, hreference, hstays, ⟨fun hmay => ?_, fun hnot => ?_⟩,
        fun i => State.makeDue_head_other, State.makeDue_keepsLinks⟩
      · rw [hserve, State.giveSurvey, hready]
        dsimp only
        rw [if_pos (show ((s.taken r).head h).survey = .current from hsurvey), hdue]
      · rw [State.makeDue_sweeps (s := s.taken r) hready hmay]
        refine ⟨?_, ?_, ?_, look_bump_self _ _⟩
        · exact congrArg Beam.state (State.surveyBeams_beam _ h .a)
        · exact congrArg Beam.state (State.surveyBeams_beam _ h .b)
        · rw [State.head_bumpCov, State.head_setHead_self]
          rfl
      · rw [State.makeDue_waits (s := s.taken r) hnot]
        exact ⟨rfl, rfl⟩

end Sys2Proof.Machine
end

section
/-! PROOFS. The pool's marks and PAUSE_REPEAT (R95 to R97). -/

namespace Sys2Proof.Machine

section
variable (s : State)

/-- The pool's record has become `p`, and a notice has been raised at the links with the COMMAND right; nothing else changed. -/
def State.Told (s t : State) (p : Pool) (n : Notice) : Prop :=
  t.pool = p ∧ (∀ l, t.link l = if (s.link l).rights.command then (s.link l).raise n else s.link l) ∧
    s.KeepsAllBut t [.links, .pool]

theorem State.tellCommand (p : Pool) (n : Notice) :
    s.Told (State.raiseWhere { s with pool := p } (fun _ k => k.rights.command) n) p n := by
  refine ⟨(State.raiseWhere_frame _ _ _).2.2.2.2.2.2.1, fun l => State.raiseWhere_link _ _ _ l, fun q hq => ?_⟩
  cases q <;> simp_all [Part.same]

theorem State.Told.count {s t : State} {p : Pool} {n : Notice} (h : s.Told t p n) (k : Fin 13) :
    s.Told (t.bumpPool k) { p with counters := bump p.counters k } n := by
  obtain ⟨hpool, hlinks, hkeeps⟩ := h
  refine ⟨?_, hlinks, hkeeps.trans fun q hq => ?_⟩
  · rw [State.bumpPool, hpool]
  · cases q <;> simp_all [Part.same]

theorem State.judge_pauses (hpaused : s.pool.paused = false) (hfree : s.pool.free < s.param pPauseMark) :
    s.judge = ((State.raiseWhere { s with pool := { s.pool with
      paused := true, repeatsSent := 0, nextRepeat := some (s.clock.ms + 100) } } (fun _ k => k.rights.command)
      (.pause s.pool.free (s.param pPauseMark) (s.param pResumeMark) 0)).bumpPool 9).bumpPool 10 := by
  rw [State.judge, if_pos (by simp [hpaused, hfree])]
  rfl

theorem State.judge_resumes (hpaused : s.pool.paused = true) (hfree : s.param pResumeMark < s.pool.free) :
    s.judge = (State.raiseWhere { s with pool := { s.pool with
      paused := false, repeatsSent := 0, nextRepeat := none } } (fun _ k => k.rights.command)
      (.resume s.pool.free)).bumpPool 11 := by
  rw [State.judge, if_neg (by simp [hpaused]), if_pos (by simp [hpaused, hfree])]

theorem State.judge_quiet (h : (s.pool.paused = false ∧ s.param pPauseMark ≤ s.pool.free) ∨
    (s.pool.paused = true ∧ s.pool.free ≤ s.param pResumeMark)) : s.judge = s := by
  unfold State.judge
  rcases h with ⟨hpaused, hfree⟩ | ⟨hpaused, hfree⟩
  · rw [if_neg (by simp [hpaused, hfree]), if_neg (by simp [hpaused])]
  · rw [if_neg (by simp [hpaused]), if_neg (by simp [hpaused, hfree])]

end

/-- A repeat that is still to be sent. -/
theorem State.repeatPause_sends {s : State} {t : Time} (h : s.pool.repeatsSent < s.param pPauseRepeats) :
    s.repeatPause t = (State.raiseWhere { s with pool := { s.pool with
      nextRepeat := some (t + 100), repeatsSent := s.pool.repeatsSent + 1 } } (fun _ k => k.rights.command)
      (.pause s.pool.free (s.param pPauseMark) (s.param pResumeMark) (s.pool.repeatsSent + 1))).bumpPool 10 := by
  exact if_pos h

theorem State.repeatPause_done {s : State} {t : Time} (h : s.param pPauseRepeats ≤ s.pool.repeatsSent) :
    s.repeatPause t = { s with pool := { s.pool with nextRepeat := some (t + 100) } } := by
  exact if_neg (Nat.not_lt.mpr h)

theorem execPauseRepeat_quiet {s : State} (h : s.pool.paused = false ∨ s.pool.nextRepeat = none ∨
    (∃ t : Time, s.pool.nextRepeat = some t ∧ reached s.clock.ms t = false)) : exec .pauseRepeat s = .next s := by
  simp only [exec, execPauseRepeat, State.now]
  rcases h with hpaused | hnone | ⟨t, hnext, hreached⟩
  · split
    · simp only [hpaused, Bool.false_and, Bool.false_eq_true, if_false]
    · rfl
  · rw [hnone]
  · rw [hnext]
    simp only [hreached, Bool.and_false, Bool.false_eq_true, if_false]

theorem execPauseRepeat_reached {s : State} {t : Time} (hpaused : s.pool.paused = true) (hnext : s.pool.nextRepeat = some t)
    (hreached : reached s.clock.ms t = true) : exec .pauseRepeat s = .next (s.repeatPause t) := by
  simp only [exec, execPauseRepeat, State.now, hnext, hpaused, hreached, Bool.and_self, if_true]

/-- Settles O37: the marks' two crossings, and the repeats in their rhythm. -/
theorem marksPauseAndRepeatsFollow : Obligations.MarksPauseAndRepeatsFollow := by
  refine ⟨fun s hpaused hfree => ?_, fun s hpaused hfree => ?_, State.judge_quiet, fun s => execPauseRepeat_quiet,
    fun s t hpaused hnext hreached => ⟨fun hall => ?_, fun hsome => ?_⟩⟩
  · have htell := s.tellCommand { s.pool with paused := true, repeatsSent := 0, nextRepeat := some (s.clock.ms + 100) }
      (.pause s.pool.free (s.param pPauseMark) (s.param pResumeMark) 0)
    rw [s.judge_pauses hpaused hfree]
    exact State.Told.count (State.Told.count htell 9) 10
  · have htell := s.tellCommand { s.pool with paused := false, repeatsSent := 0, nextRepeat := none } (.resume s.pool.free)
    rw [s.judge_resumes hpaused hfree]
    exact State.Told.count htell 11
  · rw [execPauseRepeat_reached hpaused hnext hreached, State.repeatPause_done hall]
  · have htell := s.tellCommand { s.pool with nextRepeat := some (t + 100), repeatsSent := s.pool.repeatsSent + 1 }
      (.pause s.pool.free (s.param pPauseMark) (s.param pResumeMark) (s.pool.repeatsSent + 1))
    refine ⟨_, ?_, State.Told.count htell 10⟩
    rw [execPauseRepeat_reached hpaused hnext hreached, State.repeatPause_sends hsome]

end Sys2Proof.Machine
end

section
/-! PROOFS. Notices raised in turn, and counts that stop at 65,535: how both add up (R9, R110). -/

namespace Sys2Proof.Machine

/-! ### Telling -/

/-- The links have been told these notices in turn; how else the states differ is left open. -/
def State.Tells (s t : State) (ns : LinkNo → List Notice) : Prop := ∀ l : LinkNo, t.link l = (s.link l).raiseAll (ns l)

section
variable {s t u : State} {ns ms : LinkNo → List Notice}

theorem State.Tells.of_links (h : t.links = s.links) : s.Tells t noNotices := fun l => by
  simp [State.link, h, noNotices]

theorem State.Tells.trans (h : s.Tells t ns) (g : t.Tells u ms) : s.Tells u (fun l => ns l ++ ms l) := fun l => by
  rw [g l, h l, Link.raiseAll_append]

theorem State.Tells.links_right (h : s.Tells t ns) (hu : u.links = t.links) : s.Tells u ns := fun l => by
  rw [← h l, State.link, State.link, hu]

theorem State.Tells.links_left (h : t.Tells u ns) (hs : t.links = s.links) : s.Tells u ns := fun l => by
  rw [h l, State.link, State.link, hs]

theorem State.Tells.congr (h : s.Tells t ns) (he : ∀ l, ns l = ms l) : s.Tells t ms := fun l => by rw [h l, he l]

theorem State.Tells.raise (s : State) (l : LinkNo) (n : Notice) : s.Tells (s.raise l n) (fun m => if l = m then [n] else []) := by
  intro m
  rw [State.raise, State.link_onLink]
  by_cases h : l = m
  · simp [h]
  · simp [h, Ne.symm h]

theorem State.Tells.raiseWhere (s : State) (p : LinkNo → Link → Bool) (n : Notice) :
    s.Tells (s.raiseWhere p n) (fun l => if p l (s.link l) then [n] else []) := fun l => by
  rw [State.raiseWhere_eq_tell, State.tell_link]

/-- Steps that each tell their own tell them one behind the other. -/
theorem State.Tells.foldl {β : Type} {f : State → β → State} {tells : β → LinkNo → List Notice}
    (hf : ∀ (u : State) (b : β), u.Tells (f u b) (tells b)) (bs : List β) (s : State) :
    s.Tells (bs.foldl f s) (fun l => bs.flatMap (fun b => tells b l)) := by
  induction bs generalizing s with
  | nil => exact State.Tells.of_links rfl
  | cons b bs ih => exact ((hf s b).trans (ih (f s b))).congr fun l => by simp only [List.flatMap_cons]

/-- What tells these and then no more than the pool's own notice raises them. -/
theorem State.Tells.raises (h : s.Tells t ns) : s.Raises t ns noNotices True := fun l =>
  ⟨[], [], fun _ => rfl, by simp, by simp [h l, noNotices]⟩

theorem State.Raises.links_left {first last : LinkNo → List Notice} {quiet : Prop} (h : t.Raises u first last quiet)
    (hs : t.links = s.links) : s.Raises u first last quiet := fun l => by
  obtain ⟨between, pool, hquiet, hpool, hlink⟩ := h l
  exact ⟨between, pool, hquiet, hpool, by rw [hlink, State.link, State.link, hs]⟩

theorem State.Raises.links_right {first last : LinkNo → List Notice} {quiet : Prop} (h : s.Raises t first last quiet)
    (hu : u.links = t.links) : s.Raises u first last quiet := fun l => by
  obtain ⟨between, pool, hquiet, hpool, hlink⟩ := h l
  exact ⟨between, pool, hquiet, hpool, by rw [← hlink, State.link, State.link, hu]⟩

end

/-! ### Results of frames -/

theorem resultsAt_append (l : LinkNo) (fs gs : List (Frame × FrameFate)) :
    resultsAt l (fs ++ gs) = resultsAt l fs ++ resultsAt l gs := List.filterMap_append

theorem resultsAt_flatMap {β : Type} (l : LinkNo) (f : β → List (Frame × FrameFate)) (bs : List β) :
    resultsAt l (bs.flatMap f) = bs.flatMap (fun b => resultsAt l (f b)) := by
  induction bs with
  | nil => rfl
  | cons b bs ih => rw [List.flatMap_cons, resultsAt_append, ih, List.flatMap_cons]

theorem resultsAt_map {x : FrameFate} (l : LinkNo) (fs : List Frame) :
    fs.flatMap (fun f => resultsAt l [(f, x)]) = resultsAt l (fs.map (fun f => (f, x))) := by
  rw [← resultsAt_flatMap l (fun f => [(f, x)]), List.map_eq_flatMap]

theorem State.Tells.frameResult (s : State) (f : Frame) (x : FrameFate) :
    s.Tells (s.frameResult f x) (fun l => resultsAt l [(f, x)]) := by
  unfold State.frameResult
  split
  · next h => exact (State.Tells.of_links rfl).congr fun l => by simp [resultsAt, noNotices, h]
  · next o h =>
    refine (State.Tells.raise s _ _).congr fun l => ?_
    by_cases ho : o.link = l <;> simp [resultsAt, h, ho]

/-! ### Counts -/

/-- `n` more on one counter of a group, whatever it held within its range. -/
def Counts {m : Nat} (v w : Vector Nat m) (k : Fin m) (n : Nat) : Prop :=
  look v k ≤ 65535 → look w k = min (look v k + n) 65535

section
variable {m : Nat} {v w x : Vector Nat m} {k : Fin m} {a b : Nat}

theorem Counts.zero (h : look w k = look v k) : Counts v w k 0 := fun hv => by omega

theorem Counts.trans (h : Counts v w k a) (g : Counts w x k b) : Counts v x k (a + b) := fun hv => by
  have hw := h hv
  have hx := g (by omega)
  omega

theorem Counts.bump (v : Vector Nat m) (k : Fin m) : Counts v (bump v k) k 1 := fun _ => by
  rw [look_bump_self, satInc]

theorem Counts.bumpBy (v : Vector Nat m) (k : Fin m) (n : Nat) : Counts v (bumpBy v k n) k n := fun _ => by
  rw [look_bumpBy_self]

theorem Counts.right (h : Counts v w k a) (hx : look x k = look w k) : Counts v x k a := fun hv => by rw [hx, h hv]

theorem Counts.left (h : Counts w x k a) (hw : look w k = look v k) : Counts v x k a := fun hv => by
  rw [h (hw ▸ hv), hw]

/-- Steps that each count so many count their sum. -/
theorem Counts.foldl {α β : Type} {f : α → β → α} {view : α → Vector Nat m} {n : β → Nat}
    (hf : ∀ (u : α) (b : β), Counts (view u) (view (f u b)) k (n b)) (bs : List β) (s : α) :
    Counts (view s) (view (bs.foldl f s)) k (bs.map n).sum := by
  induction bs generalizing s with
  | nil => exact Counts.zero rfl
  | cons b bs ih => exact (hf s b).trans (ih (f s b))

end

end Sys2Proof.Machine
end

section
/-! PROOFS. Frames dropped from the queues: PURGE_QUEUE and DEADLINE_EXPIRY (R107, R110, R111, R113, R135). -/

namespace Sys2Proof.Machine

/-! ### What a drop writes -/

section
variable (s : State) (p : Frame → Bool) (x : FrameFate) (k : Fin 21)

/-- One frame of a drop: its result, its end, its count. -/
def State.dropOne (s : State) (x : FrameFate) (k : Fin 21) (f : Frame) : State := ((s.frameResult f x).frameEnded f).bumpDown k

/-- The waiting frames without those dropped, and the blocks of these free. -/
def State.withoutFrames (s : State) (p : Frame → Bool) : State :=
  (s.setWaiting (s.downlink.waiting.filter (fun f => !p f))).setFree
    (s.pool.free + framesBlocks (s.downlink.waiting.filter p))

theorem State.dropFrames_eq : s.dropFrames p x k =
    ((s.downlink.waiting.filter p).foldl (fun u f => u.dropOne x k f) (s.withoutFrames p)).reportFronts s.downlink.waiting := rfl

theorem State.Tells.dropOne (f : Frame) : s.Tells (s.dropOne x k f) (fun l => resultsAt l [(f, x)]) :=
  (State.Tells.frameResult s f x).links_right (by simp [State.dropOne])

theorem State.Tells.dropFrames :
    s.Tells (s.dropFrames p x k) (fun l => resultsAt l ((s.downlink.waiting.filter p).map (fun f => (f, x)))) := by
  have hfold := State.Tells.foldl (f := fun u f => u.dropOne x k f) (fun u f => State.Tells.dropOne u x k f)
    (s.downlink.waiting.filter p) (s.withoutFrames p)
  exact ((hfold.links_left rfl).links_right (State.reportFronts_frame _ _).2.1).congr fun l => resultsAt_map l _

theorem Counts.dropFrames : Counts s.downlink.counters (s.dropFrames p x k).downlink.counters k
    (s.downlink.waiting.filter p).length := by
  have hone : ∀ (u : State) (f : Frame), Counts u.downlink.counters (u.dropOne x k f).downlink.counters k 1 := fun u f =>
    (Counts.bump u.downlink.counters k).right (by simp [State.dropOne, State.bumpDown])
  have hfold := Counts.foldl (view := fun u : State => u.downlink.counters) hone (s.downlink.waiting.filter p)
    (s.withoutFrames p)
  rw [List.map_const', List.sum_replicate, smul_eq_mul, mul_one] at hfold
  exact hfold.right (by rw [State.dropFrames_eq, (State.reportFronts_frame _ _).2.2.2.2.2.2.2.2.1])

/-- What a drop leaves of the downlink block beside the waiting frames and the counts. -/
theorem State.dropFrames_numbers : (s.dropFrames p x k).downlink.handleCount = s.downlink.handleCount ∧
    (s.dropFrames p x k).downlink.nextBurst = s.downlink.nextBurst ∧
    (s.dropFrames p x k).downlink.rotation = s.downlink.rotation := by
  have hfold : ∀ {β : Type} (v : State → β), (∀ (u : State) (f : Frame), v (u.dropOne x k f) = v u) →
      v ((s.downlink.waiting.filter p).foldl (fun u f => u.dropOne x k f) (s.withoutFrames p)) = v (s.withoutFrames p) :=
    fun v hv => foldl_keeps v _ hv _ _
  rw [State.dropFrames_eq, (State.reportFronts_frame _ _).2.2.2.2.2.2.2.2.1]
  refine ⟨hfold (fun u => u.downlink.handleCount) fun u f => ?_, hfold (fun u => u.downlink.nextBurst) fun u f => ?_,
    hfold (fun u => u.downlink.rotation) fun u f => ?_⟩ <;> simp [State.dropOne, State.bumpDown]

theorem State.dropFrames_keepsAllBut : s.KeepsAllBut (s.dropFrames p x k) [.links, .pool, .downlink, .cranes] := by
  intro q hq
  cases q <;> simp_all [Part.same]

end

/-! ### Drops that leave the SAFETY queues -/

section
variable (s : State)

theorem State.frameEnded_of_ne {f : Frame} (h : f.cls ≠ .safety) : s.frameEnded f = s := if_neg fun hf => h hf.1

theorem CraneRec.seeFront_same (k : CraneRec) (i : Option FrameId) (now : Time) : k.seeFront i i now = k := if_pos rfl

/-- Fronts that are as they were are no news to the crane unit. -/
theorem State.reportFronts_same {before : List Frame} (h : ∀ e, frontId s.downlink.waiting e = frontId before e) :
    s.reportFronts before = s := by
  have hmap : s.cranes.records.map (Option.map (fun k =>
      k.seeFront (frontId before k.entry) (frontId s.downlink.waiting k.entry) s.now)) = s.cranes.records := by
    refine Vector.ext fun i hi => ?_
    simp only [Vector.getElem_map, h, CraneRec.seeFront_same]
    exact Option.map_id'
  rw [State.reportFronts, hmap]

theorem frontId_filter {w : List Frame} {p : Frame → Bool} (h : ∀ f ∈ w, f.cls = .safety → p f = true) (e : EntryNo) :
    frontId (w.filter p) e = frontId w e := by
  have hqueue : queueOf (w.filter p) e .safety = queueOf w e .safety := by
    rw [queueOf, List.filter_filter]
    refine List.filter_congr fun f hf => ?_
    by_cases hc : f.cls = .safety
    · simp [hc, h f hf hc]
    · simp [hc]
  rw [frontId, frontId, hqueue]

/-- A drop of frames that are not SAFETY is nothing to the crane unit. -/
theorem State.dropFrames_cranes {p : Frame → Bool} (h : ∀ f ∈ s.downlink.waiting, p f = true → f.cls ≠ .safety) (x : FrameFate)
    (k : Fin 21) : (s.dropFrames p x k).cranes = s.cranes := by
  have hfold : ∀ (fs : List Frame) (u : State), (∀ f ∈ fs, f.cls ≠ .safety) →
      (fs.foldl (fun u f => u.dropOne x k f) u).cranes = u.cranes := by
    intro fs
    induction fs with
    | nil => exact fun _ _ => rfl
    | cons f fs ih =>
      intro u hfs
      rw [List.foldl_cons, ih _ fun g hg => hfs g (List.mem_cons_of_mem _ hg), State.dropOne,
        State.frameEnded_of_ne _ (hfs f List.mem_cons_self)]
      simp
  have hwaiting : ((s.downlink.waiting.filter p).foldl (fun u f => u.dropOne x k f) (s.withoutFrames p)).downlink.waiting =
      s.downlink.waiting.filter (fun f => !p f) :=
    foldl_keeps (fun u : State => u.downlink.waiting) _ (fun u f => by simp [State.dropOne]) _ _
  rw [State.dropFrames_eq, State.reportFronts_same _ fun e => by
    rw [hwaiting]
    exact frontId_filter (fun f hf hc => by
      by_contra hp
      exact h f hf (by simpa using hp) hc) e]
  exact hfold _ _ fun f hf => h f (List.mem_filter.mp hf).1 (List.mem_filter.mp hf).2

end

/-! ### Frames by class -/

/-- The SAFETY frames of a list, then its CONTROL frames, then its BULK frames. -/
def byClass (fs : List Frame) : List Frame := [FrameClass.safety, .control, .bulk].flatMap (fun c => fs.filter (fun f => f.cls == c))

theorem byClass_perm (fs : List Frame) : (byClass fs).Perm fs := by
  have hrest : (fs.filter (fun f => !(f.cls == .safety))).Perm
      (fs.filter (fun f => f.cls == .control) ++ fs.filter (fun f => f.cls == .bulk)) := by
    refine (List.filter_append_perm (fun f : Frame => f.cls == .control) _).symm.trans ?_
    rw [List.filter_filter, List.filter_filter]
    refine List.Perm.of_eq (congrArg₂ _ (List.filter_congr fun f _ => ?_) (List.filter_congr fun f _ => ?_)) <;>
      cases f.cls <;> rfl
  have hall := List.filter_append_perm (fun f : Frame => f.cls == .safety) fs
  simp only [byClass, List.flatMap_cons, List.flatMap_nil, List.append_nil]
  exact (hrest.symm.append_left _).trans hall

/-! ### PURGE_QUEUE -/

section
variable (s : State) (e : EntryNo)

/-- The waiting frames of a terminal in a class that a purge names. -/
def purges (e : EntryNo) (c : FrameClass) (named : Bool) (f : Frame) : Bool := f.isOf e c && named

/-- The waiting frames that one class of a purge drops. -/
def State.purged (s : State) (e : EntryNo) (c : FrameClass) (named : Bool) : List Frame :=
  s.downlink.waiting.filter (purges e c named)

theorem purges_false (c : FrameClass) : purges e c false = fun _ => false := funext fun _ => Bool.and_false _

theorem purges_true (c : FrameClass) : purges e c true = fun f => f.isOf e c := funext fun _ => Bool.and_true _

theorem State.purged_false (c : FrameClass) : s.purged e c false = [] := by
  rw [State.purged, purges_false, List.filter_false]

theorem State.purged_true (c : FrameClass) : s.purged e c true = s.downlink.waiting.filter (fun f => f.isOf e c) := by
  rw [State.purged, purges_true]

theorem State.purgeClass_waiting (c : FrameClass) (named : Bool) :
    (s.purgeClass e c named).downlink.waiting = s.downlink.waiting.filter (fun f => !purges e c named f) := by
  cases named
  · simp [State.purgeClass, purges_false]
  · simp [State.purgeClass, State.waiting_dropFrames, purges_true]

theorem State.purgeClass_pool (c : FrameClass) (named : Bool) :
    (s.purgeClass e c named).pool = { s.pool with free := s.pool.free + framesBlocks (s.purged e c named) } := by
  cases named
  · rw [State.purged_false]
    rfl
  · rw [State.purged_true]
    exact s.pool_dropFrames _ _ _

theorem State.Tells.purgeClass (c : FrameClass) (named : Bool) : s.Tells (s.purgeClass e c named)
    (fun l => resultsAt l ((s.purged e c named).map (fun f => (f, .purged)))) := by
  cases named
  · rw [State.purged_false]
    exact State.Tells.of_links rfl
  · rw [State.purged_true]
    exact State.Tells.dropFrames s _ .purged 17

theorem Counts.purgeClass (c : FrameClass) (named : Bool) : Counts s.downlink.counters
    (s.purgeClass e c named).downlink.counters 17 (s.purged e c named).length := by
  cases named
  · rw [State.purged_false]
    exact Counts.zero rfl
  · rw [State.purged_true]
    exact Counts.dropFrames s _ .purged 17

theorem State.purgeClass_numbers (c : FrameClass) (named : Bool) :
    (s.purgeClass e c named).downlink.handleCount = s.downlink.handleCount ∧
    (s.purgeClass e c named).downlink.nextBurst = s.downlink.nextBurst ∧
    (s.purgeClass e c named).downlink.rotation = s.downlink.rotation := by
  cases named
  · exact ⟨rfl, rfl, rfl⟩
  · exact s.dropFrames_numbers _ _ _

theorem State.purgeClass_keepsAllBut (c : FrameClass) (named : Bool) :
    s.KeepsAllBut (s.purgeClass e c named) [.links, .pool, .downlink, .cranes] := by
  cases named
  · exact State.KeepsAllBut.refl s _
  · exact s.dropFrames_keepsAllBut _ _ _

/-- A class is as it was before the purge of another one. -/
theorem State.purged_purgeClass {c d : FrameClass} (h : d ≠ c) (n m : Bool) :
    (s.purgeClass e c n).purged e d m = s.purged e d m := by
  rw [State.purged, State.purgeClass_waiting, State.purged, List.filter_filter]
  refine List.filter_congr fun f _ => ?_
  by_cases hf : f.cls = d
  · simp [purges, Frame.isOf, hf, h]
  · simp [purges, Frame.isOf, hf]

/-- The classes that a purge names (R113). -/
def purgeNames (set : Byte) : FrameClass → Bool
  | .safety => set.getLsbD 0
  | .control => set.getLsbD 1
  | .bulk => set.getLsbD 2

/-- The waiting frames that a purge drops. -/
def purgeDrops (e : EntryNo) (set : Byte) (f : Frame) : Bool := f.terminal == e && purgeNames set f.cls

/-- The three classes purged, before the pool compares its marks. -/
def State.purgeAll (s : State) (e : EntryNo) (set : Byte) : State :=
  ((s.purgeClass e .safety (purgeNames set .safety)).purgeClass e .control (purgeNames set .control)).purgeClass e .bulk
    (purgeNames set .bulk)

theorem filter_purgeDrops (set : Byte) (c : FrameClass) :
    (s.downlink.waiting.filter (purgeDrops e set)).filter (fun f => f.cls == c) = s.purged e c (purgeNames set c) := by
  rw [List.filter_filter]
  refine List.filter_congr fun f _ => ?_
  by_cases hf : f.cls = c
  · simp [purgeDrops, purges, Frame.isOf, hf]
  · simp [purges, Frame.isOf, beq_false_of_ne hf]

theorem byClass_purgeDrops (set : Byte) : byClass (s.downlink.waiting.filter (purgeDrops e set)) =
    s.purged e .safety (purgeNames set .safety) ++ (s.purged e .control (purgeNames set .control) ++
      s.purged e .bulk (purgeNames set .bulk)) := by
  simp only [byClass, List.flatMap_cons, List.flatMap_nil, List.append_nil, filter_purgeDrops]

/-- What the three drops of a purge come to, each on the queues as they stood. -/
theorem State.purgeAll_drops (set : Byte) :
    (s.purgeClass e .safety (purgeNames set .safety)).purged e .control (purgeNames set .control) =
      s.purged e .control (purgeNames set .control) ∧
    ((s.purgeClass e .safety (purgeNames set .safety)).purgeClass e .control (purgeNames set .control)).purged e .bulk
      (purgeNames set .bulk) = s.purged e .bulk (purgeNames set .bulk) :=
  ⟨s.purged_purgeClass e (by decide) _ _,
    (State.purged_purgeClass _ e (by decide) _ _).trans (s.purged_purgeClass e (by decide) _ _)⟩

theorem State.purgeAll_waiting (set : Byte) :
    (s.purgeAll e set).downlink.waiting = s.downlink.waiting.filter (fun f => !purgeDrops e set f) := by
  simp only [State.purgeAll, State.purgeClass_waiting, List.filter_filter]
  refine List.filter_congr fun f _ => ?_
  have hother : ∀ c d : FrameClass, c ≠ d → (c == d) = false := fun c d => beq_false_of_ne
  by_cases he : f.terminal = e
  · cases hc : f.cls <;> simp [purges, purgeDrops, Frame.isOf, he, hc, hother]
  · simp [purges, purgeDrops, Frame.isOf, beq_false_of_ne he]

theorem State.purgeAll_pool (set : Byte) : (s.purgeAll e set).pool =
    { s.pool with free := s.pool.free + framesBlocks (s.downlink.waiting.filter (purgeDrops e set)) } := by
  obtain ⟨hcontrol, hbulk⟩ := s.purgeAll_drops e set
  have hsum : framesBlocks (byClass (s.downlink.waiting.filter (purgeDrops e set))) =
      framesBlocks (s.downlink.waiting.filter (purgeDrops e set)) := ((byClass_perm _).map _).sum_eq
  rw [byClass_purgeDrops, framesBlocks, List.map_append, List.map_append, List.sum_append, List.sum_append] at hsum
  simp only [State.purgeAll, State.purgeClass_pool, hcontrol, hbulk]
  simp only [framesBlocks] at hsum ⊢
  rw [← hsum]
  simp only [Nat.add_assoc]

theorem State.Tells.purgeAll (set : Byte) : s.Tells (s.purgeAll e set) (fun l => resultsAt l
    ((byClass (s.downlink.waiting.filter (purgeDrops e set))).map (fun f => (f, .purged)))) := by
  obtain ⟨hcontrol, hbulk⟩ := s.purgeAll_drops e set
  refine (((State.Tells.purgeClass s e _ _).trans (State.Tells.purgeClass _ e _ _)).trans
    (State.Tells.purgeClass _ e _ _)).congr fun l => ?_
  rw [hcontrol, hbulk, byClass_purgeDrops, List.map_append, List.map_append, resultsAt_append, resultsAt_append,
    List.append_assoc]

theorem Counts.purgeAll (set : Byte) : Counts s.downlink.counters (s.purgeAll e set).downlink.counters 17
    (s.downlink.waiting.filter (purgeDrops e set)).length := by
  obtain ⟨hcontrol, hbulk⟩ := s.purgeAll_drops e set
  have hcounts := ((Counts.purgeClass s e .safety (purgeNames set .safety)).trans
    (Counts.purgeClass _ e .control (purgeNames set .control))).trans (Counts.purgeClass _ e .bulk (purgeNames set .bulk))
  rw [hcontrol, hbulk, ← List.length_append, ← List.length_append, List.append_assoc, ← byClass_purgeDrops,
    (byClass_perm _).length_eq] at hcounts
  exact hcounts

theorem State.purgeAll_numbers (set : Byte) : (s.purgeAll e set).downlink.handleCount = s.downlink.handleCount ∧
    (s.purgeAll e set).downlink.nextBurst = s.downlink.nextBurst ∧
    (s.purgeAll e set).downlink.rotation = s.downlink.rotation := by
  simp only [State.purgeAll, State.purgeClass_numbers, and_self]

theorem State.purgeAll_keepsAllBut (set : Byte) : s.KeepsAllBut (s.purgeAll e set) [.links, .pool, .downlink, .cranes] :=
  ((s.purgeClass_keepsAllBut e _ _).trans (State.purgeClass_keepsAllBut _ e _ _)).trans (State.purgeClass_keepsAllBut _ e _ _)

theorem State.purgeCount_eq (c : FrameClass) (named : Bool) : s.purgeCount e c named = (s.purged e c named).length := by
  cases named
  · rw [State.purged_false]
    rfl
  · rw [State.purged_true]
    rfl

/-- What PURGE_QUEUE does with a terminal's queues. -/
def State.givePurge (s : State) (r : Request) (e : EntryNo) (set : Byte) : State :=
  (s.purgeAll e set).judge.reply r.ref .ok (.purged (s.purgeCount e .safety (purgeNames set .safety))
    (s.purgeCount e .control (purgeNames set .control)) (s.purgeCount e .bulk (purgeNames set .bulk)))

end

theorem servePurgeQueue_eq (s : State) (r : Request) : servePurgeQueue s r = s.reading r (readPurge r.body) (fun q =>
    s.withToken r q.1 true (fun s e => s.givePurge r e q.2)) := rfl

/-! ### DEADLINE_EXPIRY -/

theorem State.isLate_eq (s : State) (i : FrameId) : s.isLate i = fun f =>
    ({ handle := f.handle, accept := f.accept } : FrameId) == i && f.cls == .control &&
      f.deadline.any (fun d => elapsed d f.accept ≤ elapsed s.clock.ms f.accept) := by
  funext f
  unfold State.isLate Frame.late
  cases f.deadline <;> rfl

theorem execDeadlineExpiry_late {s : State} {i : FrameId} (h : s.downlink.waiting.filter (s.isLate i) ≠ []) :
    exec (.deadlineExpiry i) s = .next (s.dropFrames (s.isLate i) .expired 14).judge := by
  have hany : s.downlink.waiting.any (s.isLate i) = true := by
    rw [ne_eq, List.filter_eq_nil_iff] at h
    simpa using h
  simp only [exec, execDeadlineExpiry, hany, if_true]

theorem execDeadlineExpiry_none {s : State} {i : FrameId} (h : s.downlink.waiting.filter (s.isLate i) = []) :
    exec (.deadlineExpiry i) s = .next s := by
  have hany : s.downlink.waiting.any (s.isLate i) = false := by
    rw [List.filter_eq_nil_iff] at h
    simpa using h
  simp only [exec, execDeadlineExpiry, hany, Bool.false_eq_true, if_false]

theorem State.isLate_control {s : State} {i : FrameId} {f : Frame} (h : s.isLate i f = true) : f.cls = .control := by
  simp only [State.isLate, Bool.and_eq_true, beq_iff_eq] at h
  exact h.1.2

/-- Settles O40: the frames that a purge names go class by class, those past their deadline at their expiry. -/
theorem purgeAndDeadlineDropWaitingFrames : Obligations.PurgeAndDeadlineDropWaitingFrames := by
  refine ⟨fun r s t set e hasks hread hpassed => ?_, fun i s => ?_⟩
  · intro gone dropped
    have hgone : gone = purgeDrops e set := by
      funext f
      simp only [gone, purgeDrops]
      cases f.cls <;> rfl
    generalize hu : (s.taken r).bumpAcc 4 = u
    have hwaiting : u.downlink.waiting = s.downlink.waiting := by rw [← hu]; rfl
    have hdropped : dropped = u.downlink.waiting.filter (purgeDrops e set) := by rw [hwaiting, ← hgone]
    have hdownlink : (u.purgeAll e set).judge.downlink = (u.purgeAll e set).downlink := by simp
    obtain ⟨hqueues, hfree, -, -⟩ := (u.purgeAll e set).judge_pool_keeps
    obtain ⟨hhandle, hburst, hrotation⟩ := u.purgeAll_numbers e set
    refine ⟨(u.purgeAll e set).judge, ?_, ?_, ?_, ?_, ?_, ?_, ?_, ?_, ?_, ?_⟩
    · have hserve := exec_asks_passed (c := .purgeQueue) (k := Prod.fst) (f := fun q u e => u.givePurge r e q.2) hasks
        (fun u => servePurgeQueue_eq u r) hread hpassed
      rw [hdropped]
      simp only [filter_purgeDrops, ← State.purgeCount_eq]
      rw [← hu]
      exact hserve
    · rw [hdownlink, u.purgeAll_waiting e set, hwaiting, hgone]
    · rw [hfree, u.purgeAll_pool e set, hdropped, ← hu]
      rfl
    · have hraises := (State.Tells.purgeAll u e set).raises.judge.links_left (s := s) (by rw [← hu]; rfl)
      rw [hdropped]
      exact hraises
    · rw [hdownlink, hdropped]
      exact (Counts.purgeAll u e set).left (by rw [← hu]; rfl)
    · rw [hdownlink, hhandle, ← hu]
      rfl
    · rw [hdownlink, hburst, ← hu]
      rfl
    · rw [hdownlink, hrotation, ← hu]
      rfl
    · rw [hqueues, u.purgeAll_pool e set, ← hu]
      rfl
    · exact (u.purgeAll_keepsAllBut e set).trans ((State.judge_keepsAllBut _).mono (by simp))
  · intro late dropped
    have hlate : late = s.isLate i := (s.isLate_eq i).symm
    have hdropped : dropped = s.downlink.waiting.filter (s.isLate i) := by rw [← hlate]
    rw [hdropped, hlate]
    refine ⟨execDeadlineExpiry_none, fun hsome => ⟨_, execDeadlineExpiry_late hsome, ?_⟩⟩
    have hdownlink : (s.dropFrames (s.isLate i) .expired 14).judge.downlink = (s.dropFrames (s.isLate i) .expired 14).downlink := by
      simp
    obtain ⟨-, hfree, -, -⟩ := (s.dropFrames (s.isLate i) .expired 14).judge_pool_keeps
    have hcranes := s.dropFrames_cranes (p := s.isLate i)
      (fun f _ hf => by rw [State.isLate_control hf]; exact FrameClass.noConfusion) .expired 14
    refine ⟨?_, ?_, (State.Tells.dropFrames s _ .expired 14).raises.judge, ?_, fun q hq => ?_⟩
    · rw [hdownlink, State.waiting_dropFrames]
    · rw [hfree, State.pool_dropFrames]
      rfl
    · rw [hdownlink]
      exact Counts.dropFrames s _ .expired 14
    · have hjudge := State.judge_keepsAllBut (s.dropFrames (s.isLate i) .expired 14) q
      have hdrop := s.dropFrames_keepsAllBut (s.isLate i) .expired 14 q
      cases q <;> simp_all [Part.same]

end Sys2Proof.Machine
end

section
/-! PROOFS. SEND (R93, R94, R107, R108, R135). -/

namespace Sys2Proof.Machine

/-! ### A frame that is queued -/

section
variable (s : State) (f : Frame)

/-- The state once a frame has joined the back of the waiting ones, before the crane unit is told. -/
def State.joined (s : State) (f : Frame) : State :=
  State.setFree { s with downlink := { s.downlink with
    waiting := s.downlink.waiting ++ [f], handleCount := s.downlink.handleCount + 1 } } (s.pool.free - f.blocks)

theorem State.queueFrame_eq : s.queueFrame f = (s.joined f).reportFronts s.downlink.waiting := rfl

theorem State.queueFrame_downlink : (s.queueFrame f).downlink =
    { s.downlink with waiting := s.downlink.waiting ++ [f], handleCount := s.downlink.handleCount + 1 } :=
  (State.reportFronts_frame _ _).2.2.2.2.2.2.2.2.1

theorem State.craneRec_reportFronts (w : List Frame) (d : CraneNo) : (s.reportFronts w).craneRec d =
    (s.craneRec d).map (fun k => k.seeFront (frontId w k.entry) (frontId s.downlink.waiting k.entry) s.now) := by
  simp [State.craneRec, State.reportFronts, look]

theorem queueOf_append (w v : List Frame) (e : EntryNo) (c : FrameClass) :
    queueOf (w ++ v) e c = queueOf w e c ++ queueOf v e c := List.filter_append ..

/-- A frame at the back is a terminal's new SAFETY front only as the first of its SAFETY queue. -/
theorem frontId_append_other {w : List Frame} {e : EntryNo} (h : f.cls ≠ .safety ∨ e ≠ f.terminal) :
    frontId (w ++ [f]) e = frontId w e := by
  have hnone : queueOf [f] e .safety = [] := by
    rcases h with hc | he
    · simp [queueOf, hc]
    · simp [queueOf, Ne.symm he]
  rw [frontId, queueOf_append, hnone, List.append_nil, frontId]

theorem queueOf_eq_nil_iff {w : List Frame} {e : EntryNo} {c : FrameClass} :
    queueOf w e c = [] ↔ ∀ g ∈ w, ¬(g.terminal = e ∧ g.cls = c) := by
  simp [queueOf, List.filter_eq_nil_iff]

theorem frontId_append_first {w : List Frame} (hc : f.cls = .safety)
    (hfirst : ∀ g ∈ w, ¬(g.terminal = f.terminal ∧ g.cls = .safety)) :
    frontId w f.terminal = none ∧ frontId (w ++ [f]) f.terminal = some f.id := by
  have hone : queueOf [f] f.terminal .safety = [f] := by simp [queueOf, hc]
  rw [frontId, frontId, queueOf_append, queueOf_eq_nil_iff.mpr hfirst, hone]
  exact ⟨rfl, rfl⟩

theorem State.craneRec_queueFrame (d : CraneNo) : (s.queueFrame f).craneRec d = (s.craneRec d).map (fun k =>
    k.seeFront (frontId s.downlink.waiting k.entry) (frontId (s.downlink.waiting ++ [f]) k.entry) s.now) :=
  State.craneRec_reportFronts _ _ d

/-- The first SAFETY frame of a crane starts its stall watch. -/
theorem State.queueFrame_watches {d : CraneNo} {x : CraneRec} (hrec : s.craneRec d = some x) (hc : f.cls = .safety)
    (he : x.entry = f.terminal) (hfirst : ∀ g ∈ s.downlink.waiting, ¬(g.terminal = f.terminal ∧ g.cls = .safety)) :
    (s.queueFrame f).craneRec d = some { x with watch := some (f.id, s.now) } := by
  obtain ⟨hbefore, hafter⟩ := frontId_append_first f hc hfirst
  rw [← he] at hbefore hafter
  rw [State.craneRec_queueFrame, hrec, Option.map_some, hbefore, hafter]
  rfl

theorem State.queueFrame_unwatched {d : CraneNo} {x : CraneRec} (hrec : s.craneRec d = some x)
    (h : f.cls ≠ .safety ∨ x.entry ≠ f.terminal) : (s.queueFrame f).craneRec d = some x := by
  rw [State.craneRec_queueFrame, hrec, Option.map_some, frontId_append_other f h, CraneRec.seeFront_same]

theorem State.queueFrame_keepsAllBut : s.KeepsAllBut (s.queueFrame f) [.pool, .downlink, .cranes] := by
  intro q hq
  cases q <;> simp_all [Part.same]

/-! ### An accepted frame -/

/-- An accepted frame, before the pool compares its marks. -/
def State.admitted (s : State) (a : AllocKind) (f : Frame) : State :=
  let s := ((s.queueFrame f).bumpPool 0).bumpDown 0
  if a = .safety ∧ s.pool.free < s.param pReserve then s.bumpPool 1 else s

theorem State.acceptFrame_eq (a : AllocKind) : s.acceptFrame a f = (s.admitted a f).judge := rfl

theorem State.admitted_downlink (a : AllocKind) : (s.admitted a f).downlink =
    { s.downlink with waiting := s.downlink.waiting ++ [f], handleCount := s.downlink.handleCount + 1
                      counters := bump s.downlink.counters 0 } := by
  have hdown : (((s.queueFrame f).bumpPool 0).bumpDown 0).downlink = _ := congrArg
    (fun d : Downlink => { d with counters := bump d.counters 0 }) (s.queueFrame_downlink f)
  unfold State.admitted
  dsimp only
  split <;> exact hdown

theorem State.admitted_cranes (a : AllocKind) : (s.admitted a f).cranes = (s.queueFrame f).cranes := by
  unfold State.admitted
  dsimp only
  split <;> rfl

/-- What an accepted frame takes of the pool, and what is counted. -/
theorem State.admitted_pool (a : AllocKind) : (s.admitted a f).pool = { s.pool with
    free := s.pool.free - f.blocks
    counters := if a = .safety ∧ s.pool.free - f.blocks < s.param pReserve then bump (bump s.pool.counters 0) 1
      else bump s.pool.counters 0 } := by
  have hpool : (((s.queueFrame f).bumpPool 0).bumpDown 0).pool =
      { s.pool with free := s.pool.free - f.blocks, counters := bump s.pool.counters 0 } := congrArg
    (fun d : Pool => { d with counters := bump d.counters 0 }) (s.pool_queueFrame f)
  have hparam : (((s.queueFrame f).bumpPool 0).bumpDown 0).param pReserve = s.param pReserve := by
    simp [State.param]
  have hfree : (((s.queueFrame f).bumpPool 0).bumpDown 0).pool.free = s.pool.free - f.blocks := by rw [hpool]
  unfold State.admitted
  dsimp only
  rw [hparam, hfree]
  split
  · rw [State.bumpPool_pool, hpool]
  · exact hpool

theorem State.admitted_keepsAllBut (a : AllocKind) : s.KeepsAllBut (s.admitted a f) [.links, .pool, .downlink, .cranes] := by
  have hqueue := s.queueFrame_keepsAllBut f
  unfold State.admitted
  dsimp only
  split <;> refine (hqueue.mono (by simp)).trans fun q hq => ?_ <;> cases q <;> simp_all [Part.same]

end

/-! ### SEND -/

/-- What SEND does with the terminal of its token. -/
def State.giveSend (s : State) (r : Request) (q : SendReq) (e : EntryNo) : State :=
  match (s.entry e).kind with
  | some k => s.sendTo r e k q
  | none => s.answer r.ref .terminalGone

theorem serveSend_eq (s : State) (r : Request) : serveSend s r = s.reading r (readSend r.body) (fun q =>
    s.withToken r q.token true (fun s e => s.giveSend r q e)) := rfl

theorem exec_send {s : State} {r : Request} {q : SendReq} {e : EntryNo} {k : Kind} (hasks : s.Asks .send r)
    (hread : readSend r.body = some q) (hpassed : s.checkToken r.ref.link q.token true = .passed e)
    (hkind : (s.entry e).kind = some k) :
    exec (.send r.ref.link) s = .next (((s.taken r).bumpAcc 4).sendTo r e k q) := by
  have hserve := exec_asks_passed (c := .send) (k := SendReq.token) (f := fun q u e => u.giveSend r q e) hasks
    (fun u => serveSend_eq u r) hread hpassed
  have hgive : ((s.taken r).bumpAcc 4).giveSend r q e = ((s.taken r).bumpAcc 4).sendTo r e k q := by
    rw [State.giveSend, show (((s.taken r).bumpAcc 4).entry e).kind = some k from hkind]
  rw [← hgive]
  exact hserve

theorem allocKind_eq_safety {k : Kind} {c : FrameClass} : allocKind k c = .safety ↔ classApplied k c = .safety := by
  cases k <;> cases c <;> decide

/-- Whether the pool admits a frame of a SEND (R93). -/
theorem Pool.admits_iff (p : Pool) (reserve n : Nat) (k : Kind) (c : FrameClass) :
    p.admits reserve (allocKind k c) n = true ↔
      ¬(if classApplied k c = .safety then p.free < n else p.free < reserve + n) ∧
      ¬(k = .crane ∧ classApplied k c = .bulk ∧ p.paused = true) := by
  cases k
  · cases c <;> simp [Pool.admits, allocKind, classApplied]
  · simp [Pool.admits, allocKind, classApplied]

/-- Which refusal a pool that does not admit a SEND's frame gives (R94). -/
theorem State.poolRefusal_eq (s : State) (k : Kind) (c : FrameClass) : s.poolRefusal (allocKind k c) =
    if k = .crane ∧ classApplied k c = .bulk ∧ s.pool.paused = true then (.paused, 3) else (.noBuffer, 2) := by
  cases k <;> cases c <;> simp [State.poolRefusal, allocKind, classApplied]

section
variable {s : State} {r : Request} {q : SendReq} {e : EntryNo} {k : Kind}

theorem State.sendTo_tooLong (h : payloadMax k < q.payload.length) :
    s.sendTo r e k q = (s.bumpDown 2).answer r.ref .tooLong := if_pos h

theorem State.sendTo_full (h : ¬payloadMax k < q.payload.length) (hfull : heldMax k ≤ s.heldCount e) :
    s.sendTo r e k q = (s.bumpDown 3).answer r.ref .queueFull := by
  rw [State.sendTo, if_neg h, if_pos hfull]

theorem State.sendTo_refused (h : ¬payloadMax k < q.payload.length) (hroom : ¬heldMax k ≤ s.heldCount e)
    (hnot : s.pool.admits (s.param pReserve) (allocKind k q.cls) (s.newFrame r.ref e k q).blocks = false) :
    s.sendTo r e k q =
      (s.bumpPool (s.poolRefusal (allocKind k q.cls)).2).answer r.ref (s.poolRefusal (allocKind k q.cls)).1 := by
  rw [State.sendTo, if_neg h, if_neg hroom, if_neg (by rw [hnot]; exact Bool.false_ne_true)]

theorem State.sendTo_accepted (h : ¬payloadMax k < q.payload.length) (hroom : ¬heldMax k ≤ s.heldCount e)
    (hadmits : s.pool.admits (s.param pReserve) (allocKind k q.cls) (s.newFrame r.ref e k q).blocks = true) :
    s.sendTo r e k q = (s.admitted (allocKind k q.cls) (s.newFrame r.ref e k q)).judge.reply r.ref .ok
      (.sent (s.newFrame r.ref e k q).handle (s.newFrame r.ref e k q).cls
        (sendControl (s.newFrame r.ref e k q).cls q.lifetime (s.newFrame r.ref e k q))) := by
  rw [State.sendTo, if_neg h, if_neg hroom, if_pos hadmits]
  rfl

end

/-- Settles O39: the refusals in their order, and what an accepted SEND queues, takes and counts. -/
theorem sendIsRefusedOrQueued : Obligations.SendIsRefusedOrQueued := by
  intro r s q e k hasks hread hpassed hkind u c n held tooLong full barred short life f
  have hserve := exec_send hasks hread hpassed hkind
  have hc : classApplied k q.cls = c := by cases k <;> rfl
  have hlong : payloadMax k < q.payload.length ↔ tooLong := by cases k <;> exact Iff.rfl
  have hfull : heldMax k ≤ u.heldCount e ↔ full := by cases k <;> exact Iff.rfl
  have hlife : lifetimeApplied c q.lifetime = if c = .control then some life else none := rfl
  have hframe : u.newFrame r.ref e k q = f := by
    simp only [State.newFrame, hc, hlife, f]
    by_cases hcontrol : c = .control
    · simp only [hcontrol, if_true]
      rfl
    · simp only [hcontrol, if_false]
      rfl
  have hadmits := u.pool.admits_iff (u.param pReserve) n k q.cls
  rw [hc] at hadmits
  have hrefusal := u.poolRefusal_eq k q.cls
  rw [hc] at hrefusal
  refine ⟨fun hl => ?_, fun hl hf => ?_, fun hl hf hb => ?_, fun hl hf hb hs => ?_, fun hl hf hb hs => ?_⟩
  · exact hserve.trans (congrArg _ (State.sendTo_tooLong (hlong.mpr hl)))
  · exact hserve.trans (congrArg _ (State.sendTo_full (mt hlong.mp hl) (hfull.mpr hf)))
  · have hnot : u.pool.admits (u.param pReserve) (allocKind k q.cls) (u.newFrame r.ref e k q).blocks = false :=
      Bool.eq_false_iff.mpr fun ha => (hadmits.mp ha).2 hb
    rw [if_pos (show k = .crane ∧ c = .bulk ∧ u.pool.paused = true from hb)] at hrefusal
    have hsend := State.sendTo_refused (mt hlong.mp hl) (mt hfull.mp hf) hnot
    rw [hrefusal] at hsend
    exact hserve.trans (congrArg _ hsend)
  · have hnot : u.pool.admits (u.param pReserve) (allocKind k q.cls) (u.newFrame r.ref e k q).blocks = false :=
      Bool.eq_false_iff.mpr fun ha => (hadmits.mp ha).1 hs
    rw [if_neg (show ¬(k = .crane ∧ c = .bulk ∧ u.pool.paused = true) from hb)] at hrefusal
    have hsend := State.sendTo_refused (mt hlong.mp hl) (mt hfull.mp hf) hnot
    rw [hrefusal] at hsend
    exact hserve.trans (congrArg _ hsend)
  · have hyes : u.pool.admits (u.param pReserve) (allocKind k q.cls) (u.newFrame r.ref e k q).blocks = true :=
      hadmits.mpr ⟨hs, hb⟩
    have hsend := State.sendTo_accepted (mt hlong.mp hl) (mt hfull.mp hf) hyes
    rw [hframe] at hsend
    have hcontrol : sendControl f.cls q.lifetime f =
        if c = .control then some (life, s.clock.ms + BitVec.ofNat 32 life) else none := by
      have hdeadline : f.deadline = if c = .control then some (s.clock.ms + BitVec.ofNat 32 life) else none := rfl
      rw [sendControl, show lifetimeApplied f.cls q.lifetime = _ from hlife, hdeadline]
      by_cases hcontrol : c = .control
      · simp only [hcontrol, if_true]
      · simp only [hcontrol, if_false]
    rw [hcontrol] at hsend
    have hdownlink : (u.admitted (allocKind k q.cls) f).judge.downlink = (u.admitted (allocKind k q.cls) f).downlink := by simp
    have hcranes : (u.admitted (allocKind k q.cls) f).judge.cranes = (u.queueFrame f).cranes := by
      rw [← u.admitted_cranes f (allocKind k q.cls)]
      simp
    obtain ⟨hqueues, hfree, -, hcounts⟩ := (u.admitted (allocKind k q.cls) f).judge_pool_keeps
    refine ⟨(u.admitted (allocKind k q.cls) f).judge, hserve.trans (congrArg _ hsend), ?_, ?_, ?_, ?_, ?_, ?_, ?_, ?_, ?_,
      fun d x hrec => ⟨fun hsafety he hfirst => ?_, fun hother => ?_⟩, ?_⟩
    · rw [hdownlink, u.admitted_downlink]
      rfl
    · rw [hdownlink, u.admitted_downlink]
      rfl
    · rw [hdownlink, u.admitted_downlink]
      rfl
    · rw [hdownlink, u.admitted_downlink]
      rfl
    · rw [hdownlink, u.admitted_downlink]
      rfl
    · rw [hfree, u.admitted_pool]
      rfl
    · rw [hqueues, u.admitted_pool]
      rfl
    · rw [hcounts 0 (by decide), u.admitted_pool]
      dsimp only
      split
      · rw [look_bump_ne _ (by decide), look_bump_self]
        rfl
      · exact look_bump_self _ _
    · have hdips : (allocKind k q.cls = .safety ∧ u.pool.free - f.blocks < u.param pReserve) ↔
          (c = .safety ∧ s.pool.free < s.param pReserve + n) := by
        rw [allocKind_eq_safety, hc]
        refine and_congr_right fun hsafety => ?_
        have hroom : n ≤ s.pool.free := by
          have hnot : ¬s.pool.free < n := by simpa only [short, hsafety, if_true] using hs
          omega
        change s.pool.free - n < s.param pReserve ↔ s.pool.free < s.param pReserve + n
        omega
      rw [hcounts 1 (by decide), u.admitted_pool]
      simp only [hdips]
      split
      · rw [look_bump_self, look_bump_ne _ (by decide)]
        rfl
      · rw [look_bump_ne _ (by decide)]
        rfl
    · have hwatches := u.queueFrame_watches f (d := d) (x := x) hrec hsafety he hfirst
      rw [State.craneRec, hcranes]
      exact hwatches
    · have hsame := u.queueFrame_unwatched f (d := d) (x := x) hrec hother
      rw [State.craneRec, hcranes]
      exact hsame
    · exact (u.admitted_keepsAllBut f _).trans ((State.judge_keepsAllBut _).mono (by simp))

end Sys2Proof.Machine
end

section
/-! PROOFS. TUNE (R174): what its body holds, what a pair applies and raises, and what its pairs come to. -/

namespace Sys2Proof.Machine

/-! ### The body -/

/-- One pair of a TUNE's body. -/
def readPair : Reader (Fin 19 × Nat) := do return (← Reader.fin 19, (← Reader.num32).toNat)

theorem readTune_cons (b : Byte) (rest : List Byte) : readTune (b :: rest) =
    if 1 ≤ b.toNat ∧ b.toNat ≤ 19 then Reader.whole (Reader.many readPair b.toNat) rest else none := by
  have hrun : readTune (b :: rest) = Reader.whole (fun bs => (Reader.require (1 ≤ b.toNat && b.toNat ≤ 19) bs).bind
    (fun q => Reader.many readPair b.toNat q.2)) rest := rfl
  rw [hrun]
  by_cases h : 1 ≤ b.toNat ∧ b.toNat ≤ 19
  · rw [if_pos h]
    simp [Reader.run_require, h]
  · rw [if_neg h]
    refine Reader.whole_eq_none fun v hv => ?_
    have hrequire : Reader.require (1 ≤ b.toNat && b.toNat ≤ 19) rest = none := by simp [Reader.run_require, h]
    rw [hrequire] at hv
    cases hv

theorem readTune_miscounted {body : List Byte} (h : ∀ b ∈ body.head?, b.toNat = 0 ∨ 19 < b.toNat) : readTune body = none := by
  cases body with
  | nil => rfl
  | cons b rest =>
    have hb := h b rfl
    rw [readTune_cons, if_neg (by omega)]

theorem readTune_misnumbered {n : Byte} (rest : List Byte) (h : 19 ≤ n.toNat) : readTune (1 :: n :: rest) = none := by
  rw [readTune_cons, if_pos (by decide)]
  refine Reader.whole_eq_none fun v hv => ?_
  have hfin : Reader.fin 19 (n :: rest) = none := by
    have hrun : Reader.fin 19 (n :: rest) = (if h : n.toNat < 19 then
      (pure ⟨n.toNat, h⟩ : Reader (Fin 19)) else Reader.fail) rest := rfl
    rw [hrun, dif_neg (by omega)]
    rfl
  have hmany : Reader.many readPair (1 : Byte).toNat (n :: rest) = none := by
    have hone : (1 : Byte).toNat = 0 + 1 := rfl
    rw [hone]
    simp only [Reader.many, readPair, Reader.run_bind, hfin, Option.bind_none]
  rw [hmany] at hv
  cases hv

/-! ### One pair -/

section
variable (ps : Vector Nat 19) (i : Fin 19) (v : Nat) {j : Fin 19} {x : Nat}

/-- A value held to its parameter's range. -/
def inRange (ps : Vector Nat 19) (i : Fin 19) (v : Nat) : Nat :=
  if v < (paramRange ps i).1 then (paramRange ps i).1 else if (paramRange ps i).2 < v then (paramRange ps i).2 else v

theorem clampParam_value : (clampParam ps i v).1 = inRange ps i v := by
  simp only [clampParam, inRange]
  (repeat' split) <;> rfl

theorem clampParam_clamped : (clampParam ps i v).2 = true ↔ v ≠ inRange ps i v := by
  simp only [clampParam, inRange]
  split
  · simp only [true_iff]
    omega
  · split
    · simp only [true_iff]
      omega
    · simp

/-- The least value that the parameter `j` may stand at once `i` stands at `w`. -/
def leastBeside (i : Fin 19) (w : Nat) (j : Fin 19) : Nat :=
  if i = 7 ∧ j = 8 then w + 64 else if i = 16 ∧ j = 17 then w + 10 else 0

theorem applyPair_value : (applyPair ps i v).2.1 = inRange ps i v ∧ (applyPair ps i v).2.2.1 = (clampParam ps i v).2 := by
  rw [← clampParam_value]
  simp only [applyPair]
  (repeat' split) <;> exact ⟨rfl, rfl⟩

theorem dependentOf_put (w : Nat) : dependentOf (put ps i w) i =
    if i = 7 then some (8, w + 64) else if i = 16 then some (17, w + 10) else none := by
  unfold dependentOf
  by_cases h7 : i = 7
  · subst h7
    rw [if_pos (show (7 : Fin 19) = pPauseMark from rfl), if_pos rfl, show look (put ps 7 w) pPauseMark = w from look_put_self ..]
    rfl
  · rw [if_neg (show ¬i = pPauseMark from h7), if_neg h7]
    by_cases h16 : i = 16
    · subst h16
      rw [if_pos (show (16 : Fin 19) = pDoseWarn from rfl), if_pos rfl, show look (put ps 16 w) pDoseWarn = w from look_put_self ..]
      rfl
    · rw [if_neg (show ¬i = pDoseWarn from h16), if_neg h16]

/-- The parameter `j` depends on `i`, which stands at `w` (R174). -/
def Depends (i j : Fin 19) (w least : Nat) : Prop := j ≠ i ∧ leastBeside i w = fun k => if k = j then least else 0

theorem dependentOf_some {w least : Nat} (h : dependentOf (put ps i w) i = some (j, least)) : Depends i j w least := by
  rw [dependentOf_put] at h
  split at h
  · next hi =>
    cases h
    subst hi
    exact ⟨by decide, funext fun k => by simp [leastBeside]⟩
  · split at h
    · next hi =>
      cases h
      subst hi
      exact ⟨by decide, funext fun k => by simp [leastBeside]⟩
    · cases h

theorem dependentOf_none {w : Nat} (h : dependentOf (put ps i w) i = none) (k : Fin 19) : leastBeside i w k = 0 := by
  rw [dependentOf_put] at h
  split at h
  · cases h
  · next h7 =>
    split at h
    · cases h
    · next h16 => simp [leastBeside, h7, h16]

/-- What a pair comes to: its value written, and its dependent parameter raised where it stands too low. -/
theorem applyPair_eq : applyPair ps i v =
    match dependentOf (put ps i (inRange ps i v)) i with
    | some (k, least) =>
      if look (put ps i (inRange ps i v)) k < least then
        (put (put ps i (inRange ps i v)) k least, inRange ps i v, (clampParam ps i v).2, some (k, least))
      else (put ps i (inRange ps i v), inRange ps i v, (clampParam ps i v).2, none)
    | none => (put ps i (inRange ps i v), inRange ps i v, (clampParam ps i v).2, none) := by
  rw [← clampParam_value]
  rfl

/-- What a pair makes of every parameter: its own held to its range, a dependent one raised to the least it may stand at. -/
theorem applyPair_look (k : Fin 19) : look (applyPair ps i v).1 k =
    if k = i then inRange ps i v else max (look ps k) (leastBeside i (inRange ps i v) k) := by
  rw [applyPair_eq]
  rcases hdep : dependentOf (put ps i (inRange ps i v)) i with _ | ⟨j, least⟩
  · simp only [look_put, dependentOf_none ps i hdep, Nat.max_zero]
  · obtain ⟨hne, hleast⟩ := dependentOf_some ps i hdep
    rw [hleast]
    simp only [look_put, if_neg hne]
    by_cases hk : k = i
    · subst hk
      split <;> simp [Ne.symm hne]
    · by_cases hkj : k = j
      · subst hkj
        split
        · simp only [look_put, if_true, if_neg hne]
          omega
        · simp only [look_put, if_true, if_neg hne]
          omega
      · split <;> simp [hk, hkj]

/-- The dependent parameter that a pair raises. -/
theorem applyPair_raised : (applyPair ps i v).2.2.2 = some (j, x) ↔
    j ≠ i ∧ look ps j < leastBeside i (inRange ps i v) j ∧ x = leastBeside i (inRange ps i v) j := by
  rw [applyPair_eq]
  rcases hdep : dependentOf (put ps i (inRange ps i v)) i with _ | ⟨k, least⟩
  · simp [dependentOf_none ps i hdep]
  · obtain ⟨hne, hleast⟩ := dependentOf_some ps i hdep
    rw [hleast]
    simp only [look_put, if_neg hne]
    by_cases hjk : j = k
    · subst hjk
      split
      · next hlow => simp [hne, hlow, eq_comm]
      · next hlow => simp [hlow]
    · split <;> simp [Ne.symm hjk]

end

/-! ### All pairs -/

section
variable (s : State)

theorem State.tunePair_settings (i : Fin 19) (v : Nat) : (s.tunePair i v).settings = (s.withPair i v).settings := by
  rw [State.tunePair_eq, (State.judge_frame _).2.2.2.2.2.2.2.2.2.1]
  split
  · exact State.settings_afterTune _ _
  · rfl

theorem State.withPair_params (i : Fin 19) (v : Nat) :
    (s.withPair i v).settings.params = (applyPair s.settings.params i v).1 := by
  unfold State.withPair
  split <;> rfl

/-- What no pair writes of the settings beside the parameters and the count of clamps. -/
structure Settings.TunesTo (x y : Settings) : Prop where
  mem : y.mem = x.mem
  store : y.store = x.store
  newest : y.newest = x.newest
  source : y.source = x.source
  restart : y.restart = x.restart
  counted : look y.counters 4 = look x.counters 4

theorem State.withPair_tunesTo (i : Fin 19) (v : Nat) : s.settings.TunesTo (s.withPair i v).settings := by
  unfold State.withPair
  split
  · exact ⟨rfl, rfl, rfl, rfl, rfl, look_bump_ne _ (by decide)⟩
  · exact ⟨rfl, rfl, rfl, rfl, rfl, rfl⟩

/-- The state once the pairs of a TUNE have been applied. -/
def State.tuned (s : State) (ps : List (Fin 19 × Nat)) : State := ps.foldl (fun s p => s.tunePair p.1 p.2) s

theorem State.tuned_tunesTo (ps : List (Fin 19 × Nat)) : s.settings.TunesTo (s.tuned ps).settings := by
  induction ps generalizing s with
  | nil => exact ⟨rfl, rfl, rfl, rfl, rfl, rfl⟩
  | cons p ps ih =>
    obtain ⟨hmem, hstore, hnewest, hsource, hrestart, hcounted⟩ := ih (s.tunePair p.1 p.2)
    obtain ⟨gmem, gstore, gnewest, gsource, grestart, gcounted⟩ := s.withPair_tunesTo p.1 p.2
    rw [State.tunePair_settings] at hmem hstore hnewest hsource hrestart hcounted
    exact ⟨hmem.trans gmem, hstore.trans gstore, hnewest.trans gnewest, hsource.trans gsource, hrestart.trans grestart,
      hcounted.trans gcounted⟩

theorem State.tuned_params (ps : List (Fin 19 × Nat)) :
    (s.tuned ps).settings.params = ps.foldl (fun v q => (applyPair v q.1 q.2).1) s.settings.params := by
  induction ps generalizing s with
  | nil => rfl
  | cons p ps ih =>
    have hrest := ih (s.tunePair p.1 p.2)
    rw [State.tunePair_settings, State.withPair_params] at hrest
    exact hrest

theorem State.tuned_keepsAllBut (ps : List (Fin 19 × Nat)) : s.KeepsAllBut (s.tuned ps) tuneParts := by
  induction ps generalizing s with
  | nil => exact State.KeepsAllBut.refl s _
  | cons p ps ih => exact (s.tunePair_keepsAllBut p.1 p.2).trans (ih _)

/-- A single pair's clamp is counted. -/
theorem State.tuned_single_clamps (i : Fin 19) (v : Nat) : look (s.tuned [(i, v)]).settings.counters 5 =
    if v = inRange s.settings.params i v then look s.settings.counters 5 else satInc (look s.settings.counters 5) := by
  have hclamped := clampParam_clamped s.settings.params i v
  rw [← (applyPair_value s.settings.params i v).2] at hclamped
  rw [State.tuned, List.foldl_cons, List.foldl_nil, State.tunePair_settings, State.withPair]
  split
  · next h =>
    rw [if_neg (hclamped.mp h)]
    exact look_bump_self _ _
  · next h =>
    rw [if_pos (not_not.mp (mt hclamped.mpr h))]

end

theorem tuneReport_numbers (ps : List (Fin 19 × Nat)) (v : Vector Nat 19) (raised : List (Fin 19 × Nat)) :
    (tuneReport v ps raised).1.map Prod.fst = ps.map Prod.fst := by
  induction ps generalizing v raised with
  | nil => rfl
  | cons p ps ih =>
    simp only [tuneReport, List.map_cons, ih]

/-- A single pair's report: the value applied, and the parameter raised if there is one. -/
theorem tuneReport_single (v : Vector Nat 19) (i : Fin 19) (x : Nat) :
    tuneReport v [(i, x)] [] = ([(i, inRange v i x)], (applyPair v i x).2.2.2.toList) := by
  rw [← (applyPair_value v i x).1]
  simp only [tuneReport]
  rcases (applyPair v i x).2.2.2 with _ | d <;> rfl

/-- What TUNE answers. -/
def State.giveTune (s : State) (r : Request) (ps : List (Fin 19 × Nat)) : State :=
  ((s.tuned ps).bumpSet 4).reply r.ref .ok
    (.tuned (tuneReport s.settings.params ps []).1 (tuneReport s.settings.params ps []).2)

theorem exec_tune {s : State} {r : Request} {ps : List (Fin 19 × Nat)} (hasks : s.Asks .tune r)
    (hread : readTune r.body = some ps) : exec (.tune r.ref.link) s = .next ((s.taken r).giveTune r ps) :=
  exec_asks_reading (c := .tune) (f := fun u ps => u.giveTune r ps) hasks (fun _ => rfl) hread

theorem paramRange_list (ps : Vector Nat 19) : (List.finRange 19).map (paramRange ps) =
    [(2, 50), (20, 500), (1, 60), (5, 500), (10, 1000), (50, 2000), (5, 200), (64, 2048), (look ps 7 + 64, 3072), (0, 15),
     (32, 256), (64, 2048), (5, 100), (5, 100), (60, 3600), (300, 7200), (10, 100000), (look ps 16 + 10, 500000), (1, 10)] := rfl

/-- Settles O49: the ranges and the body by their tables, the pairs in order, and of a single pair all that it brings. -/
theorem tuneClampsAndRaises : Obligations.TuneClampsAndRaises := by
  refine ⟨paramRange_list, fun body => readTune_miscounted, fun n rest => readTune_misnumbered rest,
    fun r s ps hasks hread => ?_⟩
  generalize hu : s.taken r = u
  have hsettings : s.settings = u.settings := by rw [← hu]; rfl
  obtain ⟨hmem, hstore, hnewest, hsource, hrestart, hcounted⟩ := u.tuned_tunesTo ps
  rw [hsettings]
  refine ⟨(u.tuned ps).bumpSet 4, _, _, (exec_tune hasks hread).trans (by rw [hu]; rfl), tuneReport_numbers _ _ _,
    u.tuned_params ps, ?_, hmem, hstore, hnewest, hsource, hrestart, fun i v hps => ?_, ?_⟩
  · rw [← hcounted]
    exact look_bump_self _ _
  · subst hps
    rw [tuneReport_single]
    have hlook : ∀ j, (u.tuned [(i, v)]).param j = _ := fun j =>
      (congrArg (fun p => look p j) (u.tuned_params [(i, v)])).trans (applyPair_look u.settings.params i v j)
    refine ⟨rfl, ?_, fun j hj => ?_, fun j x => ?_, ?_⟩
    · exact (hlook i).trans (if_pos rfl)
    · refine (hlook j).trans ((if_neg hj).trans ?_)
      rw [← hu]
      rfl
    · rw [Option.mem_toList, applyPair_raised, ← hu]
      rfl
    · exact (look_bump_ne _ (by decide)).trans (u.tuned_single_clamps i v)
  · exact (u.tuned_keepsAllBut ps).trans fun q hq => by cases q <;> simp_all [Part.same, tuneParts]

end Sys2Proof.Machine
end

section
/-! PROOFS. The settings image: where its fields stand and that they read back (R172, R173, R184). -/

namespace Sys2Proof.Machine

/-! ### Bytes at offsets -/

section
variable {a b bs : List Byte} {i n : Nat}

theorem byteAt_append_left (h : i < a.length) : byteAt (a ++ b) i = byteAt a i := by
  simp [byteAt, List.getD_eq_getElem?_getD, List.getElem?_append_left h]

theorem byteAt_append_right (h : a.length = n) : byteAt (a ++ b) (n + i) = byteAt b i := by
  subst h
  simp [byteAt, List.getD_eq_getElem?_getD, List.getElem?_append_right]

/-- Rows of the same size stand one behind the other. -/
theorem byteAt_flatMap {α : Type} {f : α → List Byte} {m : Nat} (hf : ∀ x, (f x).length = m) {xs : List α} {x : α} {k j : Nat}
    (hx : xs[k]? = some x) (hj : j < m) (rest : List Byte) : byteAt (xs.flatMap f ++ rest) (m * k + j) = byteAt (f x) j := by
  induction xs generalizing k with
  | nil => cases hx
  | cons y ys ih =>
    rw [List.flatMap_cons, List.append_assoc]
    cases k with
    | zero =>
      cases hx
      rw [Nat.mul_zero, Nat.zero_add]
      exact byteAt_append_left (by rw [hf]; exact hj)
    | succ k =>
      rw [show m * (k + 1) + j = m + (m * k + j) by ring, byteAt_append_right (hf y)]
      exact ih hx

theorem length_flatMap_rows {α : Type} {f : α → List Byte} {m : Nat} (hf : ∀ x, (f x).length = m) (xs : List α) :
    (xs.flatMap f).length = m * xs.length := by
  simp only [List.length_flatMap, hf, List.map_const', List.sum_replicate, smul_eq_mul, Nat.mul_comm]

theorem padArea_length : (padArea bs).length = areaSize := by
  simp only [padArea, List.length_take, List.length_append, List.length_replicate]
  omega

theorem padArea_of_length (h : bs.length = areaSize) : padArea bs = bs := by
  simp [padArea, h]

/-- The bytes of a copy that fit the area are the area's. -/
theorem byteAt_padArea (hi : i < bs.length) (h : i < areaSize) : byteAt (padArea bs) i = byteAt bs i := by
  simp [byteAt, padArea, List.getD_eq_getElem?_getD, h, List.getElem?_append_left hi]

theorem word_be32 (v : Word) : word ((v >>> 24).setWidth 8) ((v >>> 16).setWidth 8) ((v >>> 8).setWidth 8) (v.setWidth 8) = v := by
  refine BitVec.eq_of_getLsbD_eq fun k hk => ?_
  rw [word, BitVec.getLsbD_append, BitVec.getLsbD_append, BitVec.getLsbD_append]
  by_cases h1 : k < 8
  · simp [h1, show k < 8 + 8 by omega]
  · by_cases h2 : k < 16
    · simp [h1, h2, show k - 8 < 8 by omega, show 8 + (k - 8) = k by omega]
    · by_cases h3 : k < 24
      · simp [h2, show k - 16 < 8 by omega, show 16 + (k - 16) = k by omega]
      · simp [h2, show ¬k - 16 < 8 by omega, show k - 16 - 8 < 8 by omega, show 24 + (k - 16 - 8) = k by omega]
end

/-! ### Where the image's fields stand -/

/-- A head's row in the image. -/
def headRow : Option Reach → List Byte
  | none => [0, 0, 0]
  | some w => [1] ++ out1 w.first ++ out1 w.len

/-- The marker, then the fields in their order; the check value is behind them. -/
def Image.payload (i : Image) : List Byte :=
  [0x4B, 0x51, 0xF0, 0xA1] ++ (be32 i.generation ++ (i.links.flatMap (fun r => out1 r.1.val ++ r.2.bytes) ++
    (i.heads.flatMap headRow ++ (i.params.flatMap out4 ++ (out1 i.marks.length ++
      i.marks.flatMap (fun p => out1 p.1.val ++ out1 p.2.val))))))

theorem Image.bytes_eq (i : Image) : i.bytes = i.payload ++ be16 (checkValue i.payload) := by
  have hpayload : [0x4B, 0x51, 0xF0, 0xA1] ++ be32 i.generation ++ i.links.flatMap (fun r => out1 r.1.val ++ r.2.bytes) ++
      i.heads.flatMap headRow ++ i.params.flatMap out4 ++ outList (fun p => out1 p.1.val ++ out1 p.2.val) i.marks =
      i.payload := by
    simp only [Image.payload, outList, List.append_assoc]
  rw [← hpayload]
  rfl

/-- An image of full tables. -/
structure Image.Full (i : Image) : Prop where
  links : i.links.length = 4
  heads : i.heads.length = 12
  params : i.params.length = 19

section
variable {i : Image}

theorem Rights.bytes_length (r : Rights) : r.bytes.length = 1 := rfl

theorem headRow_length (r : Option Reach) : (headRow r).length = 3 := by
  cases r <;> rfl

theorem Image.Full.rows (hi : i.Full) : (i.links.flatMap (fun r => out1 r.1.val ++ r.2.bytes)).length = 8 ∧
    (i.heads.flatMap headRow).length = 36 ∧ (i.params.flatMap out4).length = 76 ∧
    (i.marks.flatMap (fun p => out1 p.1.val ++ out1 p.2.val)).length = 2 * i.marks.length := by
  rw [length_flatMap_rows (m := 2) fun _ => rfl, length_flatMap_rows headRow_length, length_flatMap_rows (m := 4) fun _ => rfl,
    length_flatMap_rows (m := 2) fun _ => rfl, hi.links, hi.heads, hi.params]
  exact ⟨rfl, rfl, rfl, rfl⟩

theorem Image.Full.length (hi : i.Full) : i.payload.length = 129 + 2 * i.marks.length := by
  obtain ⟨hlinks, hheads, hparams, hmarks⟩ := hi.rows
  have hgeneration : (be32 i.generation).length = 4 := rfl
  have hcount : (out1 i.marks.length).length = 1 := rfl
  simp only [Image.payload, List.length_append, hlinks, hheads, hparams, hmarks, hgeneration, hcount, List.length_cons,
    List.length_nil]
  omega

/-- A byte of a copy's fields is the area's. -/
theorem Image.Full.byteAt_area (hi : i.Full) {k : Nat} (h : k < 129 + 2 * i.marks.length) (hk : k < areaSize) :
    byteAt (padArea i.bytes) k = byteAt i.payload k := by
  have hfits : k < i.payload.length := by rw [hi.length]; exact h
  rw [byteAt_padArea (by rw [Image.bytes_eq, List.length_append]; omega) hk, Image.bytes_eq, byteAt_append_left hfits]

theorem Image.byteAt_generation {j : Nat} (hj : j < 4) : byteAt i.payload (4 + j) = byteAt (be32 i.generation) j := by
  rw [Image.payload, byteAt_append_right (n := 4) rfl, byteAt_append_left hj]

theorem Image.byteAt_link {x : Fin 16 × Rights} {k j : Nat} (hx : i.links[k]? = some x) (hj : j < 2) :
    byteAt i.payload (8 + (2 * k + j)) = byteAt (out1 x.1.val ++ x.2.bytes) j := by
  rw [Image.payload, show 8 + (2 * k + j) = 4 + (4 + (2 * k + j)) by omega, byteAt_append_right (n := 4) rfl,
    byteAt_append_right (n := 4) rfl]
  exact byteAt_flatMap (m := 2) (fun _ => rfl) hx hj _

theorem Image.Full.byteAt_head (hi : i.Full) {x : Option Reach} {k j : Nat} (hx : i.heads[k]? = some x) (hj : j < 3) :
    byteAt i.payload (16 + (3 * k + j)) = byteAt (headRow x) j := by
  rw [Image.payload, show 16 + (3 * k + j) = 4 + (4 + (8 + (3 * k + j))) by omega, byteAt_append_right (n := 4) rfl,
    byteAt_append_right (n := 4) rfl, byteAt_append_right hi.rows.1]
  exact byteAt_flatMap headRow_length hx hj _

theorem Image.Full.byteAt_param (hi : i.Full) {x k j : Nat} (hx : i.params[k]? = some x) (hj : j < 4) :
    byteAt i.payload (52 + (4 * k + j)) = byteAt (out4 x) j := by
  obtain ⟨hlinks, hheads, -, -⟩ := hi.rows
  rw [Image.payload, show 52 + (4 * k + j) = 4 + (4 + (8 + (36 + (4 * k + j)))) by omega, byteAt_append_right (n := 4) rfl,
    byteAt_append_right (n := 4) rfl, byteAt_append_right hlinks, byteAt_append_right hheads]
  exact byteAt_flatMap (m := 4) (fun _ => rfl) hx hj _

/-- The rest of the fields behind the parameters. -/
theorem Image.Full.byteAt_tail (hi : i.Full) (k : Nat) : byteAt i.payload (128 + k) =
    byteAt (out1 i.marks.length ++ i.marks.flatMap (fun p => out1 p.1.val ++ out1 p.2.val)) k := by
  obtain ⟨hlinks, hheads, hparams, -⟩ := hi.rows
  rw [Image.payload, show 128 + k = 4 + (4 + (8 + (36 + (76 + k)))) by omega, byteAt_append_right (n := 4) rfl,
    byteAt_append_right (n := 4) rfl, byteAt_append_right hlinks, byteAt_append_right hheads, byteAt_append_right hparams]

theorem Image.Full.byteAt_mark (hi : i.Full) {x : HeadNo × SegNo} {k j : Nat} (hx : i.marks[k]? = some x) (hj : j < 2) :
    byteAt i.payload (129 + (2 * k + j)) = byteAt (out1 x.1.val ++ out1 x.2.val) j := by
  rw [show 129 + (2 * k + j) = 128 + (1 + (2 * k + j)) by omega, hi.byteAt_tail, byteAt_append_right (n := 1) rfl]
  have hrow := byteAt_flatMap (f := fun p : HeadNo × SegNo => out1 p.1.val ++ out1 p.2.val) (m := 2) (fun _ => rfl) hx hj []
  rwa [List.append_nil] at hrow

end

/-! ### What a load reads of it -/

section
variable {i : Image}

theorem wordAt_of_bytes {bs : List Byte} {k : Nat} {v : Word} (h : ∀ j < 4, byteAt bs (k + j) = byteAt (be32 v) j) :
    wordAt bs k = v := by
  have h0 := h 0 (by decide)
  have h1 := h 1 (by decide)
  have h2 := h 2 (by decide)
  have h3 := h 3 (by decide)
  rw [Nat.add_zero] at h0
  rw [wordAt, h0, h1, h2, h3]
  exact word_be32 v

theorem Image.Full.wordAt_generation (hi : i.Full) : wordAt (padArea i.bytes) 4 = i.generation :=
  wordAt_of_bytes fun j hj => by
    rw [hi.byteAt_area (by omega) (by simp only [areaSize]; omega), Image.byteAt_generation hj]

theorem Image.Full.wordAt_param (hi : i.Full) {x k : Nat} (hx : i.params[k]? = some x) :
    wordAt (padArea i.bytes) (52 + 4 * k) = BitVec.ofNat 32 x := by
  have hk : k < 19 := by
    rw [← hi.params]
    exact (List.getElem?_eq_some_iff.mp hx).1
  refine wordAt_of_bytes fun j hj => ?_
  rw [hi.byteAt_area (by omega) (by simp only [areaSize]; omega), Nat.add_assoc, hi.byteAt_param hx hj]
  rfl

theorem rightsOf_bytes (r : Rights) : byteAt r.bytes 0 = byteAt r.bytes 0 ∧ rightsOf (byteAt r.bytes 0) = r ∧
    (byteAt r.bytes 0).toNat < 8 := by
  obtain ⟨traffic, command, admin⟩ := r
  cases traffic <;> cases command <;> cases admin <;> decide

theorem Image.Full.loadLink_eq (hi : i.Full) {l : LinkNo} {x : Fin 16 × Rights} (hx : i.links[l.val]? = some x) :
    loadLink (padArea i.bytes) l = (x, 0) := by
  have hl := l.isLt
  have hindex : byteAt (padArea i.bytes) (8 + 2 * l.val) = BitVec.ofNat 8 x.1.val := by
    rw [hi.byteAt_area (by omega) (by simp only [areaSize]; omega)]
    exact Image.byteAt_link (j := 0) hx (by decide)
  have hrights : byteAt (padArea i.bytes) (9 + 2 * l.val) = byteAt x.2.bytes 0 := by
    rw [hi.byteAt_area (by omega) (by simp only [areaSize]; omega), show 9 + 2 * l.val = 8 + (2 * l.val + 1) by omega]
    exact Image.byteAt_link (j := 1) hx (by decide)
  obtain ⟨-, hof, hsmall⟩ := rightsOf_bytes x.2
  have hax : (BitVec.ofNat 8 x.1.val).toNat = x.1.val := toNat_ofNat_byte (by omega)
  simp only [loadLink, hindex, hrights, hof, hsmall, hax, x.1.isLt, dif_pos, if_true]

theorem Image.Full.loadHead_eq (hi : i.Full) {h : HeadNo} {x : Option Reach} (hx : i.heads[h.val]? = some x)
    (hfits : ∀ w, x = some w → 1 ≤ w.len ∧ w.len ≤ 16 ∧ w.first + w.len ≤ 64) : loadHead (padArea i.bytes) h = (x, 0) := by
  have hh := h.isLt
  have hrow : ∀ j < 3, byteAt (padArea i.bytes) (16 + (3 * h.val + j)) = byteAt (headRow x) j := fun j hj => by
    rw [hi.byteAt_area (by omega) (by simp only [areaSize]; omega), hi.byteAt_head hx hj]
  have h0 : byteAt (padArea i.bytes) (16 + 3 * h.val) = byteAt (headRow x) 0 := hrow 0 (by decide)
  have h1 : byteAt (padArea i.bytes) (17 + 3 * h.val) = byteAt (headRow x) 1 := by
    rw [← hrow 1 (by decide)]
    congr 1
    omega
  have h2 : byteAt (padArea i.bytes) (18 + 3 * h.val) = byteAt (headRow x) 2 := by
    rw [← hrow 2 (by decide)]
    congr 1
    omega
  simp only [loadHead, h0, h1, h2]
  rcases x with _ | w
  · rfl
  · obtain ⟨hpos, hlen, hend⟩ := hfits w rfl
    have hfirst : byteAt (headRow (some w)) 1 = BitVec.ofNat 8 w.first := rfl
    have hlast : byteAt (headRow (some w)) 2 = BitVec.ofNat 8 w.len := rfl
    have hone : byteAt (headRow (some w)) 0 = 1 := rfl
    have hreach : reachOk w = true := by simp [reachOk, hpos, hlen, hend]
    simp [hone, hfirst, hlast, Nat.mod_eq_of_lt (show w.first < 256 by omega), Nat.mod_eq_of_lt (show w.len < 256 by omega),
      hreach]

/-- A copy with no more marks than there is room for is found sound. -/
theorem Image.Full.copySound (hi : i.Full) (hroom : i.marks.length ≤ 192) :
    copySound (padArea i.bytes) = true ∧ markCount (padArea i.bytes) = i.marks.length := by
  have hcount : markCount (padArea i.bytes) = i.marks.length := by
    have hbyte : byteAt (padArea i.bytes) 128 = BitVec.ofNat 8 i.marks.length := by
      rw [hi.byteAt_area (by omega) (by decide), show (128 : Nat) = 128 + 0 by rfl, hi.byteAt_tail]
      rfl
    rw [markCount, hbyte, toNat_ofNat_byte (by omega)]
  have hlength := hi.length
  have hbytes : i.bytes.length = i.payload.length + 2 := by rw [Image.bytes_eq, List.length_append]; rfl
  have hmarker : wordAt (padArea i.bytes) 0 = 0x4B51F0A1 := wordAt_of_bytes fun j hj => by
    rw [Nat.zero_add, hi.byteAt_area (by omega) (by simp only [areaSize]; omega), Image.payload, byteAt_append_left hj]
    rfl
  have hcheck : ∀ j < 2, byteAt (padArea i.bytes) (i.payload.length + j) = byteAt (be16 (checkValue i.payload)) j :=
    fun j hj => by
      rw [byteAt_padArea (by omega) (by simp only [areaSize]; omega), Image.bytes_eq, byteAt_append_right rfl]
  have htake : (padArea i.bytes).take i.payload.length = i.payload := by
    have hroom : i.payload.length ≤ areaSize := by simp only [areaSize]; omega
    rw [padArea, List.take_take, Nat.min_eq_left hroom, Image.bytes_eq, List.append_assoc, List.take_left]
  refine ⟨?_, hcount⟩
  have hhalf : half (byteAt (padArea i.bytes) i.payload.length) (byteAt (padArea i.bytes) (i.payload.length + 1)) =
      checkValue i.payload := by
    have h0 := hcheck 0 (by decide)
    rw [Nat.add_zero] at h0
    rw [h0, hcheck 1 (by decide)]
    exact half_bytes _
  unfold Machine.copySound
  rw [hcount, ← hlength]
  simp only [hmarker, hhalf, htake, beq_self_eq_true, Bool.and_self]

theorem Image.Full.mark_eq (hi : i.Full) (hroom : i.marks.length ≤ 192) {m : HeadNo × SegNo} {k : Nat} (hm : i.marks[k]? = some m) :
    (padArea i.bytes)[129 + 2 * k]? = some (BitVec.ofNat 8 m.1.val) ∧
    (padArea i.bytes)[130 + 2 * k]? = some (BitVec.ofNat 8 m.2.val) := by
  have hk : k < i.marks.length := (List.getElem?_eq_some_iff.mp hm).1
  have hbyte : ∀ j < 2, (padArea i.bytes)[129 + (2 * k + j)]? = some (byteAt (out1 m.1.val ++ out1 m.2.val) j) := fun j hj => by
    have hin : 129 + (2 * k + j) < (padArea i.bytes).length := by rw [padArea_length]; simp only [areaSize]; omega
    have hat := hi.byteAt_area (k := 129 + (2 * k + j)) (by omega) (by simp only [areaSize]; omega)
    rw [hi.byteAt_mark hm hj] at hat
    rw [← hat, byteAt, List.getD_eq_getElem?_getD, List.getElem?_eq_getElem hin, Option.getD_some]
  refine ⟨hbyte 0 (by decide), ?_⟩
  have hsecond := hbyte 1 (by decide)
  rwa [show 129 + (2 * k + 1) = 130 + 2 * k by omega] at hsecond

end

end Sys2Proof.Machine
end

section
/-! PROOFS. STORE_SETTINGS and the end of its write (R175, R184). -/

namespace Sys2Proof.Machine

/-! ### The body -/

theorem Reader.many_eq_some {α : Type} {p : Reader α} {n : Nat} {bs rest : List Byte} {vs : List α}
    (h : Reader.many p n bs = some (vs, rest)) : vs.length = n ∧ ∀ v ∈ vs, ∃ cs ds, p cs = some (v, ds) := by
  induction n generalizing bs vs with
  | zero =>
    cases h
    exact ⟨rfl, fun v hv => by cases hv⟩
  | succ n ih =>
    simp only [Reader.many, Reader.run_bind, Reader.run_pure, Option.bind_eq_some_iff] at h
    obtain ⟨⟨v, cs⟩, hv, ⟨ws, ds⟩, hws, heq⟩ := h
    cases heq
    obtain ⟨hlength, hall⟩ := ih hws
    refine ⟨by rw [List.length_cons, hlength], fun x hx => ?_⟩
    rcases List.mem_cons.mp hx with rfl | hx
    · exact ⟨_, _, hv⟩
    · exact hall x hx

theorem Reader.maybe_eq_some {α : Type} {p : Reader α} {bs rest : List Byte} {v : α}
    (h : Reader.maybe p bs = some (some v, rest)) : ∃ cs, p cs = some (v, rest) := by
  simp only [Reader.maybe, Reader.run_bind, Option.bind_eq_some_iff] at h
  obtain ⟨⟨c, cs⟩, -, h⟩ := h
  cases c with
  | false => cases h
  | true =>
    simp only [if_true, Reader.run_bind, Reader.run_pure, Option.bind_eq_some_iff] at h
    obtain ⟨⟨w, ds⟩, hw, heq⟩ := h
    cases heq
    exact ⟨_, hw⟩

theorem readHeadRow_ok {bs rest : List Byte} {w : Reach} (h : readHeadRow bs = some (some w, rest)) : reachOk w = true := by
  simp only [readHeadRow, Reader.run_bind, Option.bind_eq_some_iff] at h
  obtain ⟨⟨c, cs⟩, -, ⟨f, fs⟩, -, ⟨n, ns⟩, -, h⟩ := h
  cases c with
  | false => cases h
  | true =>
    simp only [if_true, Reader.run_bind, Reader.run_pure, Option.bind_eq_some_iff] at h
    obtain ⟨⟨u, us⟩, hok, heq⟩ := h
    cases heq
    exact (Reader.require_eq_some_iff.mp hok).1

/-- The tables of a STORE_SETTINGS are full, and their head rows are in range. -/
theorem readStore_tables {body : List Byte} {links : Option (List (Fin 16 × Rights))} {heads : Option (List (Option Reach))}
    (h : readStore body = some (links, heads)) : (∀ v ∈ links, v.length = 4) ∧
    ∀ v ∈ heads, v.length = 12 ∧ ∀ w, some w ∈ v → reachOk w = true := by
  rw [readStore, Reader.whole_eq_some_iff] at h
  simp only [Reader.run_bind, Reader.run_pure, Option.bind_eq_some_iff] at h
  obtain ⟨⟨ls, cs⟩, hls, ⟨hs, ds⟩, hhs, heq⟩ := h
  cases heq
  refine ⟨fun v hv => ?_, fun v hv => ?_⟩
  · obtain rfl : ls = some v := hv
    obtain ⟨bs, hmany⟩ := Reader.maybe_eq_some hls
    exact (Reader.many_eq_some hmany).1
  · obtain rfl : hs = some v := hv
    obtain ⟨bs, hmany⟩ := Reader.maybe_eq_some hhs
    obtain ⟨hlength, hall⟩ := Reader.many_eq_some hmany
    refine ⟨hlength, fun w hw => ?_⟩
    obtain ⟨_, _, hrow⟩ := hall _ hw
    exact readHeadRow_ok hrow

/-! ### The snapshot -/

section
variable {s : State} {links : Option (List (Fin 16 × Rights))} {heads : Option (List (Option Reach))}

theorem State.snapshot_full (hlinks : ∀ v ∈ links, v.length = 4) (hheads : ∀ v ∈ heads, v.length = 12) :
    (s.snapshot links heads).Full := by
  refine ⟨?_, ?_, Vector.length_toList ..⟩
  · cases links with
    | none => rfl
    | some v => exact hlinks v rfl
  · cases heads with
    | none => exact Vector.length_toList ..
    | some v => exact hheads v rfl

theorem State.mem_markedCells {h : HeadNo} {g : SegNo} :
    (h, g) ∈ s.markedCells ↔ ∃ c : Cell, s.cell h g = some c ∧ c.state = .marked := by
  simp only [State.markedCells, List.mem_flatMap, List.mem_map, List.mem_filter, Prod.mk.injEq]
  constructor
  · rintro ⟨i, -, f, ⟨-, hmarked⟩, rfl, rfl⟩
    rcases hcell : s.cell i f with _ | c
    · rw [hcell] at hmarked
      cases hmarked
    · rw [hcell] at hmarked
      exact ⟨c, rfl, by simpa using hmarked⟩
  · rintro ⟨c, hc, hmarked⟩
    exact ⟨h, List.mem_finRange h, g, ⟨List.mem_finRange g, by simp [hc, hmarked]⟩, rfl, rfl⟩

/-- Head by head and segment by segment. -/
theorem State.markedCells_sorted : s.markedCells.Pairwise (fun a b => a.1 < b.1 ∨ (a.1 = b.1 ∧ a.2 < b.2)) := by
  rw [State.markedCells, List.pairwise_flatMap]
  refine ⟨fun h _ => ?_, (List.pairwise_lt_finRange 12).imp fun {h i} hlt a ha b hb => ?_⟩
  · rw [List.pairwise_map]
    exact ((List.pairwise_lt_finRange 64).filter _).imp fun hlt => .inr ⟨rfl, hlt⟩
  · obtain ⟨_, _, rfl⟩ := List.mem_map.mp ha
    obtain ⟨_, _, rfl⟩ := List.mem_map.mp hb
    exact .inl hlt

end

/-! ### The end of a write -/

section
variable (s : State) (j : StoreJob)

/-- The settings once a store has ended without a match. -/
def Settings.wrote (x : Settings) (j : StoreJob) (contents : List Byte) : Settings :=
  { x.writeArea j.area contents with store := none }

theorem State.endStore_match (contents : List Byte) : s.endStore j true contents =
    (State.bumpSet { s with settings := { s.settings.wrote j contents with newest := some (j.area, j.generation) } } 6).reply
      j.ref .ok (.stored j.area j.generation) := rfl

theorem State.endStore_failed (contents : List Byte) : s.endStore j false contents =
    (State.bumpSet { s with settings := s.settings.wrote j contents } 7).answer j.ref .writeFailed := rfl

/-- What a write leaves of the settings beside the area, the store state and the copy's standing. -/
theorem Settings.wrote_rest (x : Settings) (contents : List Byte) : (x.wrote j contents).params = x.params ∧
    (x.wrote j contents).source = x.source ∧ (x.wrote j contents).restart = x.restart ∧
    (x.wrote j contents).newest = x.newest ∧ (x.wrote j contents).counters = x.counters ∧ (x.wrote j contents).store = none := by
  unfold Settings.wrote Settings.writeArea
  cases j.area <;> exact ⟨rfl, rfl, rfl, rfl, rfl, rfl⟩

theorem Settings.wrote_mem (x : Settings) (contents : List Byte) :
    (x.wrote j contents).mem = Memory.writeBytes x.mem j.area.base (padArea contents) := by
  unfold Settings.wrote Settings.writeArea
  cases j.area <;> rfl

/-- The area written reads back, the other as before. -/
theorem Settings.wrote_areas {x : Settings} {contents : List Byte} (hm : Memory.wf x.mem = true) (hl : contents.length = 1024) :
    Memory.area (x.wrote j contents).mem j.area = contents ∧
    ∀ v : Area, v ≠ j.area → Memory.area (x.wrote j contents).mem v = Memory.area x.mem v := by
  rw [Settings.wrote_mem, padArea_of_length hl]
  exact ⟨Memory.area_writeBytes hm _ hl, fun v hv => Memory.area_writeBytes_ne _ hv hl⟩

end

/-- What STORE_SETTINGS does with its tables. -/
def State.giveStore (s : State) (r : Request) (q : Option (List (Fin 16 × Rights)) × Option (List (Option Reach))) : State :=
  if s.settings.store.isSome then (s.bumpSet 8).answer r.ref .busy
  else
    { s with settings := { s.settings with
        store := some { ref := r.ref, area := s.nextArea, image := padArea (s.snapshot q.1 q.2).bytes,
                        generation := s.nextGeneration, startedAt := s.now } } }

theorem exec_storeSettings {s : State} {r : Request} {q : Option (List (Fin 16 × Rights)) × Option (List (Option Reach))}
    (hasks : s.Asks .storeSettings r) (hread : readStore r.body = some q) :
    exec (.storeSettings r.ref.link) s = .next ((s.taken r).giveStore r q) :=
  exec_asks_reading (c := .storeSettings) (f := fun u q => u.giveStore r q) hasks (fun _ => rfl) hread

section
variable {s : State} {j : StoreJob} {contents : List Byte}

theorem execStoreWriteEnd_of (hstore : s.settings.store = some j) (failed : Bool) (contents : List Byte) :
    exec (.storeWriteEnd failed contents) s = .next (if elapsed s.clock.ms j.startedAt ≤ 250 then
      s.endStore j (!failed && padArea contents == j.image) contents else s) := by
  simp only [exec, execStoreWriteEnd, hstore]
  rfl

theorem execStoreWriteTimeout_of (hstore : s.settings.store = some j) (contents : List Byte) :
    exec (.storeWriteTimeout contents) s = .next (if 250 ≤ elapsed s.clock.ms j.startedAt then
      s.endStore j false contents else s) := by
  simp only [exec, execStoreWriteTimeout, hstore]
  rfl

/-- A store's outcome is a match where the write did not fail and the area holds the image. -/
theorem store_matches (hl : contents.length = 1024) (failed : Bool) :
    (!failed && padArea contents == j.image) = true ↔ failed = false ∧ contents = j.image := by
  rw [padArea_of_length hl]
  simp

end

/-- The state that a store's end leaves, but for the reply. -/
def State.storeEnded (s : State) (x : Settings) (k : Fin 11) : State := State.bumpSet { s with settings := x } k

/-- What every end of a store writes. -/
theorem State.storeEnded_written {s : State} {j : StoreJob} {contents : List Byte} (hm : s.memoryCanonical)
    (hl : contents.length = 1024) {x : Settings} (k : Fin 11) (hx : ∃ n, x = { s.settings.wrote j contents with newest := n }) :
    let t := s.storeEnded x k
    t.settings.store = none ∧ Memory.area t.settings.mem j.area = contents ∧
    (∀ v : Area, v ≠ j.area → Memory.area t.settings.mem v = Memory.area s.settings.mem v) ∧
    t.settings.params = s.settings.params ∧ t.settings.source = s.settings.source ∧
    t.settings.restart = s.settings.restart ∧ s.KeepsAllBut t [.settings] := by
  obtain ⟨n, rfl⟩ := hx
  obtain ⟨hparams, hsource, hrestart, -, -, hstore⟩ := s.settings.wrote_rest j contents
  obtain ⟨harea, hother⟩ := Settings.wrote_areas j hm hl
  refine ⟨hstore, harea, hother, hparams, hsource, hrestart, fun q hq => ?_⟩
  cases q <;> simp_all [Part.same, State.storeEnded]

theorem State.next_of_none {s : State} (h : s.settings.newest = none) : s.nextArea = .a ∧ s.nextGeneration = 1 := by
  simp only [State.nextArea, State.nextGeneration, h, and_self]

theorem State.next_of_a {s : State} {g : Word} (h : s.settings.newest = some (.a, g)) :
    s.nextArea = .b ∧ s.nextGeneration = g + 1 := by
  simp only [State.nextArea, State.nextGeneration, h, and_self]

theorem State.next_of_b {s : State} {g : Word} (h : s.settings.newest = some (.b, g)) :
    s.nextArea = .a ∧ s.nextGeneration = g + 1 := by
  simp only [State.nextArea, State.nextGeneration, h, and_self]

/-- The snapshot's tables are those of the request, or those in force. -/
theorem State.snapshot_rows {s : State} {links : Option (List (Fin 16 × Rights))} {heads : Option (List (Option Reach))} :
    (links = none → ∀ l : LinkNo, (s.snapshot links heads).links[l.val]? = some ((s.link l).ax, (s.link l).rights)) ∧
    (heads = none → ∀ h : HeadNo, (s.snapshot links heads).heads[h.val]? = some (look s.coverage.reach h)) ∧
    ∀ i : Fin 19, (s.snapshot links heads).params[i.val]? = some (s.param i) := by
  refine ⟨?_, ?_, fun i => ?_⟩
  · rintro rfl l
    fin_cases l <;> rfl
  · rintro rfl h
    simp [State.snapshot, look]
  · simp [State.snapshot, State.param, look]

/-- Settles O50: the snapshot's fields read back from where they stand, and the end of the write turns on the area's contents. -/
theorem storesWriteASnapshotToTheOtherArea : Obligations.StoresWriteASnapshotToTheOtherArea := by
  refine ⟨fun r s links heads hasks hread => ⟨fun hbusy => ?_, fun hidle => ?_⟩, fun failed contents s hnone => ?_,
    fun failed contents s j hm hl hstore => ?_⟩
  · rw [exec_storeSettings hasks hread]
    exact congrArg _ (if_pos (Option.isSome_iff_ne_none.mpr hbusy))
  · have hexec := exec_storeSettings hasks hread
    rw [State.giveStore, if_neg (by rw [show (s.taken r).settings.store = none from hidle]; exact Bool.false_ne_true)] at hexec
    refine ⟨_, hexec, rfl, rfl, ?_⟩
    obtain ⟨hlinks, hheads⟩ := readStore_tables hread
    have hfull : ((s.taken r).snapshot links heads).Full := State.snapshot_full hlinks fun v hv => (hheads v hv).1
    obtain ⟨hrows, hreaches, hparams⟩ := State.snapshot_rows (s := s.taken r) (links := links) (heads := heads)
    refine ⟨State.next_of_none (s := s.taken r), fun g => State.next_of_a (s := s.taken r),
      fun g => State.next_of_b (s := s.taken r), padArea_length, hfull.wordAt_generation, fun l hnone => ?_,
      fun l v x hv hx => ?_, fun h hnone hfits => ?_, fun h v x hv hx => ?_, fun i => hfull.wordAt_param (hparams i),
      (s.taken r).markedCells, fun h g => State.mem_markedCells, State.markedCells_sorted, fun hroom => ?_⟩
    · exact hfull.loadLink_eq (hrows hnone l)
    · subst hv
      exact hfull.loadLink_eq hx
    · exact hfull.loadHead_eq (hreaches hnone h) fun w hw => hfits h w hw
    · subst hv
      refine hfull.loadHead_eq hx fun w hw => ?_
      have hok := (hheads v rfl).2 w (hw ▸ List.mem_of_getElem? hx)
      simpa [reachOk, and_assoc] using hok
    · obtain ⟨hsound, hcount⟩ := hfull.copySound hroom
      exact ⟨hsound, hcount, fun i m hm => hfull.mark_eq hroom hm⟩
  · simp only [exec, execStoreWriteEnd, execStoreWriteTimeout, hnone, and_self]
  · intro written
    obtain ⟨-, -, -, hnewest, hcounters, -⟩ := s.settings.wrote_rest j contents
    have hfailed : ∃ t : State, (.next (s.endStore j false contents) : Answered) = .next (t.answer j.ref .writeFailed) ∧
        written t ∧ t.settings.newest = s.settings.newest ∧ t.settings.counters = bump s.settings.counters 7 :=
      ⟨_, rfl, State.storeEnded_written hm hl 7 ⟨_, rfl⟩, hnewest, congrArg (fun v => bump v 7) hcounters⟩
    refine ⟨fun hlate => ?_, fun hearly => ?_, fun hin hok hmatch => ?_, fun hin hbad => ?_, fun hout => ?_⟩
    · rw [execStoreWriteEnd_of hstore, if_neg (by omega)]
    · rw [execStoreWriteTimeout_of hstore, if_neg (by omega)]
    · rw [execStoreWriteEnd_of hstore, if_pos hin, (store_matches hl failed).mpr ⟨hok, hmatch⟩]
      exact ⟨_, rfl, State.storeEnded_written hm hl 6 ⟨_, rfl⟩, rfl, congrArg (fun v => bump v 6) hcounters⟩
    · have hnot : (!failed && padArea contents == j.image) = false := by
        refine Bool.eq_false_iff.mpr fun hyes => ?_
        obtain ⟨hok, hmatch⟩ := (store_matches hl failed).mp hyes
        rcases hbad with hbad | hbad
        · rw [hok] at hbad
          cases hbad
        · exact hbad hmatch
      rw [execStoreWriteEnd_of hstore, if_pos hin, hnot]
      exact hfailed
    · rw [execStoreWriteTimeout_of hstore, if_pos hout]
      exact hfailed

end Sys2Proof.Machine
end

section
/-! PROOFS. The order in which a burst takes frames: the merge by deadline and the rounds, terminal by terminal (R116, R117). -/

namespace Sys2Proof.Machine

/-! ### Queues by terminal -/

/-- Each of distinct terminals has a queue of its own frames. -/
structure OwnQueues (es : List EntryNo) (q : EntryNo → List Frame) : Prop where
  nodup : es.Nodup
  own : ∀ e ∈ es, ∀ f ∈ q e, f.terminal = e

/-- The frames of a terminal. -/
def ofTerminal (fs : List Frame) (e : EntryNo) : List Frame := fs.filter (fun f => f.terminal == e)

section
variable {es : List EntryNo} {q : EntryNo → List Frame} {now : Time} {n : Nat}

theorem map_update_of_not_mem {e : EntryNo} (h : e ∉ es) (fs : List Frame) : es.map (Function.update q e fs) = es.map q :=
  List.map_congr_left fun _ hi => Function.update_of_ne (ne_of_mem_of_not_mem hi h) _ _

theorem OwnQueues.update (h : OwnQueues es q) {e : EntryNo} {f : Frame} {fs : List Frame} (hq : q e = f :: fs) :
    OwnQueues es (Function.update q e fs) := by
  refine ⟨h.nodup, fun i hi g hg => ?_⟩
  by_cases hie : i = e
  · subst hie
    rw [Function.update_self] at hg
    exact h.own i hi g (hq ▸ List.mem_cons_of_mem _ hg)
  · rw [Function.update_of_ne hie] at hg
    exact h.own i hi g hg

/-- One choice of the merge, by terminals. -/
theorem OwnQueues.takeEarliest (h : OwnQueues es q) (now : Time) :
    (takeEarliest now (es.map q) = none ∧ ∀ e ∈ es, q e = []) ∨
    ∃ (before after : List EntryNo) (e : EntryNo) (f : Frame) (fs : List Frame), es = before ++ e :: after ∧ q e = f :: fs ∧
      takeEarliest now (es.map q) = some (f, es.map (Function.update q e fs)) ∧
      (∀ i ∈ before, ∀ g ∈ (q i).head?, f.remaining now < g.remaining now) ∧
      ∀ i ∈ after, ∀ g ∈ (q i).head?, f.remaining now ≤ g.remaining now := by
  rcases takeEarliest_spec now (es.map q) with ⟨hnone, hempty⟩ | ⟨before, after, f, fs, hmap, hsome, hlt, hle⟩
  · exact .inl ⟨hnone, fun e he => hempty _ (List.mem_map_of_mem he)⟩
  · obtain ⟨as, rest, rfl, rfl, hrest⟩ := List.map_eq_append_iff.mp hmap
    obtain ⟨e, bs, rfl, hfront, rfl⟩ := List.map_eq_cons_iff.mp hrest
    obtain ⟨-, hcons, hdisjoint⟩ := List.nodup_append.mp h.nodup
    have hbefore : e ∉ as := fun he => hdisjoint e he e List.mem_cons_self rfl
    have hafter : e ∉ bs := (List.nodup_cons.mp hcons).1
    refine .inr ⟨as, bs, e, f, fs, rfl, hfront, ?_, fun i hi => hlt _ (List.mem_map_of_mem hi),
      fun i hi => hle _ (List.mem_map_of_mem hi)⟩
    rw [hsome, List.map_append, List.map_cons, map_update_of_not_mem hbefore, map_update_of_not_mem hafter,
      Function.update_self]

/-- The frames that the queues hold. -/
def queued (es : List EntryNo) (q : EntryNo → List Frame) : Nat := (es.map (fun e => (q e).length)).sum

theorem queued_update {before after : List EntryNo} {e : EntryNo} {f : Frame} {fs : List Frame}
    (hnodup : (before ++ e :: after).Nodup) (hq : q e = f :: fs) :
    queued (before ++ e :: after) q = queued (before ++ e :: after) (Function.update q e fs) + 1 := by
  obtain ⟨-, hcons, hdisjoint⟩ := List.nodup_append.mp hnodup
  have hother : ∀ is : List EntryNo, e ∉ is → is.map (fun i => (Function.update q e fs i).length) =
      is.map (fun i => (q i).length) := fun is he =>
    List.map_congr_left fun i hi => by rw [Function.update_of_ne (ne_of_mem_of_not_mem hi he)]
  simp only [queued, List.map_append, List.map_cons, List.sum_append, List.sum_cons,
    hother before fun he => hdisjoint e he e List.mem_cons_self rfl, hother after (List.nodup_cons.mp hcons).1,
    Function.update_self, hq, List.length_cons]
  omega

theorem queued_eq_zero (h : queued es q = 0) : ∀ e ∈ es, q e = [] := fun _ he =>
  List.length_eq_zero_iff.mp (Nat.le_zero.mp ((List.single_le_sum (fun _ _ => Nat.zero_le _) _
    (List.mem_map_of_mem (f := fun i => (q i).length) he)).trans_eq h))

/-! ### The merge -/

/-- The merge leaves each terminal's frames in the order of its queue. -/
theorem OwnQueues.merge_ofTerminal (h : OwnQueues es q) (hn : queued es q ≤ n) {e : EntryNo} (he : e ∈ es) :
    ofTerminal (mergeByDeadline now n (es.map q)) e = q e := by
  induction n generalizing q with
  | zero => rw [queued_eq_zero (Nat.le_zero.mp hn) e he]; rfl
  | succ n ih =>
    rcases h.takeEarliest now with ⟨hnone, hempty⟩ | ⟨before, after, i, f, fs, rfl, hfront, hsome, -, -⟩
    · rw [mergeByDeadline, hnone, hempty e he]
      rfl
    · have hown : f.terminal = i := h.own i (by simp) f (by rw [hfront]; exact List.mem_cons_self)
      have hrest := ih (h.update hfront) (by
        have := queued_update h.nodup hfront
        omega)
      rw [mergeByDeadline, hsome]
      simp only [ofTerminal, List.filter_cons] at hrest ⊢
      rw [hrest]
      by_cases hie : e = i
      · subst hie
        rw [Function.update_self, if_pos (by simpa using hown), hfront]
      · rw [Function.update_of_ne hie, if_neg (by simpa [hown] using Ne.symm hie)]

theorem OwnQueues.merge_terminals (h : OwnQueues es q) {f : Frame} (hf : f ∈ mergeByDeadline now n (es.map q)) :
    f.terminal ∈ es := by
  obtain ⟨p, hp, hfp⟩ := mem_of_mergeByDeadline hf
  obtain ⟨e, he, rfl⟩ := List.mem_map.mp hp
  rw [h.own e he f hfp]
  exact he

/-- A frame of the merge goes before the front of every other queue: it has less time remaining, or as much and an earlier queue. -/
theorem OwnQueues.merge_earliest (h : OwnQueues es q) (hn : queued es q ≤ n) {before after : List Frame} {f g : Frame}
    (hsplit : mergeByDeadline now n (es.map q) = before ++ f :: after) (hne : g.terminal ≠ f.terminal)
    (hg : (ofTerminal after g.terminal).head? = some g) :
    f.remaining now < g.remaining now ∨ f.remaining now = g.remaining now ∧
      ∃ as bs : List EntryNo, es = as ++ f.terminal :: bs ∧ g.terminal ∈ bs := by
  induction n generalizing q before with
  | zero =>
    cases before <;> cases hsplit
  | succ n ih =>
    rcases h.takeEarliest now with ⟨hnone, -⟩ | ⟨as, bs, i, k, ks, rfl, hfront, hsome, hlt, hle⟩
    · rw [mergeByDeadline, hnone] at hsplit
      cases before <;> cases hsplit
    · have hbound : queued (as ++ i :: bs) (Function.update q i ks) ≤ n := by
        have := queued_update h.nodup hfront
        omega
      have hown : k.terminal = i := h.own i (by simp) k (by rw [hfront]; exact List.mem_cons_self)
      rw [mergeByDeadline, hsome] at hsplit
      cases before with
      | cons b before =>
        exact ih (h.update hfront) hbound (List.cons.inj hsplit).2
      | nil =>
        obtain ⟨rfl, rfl⟩ := List.cons.inj hsplit
        have hmem : g.terminal ∈ as ++ i :: bs := by
          have hgmem := List.mem_of_mem_filter (List.mem_of_mem_head? hg)
          exact (h.update hfront).merge_terminals hgmem
        rw [(h.update hfront).merge_ofTerminal hbound hmem, Function.update_of_ne (hown ▸ hne)] at hg
        rcases List.mem_append.mp hmem with hbefore | hafter
        · exact .inl (hlt _ hbefore g hg)
        · rcases List.mem_cons.mp hafter with heq | hafter
          · exact absurd (heq.trans hown.symm) hne
          · rcases Nat.lt_or_eq_of_le (hle _ hafter g hg) with hless | heq
            · exact .inl hless
            · exact .inr ⟨heq, as, bs, by rw [hown], hafter⟩

end

/-! ### One frame of each terminal -/

/-- What a choice of one frame at most of each terminal leaves of one terminal. -/
theorem ofTerminal_filterMap {es : List EntryNo} {k : EntryNo → Option Frame} (hes : es.Nodup)
    (hown : ∀ e ∈ es, ∀ f, k e = some f → f.terminal = e) (e : EntryNo) :
    ofTerminal (es.filterMap k) e = if e ∈ es then (k e).toList else [] := by
  induction es with
  | nil => rfl
  | cons i es ih =>
    obtain ⟨hi, hes⟩ := List.nodup_cons.mp hes
    have hrest := ih hes fun e he => hown e (List.mem_cons_of_mem _ he)
    rcases hk : k i with _ | f
    · rw [List.filterMap_cons_none hk, hrest]
      by_cases hei : e = i
      · subst hei
        rw [if_neg hi, if_pos List.mem_cons_self, hk]
        rfl
      · simp only [List.mem_cons, hei, false_or]
    · have hf : f.terminal = i := hown i List.mem_cons_self f hk
      rw [List.filterMap_cons_some hk]
      simp only [ofTerminal, List.filter_cons] at hrest ⊢
      rw [hrest]
      by_cases hei : e = i
      · subst hei
        rw [if_pos (by simpa using hf), if_neg hi, if_pos List.mem_cons_self, hk]
        rfl
      · rw [if_neg (by simpa [hf] using Ne.symm hei)]
        simp only [List.mem_cons, hei, false_or]

theorem flatMap_range_toList {α : Type} (l : List α) (n : Nat) : (List.range n).flatMap (fun i => (l[i]?).toList) = l.take n := by
  induction n with
  | zero => rfl
  | succ n ih => rw [List.range_succ, List.flatMap_append, ih, List.flatMap_singleton, List.take_add_one]

/-- The rounds leave each terminal's frames in the order of its queue. -/
theorem OwnQueues.rounds_ofTerminal {es : List EntryNo} {q : EntryNo → List Frame} (h : OwnQueues es q) (n : Nat) (e : EntryNo) :
    ofTerminal (rounds n (es.map q)) e = if e ∈ es then (q e).take n else [] := by
  have hround : ∀ i : Nat, ofTerminal ((es.map q).filterMap (fun p => p[i]?)) e = if e ∈ es then ((q e)[i]?).toList else [] :=
    fun i => by
      rw [List.filterMap_map]
      exact ofTerminal_filterMap (k := fun e => (q e)[i]?) h.nodup (fun e he f hf => h.own e he f (List.mem_of_getElem? hf)) e
  rw [rounds_eq, ofTerminal, List.filter_flatMap]
  simp only [ofTerminal] at hround
  simp only [hround]
  split
  · exact flatMap_range_toList _ _
  · simp

/-! ### The waiting frames of distinct terminals -/

theorem queueOf_own (w : List Frame) (c : FrameClass) {es : List EntryNo} (hes : es.Nodup) :
    OwnQueues es (fun e => queueOf w e c) := ⟨hes, fun _ _ _ hf => (mem_queueOf.mp hf).2.1⟩

theorem queueOf_length_le (w : List Frame) (e : EntryNo) (c : FrameClass) : (queueOf w e c).length ≤ w.length :=
  List.length_filter_le _ _

/-- Distinct terminals' queues hold no more frames than wait. -/
theorem queued_le (w : List Frame) (c : FrameClass) {es : List EntryNo} (hes : es.Nodup) :
    queued es (fun e => queueOf w e c) ≤ (w.filter (fun f => es.contains f.terminal)).length := by
  induction es with
  | nil => exact Nat.zero_le _
  | cons e es ih =>
    obtain ⟨he, hes⟩ := List.nodup_cons.mp hes
    have hrest := ih hes
    have hsplit : (queueOf w e c).length + (w.filter (fun f => es.contains f.terminal)).length ≤
        (w.filter (fun f => (e :: es).contains f.terminal)).length := by
      clear hrest ih
      induction w with
      | nil => exact Nat.le_refl _
      | cons f w ih =>
        simp only [queueOf, List.filter_cons] at ih ⊢
        by_cases hfe : f.terminal = e
        · have hnot : es.contains f.terminal = false := by simpa [hfe] using he
          by_cases hc : f.cls = c
          · simp [hfe, hc, he] at ih ⊢
            omega
          · simp [hfe, hc, he] at ih ⊢
            omega
        · by_cases hmem : f.terminal ∈ es
          · simp [hfe, hmem] at ih ⊢
            omega
          · simp [hfe, hmem] at ih ⊢
            omega
    simp only [queued, List.map_cons, List.sum_cons] at hrest ⊢
    omega

end Sys2Proof.Machine
end

section
/-! PROOFS. The order of R117 by its three classes, and FETCH (R115 to R118). -/

namespace Sys2Proof.Machine

/-- The earlier of two elements of a list with no repetition has the lesser index. -/
theorem idxOf_lt_idxOf {α : Type} [DecidableEq α] {l : List α} {a b : α} (hnodup : l.Nodup) (h : [a, b].Sublist l) :
    l.idxOf a < l.idxOf b := by
  induction l with
  | nil => cases h
  | cons x l ih =>
    obtain ⟨hx, hnodup⟩ := List.nodup_cons.mp hnodup
    rcases List.cons_sublist_cons'.mp h with hpair | ⟨rfl, hb⟩
    · have hne : ∀ {y : α}, y ∈ [a, b] → x ≠ y := fun hy hxy => hx (hxy ▸ hpair.subset hy)
      rw [List.idxOf_cons_ne _ (hne (by simp)), List.idxOf_cons_ne _ (hne (by simp))]
      exact Nat.succ_lt_succ (ih hnodup hpair)
    · rw [List.idxOf_cons_self, List.idxOf_cons_ne _ fun hab : a = b => hx (by rw [hab]; exact List.singleton_sublist.mp hb)]
      exact Nat.succ_pos _

/-! ### The three parts of the order -/

/-- A terminal with no SAFETY frame at all. -/
def State.safetyClear (s : State) (e : EntryNo) : Bool := (queueOf s.downlink.waiting e .safety).isEmpty && !s.safetyInFlight e

/-- The terminals that give a class of frames to a burst (R117). -/
def State.partTerminals (s : State) (ts : List EntryNo) (c : FrameClass) : List EntryNo :=
  let crane := fun e => (s.entry e).kind == some .crane
  match c with
  | .safety => ts.filter (fun e => crane e && !s.safetyInFlight e)
  | .control => ts.filter (fun e => crane e && s.safetyClear e)
  | .bulk => ts.filter (fun e => !crane e || s.safetyClear e)

/-- The frames of a class, in the order of R117. -/
def State.partOf (s : State) (ts : List EntryNo) (c : FrameClass) : List Frame :=
  let w := s.downlink.waiting
  let es := s.partTerminals ts c
  match c with
  | .safety => es.filterMap (fun e => (queueOf w e .safety).head?)
  | .control => mergeByDeadline s.now w.length (es.map (fun e => queueOf w e .control))
  | .bulk => rounds w.length (es.map (fun e => queueOf w e .bulk))

section
variable {s : State} {ts : List EntryNo}

theorem State.burstOrder_eq (s : State) (ts : List EntryNo) :
    s.burstOrder ts = s.partOf ts .safety ++ s.partOf ts .control ++ s.partOf ts .bulk := rfl

theorem State.partTerminals_sublist (s : State) (ts : List EntryNo) (c : FrameClass) : (s.partTerminals ts c).Sublist ts := by
  cases c <;> exact List.filter_sublist

theorem State.queued_le_waiting (hts : ts.Nodup) (c : FrameClass) :
    queued (s.partTerminals ts c) (fun e => queueOf s.downlink.waiting e c) ≤ s.downlink.waiting.length :=
  (queued_le _ c (hts.sublist (s.partTerminals_sublist ts c))).trans (List.length_filter_le _ _)

/-- What the order takes of one terminal's queue: the front of the SAFETY queue, the others whole. -/
theorem State.partOf_ofTerminal (hts : ts.Nodup) (c : FrameClass) (e : EntryNo) :
    ofTerminal (s.partOf ts c) e = if e ∈ s.partTerminals ts c then
      (if c = .safety then (queueOf s.downlink.waiting e c).take 1 else queueOf s.downlink.waiting e c) else [] := by
  have hes := hts.sublist (s.partTerminals_sublist ts c)
  have hown := queueOf_own s.downlink.waiting c hes
  cases c with
  | safety =>
    have hfront := ofTerminal_filterMap (k := fun e => (queueOf s.downlink.waiting e .safety).head?) hes
      (fun i hi f hf => hown.own i hi f (List.mem_of_mem_head? hf)) e
    rw [if_pos rfl, List.take_one]
    exact hfront
  | control =>
    rw [if_neg (c := FrameClass.control = .safety) (by decide)]
    split
    · rename_i hmem
      exact hown.merge_ofTerminal (State.queued_le_waiting hts .control) hmem
    · rename_i hnot
      exact List.filter_eq_nil_iff.mpr fun f hf hfe => hnot (beq_iff_eq.mp hfe ▸ hown.merge_terminals hf)
  | bulk =>
    have hround := hown.rounds_ofTerminal s.downlink.waiting.length e
    rw [List.take_of_length_le (queueOf_length_le _ _ _)] at hround
    exact hround

theorem State.partOf_ofTerminal_sublist (hts : ts.Nodup) (c : FrameClass) (e : EntryNo) :
    (ofTerminal (s.partOf ts c) e).Sublist (queueOf s.downlink.waiting e c) := by
  rw [State.partOf_ofTerminal hts]
  split
  · split
    · exact List.take_sublist _ _
    · exact List.Sublist.refl _
  · exact List.nil_sublist _

theorem State.mem_partOf (hts : ts.Nodup) {c : FrameClass} {f : Frame} (hf : f ∈ s.partOf ts c) :
    f.cls = c ∧ f.terminal ∈ s.partTerminals ts c := by
  have hmem : f ∈ ofTerminal (s.partOf ts c) f.terminal := List.mem_filter.mpr ⟨hf, beq_self_eq_true _⟩
  refine ⟨(mem_queueOf.mp ((State.partOf_ofTerminal_sublist hts c _).subset hmem)).2.2, ?_⟩
  by_contra hnot
  rw [State.partOf_ofTerminal hts, if_neg hnot] at hmem
  cases hmem

/-- A class of the order is its part. -/
theorem State.burstOrder_filter (hts : ts.Nodup) (c : FrameClass) :
    (s.burstOrder ts).filter (fun f => f.cls == c) = s.partOf ts c := by
  have hpart : ∀ d : FrameClass, (s.partOf ts d).filter (fun f => f.cls == c) = if d = c then s.partOf ts d else [] := fun d => by
    split
    · rename_i hdc
      exact List.filter_eq_self.mpr fun f hf => by simpa [hdc] using (State.mem_partOf hts hf).1
    · rename_i hdc
      exact List.filter_eq_nil_iff.mpr fun f hf => by simpa [(State.mem_partOf hts hf).1] using hdc
  rw [State.burstOrder_eq, List.filter_append, List.filter_append, hpart, hpart, hpart]
  cases c <;> simp

theorem State.mem_burstOrder (hts : ts.Nodup) {f : Frame} (hf : f ∈ s.burstOrder ts) : f ∈ s.partOf ts f.cls := by
  rw [← State.burstOrder_filter hts]
  exact List.mem_filter.mpr ⟨hf, beq_self_eq_true _⟩

/-- The order holds each waiting frame no more often than it waits. -/
theorem State.burstOrder_subperm (hts : ts.Nodup) : (s.burstOrder ts).Subperm s.downlink.waiting := by
  refine List.subperm_ext_iff.mpr fun f _ => ?_
  calc (s.burstOrder ts).count f = (s.partOf ts f.cls).count f := by
        rw [← State.burstOrder_filter hts]
        exact (List.count_filter (a := f) (p := fun g => g.cls == f.cls) (beq_self_eq_true _)).symm
    _ = (ofTerminal (s.partOf ts f.cls) f.terminal).count f :=
        (List.count_filter (a := f) (p := fun g => g.terminal == f.terminal) (beq_self_eq_true _)).symm
    _ ≤ s.downlink.waiting.count f :=
        ((State.partOf_ofTerminal_sublist hts f.cls f.terminal).trans List.filter_sublist).count_le f

/-- CONTROL frames stand by the time remaining, the earlier terminal first where equal. -/
theorem State.control_earliest (hts : ts.Nodup) {before after : List Frame} {f g : Frame}
    (hsplit : s.partOf ts .control = before ++ f :: after) (hne : g.terminal ≠ f.terminal)
    (hg : (ofTerminal after g.terminal).head? = some g) :
    f.remaining s.now < g.remaining s.now ∨ f.remaining s.now = g.remaining s.now ∧ ts.idxOf f.terminal < ts.idxOf g.terminal := by
  have hsub := s.partTerminals_sublist ts .control
  rcases (queueOf_own s.downlink.waiting .control (hts.sublist hsub)).merge_earliest
    (State.queued_le_waiting hts .control) hsplit hne hg with hless | ⟨heq, as, bs, hes, hmem⟩
  · exact .inl hless
  · have hpair : [f.terminal, g.terminal].Sublist (as ++ f.terminal :: bs) :=
      (List.cons_sublist_cons.mpr (List.singleton_sublist.mpr hmem)).trans (List.sublist_append_right _ _)
    exact .inr ⟨heq, idxOf_lt_idxOf hts (hpair.trans (hes ▸ hsub))⟩

/-- A crane gives frames to a burst only with no SAFETY frame in flight, and others than SAFETY only with none waiting. -/
theorem State.crane_of_mem_partTerminals {c : FrameClass} {e : EntryNo} (he : e ∈ s.partTerminals ts c)
    (hcrane : (s.entry e).kind = some .crane) :
    s.safetyInFlight e = false ∧ (c = .safety ∨ queueOf s.downlink.waiting e .safety = []) := by
  cases c <;> simp_all [State.partTerminals, State.safetyClear]

theorem State.burstOrder_classes (hts : ts.Nodup) : ((s.burstOrder ts).map (fun f => f.cls.num)).Pairwise (· ≤ ·) := by
  have hcls : ∀ {c : FrameClass} {f : Frame}, f ∈ s.partOf ts c → f.cls = c := fun hf => (State.mem_partOf hts hf).1
  have hpart : ∀ c : FrameClass, (s.partOf ts c).Pairwise (fun f g => f.cls.num ≤ g.cls.num) := fun c =>
    List.pairwise_of_forall_mem_list fun f hf g hg => by rw [hcls hf, hcls hg]
  rw [List.pairwise_map, State.burstOrder_eq, List.append_assoc]
  refine List.pairwise_append.mpr ⟨hpart _, List.pairwise_append.mpr ⟨hpart _, hpart _, fun f hf g hg => ?_⟩, fun f hf g hg => ?_⟩
  · rw [hcls hf, hcls hg]
    decide
  · rw [hcls hf]
    exact Nat.zero_le _

end

end Sys2Proof.Machine
end

section
/-! PROOFS. FETCH: its refusals, and the burst that begins (R115 to R118). -/

namespace Sys2Proof.Machine

section
variable {s : State} {b : BeamNo} {l : LinkNo} {r : Request}

/-! ### The checks of R115 -/

theorem State.segUsable_iff (s : State) (h : HeadNo) (o : Option SegNo) : o.any (fun g => s.cellUsable h g) = true ↔
    ∃ (g : SegNo) (c : Cell), o = some g ∧ s.cell h g = some c ∧ (c.state = .good ∨ c.state = .weak) := by
  have hstate : ∀ c : CellState, c.usable = true ↔ c = .good ∨ c = .weak := fun c => by cases c <;> simp [CellState.usable]
  cases o with
  | none => simp
  | some g =>
    rcases hc : s.cell h g with _ | c
    · simp [State.cellUsable, hc]
    · simp [State.cellUsable, hc, hstate]

theorem State.fetchRefusal_notHolder (h : ¬((s.beam b).state = .opened ∧ look (s.beam b).holders l = true)) :
    s.fetchRefusal b l = some .notHolder := by
  refine if_pos ?_
  rw [not_and_or, Bool.not_eq_true] at h
  exact h

section
variable (h : (s.beam b).state = .opened ∧ look (s.beam b).holders l = true)
include h

theorem State.fetchRefusal_holder : s.fetchRefusal b l =
    if (s.head (headOf b)).survey = .overdue then some .surveyPending
    else if !((s.beam b).seg.any (fun g => s.cellUsable (headOf b) g)) then some .cellUnusable
    else if (s.beam b).burst.isSome then some .burstActive else none :=
  if_neg (by rw [h.1, h.2]; simp)

theorem State.fetchRefusal_overdue (hover : (s.head (headOf b)).survey = .overdue) : s.fetchRefusal b l = some .surveyPending := by
  rw [State.fetchRefusal_holder h, if_pos hover]

variable (hover : ¬(s.head (headOf b)).survey = .overdue)
include hover

theorem State.fetchRefusal_unusable (hcell : ¬∃ (g : SegNo) (c : Cell), (s.beam b).seg = some g ∧ s.cell (headOf b) g = some c ∧
    (c.state = .good ∨ c.state = .weak)) : s.fetchRefusal b l = some .cellUnusable := by
  rw [State.fetchRefusal_holder h, if_neg hover, if_pos]
  rwa [← State.segUsable_iff, Bool.not_eq_true, ← Bool.not_eq_true'] at hcell

theorem State.fetchRefusal_usable (hcell : ∃ (g : SegNo) (c : Cell), (s.beam b).seg = some g ∧ s.cell (headOf b) g = some c ∧
    (c.state = .good ∨ c.state = .weak)) : s.fetchRefusal b l = if (s.beam b).burst.isSome then some .burstActive else none := by
  rw [State.fetchRefusal_holder h, if_neg hover, if_neg]
  rw [(s.segUsable_iff _ _).mpr hcell]
  decide

end

/-! ### A burst that begins -/

/-- The burst of a beam as it begins. -/
def State.newBurst (s : State) (b : BeamNo) (l : LinkNo) (fs : List Frame) : Burst :=
  { number := look s.downlink.nextBurst b, owner := l, frames := fs, start := s.clock.ms }

/-- The rotation point of a beam behind the frames it placed. -/
def rotated (p : Vector EntryNo 24) (b : BeamNo) (fs : List Frame) : Vector EntryNo 24 :=
  match fs.getLast? with
  | some f => put p b f.terminal
  | none => p

section
variable (s) (b : BeamNo) (l : LinkNo) (fs stay : List Frame)

theorem State.beam_beginBurst (d : BeamNo) : (s.beginBurst b l fs stay).beam d =
    if d = b then { s.beam b with burst := some (s.newBurst b l fs) } else s.beam d := by
  rw [State.beam, State.beginBurst_beamCtl]
  exact s.beam_setBeam b d _

theorem State.beginBurst_downlink : (s.beginBurst b l fs stay).downlink = { s.downlink with
    waiting := stay, nextBurst := put s.downlink.nextBurst b (look s.downlink.nextBurst b + 1)
    rotation := rotated s.downlink.rotation b fs
    counters := if fs = [] then bump (bump s.downlink.counters 4) 5 else bump s.downlink.counters 4 } := by
  unfold State.beginBurst
  dsimp only
  cases fs with
  | nil => simp [State.bumpDown, rotated]
  | cons f fs => simp [State.bumpDown, rotated] <;> rfl

theorem State.beginBurst_keepsAllBut : s.KeepsAllBut (s.beginBurst b l fs stay) [.beamCtl, .downlink, .cranes] := by
  intro q hq
  cases q <;> simp_all [Part.same]

end

/-- What FETCH does, its body read. -/
def State.giveFetch (s : State) (r : Request) (b : BeamNo) (frames bytes : Nat) : State :=
  let fl := max 1 (min 32 frames)
  let bl := max 128 (min 8192 bytes)
  match s.fetchRefusal b r.ref.link with
  | some st => s.answer r.ref st
  | none =>
    let a := s.assemble b fl bl
    (s.beginBurst b r.ref.link a.1 a.2).reply r.ref .ok (.burst (look s.downlink.nextBurst b) fl bl (a.1.map s.burstFrame))

theorem exec_fetch {frames bytes : Nat} (hasks : s.Asks .fetch r) (hread : readFetch r.body = some (b, frames, bytes)) :
    exec (.fetch r.ref.link) s = .next ((s.taken r).giveFetch r b frames bytes) :=
  exec_asks_reading (c := .fetch) (f := fun u (q : BeamNo × Nat × Nat) => u.giveFetch r q.1 q.2.1 q.2.2) hasks (fun _ => rfl) hread

theorem State.giveFetch_refused {frames bytes : Nat} {st : Status} (h : s.fetchRefusal b r.ref.link = some st) :
    (s.taken r).giveFetch r b frames bytes = (s.taken r).answer r.ref st := by
  have htaken : (s.taken r).fetchRefusal b r.ref.link = some st := h
  rw [State.giveFetch, htaken]

/-- The frames of a burst: the longest part from the front of the order that the limits allow. -/
theorem State.assemble_of_seg {g : SegNo} (hg : (s.beam b).seg = some g) (fl bl : Nat) :
    let ts := s.candidates (look s.downlink.rotation b) g
    (s.assemble b fl bl).1 = takeFitting fl bl (s.burstOrder ts) ∧
    (s.assemble b fl bl).2.Sublist s.downlink.waiting ∧
    ((s.assemble b fl bl).1 ++ (s.assemble b fl bl).2).Perm s.downlink.waiting := by
  intro ts
  have hmove := moveOut_of_subperm (takeFitting fl bl (s.burstOrder ts)) s.downlink.waiting
    ((takeFitting_prefix fl bl _).sublist.subperm.trans (State.burstOrder_subperm (s.candidates_nodup _ _)))
  obtain ⟨hplaced, hstay, hperm⟩ := hmove
  have heq : s.assemble b fl bl = moveOut (takeFitting fl bl (s.burstOrder ts)) s.downlink.waiting := by
    rw [State.assemble, hg]
  rw [heq]
  exact ⟨hplaced, hstay, by rw [hplaced]; exact hperm⟩

end

end Sys2Proof.Machine
end

section
/-! PROOFS. The order of a burst as its readers see it, and FETCH whole (R115 to R118). -/

namespace Sys2Proof.Machine

section
variable {s : State} {b : BeamNo} {l : LinkNo} {r : Request}

theorem State.mem_partTerminals_control {ts : List EntryNo} {e : EntryNo} : e ∈ s.partTerminals ts .control ↔
    e ∈ ts ∧ ((s.entry e).kind == some .crane) = true ∧ (!((s.entry e).kind == some .crane) || s.safetyClear e) = true := by
  simp only [State.partTerminals, List.mem_filter, Bool.and_eq_true, Bool.or_eq_true, Bool.not_eq_true']
  constructor
  · rintro ⟨hts, hcrane, hclear⟩
    exact ⟨hts, hcrane, .inr hclear⟩
  · rintro ⟨hts, hcrane, hno | hclear⟩
    · rw [hcrane] at hno
      cases hno
    · exact ⟨hts, hcrane, hclear⟩

theorem State.mem_candidates {p : EntryNo} {g : SegNo} {e : EntryNo} (h : e ∈ s.candidates p g) :
    (s.entry e).state ≠ .free ∧ (s.entry e).seg = some g := by
  have hentry := (List.mem_filter.mp h).2
  simpa using hentry

/-- BULK frames stand in rounds over their terminals (R117). -/
theorem State.bulk_rounds (ts : List EntryNo) : s.partOf ts .bulk = (List.range s.downlink.waiting.length).flatMap (fun i =>
    (s.partTerminals ts .bulk).filterMap (fun e => (queueOf s.downlink.waiting e .bulk)[i]?)) := by
  rw [State.partOf, rounds_eq]
  refine List.flatMap_congr fun i _ => ?_
  rw [List.filterMap_map]
  rfl

/-- A frame of the order: its terminal is a candidate, its class is its part's. -/
theorem State.of_mem_burstOrder {p : EntryNo} {g : SegNo} {f : Frame} (hf : f ∈ s.burstOrder (s.candidates p g)) :
    ((s.entry f.terminal).state ≠ .free ∧ (s.entry f.terminal).seg = some g) ∧
    ((s.entry f.terminal).kind = some .crane → s.safetyInFlight f.terminal = false ∧
      (f.cls = .safety ∨ queueOf s.downlink.waiting f.terminal .safety = [])) := by
  have hts := s.candidates_nodup p g
  have hmem := (State.mem_partOf hts (State.mem_burstOrder hts hf)).2
  exact ⟨State.mem_candidates ((s.partTerminals_sublist _ _).subset hmem), State.crane_of_mem_partTerminals hmem⟩

end

/-- Settles O41: the checks in their order; the order of R117 by its parts, what fits of it, and the records that a burst begins. -/
theorem fetchIsRefusedOrBeginsABurst : Obligations.FetchIsRefusedOrBeginsABurst := by
  intro r s b frames bytes hasks hread l x holds overdue usable fl bl isCrane
  have hexec := exec_fetch hasks hread
  have hrefused : ∀ {st : Status}, s.fetchRefusal b l = some st → exec (.fetch l) s = .next ((s.taken r).answer r.ref st) :=
    fun h => hexec.trans (congrArg Host.Outcome.next (State.giveFetch_refused h))
  refine ⟨fun hnot => hrefused (State.fetchRefusal_notHolder hnot), fun hholds hover => hrefused (State.fetchRefusal_overdue hholds hover),
    fun hholds hover hcell => hrefused (State.fetchRefusal_unusable hholds hover hcell), fun hholds hover hcell hburst => ?_,
    fun hholds hover hcell hburst => ?_⟩
  · refine hrefused ((State.fetchRefusal_usable hholds hover hcell).trans (if_pos ?_))
    exact Option.isSome_iff_ne_none.mpr hburst
  · have hnone : (s.taken r).fetchRefusal b l = none :=
      (State.fetchRefusal_usable (s := s) hholds hover hcell).trans (if_neg (by rw [show (s.beam b).burst = none from hburst]; decide))
    obtain ⟨g, c, hg, -⟩ := hcell
    obtain ⟨hplaced, hstay, hperm⟩ := State.assemble_of_seg (s := s) hg fl bl
    have hts := s.candidates_nodup (look s.downlink.rotation b) g
    have hprefix := takeFitting_prefix fl bl (s.burstOrder (s.candidates (look s.downlink.rotation b) g))
    obtain ⟨hcount, hbytes, hnext⟩ := takeFitting_limits fl bl (s.burstOrder (s.candidates (look s.downlink.rotation b) g))
    rw [← hplaced] at hprefix hcount hbytes hnext
    have hdown := (s.taken r).beginBurst_downlink b l (s.assemble b fl bl).1 (s.assemble b fl bl).2
    refine ⟨(s.taken r).beginBurst b l (s.assemble b fl bl).1 (s.assemble b fl bl).2, s.newBurst b l (s.assemble b fl bl).1, ?_,
      (State.beam_beginBurst _ _ _ _ _ b).trans (if_pos rfl), fun d hd => (State.beam_beginBurst _ _ _ _ _ d).trans (if_neg hd),
      ?_, ?_, rfl, rfl, rfl, hcount, hbytes, fun g' hg' => ?_, ?_, ?_, fun f hf => ?_, ?_, fun f hf hcrane => ?_,
      fun f hf hcrane hwaits => ?_, ?_, fun hempty => ?_, fun f hf => ?_, ?_, ?_, ?_, State.beginBurst_keepsAllBut _ _ _ _ _⟩
    · rw [hexec, State.giveFetch, hnone]
      rfl
    · rw [State.beginBurst_beamCtl]
      rfl
    · rw [State.beginBurst_beamCtl]
      rfl
    · obtain rfl : g = g' := Option.some.inj (hg.symm.trans hg')
      have hpart : ∀ d : FrameClass, _ := State.burstOrder_filter (s := s) hts
      refine ⟨hprefix, hnext, ?_, hpart .safety, fun e => ?_, fun before after f h hsplit hne hh => ?_, ?_⟩
      · exact (congrArg₂ (· ++ ·) (congrArg₂ (· ++ ·) (hpart .safety) (hpart .control)) (hpart .bulk)).symm
      · exact (congrArg (ofTerminal · e) (hpart .control)).trans ((State.partOf_ofTerminal hts .control e).trans
          (if_congr State.mem_partTerminals_control rfl rfl))
      · exact State.control_earliest hts ((hpart .control).symm.trans hsplit) hne hh
      · exact (hpart .bulk).trans (State.bulk_rounds _)
    · rw [hdown]
      exact hperm
    · rw [hdown]
      exact hstay
    · obtain ⟨hstate, hseg⟩ := (State.of_mem_burstOrder (hprefix.subset hf)).1
      exact ⟨hstate, hseg.trans hg.symm⟩
    · exact (State.burstOrder_classes hts).sublist (hprefix.sublist.map _)
    · exact ((State.of_mem_burstOrder (hprefix.subset hf)).2 hcrane).1
    · refine ((State.of_mem_burstOrder (hprefix.subset hf)).2 hcrane).2.resolve_right fun hnil => ?_
      obtain ⟨i, hi, hterm, hcls⟩ := hwaits
      exact List.ne_nil_of_mem (mem_queueOf.mpr ⟨hi, hterm, hcls⟩) hnil
    · rw [hdown]
      exact look_put_self _ _ _
    · rw [hdown]
      simp only [State.newBurst] at hempty
      rw [hempty]
      rfl
    · rw [hdown]
      simp only [State.newBurst] at hf
      rw [rotated, hf]
      rfl
    · rw [hdown]
      rfl
    · rw [hdown]
      split
      · rw [look_bump_ne _ (by decide), look_bump_self]
        rfl
      · exact look_bump_self _ _
    · rw [hdown]
      by_cases hempty : (s.assemble b fl bl).1 = []
      · rw [if_pos hempty, look_bump_self, look_bump_ne _ (by decide)]
        exact (if_pos hempty).symm
      · rw [if_neg hempty, look_bump_ne _ (by decide)]
        exact (if_neg hempty).symm

end Sys2Proof.Machine
end

section
/-! PROOFS. ENROLL, WITHDRAW and MOVE (R19 to R24). -/

namespace Sys2Proof.Machine

/-- The first number with a property. -/
theorem find?_finRange_eq_some {n : Nat} {p : Fin n → Bool} {i : Fin n} (hi : p i = true) (hbefore : ∀ j < i, p j = false) :
    (List.finRange n).find? p = some i := by
  refine List.find?_eq_some_iff_getElem.mpr ⟨hi, i.val, by simp, by simp, fun j hj => ?_⟩
  rw [List.getElem_finRange, Bool.not_eq_true']
  exact hbefore _ hj

section
variable {s : State} {r : Request} {q : EnrollReq} {e : EntryNo} {rack : Option RackNo}

/-! ### ENROLL (R19, R20) -/

theorem Registry.lookup_isSome (g : Registry) (w : Word) : (g.lookup w).isSome = true ↔ ∃ e : EntryNo, (w, e) ∈ g.addrMap := by
  rw [Registry.lookup, Option.isSome_map, List.find?_isSome]
  constructor
  · rintro ⟨⟨v, e⟩, hmem, hv⟩
    obtain rfl : v = w := beq_iff_eq.mp hv
    exact ⟨e, hmem⟩
  · rintro ⟨e, hmem⟩
    exact ⟨(w, e), hmem, beq_self_eq_true w⟩

theorem State.craneHeld_iff (s : State) (o : Option CraneNo) : o.any s.craneHeld = true ↔
    ∃ (e : EntryNo) (c : CraneNo), o = some c ∧ (s.entry e).crane = some c := by
  cases o with
  | none => simp
  | some c => simp [State.craneHeld, allEntries]

theorem State.enrollRefusal_known (h : ∃ e : EntryNo, (q.addr, e) ∈ s.registry.addrMap) :
    s.enrollRefusal q = some (.duplicate, 4) := if_pos ((Registry.lookup_isSome _ _).mpr h)

section
variable (h : ¬∃ e : EntryNo, (q.addr, e) ∈ s.registry.addrMap)
include h

theorem State.enrollRefusal_new : s.enrollRefusal q = if kindLimit q.kind ≤ s.registry.count q.kind then some (.tableFull, 5)
    else if q.kind = .crane ∧ q.crane.any s.craneHeld = true then some (.duplicate, 4) else none :=
  if_neg fun hsome => h ((Registry.lookup_isSome _ _).mp hsome)

theorem State.enrollRefusal_full (hfull : match q.kind with
      | .crane => 16 ≤ s.registry.craneCount
      | .rack => 240 ≤ s.registry.rackCount) : s.enrollRefusal q = some (.tableFull, 5) := by
  rw [State.enrollRefusal_new h, if_pos]
  cases hk : q.kind <;> simpa only [hk, kindLimit, Registry.count] using hfull

theorem State.enrollRefusal_room (hroom : ¬match q.kind with
      | .crane => 16 ≤ s.registry.craneCount
      | .rack => 240 ≤ s.registry.rackCount) : s.enrollRefusal q =
    if q.kind = .crane ∧ q.crane.any s.craneHeld = true then some (.duplicate, 4) else none := by
  rw [State.enrollRefusal_new h, if_neg]
  cases hk : q.kind <;> simpa only [hk, kindLimit, Registry.count] using hroom

end

/-- What ENROLL does, its body read. -/
def State.giveEnroll (s : State) (r : Request) (q : EnrollReq) : State :=
  match s.enrollRefusal q with
  | some (st, k) => (s.bumpReg k).answer r.ref st
  | none =>
    match s.freeEntry, s.freeRack with
    | some e, some n =>
      let rack := if q.kind = .rack then some n else none
      let s := ((s.enrollEntry e q rack).startRecord e q rack).bumpReg 3
      s.reply r.ref .ok (.enrolled e (s.entry e).seq rack)
    | some e, none =>
      if q.kind = .rack then (s.bumpReg 5).answer r.ref .tableFull
      else
        let s := ((s.enrollEntry e q none).startRecord e q none).bumpReg 3
        s.reply r.ref .ok (.enrolled e (s.entry e).seq none)
    | none, _ => (s.bumpReg 5).answer r.ref .tableFull

theorem exec_enroll (hasks : s.Asks .enroll r) (hread : readEnroll r.body = some q) :
    exec (.enroll r.ref.link) s = .next ((s.taken r).giveEnroll r q) :=
  exec_asks_reading (c := .enroll) (f := fun u q => u.giveEnroll r q) hasks (fun _ => rfl) hread

theorem exec_enroll_refused {st : Status} {k : Fin 12} (hasks : s.Asks .enroll r) (hread : readEnroll r.body = some q)
    (h : s.enrollRefusal q = some (st, k)) : exec (.enroll r.ref.link) s = .next (((s.taken r).bumpReg k).answer r.ref st) := by
  have htaken : (s.taken r).enrollRefusal q = some (st, k) := h
  rw [exec_enroll hasks hread, State.giveEnroll, htaken]

/-- The state behind an accepted ENROLL. -/
def State.afterEnroll (s : State) (e : EntryNo) (q : EnrollReq) (rack : Option RackNo) : State :=
  ((s.enrollEntry e q rack).startRecord e q rack).bumpReg 3

theorem State.afterEnroll_registry : (s.afterEnroll e q rack).registry =
    { (s.enrollEntry e q rack).registry with counters := bump s.registry.counters 3 } := by
  have hstart : ((s.enrollEntry e q rack).startRecord e q rack).registry = (s.enrollEntry e q rack).registry := by
    unfold State.startRecord
    split <;> rfl
  simp only [State.afterEnroll, State.bumpReg, hstart]
  rfl

theorem State.afterEnroll_entry (f : EntryNo) : (s.afterEnroll e q rack).entry f =
    if f = e then (s.entry e).enrolled q rack else s.entry f := by
  rw [State.entry, State.afterEnroll_registry]
  exact look_put _ _ _ _

theorem State.afterEnroll_keepsAllBut : s.KeepsAllBut (s.afterEnroll e q rack) [.registry, .cranes, .reefer] := by
  have hstart : ∀ u : State, u.KeepsAllBut (u.startRecord e q rack) [.registry, .cranes, .reefer] := fun u => by
    unfold State.startRecord
    split
    all_goals
      intro p hp
      cases p <;> simp_all [Part.same]
  have henroll : s.KeepsAllBut (s.enrollEntry e q rack) [.registry, .cranes, .reefer] := fun p hp => by
    cases p <;> simp_all [Part.same, State.enrollEntry]
  have hbump : ∀ u : State, u.KeepsAllBut (u.bumpReg 3) [.registry, .cranes, .reefer] := fun u p hp => by
    cases p <;> simp_all [Part.same]
  exact (henroll.trans (hstart _)).trans (hbump _)

/-- A crane's ENROLL starts a crane's record alone. -/
theorem State.afterEnroll_crane {c : CraneNo} (hk : q.kind = .crane) (hc : q.crane = some c) :
    (s.afterEnroll e q rack).cranes = (s.setCraneRec c (some (CraneRec.start e))).cranes ∧
    (s.afterEnroll e q rack).reefer = s.reefer := by
  simp only [State.afterEnroll, State.startRecord, hk, hc]
  exact ⟨rfl, rfl⟩

/-- A rack's ENROLL starts a rack's record alone. -/
theorem State.afterEnroll_rack {n : RackNo} (hk : q.kind = .rack) :
    (s.afterEnroll e q (some n)).reefer = (s.setRackRec n (some (RackRec.start e))).reefer ∧
    (s.afterEnroll e q (some n)).cranes = s.cranes := by
  simp only [State.afterEnroll, State.startRecord, hk]
  exact ⟨rfl, rfl⟩

/-- Which records an ENROLL starts: its crane's or its rack's. -/
theorem State.afterEnroll_records (hcrane : q.kind = .crane ↔ q.crane.isSome = true)
    (hrack : q.kind = .crane ∧ rack = none ∨ q.kind = .rack ∧ ∃ n, rack = some n) :
    (∀ c : CraneNo, (s.afterEnroll e q rack).craneRec c =
      if q.kind = .crane ∧ q.crane = some c then some (CraneRec.start e) else s.craneRec c) ∧
    (∀ m : RackNo, (s.afterEnroll e q rack).rackRec m = if rack = some m then some (RackRec.start e) else s.rackRec m) ∧
    (s.afterEnroll e q rack).cranes.counters = s.cranes.counters ∧
    (s.afterEnroll e q rack).reefer = { s.reefer with racks := (s.afterEnroll e q rack).reefer.racks } := by
  rcases hrack with ⟨hk, rfl⟩ | ⟨hk, n, rfl⟩
  · obtain ⟨c, hc⟩ := Option.isSome_iff_exists.mp (hcrane.mp hk)
    obtain ⟨hcranes, hreefer⟩ := State.afterEnroll_crane (s := s) (e := e) (rack := none) hk hc
    refine ⟨fun d => ?_, fun m => ?_, by rw [hcranes]; rfl, by rw [hreefer]⟩
    · rw [State.craneRec_of_cranes hcranes, State.craneRec_setCraneRec, hk, hc]
      simp only [true_and, Option.some.injEq, eq_comm]
    · rw [State.rackRec_of_reefer hreefer]
      rfl
  · obtain ⟨hreefer, hcranes⟩ := State.afterEnroll_rack (s := s) (e := e) (n := n) hk
    refine ⟨fun d => ?_, fun m => ?_, by rw [hcranes], by rw [hreefer]; rfl⟩
    · rw [State.craneRec_of_cranes hcranes, hk]
      rfl
    · rw [State.rackRec_of_reefer hreefer, State.rackRec_setRackRec]
      simp only [Option.some.injEq, eq_comm]

/-- The free entry and, for a rack, the free number that an ENROLL fills. -/
theorem State.giveEnroll_accepted (hpass : s.enrollRefusal q = none) (hfree : s.freeEntry = some e)
    (hrack : q.kind = .crane ∧ rack = none ∨ q.kind = .rack ∧ ∃ n, rack = some n ∧ s.freeRack = some n) :
    s.giveEnroll r q = (s.afterEnroll e q rack).reply r.ref .ok (.enrolled e ((s.entry e).seq + 1) rack) := by
  have hseq : ((s.afterEnroll e q rack).entry e).seq = (s.entry e).seq + 1 := by
    rw [State.afterEnroll_entry, if_pos rfl]
    rfl
  rw [← hseq, State.giveEnroll, hpass, hfree]
  rcases hrack with ⟨hk, rfl⟩ | ⟨hk, n, rfl, hn⟩
  · cases s.freeRack <;> simp only [hk, reduceCtorEq, if_false] <;> rfl
  · simp only [hn, hk, if_true]
    rfl

theorem State.freeEntry_eq_some (hfree : (s.entry e).state = .free ∧ (s.entry e).withdrawal = none ∧
    ∀ f : EntryNo, f < e → (s.entry f).state ≠ .free ∨ (s.entry f).withdrawal ≠ none) : s.freeEntry = some e := by
  obtain ⟨hstate, hnone, hbefore⟩ := hfree
  refine find?_finRange_eq_some (by simp [hstate, hnone]) fun f hf => ?_
  rcases hbefore f hf with h | h
  · simp [h]
  · simp [Option.isSome_iff_ne_none.mpr h]

theorem State.freeRack_eq_some {n : RackNo} (hfree : ∀ f : EntryNo, (s.entry f).rack ≠ some n)
    (hbefore : ∀ m : RackNo, m < n → ∃ f : EntryNo, (s.entry f).rack = some m) : s.freeRack = some n := by
  refine find?_finRange_eq_some ?_ fun m hm => ?_
  · simpa [allEntries] using hfree
  · simpa [allEntries] using hbefore m hm

/-- No frame waits or flies for an entry that has no queues. -/
theorem State.framesHaveTerminals.none_of_free (h : s.framesHaveTerminals) (hfree : s.hasQueues e = false) :
    (∀ f ∈ s.downlink.waiting, f.terminal ≠ e) ∧ s.inFlightOf e = [] := by
  obtain ⟨hwaits, hflies⟩ := h
  refine ⟨fun f hf hfe => ?_, List.filter_eq_nil_iff.mpr fun f hf hfe => ?_⟩
  · have hqueues := hwaits f hf
    rw [hfe, hfree] at hqueues
    cases hqueues
  · simp only [Bool.and_eq_true, beq_iff_eq, Bool.not_eq_true'] at hfe
    have hqueues := hflies f hf hfe.2
    rw [hfe.1, hfree] at hqueues
    cases hqueues

end

/-- Settles O14: the refusals in their order; the free entry and rack number by the search, and what each kind's record becomes. -/
theorem enrollIsRefusedOrFillsTheLowestFreeEntry : Obligations.EnrollIsRefusedOrFillsTheLowestFreeEntry := by
  intro r s q hasks hread known full numbered
  have hnumbered : (q.kind = .crane ∧ q.crane.any s.craneHeld = true) ↔ numbered := and_congr_right fun _ => s.craneHeld_iff _
  refine ⟨fun h => exec_enroll_refused hasks hread (State.enrollRefusal_known h),
    fun h hfull => exec_enroll_refused hasks hread (State.enrollRefusal_full h hfull),
    fun h hroom hn => exec_enroll_refused hasks hread ((State.enrollRefusal_room h hroom).trans (if_pos (hnumbered.mpr hn))),
    fun e rack h hroom hn hfree hrack => ?_⟩
  have hpass : (s.taken r).enrollRefusal q = none :=
    (State.enrollRefusal_room (s := s) h hroom).trans (if_neg fun hx => hn (hnumbered.mp hx))
  have hkeeps := State.afterEnroll_keepsAllBut (s := s.taken r) (e := e) (q := q) (rack := rack)
  obtain ⟨hcranes, hracks, hcounters, hreefer⟩ := State.afterEnroll_records (s := s.taken r) (e := e) (rack := rack)
    (readEnroll_crane hread) (hrack.imp id fun ⟨hk, n, hn, _⟩ => ⟨hk, n, hn⟩)
  refine ⟨(s.taken r).afterEnroll e q rack, ?_, (State.afterEnroll_entry e).trans (if_pos rfl),
    fun f hf => (State.afterEnroll_entry f).trans (if_neg hf), ?_, ?_, ?_, ?_, ?_, hcranes, hracks, hcounters, ?_, ?_, ?_, ?_, fun hframes => ?_, hkeeps⟩
  · rw [exec_enroll hasks hread]
    refine congrArg Host.Outcome.next (State.giveEnroll_accepted hpass (State.freeEntry_eq_some (s := s.taken r) hfree) ?_)
    rcases hrack with hc | ⟨hk, n, hn, hnone, hbefore⟩
    · exact .inl hc
    · exact .inr ⟨hk, n, hn, State.freeRack_eq_some (s := s.taken r) hnone hbefore⟩
  iterate 5
    · rw [State.afterEnroll_registry]
      rfl
  iterate 4
    · rw [hreefer]
      rfl
  · have hbeams : ((s.taken r).afterEnroll e q rack).beamCtl = s.beamCtl := hkeeps .beamCtl (by decide)
    have hdown : ((s.taken r).afterEnroll e q rack).downlink = s.downlink := hkeeps .downlink (by decide)
    have hnone : s.hasQueues e = false := by
      simp [State.hasQueues, State.withdrawing, hfree.1, hfree.2.1]
    have hflies : ((s.taken r).afterEnroll e q rack).inFlight = s.inFlight := by rw [State.inFlight, hbeams, State.inFlight]
    rw [hdown, State.inFlightOf, hflies]
    exact hframes.none_of_free hnone

end Sys2Proof.Machine
end

section
/-! PROOFS. A rack held against a class, a crane's condition derived, a notice found in a queue (R130, R151, R152, R9). -/

namespace Sys2Proof.Machine

/-! ### A notice in a queue (R9) -/

theorem Link.hasNotice_beginSend {k : Link} {n : Notice} (h : k.HasNotice n) : k.beginSend.HasNotice n := by
  obtain ⟨x, hx⟩ := h
  unfold Link.beginSend
  split
  · split
    · exact ⟨x, hx⟩
    · exact ⟨x, hx⟩
    · next m y q hq =>
      rw [hq] at hx
      rcases List.mem_cons.mp hx with heq | hx
      · cases heq
        exact ⟨_, List.mem_cons_self⟩
      · exact ⟨x, List.mem_cons_of_mem _ hx⟩
  · exact ⟨x, hx⟩

theorem Link.hasNotice_place {k : Link} {n : Notice} {m : Msg} (h : k.HasNotice n ∨ ∃ x : Nat, m = .notice n x) :
    (k.place m).HasNotice n := by
  refine Link.hasNotice_beginSend ?_
  rcases h with ⟨x, hx⟩ | ⟨x, rfl⟩
  · exact ⟨x, List.mem_append_left _ hx⟩
  · exact ⟨x, List.mem_append_right _ List.mem_cons_self⟩

theorem Link.hasNotice_raise {k : Link} {n : Notice} (h : k.HasNotice n) (m : Notice) : (k.raise m).HasNotice n := by
  unfold Link.raise
  split_ifs
  · exact h
  · exact Link.hasNotice_place (.inl h)
  · exact h

theorem Link.hasNotice_raiseAll {k : Link} {n : Notice} (h : k.HasNotice n) (ms : List Notice) : (k.raiseAll ms).HasNotice n := by
  induction ms generalizing k with
  | nil => exact h
  | cons m ms ih => exact ih (Link.hasNotice_raise h m)

/-- The first notice raised at an UP link with room is queued, and stays. -/
theorem Link.hasNotice_first {k : Link} {n : Notice} (hup : k.up = true) (hroom : k.noticeCount < 55) (ms : List Notice) :
    (k.raiseAll (n :: ms)).HasNotice n := by
  refine Link.hasNotice_raiseAll ?_ ms
  rw [Link.raise, hup, Bool.not_true, if_neg (by decide), if_pos hroom]
  exact Link.hasNotice_place (.inr ⟨0, rfl⟩)

/-! ### A rack held against a class (R151, R152) -/

section
variable {s t u : State} {n : RackNo} {k : RackRec}

theorem State.regrade_racks (s : State) (r : RackNo) (p : PlugNo) (b : Bool) : (s.regrade r p b).reefer.racks = s.reefer.racks :=
  (s.applyConsult_reefer r p _).1

theorem State.silencePlug_racks (s : State) (r : RackNo) (v : Silence) (p : PlugNo) :
    (s.silencePlug r v p).reefer.racks = s.reefer.racks := by
  unfold State.silencePlug
  dsimp only
  split
  · exact State.regrade_racks _ _ _ _
  · rfl

/-- A silence state is written to the rack's record alone. -/
theorem State.rackRec_setSilence (hrec : s.rackRec n = some k) (v : Silence) (m : RackNo) :
    (s.setSilence n v).rackRec m = if m = n then some { k with silence := v } else s.rackRec m := by
  have hracks : ∀ (ps : List PlugNo) (u : State), (ps.foldl (fun u p => u.silencePlug n v p) u).reefer.racks = u.reefer.racks :=
    foldl_keeps (fun u : State => u.reefer.racks) _ (fun u p => u.silencePlug_racks n v p)
  rw [State.setSilence, hrec, State.rackRec, hracks]
  exact State.rackRec_setRackRec s n m _

/-- A POLL that is asked for is queued or not; the slots are as they were. -/
theorem State.askPoll_records (hrec : s.rackRec n = some k) :
    (∃ p : PollState, p ≠ .noPoll ∧ ∀ m, (s.askPoll n).rackRec m = if m = n then some { k with poll := p } else s.rackRec m) ∧
    ∀ (m : RackNo) (p : PlugNo), (s.askPoll n).slot m p = s.slot m p := by
  have hpoll : ∀ (u : State) (i : Fin 25) (p : PollState), u.reefer = s.reefer →
      (∀ m, ((u.bumpReef i).setPoll n p).rackRec m = if m = n then some { k with poll := p } else s.rackRec m) ∧
      ∀ (m : RackNo) (q : PlugNo), ((u.bumpReef i).setPoll n p).slot m q = s.slot m q := fun u i p hu => by
    have hn : (u.bumpReef i).rackRec n = some k := (State.rackRec_of_reefer hu n).trans hrec
    rw [State.setPoll, hn]
    refine ⟨fun m => ?_, fun m q => State.slot_of_reefer hu m q⟩
    rw [State.rackRec_setRackRec]
    exact if_congr Iff.rfl rfl (State.rackRec_of_reefer hu m)
  rw [State.askPoll, hrec]
  dsimp only
  split
  · obtain ⟨hrecs, hslots⟩ := hpoll (s.queuePoll n k.entry).1 13 .queued (by simp)
    exact ⟨⟨.queued, by decide, hrecs⟩, hslots⟩
  · obtain ⟨hrecs, hslots⟩ := hpoll (s.queuePoll n k.entry).1 14 .notQueued (by simp)
    exact ⟨⟨.notQueued, by decide, hrecs⟩, hslots⟩

/-- What holding a rack against a class does to it, and leaves of the others. -/
def State.RackHeld (s t : State) (n : RackNo) (k : RackRec) (c : SegClass) : Prop :=
  s.RackFollows t n k c ∧ (∀ m : RackNo, m ≠ n → t.rackRec m = s.rackRec m) ∧
    ∀ (m : RackNo) (p : PlugNo), m ≠ n → (s.slot m p).Like (t.slot m p)

theorem State.RackHeld.refl (hrec : s.rackRec n = some k) {c : SegClass} (hsame : k.silence.follow c = k.silence) :
    s.RackHeld s n k c := by
  refine ⟨⟨⟨k.poll, ?_, ?_⟩, fun p => ?_⟩, fun _ _ => rfl, fun _ _ _ => Slot.Like.refl _⟩
  · rw [hrec, hsame]
  · rw [hsame, if_neg]
    rintro ⟨hdark, hsilent⟩
    rw [hdark] at hsilent
    cases hsilent
  · rw [if_pos hsame]
    exact Slot.Like.refl _

theorem State.RackHeld.setSilence (hrec : s.rackRec n = some k) {c : SegClass} {v : Silence} (hv : k.silence.follow c = v)
    (hne : v ≠ k.silence) (hasked : ¬(k.silence = .dark ∧ v = .silent)) : s.RackHeld (s.setSilence n v) n k c := by
  have hslot := s.setSilence_slot n v k hrec
  refine ⟨⟨⟨k.poll, ?_, ?_⟩, fun p => ?_⟩, fun m hm => ?_, fun m p hm => ?_⟩
  · rw [State.rackRec_setSilence hrec, if_pos rfl, hv]
  · rw [hv, if_neg hasked]
  · rw [hv, if_neg hne]
    simpa using hslot n p
  · rw [State.rackRec_setSilence hrec, if_neg hm]
  · simpa [hm] using hslot m p

theorem State.RackHeld.setSilenceAsked (hrec : s.rackRec n = some k) {c : SegClass} {v : Silence} (hv : k.silence.follow c = v)
    (hne : v ≠ k.silence) (hasked : k.silence = .dark ∧ v = .silent) :
    s.RackHeld ((s.setSilence n v).askPoll n) n k c := by
  have hslot := s.setSilence_slot n v k hrec
  have hsilent : (s.setSilence n v).rackRec n = some { k with silence := v } := by
    rw [State.rackRec_setSilence hrec, if_pos rfl]
  obtain ⟨⟨p, hp, hrecs⟩, hslots⟩ := State.askPoll_records hsilent
  refine ⟨⟨⟨p, ?_, ?_⟩, fun j => ?_⟩, fun m hm => ?_, fun m j hm => ?_⟩
  · rw [hrecs, if_pos rfl, hv]
  · rw [hv, if_pos hasked]
    exact hp
  · rw [hv, if_neg hne, hslots]
    simpa using hslot n j
  · rw [hrecs, if_neg hm, State.rackRec_setSilence hrec, if_neg hm]
  · rw [hslots]
    simpa [hm] using hslot m j

theorem State.reevaluateRack_held (hrec : s.rackRec n = some k) {c : SegClass} (hc : s.rackClass k = some c) :
    s.RackHeld (s.reevaluateRack n) n k c := by
  rw [State.reevaluateRack, hrec]
  dsimp only
  rw [hc]
  have hsame : ∀ v : Silence, k.silence = v → v.follow c = v → s.RackHeld s n k c := fun v hs hv =>
    State.RackHeld.refl hrec (by rw [hs, hv])
  have hwakes : ∀ d : SegClass, c = d → Silence.follow .dark d = .silent → k.silence = .dark →
      s.RackHeld ((s.setSilence n .silent).askPoll n) n k c := fun d hd hv hs =>
    State.RackHeld.setSilenceAsked hrec (by rw [hs, hd, hv]) (by rw [hs]; decide) ⟨hs, rfl⟩
  cases hs : k.silence with
  | notSilent => exact hsame _ hs (by cases c <;> rfl)
  | silent =>
    cases c with
    | dark => exact State.RackHeld.setSilence hrec (by rw [hs]; rfl) (by rw [hs]; decide) (by rw [hs]; decide)
    | good => exact hsame _ hs rfl
    | weak => exact hsame _ hs rfl
  | dark =>
    cases c with
    | dark => exact hsame _ hs rfl
    | good => exact hwakes _ rfl rfl hs
    | weak => exact hwakes _ rfl rfl hs

end

/-! ### A crane's condition (R130) -/

section
variable {s : State} {c : CraneNo} {k : CraneRec} {v : Condition}

/-- A condition that is as it was changes nothing. -/
theorem State.deriveCondition_same (hrec : s.craneRec c = some k)
    (hv : conditionOf (s.entry k.entry).state (s.classOf (s.entry k.entry).seg) = some k.cond) : s.deriveCondition c = s := by
  rw [State.deriveCondition, hrec]
  dsimp only
  rw [hv]
  exact if_pos rfl

/-- A crane's new condition, counted and raised, before what LOST drops. -/
def State.conditionTold (s : State) (c : CraneNo) (k : CraneRec) (v : Condition) : State :=
  let x := s.entry k.entry
  let s := (s.setCraneRec c (some { k with cond := v })).bumpCrane 5
  (s.raiseWhere (fun l n => look k.subs l || n.rights.command) (.craneState c k.cond v x.seg (s.classOf x.seg))).bumpCrane 6

theorem State.deriveCondition_changed (hrec : s.craneRec c = some k)
    (hv : conditionOf (s.entry k.entry).state (s.classOf (s.entry k.entry).seg) = some v) (hne : v ≠ k.cond) :
    s.deriveCondition c = if v = .lost then
      ((s.conditionTold c k v).bumpCrane 7).dropFrames (fun f => f.terminal == k.entry && f.cls == .control) .linkLost 20
      else s.conditionTold c k v := by
  rw [State.deriveCondition, hrec]
  dsimp only
  rw [hv]
  exact if_neg hne

theorem State.conditionTold_cranes : (s.conditionTold c k v).cranes =
    { s.cranes with records := put s.cranes.records c (some { k with cond := v })
                    counters := bump (bump s.cranes.counters 5) 6 } := by
  simp [State.conditionTold, State.bumpCrane, State.setCraneRec]

/-- The crane unit's part when a condition changes. -/
theorem State.deriveCondition_cranes (hrec : s.craneRec c = some k)
    (hv : conditionOf (s.entry k.entry).state (s.classOf (s.entry k.entry).seg) = some v) (hne : v ≠ k.cond) :
    (∀ d, (s.deriveCondition c).craneRec d = if d = c then some { k with cond := v } else s.craneRec d) ∧
    look (s.deriveCondition c).cranes.counters 5 = satInc (look s.cranes.counters 5) := by
  have hrecs : ∀ d, (s.conditionTold c k v).craneRec d = if d = c then some { k with cond := v } else s.craneRec d := fun d => by
    rw [State.craneRec, State.conditionTold_cranes]
    exact look_put _ _ _ _
  have hcount : look (s.conditionTold c k v).cranes.counters 5 = satInc (look s.cranes.counters 5) := by
    rw [State.conditionTold_cranes, look_bump_ne _ (by decide), look_bump_self]
  have hdrop : ∀ u : State, (u.dropFrames (fun f => f.terminal == k.entry && f.cls == .control) .linkLost 20).cranes = u.cranes :=
    fun u => State.dropFrames_cranes u (fun f _ hf => by
      simp only [Bool.and_eq_true, beq_iff_eq] at hf
      rw [hf.2]
      decide) _ _
  rw [State.deriveCondition_changed hrec hv hne]
  split
  · refine ⟨fun d => ?_, ?_⟩
    · rw [State.craneRec_of_cranes (hdrop _)]
      exact hrecs d
    · rw [hdrop]
      exact (look_bump_ne _ (by decide)).trans hcount
  · exact ⟨hrecs, hcount⟩

/-- CRANE_STATE is raised first where a condition changes. -/
theorem State.Tells.deriveCondition (hrec : s.craneRec c = some k)
    (hv : conditionOf (s.entry k.entry).state (s.classOf (s.entry k.entry).seg) = some v) (hne : v ≠ k.cond) :
    ∃ ns : LinkNo → List Notice, s.Tells (s.deriveCondition c) (fun l =>
      (if look k.subs l || (s.link l).rights.command then
        [.craneState c k.cond v (s.entry k.entry).seg (s.classOf (s.entry k.entry).seg)] else []) ++ ns l) := by
  have htold : s.Tells (s.conditionTold c k v) (fun l => if look k.subs l || (s.link l).rights.command then
        [.craneState c k.cond v (s.entry k.entry).seg (s.classOf (s.entry k.entry).seg)] else []) :=
    ((State.Tells.raiseWhere ((s.setCraneRec c (some { k with cond := v })).bumpCrane 5) _ _).links_left rfl).links_right rfl
  rw [State.deriveCondition_changed hrec hv hne]
  split
  · exact ⟨_, htold.trans ((State.Tells.dropFrames _ _ _ _).links_left rfl)⟩
  · exact ⟨noNotices, htold.congr fun l => (List.append_nil _).symm⟩

theorem State.deriveCondition_keepsAllBut (s : State) (c : CraneNo) :
    s.KeepsAllBut (s.deriveCondition c) [.links, .pool, .downlink, .cranes] := fun q hq => by
  cases q <;> simp_all [Part.same]

theorem State.reevaluateRack_keepsAllBut (s : State) (n : RackNo) :
    s.KeepsAllBut (s.reevaluateRack n) [.links, .pool, .downlink, .cranes, .reefer] := fun q hq => by
  cases q <;> simp_all [Part.same]

end

end Sys2Proof.Machine
end

section
/-! PROOFS. WITHDRAW and MOVE (R21, R24). -/

namespace Sys2Proof.Machine

section
variable {s t u : State} {r : Request} {e : EntryNo} {q : Half} {g : SegNo}

theorem State.RackHeld.reefer_right {n : RackNo} {k : RackRec} {c : SegClass} (h : s.RackHeld t n k c) (hu : u.reefer = t.reefer) :
    s.RackHeld u n k c := by
  obtain ⟨⟨⟨p, hrec, hpoll⟩, hslots⟩, hothers, hlike⟩ := h
  have hslot := State.slot_of_reefer hu
  have hrack := State.rackRec_of_reefer hu
  exact ⟨⟨⟨p, (hrack n).trans hrec, hpoll⟩, fun j => by rw [hslot]; exact hslots j⟩, fun m hm => (hrack m).trans (hothers m hm),
    fun m j hm => by rw [hslot]; exact hlike m j hm⟩

/-! ### WITHDRAW (R21) -/

/-- What WITHDRAW does, its body read. -/
def State.giveWithdraw (s : State) (r : Request) (e : EntryNo) (q : Half) : State :=
  if (s.entry e).state = .free ∨ (s.entry e).seq ≠ q then s.answer r.ref .wrongState
  else ((s.withdrawEntry e).bumpReg 6).reply r.ref .ok (.withdrawn ((s.entry e).seq + 1))

theorem exec_withdraw (hasks : s.Asks .withdraw r) (hread : readWithdraw r.body = some (e, q)) :
    exec (.withdraw r.ref.link) s = .next ((s.taken r).giveWithdraw r e q) :=
  exec_asks_reading (c := .withdraw) (f := fun u (q : EntryNo × Half) => u.giveWithdraw r q.1 q.2) hasks (fun _ => rfl) hread

theorem State.withdrawEntry_entry (f : EntryNo) : (s.withdrawEntry e).entry f = if f = e then (s.entry e).withdrawn else s.entry f :=
  look_put _ _ _ _

/-! ### MOVE (R24) -/

/-- What MOVE does, its body read. -/
def State.giveMove (s : State) (r : Request) (e : EntryNo) (q : Half) (g : SegNo) : State :=
  if (s.entry e).state = .free ∨ (s.entry e).seq ≠ q then s.answer r.ref .wrongState
  else State.reply (if (s.entry e).seg = some g then s else (s.moveEntry e g).judge) r.ref .ok (.moved (s.entry e).seg g)

theorem exec_move (hasks : s.Asks .move r) (hread : readMove r.body = some (e, q, g)) :
    exec (.move r.ref.link) s = .next ((s.taken r).giveMove r e q g) :=
  exec_asks_reading (c := .move) (f := fun u (q : EntryNo × Half × SegNo) => u.giveMove r q.1 q.2.1 q.2.2) hasks (fun _ => rfl) hread

/-- The registry's part of a MOVE. -/
def State.segWritten (s : State) (e : EntryNo) (g : SegNo) : State := (s.setEntry e { s.entry e with seg := some g }).bumpReg 7

theorem State.segWritten_entry (f : EntryNo) : (s.segWritten e g).entry f =
    if f = e then { s.entry e with seg := some g } else s.entry f := State.entry_setEntry s e f _

theorem State.moveEntry_crane {c : CraneNo} (hk : (s.entry e).kind = some .crane) (hc : (s.entry e).crane = some c) :
    s.moveEntry e g = (s.segWritten e g).deriveCondition c := by
  unfold State.moveEntry
  dsimp only
  split <;> simp_all [State.segWritten]

theorem State.moveEntry_rack {n : RackNo} (hk : (s.entry e).kind = some .rack) (hn : (s.entry e).rack = some n) :
    s.moveEntry e g = (s.segWritten e g).reevaluateRack n := by
  unfold State.moveEntry
  dsimp only
  split <;> simp_all [State.segWritten]

theorem State.moveEntry_registry : (s.moveEntry e g).registry = (s.segWritten e g).registry := by
  unfold State.moveEntry
  dsimp only
  split <;> simp [State.segWritten]

theorem State.moveEntry_keepsAllBut : s.KeepsAllBut (s.moveEntry e g) [.links, .registry, .pool, .downlink, .cranes, .reefer] := by
  have hwritten : s.KeepsAllBut (s.segWritten e g) [.links, .registry, .pool, .downlink, .cranes, .reefer] := fun p hp => by
    cases p <;> simp_all [Part.same, State.segWritten]
  unfold State.moveEntry
  dsimp only
  split
  · exact hwritten.step (State.deriveCondition_keepsAllBut _ _) (by decide)
  · exact hwritten.step (State.reevaluateRack_keepsAllBut _ _) (by decide)
  · exact hwritten

/-- A crane that is moved: its condition is derived again. -/
theorem State.moveEntry_condition {c : CraneNo} {k : CraneRec} {v : Condition} (hk : (s.entry e).kind = some .crane)
    (hc : (s.entry e).crane = some c) (hrec : s.craneRec c = some k) (he : k.entry = e)
    (hv : conditionOf (s.entry e).state (some (s.segRec g).cls) = some v) :
    ((s.moveEntry e g).judge.craneRec c).map CraneRec.cond = some v ∧
    (v = k.cond → (s.moveEntry e g).judge.cranes = s.cranes) ∧
    (v ≠ k.cond → look (s.moveEntry e g).judge.cranes.counters 5 = satInc (look s.cranes.counters 5) ∧
      ∀ l : LinkNo, look k.subs l = true ∨ (s.link l).rights.command = true → (s.link l).up = true →
        (s.link l).noticeCount < 55 →
        ((s.moveEntry e g).judge.link l).HasNotice (.craneState c k.cond v (some g) (some (s.segRec g).cls))) := by
  have hjudge : (s.moveEntry e g).judge.cranes = (s.moveEntry e g).cranes := (State.judge_frame _).2.2.2.2.2.2.2.1
  have hentry : (s.segWritten e g).entry k.entry = { s.entry e with seg := some g } := by
    rw [he, State.segWritten_entry, if_pos rfl]
  have hcond : conditionOf ((s.segWritten e g).entry k.entry).state ((s.segWritten e g).classOf ((s.segWritten e g).entry k.entry).seg)
      = some v := by
    rw [hentry]
    exact hv
  rw [State.craneRec_of_cranes hjudge, hjudge, State.moveEntry_crane hk hc]
  by_cases hsame : v = k.cond
  · subst hsame
    rw [State.deriveCondition_same (s := s.segWritten e g) hrec hcond]
    exact ⟨congrArg (Option.map CraneRec.cond) hrec, fun _ => rfl, fun h => absurd rfl h⟩
  · obtain ⟨hrecs, hcount⟩ := State.deriveCondition_cranes (s := s.segWritten e g) hrec hcond hsame
    refine ⟨by rw [hrecs, if_pos rfl]; rfl, fun h => absurd h hsame, fun _ => ⟨hcount, fun l hl hup hroom => ?_⟩⟩
    obtain ⟨ns, htells⟩ := State.Tells.deriveCondition (s := s.segWritten e g) hrec hcond hsame
    obtain ⟨ms, -, hlink⟩ := State.judge_link ((s.segWritten e g).deriveCondition c) l
    rw [hlink]
    refine Link.hasNotice_raiseAll ?_ ms
    rw [htells l]
    dsimp only
    rw [if_pos (Bool.or_eq_true _ _ ▸ hl), hentry]
    exact Link.hasNotice_first (k := s.link l) hup hroom (ns l)

/-- A rack that is moved: it is held against the class of its new segment. -/
theorem State.moveEntry_held {n : RackNo} {k : RackRec} (hk : (s.entry e).kind = some .rack) (hn : (s.entry e).rack = some n)
    (hrec : s.rackRec n = some k) (he : k.entry = e) : s.RackHeld (s.moveEntry e g).judge n k (s.segRec g).cls := by
  have hclass : (s.segWritten e g).rackClass k = some (s.segRec g).cls := by
    rw [State.rackClass, he, State.segWritten_entry, if_pos rfl]
    rfl
  have hheld := State.reevaluateRack_held (s := s.segWritten e g) hrec hclass
  rw [← State.moveEntry_rack hk hn] at hheld
  exact State.RackHeld.reefer_right hheld (State.judge_frame _).2.2.2.2.2.2.2.2.1

end

/-- Settles O15: what WITHDRAW and MOVE write of the entry, and what the unit of its kind makes of its new segment. -/
theorem withdrawAndMoveChangeTheEntryNamed : Obligations.WithdrawAndMoveChangeTheEntryNamed := by
  refine ⟨fun r s e q hasks hread => ?_, fun r s e q g hasks hread => ?_⟩
  · rw [exec_withdraw hasks hread]
    refine ⟨fun hwrong => congrArg Host.Outcome.next (if_pos hwrong), fun hstate hseq => ?_⟩
    refine ⟨((s.taken r).withdrawEntry e).bumpReg 6, ?_, ?_, fun f hf => (State.withdrawEntry_entry f).trans (if_neg hf), rfl, rfl, rfl,
      rfl, rfl, fun p hp => by cases p <;> simp_all [Part.same, State.withdrawEntry]⟩
    · rw [← hseq]
      exact congrArg Host.Outcome.next (if_neg (not_or.mpr ⟨hstate, not_not.mpr rfl⟩))
    · rw [← hseq]
      exact (State.withdrawEntry_entry e).trans (if_pos rfl)
  · rw [exec_move hasks hread]
    refine ⟨fun hwrong => congrArg Host.Outcome.next (if_pos hwrong), fun hstate hseq hsame => ?_, fun hstate hseq hother => ?_⟩
    · have hstays : (s.taken r).giveMove r e q g = _ := if_neg (not_or.mpr ⟨hstate, not_not.mpr hseq⟩)
      rw [hstays, show ((s.taken r).entry e).seg = some g from hsame, if_pos rfl]
    · have hmoves : (s.taken r).giveMove r e q g = _ := if_neg (not_or.mpr ⟨hstate, not_not.mpr hseq⟩)
      have hregistry : ((s.taken r).moveEntry e g).judge.registry = (s.segWritten e g).registry :=
        (State.judge_frame _).2.2.1.trans State.moveEntry_registry
      have hentry : ∀ f, ((s.taken r).moveEntry e g).judge.entry f = _ := fun f =>
        (congrArg (fun v : Registry => look v.entries f) hregistry).trans (State.segWritten_entry f)
      refine ⟨((s.taken r).moveEntry e g).judge, ?_, (hentry e).trans (if_pos rfl), fun f hf => (hentry f).trans (if_neg hf), ?_, ?_,
        fun c k hk hc hrec he v hv => State.moveEntry_condition (s := s.taken r) hk hc hrec he hv,
        fun n k hk hn hrec he => State.moveEntry_held (s := s.taken r) hk hn hrec he,
        State.moveEntry_keepsAllBut.step (State.judge_keepsAllBut _) (by decide)⟩
      · rw [hmoves, if_neg (c := ((s.taken r).entry e).seg = some g) hother]
        rfl
      · rw [hregistry]
        rfl
      · rw [hregistry]
        rfl

end Sys2Proof.Machine
end

section
/-! PROOFS. The three units' parts of a withdrawal (R22, R114, R139, R155). -/

namespace Sys2Proof.Machine

section
variable {s t : State} {e : EntryNo} {w : Withdrawal} {f : Withdrawal → Withdrawal}

/-- What one unit's part leaves of an entry and of the counts; `done`: it was the last. -/
structure State.PartLeaves (s t : State) (e : EntryNo) (w : Withdrawal) (done : Bool) : Prop where
  withdrawal : (t.entry e).withdrawal = if done then none else some w
  kind : (t.entry e).kind = if done then none else (s.entry e).kind
  crane : (t.entry e).crane = if done then none else (s.entry e).crane
  rack : (t.entry e).rack = if done then none else (s.entry e).rack
  yard : (t.entry e).yard = if done then none else (s.entry e).yard
  craneCount : t.registry.craneCount = if done = true ∧ (s.entry e).kind = some .crane then s.registry.craneCount - 1
    else s.registry.craneCount
  rackCount : t.registry.rackCount = if done = true ∧ (s.entry e).kind = some .rack then s.registry.rackCount - 1
    else s.registry.rackCount

theorem State.partDone_leaves (hw : (s.entry e).withdrawal = some w) :
    s.PartLeaves (s.partDone e f) e (f w) ((f w).downlinkDone && (f w).kindDone) := by
  rw [State.partDone, hw]
  dsimp only
  by_cases hdone : ((f w).downlinkDone && (f w).kindDone) = true
  · rw [if_pos hdone, hdone]
    have hentry := (State.entry_releaseEntry s e e).trans (if_pos rfl)
    constructor
    case craneCount | rackCount => simp [State.releaseEntry]
    all_goals simp [hentry, Entry.released]
  · rw [if_neg hdone, Bool.eq_false_of_not_eq_true hdone]
    constructor
    case craneCount | rackCount => simp [State.setEntry]
    all_goals simp

/-- Only the registry counts. -/
theorem State.PartLeaves.of_registry {u v : State} {done : Bool} (h : s.PartLeaves t e w done) (hs : u.registry = s.registry)
    (ht : v.registry = t.registry) : u.PartLeaves v e w done := by
  have hentry : v.entry e = t.entry e := by rw [State.entry, State.entry, ht]
  have hbefore : u.entry e = s.entry e := by rw [State.entry, State.entry, hs]
  obtain ⟨hw, hk, hc, hr, hy, hcranes, hracks⟩ := h
  constructor <;> simp only [hentry, hbefore, hs, ht] <;> assumption

theorem State.partDone_keepsAllBut : s.KeepsAllBut (s.partDone e f) [.registry] := fun p hp => by
  cases p <;> simp_all [Part.same]

theorem State.withdrawing_of (hw : (s.entry e).withdrawal = some w) (p : Withdrawal → Bool) : s.withdrawing e p = p w := by
  rw [State.withdrawing, hw]

theorem State.withdrawing_false {p : Withdrawal → Bool} (h : ∀ w, (s.entry e).withdrawal = some w → p w = false) :
    s.withdrawing e p = false := by
  rw [State.withdrawing]
  split
  · rfl
  · next w hw => exact h w hw

/-! ### The downlink queue block's part (R114) -/

theorem State.discardTerminal_keepsAllBut : s.KeepsAllBut (s.discardTerminal e) [.links, .beamCtl, .pool, .downlink, .cranes] :=
  fun p hp => by cases p <;> simp_all [Part.same]

theorem State.burst_discardTerminal (s : State) (e : EntryNo) (b : BeamNo) : ((s.discardTerminal e).beam b).burst =
    (s.beam b).burst.map (fun u =>
      { u with frames := u.frames.map (fun f => if f.terminal = e then { f with orphaned := true } else f) }) :=
  s.burstAt_discardTerminal e b

/-- The state behind the downlink part of a withdrawal. -/
def State.afterDiscard (s : State) (e : EntryNo) : State :=
  ((s.discardTerminal e).partDone e (fun w => { w with downlinkDone := true })).judge

theorem execDownlinkWithdrawal_of (hw : (s.entry e).withdrawal = some w) (hnot : w.downlinkDone = false) :
    exec (.downlinkWithdrawal e) s = .next (s.afterDiscard e) := by
  simp only [exec, execDownlinkWithdrawal, State.withdrawing_of hw, hnot]
  rfl

theorem State.afterDiscard_beamCtl : (s.afterDiscard e).beamCtl = (s.discardTerminal e).beamCtl := by
  simp [State.afterDiscard]

theorem State.afterDiscard_downlink : (s.afterDiscard e).downlink =
    (s.dropFrames (fun f => f.terminal == e) .withdrawn 18).downlink := by
  simp [State.afterDiscard]
  rfl

theorem State.afterDiscard_free : (s.afterDiscard e).pool.free =
    s.pool.free + framesBlocks (s.downlink.waiting.filter (fun f => f.terminal == e)) := by
  rw [State.afterDiscard, (State.judge_pool_keeps _).2.1]
  simp [State.discardTerminal, State.pool_dropFrames]

theorem State.afterDiscard_raises : s.Raises (s.afterDiscard e)
    (fun l => resultsAt l ((s.downlink.waiting.filter (fun f => f.terminal == e)).map (fun f => (f, .withdrawn)))) noNotices True := by
  have htells := State.Tells.dropFrames s (fun f => f.terminal == e) .withdrawn 18
  have hpart : ((s.discardTerminal e).partDone e (fun w => { w with downlinkDone := true })).links =
      (s.dropFrames (fun f => f.terminal == e) .withdrawn 18).links := by
    simp
    rfl
  exact (htells.links_right hpart).raises.judge

theorem State.afterDiscard_leaves (hw : (s.entry e).withdrawal = some w) :
    s.PartLeaves (s.afterDiscard e) e { w with downlinkDone := true } w.kindDone := by
  have hentry : ((s.discardTerminal e).entry e).withdrawal = some w := by
    rw [State.entry, (State.discardTerminal_frame s e).2.2.1]
    exact hw
  exact (State.partDone_leaves hentry).of_registry (State.discardTerminal_frame s e).2.2.1.symm (State.judge_frame _).2.2.1

theorem State.afterDiscard_keepsAllBut : s.KeepsAllBut (s.afterDiscard e) [.links, .registry, .beamCtl, .pool, .downlink, .cranes] :=
  ((State.discardTerminal_keepsAllBut.mono (by decide)).step State.partDone_keepsAllBut (by decide)).step
    (State.judge_keepsAllBut _) (by decide)

/-- The unit of a kind's part, behind a state in which only that unit's part has changed. -/
theorem State.partDone_leaves_of (hw : (s.entry e).withdrawal = some w) (ht : t.registry = s.registry) :
    s.PartLeaves (t.partDone e f) e (f w) ((f w).downlinkDone && (f w).kindDone) := by
  have hentry : (t.entry e).withdrawal = some w := by
    rw [State.entry, ht]
    exact hw
  exact (State.partDone_leaves hentry).of_registry ht.symm rfl

/-! ### The units of the kinds (R139, R155) -/

theorem State.endCrane_craneRec (s : State) (c d : CraneNo) : (s.endCrane c).craneRec d = if d = c then none else s.craneRec d := by
  unfold State.endCrane
  split
  · next hnone =>
    split
    · next hd => rw [hd, hnone]
    · rfl
  · exact State.craneRec_setCraneRec s c d none

theorem State.endCrane_keepsAllBut (s : State) (c : CraneNo) : s.KeepsAllBut (s.endCrane c) [.cranes] := fun p hp => by
  cases p <;> simp_all [Part.same]

theorem State.endRack_keepsAllBut (s : State) (n : RackNo) : s.KeepsAllBut (s.endRack n) [.reefer] := fun p hp => by
  cases p <;> simp_all [Part.same]

theorem State.endRack_slot (s : State) (n m : RackNo) (p : PlugNo) :
    (s.endRack n).slot m p = if m = n then Slot.clear else s.slot m p := by
  have hslots : (s.endRack n).reefer.slots = put s.reefer.slots n (Vector.replicate 24 Slot.clear) := rfl
  rw [State.slot, hslots, look_put]
  split
  · exact look_replicate _ _
  · rfl

theorem execCraneWithdrawal_of {c : CraneNo} (hw : (s.entry e).withdrawal = some w) (hnot : w.kindDone = false)
    (hk : (s.entry e).kind = some .crane) (hc : (s.entry e).crane = some c) : exec (.craneWithdrawal e) s =
      .next ((s.endCrane c).partDone e (fun w => { w with kindDone := true })) := by
  simp only [exec, execCraneWithdrawal, hk, hc, State.withdrawing_of hw, hnot]
  rfl

theorem execReeferWithdrawal_of {n : RackNo} (hw : (s.entry e).withdrawal = some w) (hnot : w.kindDone = false)
    (hk : (s.entry e).kind = some .rack) (hn : (s.entry e).rack = some n) : exec (.reeferWithdrawal e) s =
      .next ((s.endRack n).partDone e (fun w => { w with kindDone := true })) := by
  simp only [exec, execReeferWithdrawal, hk, hn, State.withdrawing_of hw, hnot]
  rfl

/-- With no withdrawal that a unit has yet to deal with, its part is nothing. -/
theorem execWithdrawals_none (h : s.withdrawing e (fun w => !w.kindDone) = false) :
    exec (.craneWithdrawal e) s = .next s ∧ exec (.reeferWithdrawal e) s = .next s := by
  simp only [exec, execCraneWithdrawal, execReeferWithdrawal, h, Bool.false_eq_true, if_false]
  constructor
  · split <;> rfl
  · split <;> rfl

end

/-- Settles O16: what each unit's part writes of its own, and what it leaves of the entry with or without the others. -/
theorem eachUnitDealsOnceWithAWithdrawal : Obligations.EachUnitDealsOnceWithAWithdrawal := by
  intro e s
  refine ⟨fun w hw hnot => ?_, fun w c hw hnot hk hc => ?_, fun w n hw hnot hk hn => ?_, fun hdone => ?_, fun hdone => ?_⟩
  · obtain ⟨hwithdrawal, hkind, hcrane, hrack, hyard, hcranes, hracks⟩ := State.afterDiscard_leaves hw
    have hbeam : ∀ b, (s.afterDiscard e).beam b = (s.discardTerminal e).beam b := State.beam_of_beamCtl State.afterDiscard_beamCtl
    refine ⟨s.afterDiscard e, execDownlinkWithdrawal_of hw hnot, ?_, State.afterDiscard_free, State.afterDiscard_raises, ?_,
      fun b u hu f hf hterm => ?_, fun b => ?_, hwithdrawal, hkind, hcrane, hrack, hyard, hcranes, hracks,
      State.afterDiscard_keepsAllBut⟩
    · rw [State.afterDiscard_downlink, State.waiting_dropFrames]
      rfl
    · rw [State.afterDiscard_downlink]
      exact Counts.dropFrames s _ _ _
    · rw [hbeam, State.burst_discardTerminal] at hu
      obtain ⟨v, -, rfl⟩ := Option.map_eq_some_iff.mp hu
      obtain ⟨g, -, rfl⟩ := List.mem_map.mp hf
      by_cases hg : g.terminal = e
      · rw [if_pos hg]
      · rw [if_neg hg] at hterm
        exact absurd hterm hg
    · have hblocks : ∀ f : Frame, (if f.terminal = e then { f with orphaned := true } else f).blocks = f.blocks := fun f => by
        split <;> rfl
      rw [hbeam, State.frames_beam, State.frames_beam, State.burstAt_discardTerminal]
      cases s.burstAt b with
      | none => rfl
      | some u => exact framesBlocks_map hblocks u.frames
  · obtain ⟨hwithdrawal, hkind, hcrane, hrack, hyard, hcranes, hracks⟩ :=
      State.partDone_leaves_of (f := fun w => { w with kindDone := true }) hw (s.endCrane_keepsAllBut c .registry (by decide))
    have hrec : ∀ d, ((s.endCrane c).partDone e (fun w => { w with kindDone := true })).craneRec d =
        if d = c then none else s.craneRec d := fun d =>
      (State.craneRec_of_cranes (by simp) d).trans (s.endCrane_craneRec c d)
    have hlast : (w.downlinkDone && true) = w.downlinkDone := Bool.and_true _
    simp only [hlast, hk, hc, and_true, reduceCtorEq, and_false, if_false, Option.some.injEq] at hwithdrawal hkind hcrane hcranes hracks
    exact ⟨_, execCraneWithdrawal_of hw hnot hk hc, (hrec c).trans (if_pos rfl), fun d hd => (hrec d).trans (if_neg hd), hwithdrawal,
      hkind, hcrane, by rw [hyard, hlast], hcranes, hracks,
      ((s.endCrane_keepsAllBut c).mono (by decide)).step State.partDone_keepsAllBut (by decide)⟩
  · obtain ⟨hwithdrawal, hkind, hcrane, hrack, hyard, hcranes, hracks⟩ :=
      State.partDone_leaves_of (f := fun w => { w with kindDone := true }) hw (s.endRack_keepsAllBut n .registry (by decide))
    have hreefer : ((s.endRack n).partDone e (fun w => { w with kindDone := true })).reefer = (s.endRack n).reefer := by simp
    have hrec : ∀ m, ((s.endRack n).partDone e (fun w => { w with kindDone := true })).rackRec m =
        if m = n then none else s.rackRec m := fun m =>
      (State.rackRec_of_reefer hreefer m).trans (look_put _ _ _ _)
    have hslot : ∀ m p, ((s.endRack n).partDone e (fun w => { w with kindDone := true })).slot m p =
        if m = n then Slot.clear else s.slot m p := fun m p =>
      (State.slot_of_reefer hreefer m p).trans (s.endRack_slot n m p)
    have hlast : (w.downlinkDone && true) = w.downlinkDone := Bool.and_true _
    simp only [hlast, hk, hn, and_true, reduceCtorEq, and_false, if_false, Option.some.injEq] at hwithdrawal hkind hrack hcranes hracks
    exact ⟨_, execReeferWithdrawal_of hw hnot hk hn, (hrec n).trans (if_pos rfl), fun m hm => (hrec m).trans (if_neg hm),
      fun p => (hslot n p).trans (if_pos rfl), fun m p hm => (hslot m p).trans (if_neg hm), by rw [hreefer]; rfl, by rw [hreefer]; rfl,
      hwithdrawal, hkind, hrack, by rw [hyard, hlast], hracks, hcranes,
      ((s.endRack_keepsAllBut n).mono (by decide)).step State.partDone_keepsAllBut (by decide)⟩
  · simp only [exec, execDownlinkWithdrawal]
    rw [State.withdrawing_false fun w hw => by rw [hdone w hw]; rfl]
    rfl
  · exact execWithdrawals_none (State.withdrawing_false fun w hw => by rw [hdone w hw]; rfl)

end Sys2Proof.Machine
end

section
/-! PROOFS. Stall watches and subscriptions (R136, R137). -/

namespace Sys2Proof.Machine

section
variable {s : State} {c : CraneNo} {k : CraneRec} {i : FrameId} {since : Time}

/-! ### STALL_EXPIRY (R136) -/

theorem State.stallOver_false (h : ∀ k : CraneRec, s.craneRec c = some k → ∀ w, k.watch = some w →
    elapsed s.clock.ms w.2 < s.param pStallLimit) : s.stallOver c = false := by
  unfold State.stallOver
  rcases hrec : s.craneRec c with _ | k
  · rfl
  · rcases hw : k.watch with _ | w
    · simp [hw]
    · have hless := h k hrec w hw
      simp only [Option.bind_some, hw, decide_eq_false_iff_not, Nat.not_le]
      exact hless

section
variable (hrec : s.craneRec c = some k) (hw : k.watch = some (i, since)) (hover : s.param pStallLimit ≤ elapsed s.clock.ms since)
include hrec hw hover

theorem execStallExpiry_of : exec (.stallExpiry c) s = .next (s.expireWatch c) := by
  have hyes : s.stallOver c = true := by
    simp [State.stallOver, hrec, hw]
    exact hover
  simp only [exec, execStallExpiry, hyes, if_true]

omit hover

theorem State.expireWatch_reported (hin : i ∈ k.reported) :
    s.expireWatch c = s.setCraneRec c (some { k with watch := none }) := by
  rw [State.expireWatch, hrec]
  dsimp only
  rw [hw]
  exact if_pos hin

/-- A crane's stall, noted in its record before it is raised. -/
def State.stallNoted (s : State) (c : CraneNo) (k : CraneRec) (i : FrameId) : State :=
  s.setCraneRec c (some { k with watch := none, reported := k.reported ++ [i] })

theorem State.expireWatch_raised (hnot : i ∉ k.reported) : s.expireWatch c =
    ((s.stallNoted c k i).raiseWhere (fun _ n => n.rights.traffic) (.safetyStall c (s.entry k.entry).seg)).bumpCrane 8 := by
  rw [State.expireWatch, hrec]
  dsimp only
  rw [hw]
  exact if_neg hnot

end

theorem State.stallRaised_cranes (n : Notice) : (((s.stallNoted c k i).raiseWhere (fun _ n => n.rights.traffic) n).bumpCrane 8).cranes =
    { (s.stallNoted c k i).cranes with counters := bump s.cranes.counters 8 } := by
  simp [State.bumpCrane]
  rfl

theorem State.stallRaised_keepsAllBut (n : Notice) :
    s.KeepsAllBut (((s.stallNoted c k i).raiseWhere (fun _ n => n.rights.traffic) n).bumpCrane 8) [.links, .cranes] := fun p hp => by
  cases p <;> simp_all [Part.same, State.stallNoted]

/-! ### SUBSCRIBE (R137) -/

/-- What SUBSCRIBE does with a crane. -/
def State.giveSubscribe (s : State) (r : Request) (on : Bool) (e : EntryNo) (c : CraneNo) (k : CraneRec) : State :=
  let l := r.ref.link
  let was := look k.subs l
  let s := s.setCraneRec c (some { k with subs := put k.subs l on })
  let s := if on && !was then s.bumpCrane 9 else if !on && was then s.bumpCrane 10 else s
  s.reply r.ref .ok (.subscribed c k.cond (s.entry e).seg on)

theorem exec_subscribe {r : Request} {q : Token} {on : Bool} {e : EntryNo} (hasks : s.Asks .subscribe r)
    (hread : readSubscribe r.body = some (q, on)) (hpassed : s.checkToken r.ref.link q false = .passed e) :
    exec (.subscribe r.ref.link) s =
      .next (((s.taken r).bumpAcc 4).withCrane r e (((s.taken r).bumpAcc 4).giveSubscribe r on e)) :=
  exec_asks_passed (c := .subscribe) (k := Prod.fst) (f := fun q u e => u.withCrane r e (u.giveSubscribe r q.2 e)) hasks
    (fun _ => rfl) hread hpassed

/-- The crane unit once a link has subscribed or not. -/
def State.subscribed (s : State) (l : LinkNo) (on : Bool) (c : CraneNo) (k : CraneRec) : State :=
  let s := s.setCraneRec c (some { k with subs := put k.subs l on })
  if on = true ∧ look k.subs l = false then s.bumpCrane 9 else if on = false ∧ look k.subs l = true then s.bumpCrane 10 else s

theorem State.giveSubscribe_eq (r : Request) (on : Bool) (e : EntryNo) : s.giveSubscribe r on e c k =
    (s.subscribed r.ref.link on c k).reply r.ref .ok (.subscribed c k.cond (s.entry e).seg on) := by
  cases on <;> cases h : look k.subs r.ref.link <;> simp [State.giveSubscribe, State.subscribed, h] <;> rfl

theorem State.subscribed_cranes (l : LinkNo) (on : Bool) : (s.subscribed l on c k).cranes =
    { (s.setCraneRec c (some { k with subs := put k.subs l on })).cranes with
      counters := if on = true ∧ look k.subs l = false then bump s.cranes.counters 9
        else if on = false ∧ look k.subs l = true then bump s.cranes.counters 10 else s.cranes.counters } := by
  unfold State.subscribed
  dsimp only
  split_ifs <;> rfl

theorem State.subscribed_keepsAllBut (l : LinkNo) (on : Bool) : s.KeepsAllBut (s.subscribed l on c k) [.cranes] := by
  unfold State.subscribed
  dsimp only
  split_ifs
  all_goals
    intro p hp
    cases p <;> simp_all [Part.same]

end

/-- Settles O44: a watch that is over or not, its frame reported before or not; and what a subscription writes. -/
theorem stallsAreRaisedOnceAndSubscriptionsHeld : Obligations.StallsAreRaisedOnceAndSubscriptionsHeld := by
  refine ⟨fun c s => ⟨fun hnone => ?_, fun k i since hrec hw hover => ?_⟩, fun r s q on e hasks hread hpassed => ?_⟩
  · simp only [exec, execStallExpiry, State.stallOver_false hnone, Bool.false_eq_true, if_false]
  · rw [execStallExpiry_of hrec hw hover]
    refine ⟨fun hin => congrArg Host.Outcome.next (State.expireWatch_reported hrec hw hin), fun hnot => ⟨_,
      congrArg Host.Outcome.next (State.expireWatch_raised hrec hw hnot), ?_, fun d hd => ?_, ?_, fun l => ?_,
      State.stallRaised_keepsAllBut _⟩⟩
    · rw [State.craneRec, State.stallRaised_cranes]
      exact look_put_self _ _ _
    · rw [State.craneRec, State.stallRaised_cranes]
      exact (State.craneRec_setCraneRec s c d _).trans (if_neg hd)
    · rw [State.stallRaised_cranes]
    · exact State.raiseWhere_link (s.stallNoted c k i) _ _ l
  · rw [exec_subscribe hasks hread hpassed]
    have hentry : ((s.taken r).bumpAcc 4).entry e = s.entry e := rfl
    have hcranes : ((s.taken r).bumpAcc 4).cranes = s.cranes := rfl
    generalize (s.taken r).bumpAcc 4 = u at hentry hcranes ⊢
    rw [← hentry, ← hcranes]
    refine ⟨fun hkind => congrArg Host.Outcome.next (State.withCrane_wrong hkind r _), fun c k hkind hc hrec => ?_⟩
    rw [← State.craneRec_of_cranes hcranes] at hrec
    refine ⟨u.subscribed r.ref.link on c k, ?_, ?_, fun d hd => ?_, ?_, State.subscribed_keepsAllBut _ _⟩
    · rw [State.withCrane_of hkind hc hrec, State.giveSubscribe_eq]
    · rw [State.craneRec, State.subscribed_cranes]
      exact look_put_self _ _ _
    · rw [State.craneRec, State.subscribed_cranes, ← State.craneRec_of_cranes hcranes]
      exact (State.craneRec_setCraneRec u c d _).trans (if_neg hd)
    · rw [State.subscribed_cranes]

end Sys2Proof.Machine
end

section
/-! PROOFS. A command on a head's line, the counts of the coverage block that move, and a beam that closes (R70, R77, R78). -/

namespace Sys2Proof.Machine

/-! ### What moves of the coverage block -/

/-- Of the coverage block nothing but these counters has moved. -/
def State.CountsOnly (s t : State) (is : List (Fin 24)) : Prop :=
  t.coverage = { s.coverage with counters := t.coverage.counters } ∧
    ∀ i ∉ is, look t.coverage.counters i = look s.coverage.counters i

section
variable {s t u : State} {is js : List (Fin 24)}

theorem State.CountsOnly.of_coverage (h : t.coverage = s.coverage) : s.CountsOnly t is := by
  rw [State.CountsOnly, h]
  exact ⟨rfl, fun _ _ => rfl⟩

theorem State.CountsOnly.trans (h : s.CountsOnly t is) (g : t.CountsOnly u is) : s.CountsOnly u is := by
  refine ⟨?_, fun i hi => (g.2 i hi).trans (h.2 i hi)⟩
  rw [g.1, h.1]

theorem State.CountsOnly.mono (h : s.CountsOnly t is) (hsub : ∀ i ∈ is, i ∈ js) : s.CountsOnly t js :=
  ⟨h.1, fun i hi => h.2 i fun hmem => hi (hsub i hmem)⟩

theorem State.CountsOnly.bumpCov (s : State) {k : Fin 24} (hk : k ∈ is) : s.CountsOnly (s.bumpCov k) is :=
  ⟨rfl, fun _ hi => look_bump_ne _ fun h => hi (h ▸ hk)⟩

theorem State.CountsOnly.left (h : t.CountsOnly u is) (ht : t.coverage = s.coverage) : s.CountsOnly u is := by
  rwa [State.CountsOnly, ← ht]

theorem State.CountsOnly.right (h : s.CountsOnly t is) (hu : u.coverage = t.coverage) : s.CountsOnly u is := by
  rwa [State.CountsOnly, hu]

/-- Cells, segments and reach windows are not counters. -/
theorem State.CountsOnly.cells (h : s.CountsOnly t is) : t.coverage.cells = s.coverage.cells ∧ t.coverage.segs = s.coverage.segs ∧
    t.coverage.reach = s.coverage.reach := by
  rw [h.1]
  exact ⟨rfl, rfl, rfl⟩

end

/-! ### A head's line -/

section
variable (s : State) (h : HeadNo) (c : HeadCmd)

theorem State.CountsOnly.sendNext : s.CountsOnly (s.sendNext h) [9] := by
  unfold State.sendNext
  dsimp only
  split
  · split
    · exact (State.CountsOnly.bumpCov _ (by decide)).left rfl
    · exact .of_coverage rfl
  · exact .of_coverage rfl

theorem State.CountsOnly.pushCmd : s.CountsOnly (s.pushCmd h c) [9] := (State.CountsOnly.sendNext _ h).left rfl

theorem State.head_pushCmd (i : HeadNo) : (s.pushCmd h c).head i =
    if i = h then Head.next { s.head h with queue := (s.head h).queue ++ [c] } s.clock.ms else s.head i := by
  rw [State.head_of_beamCtl (s.pushCmd_beamCtl h c), State.head_setHead]

theorem State.waitList_pushCmd : (s.pushCmd h c).beamCtl.waitList = s.beamCtl.waitList := by
  rw [State.pushCmd_beamCtl]
  rfl

theorem State.beams_pushCmd : (s.pushCmd h c).beamCtl.beams = s.beamCtl.beams := by
  rw [State.pushCmd_beamCtl]
  rfl

end

/-- A head whose command is on the line, or queued. -/
def Head.Sends (x : Head) (c : HeadCmd) : Prop := c ∈ x.queue ∨ ∃ o : Outstanding, x.outstanding = some o ∧ o.cmd = c

theorem Head.next_took (x : Head) (c : HeadCmd) (now : Time) : x.Took (Head.next { x with queue := x.queue ++ [c] } now) c now := by
  refine ⟨fun hout => ?_, fun hout hqueue => ?_⟩
  · obtain ⟨o, ho⟩ := Option.ne_none_iff_exists'.mp hout
    simp only [Head.next, ho]
  · simp [Head.next, hout, hqueue]

theorem Head.Sends.next {x : Head} {c : HeadCmd} (h : x.Sends c) (now : Time) : (x.next now).Sends c := by
  unfold Head.next
  split
  · next d rest hout hqueue =>
    rcases h with hmem | ⟨o, ho, -⟩
    · rw [hqueue] at hmem
      rcases List.mem_cons.mp hmem with rfl | hrest
      · exact .inr ⟨_, rfl, rfl⟩
      · exact .inl hrest
    · rw [hout] at ho
      cases ho
  · exact h

/-- A command that joins a queue is queued or sent, and so is every one before it. -/
theorem Head.Sends.pushed {x : Head} {c d : HeadCmd} (h : x.Sends d ∨ d = c) (now : Time) :
    (Head.next { x with queue := x.queue ++ [c] } now).Sends d := by
  refine Head.Sends.next ?_ now
  rcases h with (hmem | hout) | rfl
  · exact .inl (List.mem_append_left _ hmem)
  · exact .inr hout
  · exact .inl (List.mem_append_right _ List.mem_cons_self)

theorem State.pushCmd_took (s : State) (h : HeadNo) (c : HeadCmd) :
    (s.head h).Took ((s.pushCmd h c).head h) c s.clock.ms := by
  rw [State.head_pushCmd, if_pos rfl]
  exact Head.next_took _ _ _

/-! ### BEAM_LOST (R78) -/

section
variable (s : State) (b : BeamNo) (v : LossReason)

theorem State.Tells.raiseLost : s.Tells (s.raiseLost b v) (fun l =>
    if look (s.beam b).holders l = true then [.beamLost b (s.beam b).seg v] else []) := by
  unfold State.raiseLost
  dsimp only
  split
  · next hnone =>
    have hno : ∀ l, look (s.beam b).holders l = false := (LinkSet.isNone_iff _).mp hnone
    exact (State.Tells.of_links rfl).congr fun l => by rw [hno l]; rfl
  · exact (State.Tells.raiseWhere s _ _).links_right rfl

theorem State.raiseLost_counters : (s.raiseLost b v).coverage.counters =
    if (s.beam b).holders.isNone = true then s.coverage.counters else bump s.coverage.counters 23 := by
  unfold State.raiseLost
  dsimp only
  split
  · rfl
  · simp [State.bumpCov]

theorem State.CountsOnly.raiseLost : s.CountsOnly (s.raiseLost b v) [23] := by
  unfold State.raiseLost
  dsimp only
  split
  · exact .of_coverage rfl
  · exact (State.CountsOnly.bumpCov _ (by decide)).left (by simp)

end

/-! ### A beam that closes (R78) -/

/-- A beam that goes to CLOSING, its RELEASE on the way. -/
def State.toClosing (s : State) (b : BeamNo) : State :=
  (s.setBeam b { (s.beam b).cleared .closing with seg := (s.beam b).seg }).pushCmd (headOf b) (.release (sideOf b))

section
variable {s : State} {b : BeamNo}

theorem State.closeBeam_opened (hopen : (s.beam b).state = .opened) (o : Option LossReason) : s.closeBeam b o =
    (match o with
      | some v => s.raiseLost b v
      | none => s).toClosing b := by
  have hnot : ¬((s.beam b).state = .steering ∧ (s.head (headOf b)).steerQueued (sideOf b) = true) := by simp [hopen]
  unfold State.closeBeam
  dsimp only
  rw [if_neg hnot, if_pos (.inl hopen)]
  cases o with
  | none => rfl
  | some v => simp only [State.toClosing, State.beam_raiseLost]

theorem Beam.closing_eq {x : Beam} (hburst : x.burst = none) : { x.cleared .closing with seg := x.seg } = Beam.closing x.seg := by
  simp [Beam.cleared, Beam.closing, hburst]

theorem State.toClosing_beamCtl : (s.toClosing b).beamCtl =
    ((s.setBeam b { (s.beam b).cleared .closing with seg := (s.beam b).seg }).setHead (headOf b) (Head.next
      { s.head (headOf b) with queue := (s.head (headOf b)).queue ++ [.release (sideOf b)] } s.clock.ms)).beamCtl := by
  rw [State.toClosing, State.pushCmd_beamCtl]
  rfl

theorem State.beam_toClosing (hburst : (s.beam b).burst = none) (d : BeamNo) : (s.toClosing b).beam d =
    if d = b then Beam.closing (s.beam b).seg else s.beam d := by
  rw [State.beam_of_beamCtl State.toClosing_beamCtl, State.beam_setHead, State.beam_setBeam, ← Beam.closing_eq hburst]

theorem State.head_toClosing (i : HeadNo) : (s.toClosing b).head i = if i = headOf b then Head.next
    { s.head (headOf b) with queue := (s.head (headOf b)).queue ++ [.release (sideOf b)] } s.clock.ms else s.head i := by
  rw [State.head_of_beamCtl State.toClosing_beamCtl, State.head_setHead]
  rfl

theorem State.toClosing_took : (s.head (headOf b)).Took ((s.toClosing b).head (headOf b)) (.release (sideOf b)) s.clock.ms := by
  rw [State.head_toClosing, if_pos rfl]
  exact Head.next_took _ _ _

theorem State.waitList_toClosing : (s.toClosing b).beamCtl.waitList = s.beamCtl.waitList := by
  rw [State.toClosing_beamCtl]
  rfl

theorem State.links_toClosing : (s.toClosing b).links = s.links := by
  simp [State.toClosing]

theorem State.CountsOnly.toClosing : s.CountsOnly (s.toClosing b) [9] := by
  have hpush := State.CountsOnly.pushCmd (s.setBeam b { (s.beam b).cleared .closing with seg := (s.beam b).seg }) (headOf b)
    (.release (sideOf b))
  exact hpush.left rfl

theorem State.toClosing_keepsAllBut : s.KeepsAllBut (s.toClosing b) [.coverage, .beamCtl] := fun p hp => by
  cases p <;> simp_all [Part.same, State.toClosing]

theorem State.raiseLost_keepsAllBut (v : LossReason) : s.KeepsAllBut (s.raiseLost b v) [.links, .coverage] := fun p hp => by
  cases p <;> simp_all [Part.same]

end

end Sys2Proof.Machine
end

section
/-! PROOFS. The head timers and the steer wait limit (R75, R79 to R81, R86). -/

namespace Sys2Proof.Machine

/-! ### A beam of a head that becomes OVERDUE (R80) -/

/-- The reason for which a beam of an OVERDUE head closes. -/
def Beam.overdueReason (x : Beam) : LossReason := x.closePending.getD .survey

/-- A beam whose close waits for its burst or its steer. -/
def Beam.pending (x : Beam) : Beam := { x with closePending := some x.overdueReason }

section
variable {s : State} {b : BeamNo}

theorem State.overdueBeam_eq (s : State) (b : BeamNo) : s.overdueBeam b = match (s.beam b).state with
    | .opened => if (s.beam b).burst.isNone then
        (s.setBeam b (s.beam b).pending).closeBeam b (some (s.beam b).overdueReason) else s.setBeam b (s.beam b).pending
    | .steering => s.setBeam b (s.beam b).pending
    | _ => s := rfl

/-- An OPEN beam without a burst closes at once. -/
theorem State.overdueBeam_closes (hopen : (s.beam b).state = .opened) (hburst : (s.beam b).burst = none) :
    s.overdueBeam b = ((s.setBeam b (s.beam b).pending).raiseLost b (s.beam b).overdueReason).toClosing b := by
  have hset : ((s.setBeam b (s.beam b).pending).beam b).state = .opened := by
    rw [State.beam_setBeam_self]
    exact hopen
  rw [← State.closeBeam_opened (o := some _) hset, State.overdueBeam_eq, hopen, hburst]
  rfl

/-- A STEERING beam, and an OPEN one with a burst, close later. -/
theorem State.overdueBeam_pends (h : (s.beam b).state = .steering ∨ (s.beam b).state = .opened ∧ (s.beam b).burst ≠ none) :
    s.overdueBeam b = s.setBeam b (s.beam b).pending := by
  rw [State.overdueBeam_eq]
  rcases h with hsteer | ⟨hopen, hburst⟩
  · rw [hsteer]
  · rw [hopen]
    exact if_neg fun hnone => hburst (Option.isNone_iff_eq_none.mp hnone)

theorem State.overdueBeam_other (hopen : (s.beam b).state ≠ .opened) (hsteer : (s.beam b).state ≠ .steering) :
    s.overdueBeam b = s := by
  unfold State.overdueBeam
  dsimp only
  split
  · next h => exact absurd h hopen
  · next h => exact absurd h hsteer
  · rfl

/-- What becomes of the beam. -/
def Beam.overdue (x : Beam) : Beam :=
  if x.state = .opened ∧ x.burst = none then Beam.closing x.seg
  else if x.state = .opened ∨ x.state = .steering then x.pending else x

section
variable {x : Beam}

/-- A beam whose close waits is not one that closes at once. -/
theorem Beam.not_free_of_later (h : x.state = .steering ∨ x.state = .opened ∧ x.burst ≠ none) : ¬(x.state = .opened ∧ x.burst = none) := by
  rintro ⟨hopen, hburst⟩
  rcases h with hsteer | ⟨-, hnot⟩
  · rw [hsteer] at hopen
    cases hopen
  · exact hnot hburst

theorem Beam.overdue_closes (hopen : x.state = .opened) (hburst : x.burst = none) : x.overdue = Beam.closing x.seg :=
  if_pos ⟨hopen, hburst⟩

theorem Beam.overdue_pends (h : x.state = .steering ∨ x.state = .opened ∧ x.burst ≠ none) : x.overdue = x.pending := by
  rw [Beam.overdue, if_neg (Beam.not_free_of_later h), if_pos (h.symm.imp_left And.left)]

theorem Beam.overdue_other (hopen : x.state ≠ .opened) (hsteer : x.state ≠ .steering) : x.overdue = x := by
  rw [Beam.overdue, if_neg fun h => hopen h.1, if_neg (not_or.mpr ⟨hopen, hsteer⟩)]

end

/-- The three ways of a beam of an OVERDUE head. -/
theorem State.overdueBeam_cases (s : State) (b : BeamNo) :
    ((s.beam b).state = .opened ∧ (s.beam b).burst = none) ∨
    ((s.beam b).state = .steering ∨ (s.beam b).state = .opened ∧ (s.beam b).burst ≠ none) ∨
    ((s.beam b).state ≠ .opened ∧ (s.beam b).state ≠ .steering) := by
  by_cases hopen : (s.beam b).state = .opened <;> by_cases hburst : (s.beam b).burst = none <;>
    by_cases hsteer : (s.beam b).state = .steering <;> simp [hopen, hburst, hsteer]

theorem State.overdueBeam_beam (d : BeamNo) : (s.overdueBeam b).beam d = if d = b then (s.beam b).overdue else s.beam d := by
  rcases s.overdueBeam_cases b with ⟨hopen, hburst⟩ | hlater | ⟨hopen, hsteer⟩
  · have hnone : (((s.setBeam b (s.beam b).pending).raiseLost b (s.beam b).overdueReason).beam b).burst = none := by
      rw [State.beam_raiseLost, State.beam_setBeam_self]
      exact hburst
    rw [State.overdueBeam_closes hopen hburst, State.beam_toClosing hnone, State.beam_raiseLost, State.beam_raiseLost,
      State.beam_setBeam_self, Beam.overdue_closes hopen hburst]
    by_cases hd : d = b
    · rw [if_pos hd, if_pos hd]
      rfl
    · rw [if_neg hd, if_neg hd, State.beam_setBeam, if_neg hd]
  · rw [State.overdueBeam_pends hlater, State.beam_setBeam, Beam.overdue_pends hlater]
  · rw [State.overdueBeam_other hopen hsteer, Beam.overdue_other hopen hsteer]
    by_cases hd : d = b
    · rw [if_pos hd, hd]
    · rw [if_neg hd]

/-- Its head's line may take the RELEASE and no more. -/
theorem State.overdueBeam_head (i : HeadNo) : (s.overdueBeam b).head i =
    if i = headOf b ∧ (s.beam b).state = .opened ∧ (s.beam b).burst = none then
      Head.next { s.head i with queue := (s.head i).queue ++ [.release (sideOf b)] } s.clock.ms
    else s.head i := by
  rcases s.overdueBeam_cases b with ⟨hopen, hburst⟩ | hlater | ⟨hopen, hsteer⟩
  · have hhead : ∀ j, ((s.setBeam b (s.beam b).pending).raiseLost b (s.beam b).overdueReason).head j = s.head j := fun j =>
      State.head_of_beamCtl (State.raiseLost_frame _ _ _).2.2.2.2.1 j
    have hclock : ((s.setBeam b (s.beam b).pending).raiseLost b (s.beam b).overdueReason).clock = s.clock :=
      (State.raiseLost_frame _ _ _).1
    rw [State.overdueBeam_closes hopen hburst, State.head_toClosing, hhead, hhead, hclock]
    by_cases hi : i = headOf b
    · rw [if_pos hi, if_pos ⟨hi, hopen, hburst⟩, hi]
    · rw [if_neg hi, if_neg fun h => hi h.1]
  · rw [State.overdueBeam_pends hlater, State.head_setBeam, if_neg fun h => Beam.not_free_of_later hlater h.2]
  · rw [State.overdueBeam_other hopen hsteer, if_neg fun h => hopen h.2.1]

theorem State.Tells.overdueBeam (s : State) (b : BeamNo) :
    s.Tells (s.overdueBeam b) ((s.beam b).lostNow b ((s.beam b).closePending.getD .survey)) := by
  rcases s.overdueBeam_cases b with ⟨hopen, hburst⟩ | hlater | ⟨hopen, hsteer⟩
  · rw [State.overdueBeam_closes hopen hburst]
    have htells := State.Tells.raiseLost (s.setBeam b (s.beam b).pending) b (s.beam b).overdueReason
    refine ((htells.links_left rfl).links_right State.links_toClosing).congr fun l => ?_
    rw [State.beam_setBeam_self]
    simp [Beam.lostNow, hopen, hburst, Beam.pending, Beam.overdueReason]
  · rw [State.overdueBeam_pends hlater]
    refine (State.Tells.of_links rfl).congr fun l => ?_
    rw [Beam.lostNow, if_neg]
    · rfl
    · rintro ⟨hopen, hburst, -⟩
      exact Beam.not_free_of_later hlater ⟨hopen, Option.isNone_iff_eq_none.mp hburst⟩
  · rw [State.overdueBeam_other hopen hsteer]
    exact (State.Tells.of_links rfl).congr fun l => by rw [Beam.lostNow, if_neg fun h => hopen h.1]; rfl

/-- A close with BEAM_LOST at any holder counts once. -/
theorem Beam.lostNow_ne_nil {x : Beam} {v : LossReason} : (∃ l : LinkNo, x.lostNow b v l ≠ []) ↔
    x.state = .opened ∧ x.burst = none ∧ x.holders.isNone = false := by
  rw [LinkSet.isNone_eq_false_iff]
  simp only [Beam.lostNow, Option.isNone_iff_eq_none]
  constructor
  · rintro ⟨l, hl⟩
    by_cases h : x.state = .opened ∧ x.burst = none ∧ look x.holders l = true
    · exact ⟨h.1, h.2.1, l, h.2.2⟩
    · rw [if_neg h] at hl
      exact absurd rfl hl
  · rintro ⟨hopen, hburst, l, hl⟩
    exact ⟨l, by rw [if_pos ⟨hopen, hburst, hl⟩]; exact List.cons_ne_nil _ _⟩

theorem Counts.overdueBeam (s : State) (b : BeamNo) : Counts s.coverage.counters (s.overdueBeam b).coverage.counters 23
    (if ∃ l : LinkNo, (s.beam b).lostNow b .survey l ≠ [] then 1 else 0) := by
  rw [if_congr Beam.lostNow_ne_nil rfl rfl]
  rcases s.overdueBeam_cases b with ⟨hopen, hburst⟩ | hlater | ⟨hopen, hsteer⟩
  · have hclosing := (State.CountsOnly.toClosing (s := (s.setBeam b (s.beam b).pending).raiseLost b (s.beam b).overdueReason) (b := b)).2
      23 (by decide)
    rw [State.raiseLost_counters, State.beam_setBeam_self] at hclosing
    rw [State.overdueBeam_closes hopen hburst]
    refine Counts.right ?_ hclosing
    cases hholders : (s.beam b).holders.isNone with
    | true =>
      rw [if_pos (c := (s.beam b).pending.holders.isNone = true) hholders, if_neg (by simp)]
      exact Counts.zero rfl
    | false =>
      rw [if_neg (by simp [Beam.pending, hholders]), if_pos ⟨hopen, hburst, rfl⟩]
      exact Counts.bump _ _
  · rw [State.overdueBeam_pends hlater, if_neg fun h => Beam.not_free_of_later hlater ⟨h.1, h.2.1⟩]
    exact Counts.zero rfl
  · rw [State.overdueBeam_other hopen hsteer, if_neg fun h => hopen h.1]
    exact Counts.zero rfl

theorem State.overdueBeam_keepsAllBut : s.KeepsAllBut (s.overdueBeam b) [.links, .coverage, .beamCtl] := fun p hp => by
  cases p <;> simp_all [Part.same]

end

end Sys2Proof.Machine
end

section
/-! PROOFS. The head timers and the steer wait limit, whole (R75, R79 to R81, R86). -/

namespace Sys2Proof.Machine

section
variable {s : State} {h : HeadNo}

/-! ### PROBE_TIME and SWEEP_RETRY_TIME (R81, R86) -/

theorem Head.next_times (x : Head) (now : Time) : (x.next now).probeAt = x.probeAt ∧ (x.next now).reference = x.reference := by
  unfold Head.next
  split <;> simp

/-- A head's timer fires: its record is written and a command joins its line. -/
def State.fires (s : State) (h : HeadNo) (x : Head) (c : HeadCmd) : State := (s.setHead h x).pushCmd h c

section
variable {x : Head} {c : HeadCmd}

theorem State.head_fires : (s.fires h x c).head h = Head.next { x with queue := x.queue ++ [c] } s.clock.ms := by
  rw [State.fires, State.head_pushCmd, if_pos rfl, State.head_setHead_self]
  rfl

theorem State.fires_took : x.Took ((s.fires h x c).head h) c s.clock.ms := by
  rw [State.head_fires]
  exact Head.next_took x c _

theorem State.beams_fires : (s.fires h x c).beamCtl.beams = s.beamCtl.beams := State.beams_pushCmd _ _ _

theorem State.CountsOnly.fires : s.CountsOnly (s.fires h x c) [9] := (State.CountsOnly.pushCmd _ _ _).left rfl

theorem State.fires_keepsAllBut : s.KeepsAllBut (s.fires h x c) [.coverage, .beamCtl] := fun p hp => by
  cases p <;> simp_all [Part.same, State.fires]

end

theorem execProbeTime_of {t : Time} (hfault : (s.head h).state = .fault) (hat : (s.head h).probeAt = some t)
    (hreached : reached s.clock.ms t = true) :
    exec (.probeTime h) s = .next ((s.fires h { s.head h with probeAt := some (t + 1000) } .probe).bumpCov 16) := by
  simp only [exec, execProbeTime, hat]
  rw [if_pos ⟨hfault, hreached⟩]
  rfl

theorem execProbeTime_not (hnot : (s.head h).state ≠ .fault ∨ (s.head h).probeAt = none ∨
    ∃ t : Time, (s.head h).probeAt = some t ∧ reached s.clock.ms t = false) : exec (.probeTime h) s = .next s := by
  simp only [exec, execProbeTime]
  split
  · next t hat =>
    refine congrArg Host.Outcome.next (if_neg ?_)
    rintro ⟨hfault, hreached⟩
    rcases hnot with hstate | hnone | ⟨v, hv, hfalse⟩
    · exact hstate hfault
    · rw [hat] at hnone
      cases hnone
    · rw [hat] at hv
      cases hv
      exact Bool.false_ne_true (hfalse.symm.trans hreached)
  · rfl

theorem execSweepRetryTime_of {t : Time} (hat : (s.head h).retryAt = some t) (hreached : reached s.clock.ms t = true) :
    exec (.sweepRetryTime h) s = .next (s.fires h { s.head h with retryAt := none } .sweep) := by
  simp only [exec, execSweepRetryTime, hat]
  exact congrArg Host.Outcome.next (if_pos hreached)

theorem execSweepRetryTime_not (hnot : (s.head h).retryAt = none ∨
    ∃ t : Time, (s.head h).retryAt = some t ∧ reached s.clock.ms t = false) : exec (.sweepRetryTime h) s = .next s := by
  simp only [exec, execSweepRetryTime]
  rcases hnot with hnone | ⟨t, hat, hfalse⟩
  · rw [hnone]
  · rw [hat]
    exact congrArg Host.Outcome.next (if_neg (by rw [show reached s.now t = false from hfalse]; decide))

/-! ### SURVEY_DUE and SURVEY_OVERDUE (R79, R80) -/

theorem State.surveyOld_iff (n : Nat) : s.surveyOld h n = true ↔
    (s.head h).state = .ready ∧ n * (s.param pSurveyPeriod * 1000) ≤ elapsed s.clock.ms (s.head h).reference := by
  rw [State.surveyOld, Bool.and_eq_true, beq_iff_eq]
  exact and_congr_right fun _ => decide_eq_true_iff

theorem execSurveyDue_of (hold : s.surveyOld h 1 = true) (hcurrent : (s.head h).survey = .current) :
    exec (.surveyDue h) s = .next (s.makeDue h) := by
  simp only [exec, execSurveyDue, hold, hcurrent]
  rfl

theorem execSurveyDue_not (hnot : ¬(s.surveyOld h 1 = true ∧ (s.head h).survey = .current)) : exec (.surveyDue h) s = .next s := by
  simp only [exec, execSurveyDue]
  exact congrArg Host.Outcome.next (if_neg (by simpa using hnot))

theorem execSurveyOverdue_of (hold : s.surveyOld h 2 = true) (hnot : (s.head h).survey ≠ .overdue) :
    exec (.surveyOverdue h) s = .next (s.makeOverdue h) := by
  simp only [exec, execSurveyOverdue, hold]
  exact congrArg Host.Outcome.next (if_pos (by simpa using hnot))

theorem execSurveyOverdue_not (hnot : ¬(s.surveyOld h 2 = true ∧ (s.head h).survey ≠ .overdue)) :
    exec (.surveyOverdue h) s = .next s := by
  simp only [exec, execSurveyOverdue]
  exact congrArg Host.Outcome.next (if_neg (by simpa using hnot))

/-! ### A sweep that may not start -/

theorem State.trySweep_busy {v : Side} (hbusy : (s.beam (beamOf h v)).state ≠ .idle) : s.trySweep h = s := by
  refine State.trySweep_of_not fun hmay => hbusy ?_
  obtain ⟨-, -, ha, hb, -⟩ := State.sweepMay_iff.mp hmay
  cases v
  · exact ha
  · exact hb

theorem State.trySweep_beam_other {b : BeamNo} (hb : headOf b ≠ h) : (s.trySweep h).beam b = s.beam b := by
  have hside : ∀ v : Side, b ≠ beamOf h v := fun v hv => hb (hv ▸ headOf_beamOf h v)
  by_cases hmay : s.sweepMay h = true
  · rw [State.trySweep_of_may hmay, State.beam_bumpCov, State.beam_setHead, State.surveyBeams, State.beam_setBeam,
      if_neg (hside _), State.beam_setBeam, if_neg (hside _)]
  · rw [State.trySweep_of_not hmay]

theorem State.trySweep_survey : ((s.trySweep h).head h).survey = (s.head h).survey ∧
    ((s.trySweep h).head h).reference = (s.head h).reference ∧ ((s.trySweep h).head h).state = (s.head h).state := by
  by_cases hmay : s.sweepMay h = true
  · rw [State.trySweep_of_may hmay, State.head_bumpCov, State.head_setHead_self]
    exact ⟨rfl, rfl, rfl⟩
  · rw [State.trySweep_of_not hmay]
    exact ⟨rfl, rfl, rfl⟩

theorem State.CountsOnly.trySweep (s : State) (h : HeadNo) : s.CountsOnly (s.trySweep h) [12] := by
  by_cases hmay : s.sweepMay h = true
  · rw [State.trySweep_of_may hmay]
    exact (State.CountsOnly.bumpCov _ (by decide)).left rfl
  · rw [State.trySweep_of_not hmay]
    exact .of_coverage rfl

/-! ### A head that becomes OVERDUE (R80) -/

/-- Both beams dealt with, before a sweep is tried. -/
def State.overdueBeams (s : State) (h : HeadNo) : State :=
  ((s.setSurvey h .overdue).overdueBeam (beamOf h .a)).overdueBeam (beamOf h .b)

theorem State.makeOverdue_eq (s : State) (h : HeadNo) : s.makeOverdue h = (s.overdueBeams h).trySweep h := rfl

theorem State.overdueBeams_beam (d : BeamNo) : (s.overdueBeams h).beam d = if headOf d = h then (s.beam d).overdue else s.beam d := by
  have hother : ((s.setSurvey h .overdue).overdueBeam (beamOf h .a)).beam (beamOf h .b) = s.beam (beamOf h .b) := by
    rw [State.overdueBeam_beam, if_neg (beamOf_ne h)]
    rfl
  rw [State.overdueBeams, State.overdueBeam_beam, hother, State.overdueBeam_beam]
  by_cases hd : headOf d = h
  · rw [if_pos hd]
    rcases beam_of_head hd with rfl | rfl
    · rw [if_neg (beamOf_ne h).symm, if_pos rfl]
      rfl
    · rw [if_pos rfl]
  · have hside : ∀ v : Side, d ≠ beamOf h v := fun v hv => hd (hv ▸ headOf_beamOf h v)
    rw [if_neg hd, if_neg (hside .b), if_neg (hside .a)]
    rfl

/-- A beam that is dealt with now or later keeps its head from a sweep. -/
theorem State.makeOverdue_of_busy {b : BeamNo} (hb : headOf b = h) (hbusy : (s.beam b).state = .opened ∨ (s.beam b).state = .steering) :
    s.makeOverdue h = s.overdueBeams h := by
  have hnot : (s.beam b).overdue.state ≠ .idle := by
    unfold Beam.overdue
    split_ifs
    · exact BeamState.noConfusion
    · rcases hbusy with h | h <;> simp [Beam.pending, h]
  have hbeam := State.overdueBeams_beam (s := s) (h := h) b
  rw [if_pos hb] at hbeam
  rw [← hbeam] at hnot
  rw [State.makeOverdue_eq]
  rcases beam_of_head hb with rfl | rfl
  · exact State.trySweep_busy hnot
  · exact State.trySweep_busy hnot

theorem Head.Sends.overdueBeam {b : BeamNo} {i : HeadNo} {c : HeadCmd} (hsends : (s.head i).Sends c) :
    ((s.overdueBeam b).head i).Sends c := by
  rw [State.overdueBeam_head]
  split
  · exact Head.Sends.pushed (.inl hsends) _
  · exact hsends

theorem State.overdueBeam_sends {b : BeamNo} (hopen : (s.beam b).state = .opened) (hburst : (s.beam b).burst = none) :
    ((s.overdueBeam b).head (headOf b)).Sends (.release (sideOf b)) := by
  rw [State.overdueBeam_head, if_pos ⟨rfl, hopen, hburst⟩]
  exact Head.Sends.pushed (.inr rfl) _

theorem State.overdueBeams_sends {b : BeamNo} (hb : headOf b = h) (hopen : (s.beam b).state = .opened)
    (hburst : (s.beam b).burst = none) : ((s.overdueBeams h).head h).Sends (.release (sideOf b)) := by
  rcases beam_of_head hb with rfl | rfl
  · refine Head.Sends.overdueBeam ?_
    have hfirst := State.overdueBeam_sends (s := s.setSurvey h .overdue) hopen hburst
    rwa [headOf_beamOf] at hfirst
  · have hother : ((s.setSurvey h .overdue).overdueBeam (beamOf h .a)).beam (beamOf h .b) = s.beam (beamOf h .b) := by
      rw [State.overdueBeam_beam, if_neg (beamOf_ne h)]
      rfl
    rw [← hother] at hopen hburst
    have hsecond := State.overdueBeam_sends hopen hburst
    rwa [headOf_beamOf] at hsecond

theorem State.overdueBeam_survey {b : BeamNo} {i : HeadNo} : ((s.overdueBeam b).head i).survey = (s.head i).survey := by
  rw [State.overdueBeam_head]
  split
  · exact (Head.next_state _ _).2.1
  · rfl

theorem State.makeOverdue_survey : ((s.makeOverdue h).head h).survey = .overdue := by
  rw [State.makeOverdue_eq, State.trySweep_survey.1, State.overdueBeams, State.overdueBeam_survey, State.overdueBeam_survey,
    State.setSurvey, State.head_setHead_self]

theorem State.Tells.makeOverdue (s : State) (h : HeadNo) : s.Tells (s.makeOverdue h) (fun l => (beamsOf h).flatMap (fun b =>
    (s.beam b).lostNow b ((s.beam b).closePending.getD .survey) l)) := by
  have hfirst := State.Tells.overdueBeam (s.setSurvey h .overdue) (beamOf h .a)
  have hsecond := State.Tells.overdueBeam ((s.setSurvey h .overdue).overdueBeam (beamOf h .a)) (beamOf h .b)
  have hother : ((s.setSurvey h .overdue).overdueBeam (beamOf h .a)).beam (beamOf h .b) = s.beam (beamOf h .b) := by
    rw [State.overdueBeam_beam, if_neg (beamOf_ne h)]
    rfl
  rw [hother] at hsecond
  have hsweep : (s.makeOverdue h).links = (s.overdueBeams h).links := (State.trySweep_frame _ _).2.1
  refine (((hfirst.links_left rfl).trans hsecond).links_right hsweep).congr fun l => ?_
  simp [beamsOf]
  rfl

theorem Counts.makeOverdue (s : State) (h : HeadNo) : Counts s.coverage.counters (s.makeOverdue h).coverage.counters 23
    ((beamsOf h).filter (fun b => ∃ l : LinkNo, (s.beam b).lostNow b .survey l ≠ [])).length := by
  have hfirst := Counts.overdueBeam (s.setSurvey h .overdue) (beamOf h .a)
  have hsecond := Counts.overdueBeam ((s.setSurvey h .overdue).overdueBeam (beamOf h .a)) (beamOf h .b)
  have hother : ((s.setSurvey h .overdue).overdueBeam (beamOf h .a)).beam (beamOf h .b) = s.beam (beamOf h .b) := by
    rw [State.overdueBeam_beam, if_neg (beamOf_ne h)]
    rfl
  rw [hother] at hsecond
  have hboth := (hfirst.trans hsecond).right ((State.CountsOnly.trySweep (s.overdueBeams h) h).2 23 (by decide))
  have hlength : ((beamsOf h).filter (fun b => ∃ l : LinkNo, (s.beam b).lostNow b .survey l ≠ [])).length =
      (if ∃ l : LinkNo, (s.beam (beamOf h .a)).lostNow (beamOf h .a) .survey l ≠ [] then 1 else 0) +
      (if ∃ l : LinkNo, (s.beam (beamOf h .b)).lostNow (beamOf h .b) .survey l ≠ [] then 1 else 0) := by
    simp only [beamsOf, List.filter_cons, List.filter_nil, decide_eq_true_eq]
    split_ifs <;> rfl
  rw [hlength]
  exact hboth

end

end Sys2Proof.Machine
end

section
/-! PROOFS. The timers of the heads and of the wait list, as they fire (R75, R79 to R81, R86). -/

namespace Sys2Proof.Machine

section
variable {s : State} {h : HeadNo}

theorem State.makeOverdue_keepsLinks : s.KeepsAllBut (s.makeOverdue h) [.links, .coverage, .beamCtl] := fun p hp => by
  cases p <;> simp_all [Part.same]

theorem State.bumpCov_keepsAllBut (s : State) (k : Fin 24) : s.KeepsAllBut (s.bumpCov k) [.coverage] := fun p hp => by
  cases p <;> simp_all [Part.same]

/-- A timer that fires keeps its time, and the command it sends is on the line or queued. -/
theorem State.fires_line {x : Head} {c : HeadCmd} (hqueue : x.queue = (s.head h).queue) (hout : x.outstanding = (s.head h).outstanding)
    (hnumber : x.nextNumber = (s.head h).nextNumber) :
    ((s.head h).outstanding = none → (s.head h).queue = [] → ((s.fires h x c).head h).queue = [] ∧
      ((s.fires h x c).head h).outstanding =
        some { cmd := c, number := (s.head h).nextNumber, sentAt := s.clock.ms, leftToFinish := false }) ∧
    ((s.head h).outstanding ≠ none → ((s.fires h x c).head h).queue = (s.head h).queue ++ [c] ∧
      ((s.fires h x c).head h).outstanding = (s.head h).outstanding) := by
  obtain ⟨hbusy, hidle⟩ := State.fires_took (s := s) (h := h) (x := x) (c := c)
  rw [← hqueue, ← hout, ← hnumber]
  exact ⟨hidle, fun hsome => by rw [hbusy hsome]; exact ⟨rfl, rfl⟩⟩

theorem execWaitExpiry_of {i : Fin 16} {w : WaitEntry} (hw : s.beamCtl.waitList[i.val]? = some w) :
    exec (.waitExpiry i) s = .next (if s.param pWaitLimit ≤ elapsed s.clock.ms w.req.arrival then s.expireWait w else s) := by
  simp only [exec, execWaitExpiry, hw]
  exact congrArg Host.Outcome.next (if_congr decide_eq_true_iff rfl rfl)

end

/-- Settles O35: each timer before and at its time; a head that becomes OVERDUE by its two beams; a waiting entry by its age. -/
theorem headAndWaitTimersActWhenReached : Obligations.HeadAndWaitTimersActWhenReached := by
  refine ⟨fun h s => ⟨execProbeTime_not, fun t hfault hat hreached => ?_, execSweepRetryTime_not, fun t hat hreached => ?_⟩,
    fun h s => ?_, fun i s => ⟨fun hnone => ?_, fun w hw => ⟨fun hyoung => ?_, fun hold => ?_⟩⟩⟩
  · obtain ⟨hidle, hbusy⟩ := State.fires_line (s := s) (h := h) (x := { s.head h with probeAt := some (t + 1000) }) (c := .probe)
      rfl rfl rfl
    refine ⟨_, execProbeTime_of hfault hat hreached, ?_, ?_, hidle, hbusy, State.beams_fires, ?_⟩
    · rw [State.head_bumpCov, State.head_fires, (Head.next_times _ _).1]
    · exact (look_bump_self _ _).trans (congrArg satInc (State.CountsOnly.fires.2 16 (by decide)))
    · exact State.fires_keepsAllBut.step (State.bumpCov_keepsAllBut _ _) (by decide)
  · obtain ⟨hidle, -⟩ := State.fires_line (s := s) (h := h) (x := { s.head h with retryAt := none }) (c := .sweep) rfl rfl rfl
    refine ⟨_, execSweepRetryTime_of hat hreached, ?_, hidle, State.beams_fires, State.fires_keepsAllBut⟩
    rw [State.head_fires, (Head.next_state _ _).2.2.1]
  · intro age period
    have hone : s.surveyOld h 1 = true ↔ (s.head h).state = .ready ∧ period ≤ age := by
      rw [State.surveyOld_iff, one_mul]
    have htwo : s.surveyOld h 2 = true ↔ (s.head h).state = .ready ∧ 2 * period ≤ age := State.surveyOld_iff 2
    refine ⟨fun hnot => execSurveyDue_not ?_, fun hready hold hcurrent => ?_, fun hnot => execSurveyOverdue_not ?_,
      fun hready hold hnot => ?_⟩
    · rw [hone]
      rintro ⟨⟨hready, hold⟩, hcurrent⟩
      exact hnot.elim (absurd hready) fun h => h.elim (Nat.not_lt.mpr hold) (absurd hcurrent)
    · obtain ⟨hdue, hreference, -⟩ := State.makeDue_head hready
      exact ⟨_, execSurveyDue_of (hone.mpr ⟨hready, hold⟩) hcurrent, hdue, hreference, State.makeDue_keepsLinks⟩
    · rw [htwo]
      rintro ⟨⟨hready, hold⟩, hother⟩
      exact hnot.elim (absurd hready) fun h => h.elim (Nat.not_lt.mpr hold) hother
    · refine ⟨_, execSurveyOverdue_of (htwo.mpr ⟨hready, hold⟩) hnot, State.makeOverdue_survey, fun b hb hopen hburst => ?_,
        State.Tells.makeOverdue s h, Counts.makeOverdue s h, fun b hb hlater => ?_, fun b hb => ?_, State.makeOverdue_keepsLinks⟩
      · rw [State.makeOverdue_of_busy hb (.inl hopen), State.overdueBeams_beam, if_pos hb]
        exact ⟨Beam.overdue_closes hopen hburst, State.overdueBeams_sends hb hopen hburst⟩
      · rw [State.makeOverdue_of_busy hb (hlater.symm.imp_left And.left), State.overdueBeams_beam, if_pos hb]
        exact Beam.overdue_pends hlater
      · rw [State.makeOverdue_eq, State.trySweep_beam_other hb, State.overdueBeams_beam, if_neg hb]
  · simp only [exec, execWaitExpiry, hnone]
  · rw [execWaitExpiry_of hw, if_neg (Nat.not_le.mpr hyoung)]
  · rw [execWaitExpiry_of hw, if_pos hold]
    rfl

end Sys2Proof.Machine
end

section
/-! PROOFS. Joining a beam and serving the wait list: what a beam that has become free or open takes (R73, R76, R79). -/

namespace Sys2Proof.Machine

/-! ### What depends on the links alone -/

theorem State.reply_links_congr {u v : State} (h : u.links = v.links) (r : ReqRef) (st : Status) (b : ReplyBody) :
    (u.reply r st b).links = (v.reply r st b).links := by
  simp only [State.reply, State.onLink, h]

theorem State.answer_links_congr {u v : State} (h : u.links = v.links) (r : ReqRef) (st : Status) :
    (u.answer r st).links = (v.answer r st).links := State.reply_links_congr h r st .empty

/-- Steps that write the links alike write them alike in turn. -/
theorem foldl_links_congr {β : Type} {f g : State → β → State}
    (hfg : ∀ (u v : State) (b : β), u.links = v.links → (f u b).links = (g v b).links) (bs : List β) {u v : State}
    (h : u.links = v.links) : (bs.foldl f u).links = (bs.foldl g v).links := by
  induction bs generalizing u v with
  | nil => exact h
  | cons b bs ih => exact ih (hfg u v b h)

theorem foldl_answer_links {qs : List OpenReq} {st : Status} {u v : State} (h : u.links = v.links) :
    (qs.foldl (fun s q => s.answer q.ref st) u).links = (qs.foldl (fun s q => s.answer q.ref st) v).links :=
  foldl_links_congr (f := fun s q => s.answer q.ref st) (g := fun s q => s.answer q.ref st)
    (fun _ _ q h => State.answer_links_congr h q.ref st) qs h

/-! ### Joining (R73, R76) -/

/-- A beam that these waiting entries have joined. -/
def Beam.joinedAll (x : Beam) (ws : List WaitEntry) : Beam := ws.foldl (fun x w => x.joined w.req) x

section
variable (x : Beam) (ws : List WaitEntry)

/-- Joining writes holders and awaiting requests alone. -/
theorem Beam.joinedAll_eq : x.joinedAll ws = { x with
    holders := (x.joinedAll ws).holders
    awaiting := if x.state = .opened then x.awaiting else x.awaiting ++ ws.map (fun w => w.req) } := by
  induction ws generalizing x with
  | nil =>
    simp only [Beam.joinedAll, List.foldl_nil, List.map_nil, List.append_nil]
    split <;> rfl
  | cons w ws ih =>
    have hrest := ih (x.joined w.req)
    rw [show x.joinedAll (w :: ws) = (x.joined w.req).joinedAll ws from rfl, hrest]
    by_cases hopen : x.state = .opened
    · simp [Beam.joined, hopen]
    · simp [Beam.joined, hopen]

theorem Beam.holders_joined_mono (r : OpenReq) {l : LinkNo} (hl : look x.holders l = true) :
    look (x.joined r).holders l = true := by
  simp only [Beam.joined, look_put]
  split
  · rfl
  · exact hl

theorem Beam.holders_joinedAll_mono {l : LinkNo} (hl : look x.holders l = true) : look (x.joinedAll ws).holders l = true := by
  induction ws generalizing x with
  | nil => exact hl
  | cons w ws ih => exact ih _ (x.holders_joined_mono w.req hl)

end

section
variable {s : State} {b : BeamNo} {g : SegNo}

theorem State.CountsOnly.join (r : OpenReq) : s.CountsOnly (s.join b r g) [19] := by
  unfold State.join
  dsimp only
  split
  · exact ((State.CountsOnly.bumpCov _ (by decide)).left rfl).right rfl
  · exact (State.CountsOnly.bumpCov _ (by decide)).left rfl

theorem State.foldl_join_beamCtl (ws : List WaitEntry) (s : State) : (ws.foldl (fun s w => s.join b w.req g) s).beamCtl =
    (s.setBeam b ((s.beam b).joinedAll ws)).beamCtl := by
  induction ws generalizing s with
  | nil => simp [Beam.joinedAll, State.setBeam, State.beam, put, look]
  | cons w ws ih =>
    rw [List.foldl_cons, ih, State.beam_of_beamCtl (s.join_beamCtl b w.req g), State.beam_setBeam_self]
    simp only [State.setBeam, s.join_beamCtl b w.req g]
    simp [put, Beam.joinedAll]

theorem State.CountsOnly.foldl_join (ws : List WaitEntry) (s : State) :
    s.CountsOnly (ws.foldl (fun s w => s.join b w.req g) s) [19] := by
  induction ws generalizing s with
  | nil => exact .of_coverage rfl
  | cons w ws ih => exact (State.CountsOnly.join w.req).trans (ih _)

/-- Requests that join a STEERING beam wait for its answer. -/
theorem State.foldl_join_quiet (ws : List WaitEntry) {s : State} (hnot : (s.beam b).state ≠ .opened) :
    (ws.foldl (fun s w => s.join b w.req g) s).links = s.links := by
  induction ws generalizing s with
  | nil => rfl
  | cons w ws ih =>
    have hbeam := State.beam_of_beamCtl (s.join_beamCtl b w.req g) b
    rw [State.beam_setBeam_self] at hbeam
    have hjoin : (s.join b w.req g).links = s.links := by
      rw [State.join]
      dsimp only
      rw [if_neg hnot]
      rfl
    rw [List.foldl_cons, ih (by rw [hbeam]; exact hnot), hjoin]

/-- Requests that join an OPEN beam are answered at once. -/
theorem State.foldl_join_answers (ws : List WaitEntry) {s u : State} (hopen : (s.beam b).state = .opened) (hu : s.links = u.links) :
    (ws.foldl (fun s w => s.join b w.req g) s).links =
      ((ws.map (fun w => w.req.ref)).foldl (fun s q => s.reply q .ok (.opened b (headOf b) g)) u).links := by
  induction ws generalizing s u with
  | nil => exact hu
  | cons w ws ih =>
    have hbeam := State.beam_of_beamCtl (s.join_beamCtl b w.req g) b
    rw [State.beam_setBeam_self] at hbeam
    refine ih (by rw [hbeam]; exact hopen) ?_
    unfold State.join
    dsimp only
    rw [if_pos hopen]
    exact State.reply_links_congr hu _ _ _

/-! ### Serving the wait list (R76) -/

theorem State.joinWaiting_beamCtl : (s.joinWaiting b g).beamCtl = ((s.setWaitList (s.beamCtl.waitList.filter (fun w => !w.joins g))).setBeam b
    ((s.beam b).joinedAll (s.beamCtl.waitList.filter (fun w => w.joins g)))).beamCtl :=
  State.foldl_join_beamCtl _ _

theorem State.CountsOnly.joinWaiting : s.CountsOnly (s.joinWaiting b g) [19] := (State.CountsOnly.foldl_join _ _).left rfl

theorem State.joinWaiting_quiet (hnot : (s.beam b).state ≠ .opened) : (s.joinWaiting b g).links = s.links := by
  have hfold := State.foldl_join_quiet (g := g) (s.beamCtl.waitList.filter (fun w => w.joins g))
    (s := s.setWaitList (s.beamCtl.waitList.filter (fun w => !w.joins g))) hnot
  exact hfold

theorem State.joinWaiting_answers (hopen : (s.beam b).state = .opened) : (s.joinWaiting b g).links =
    (((s.beamCtl.waitList.filter (fun w => w.joins g)).map (fun w => w.req.ref)).foldl
      (fun s q => s.reply q .ok (.opened b (headOf b) g)) s).links := by
  have hfold := State.foldl_join_answers (g := g) (s.beamCtl.waitList.filter (fun w => w.joins g)) (u := s)
    (s := s.setWaitList (s.beamCtl.waitList.filter (fun w => !w.joins g))) hopen rfl
  exact hfold

/-- A beam's record as its STEER is queued. -/
def Beam.steered (x : Beam) (r : OpenReq) (g : SegNo) (oneShot : Bool) : Beam :=
  { x with state := .steering, seg := some g, holders := LinkSet.only r.ref.link, awaiting := [r], oneShot := oneShot }

theorem State.steer_eq (r : OpenReq) (oneShot : Bool) : s.steer b r g oneShot =
    (s.setBeam b ((s.beam b).steered r g oneShot)).pushCmd (headOf b) (.steer (sideOf b) g) := rfl

theorem State.beam_steer (r : OpenReq) (oneShot : Bool) (d : BeamNo) : (s.steer b r g oneShot).beam d =
    if d = b then (s.beam b).steered r g oneShot else s.beam d := by
  rw [State.steer_eq, State.beam_pushCmd, State.beam_setBeam]

theorem State.waitList_steer (r : OpenReq) (oneShot : Bool) : (s.steer b r g oneShot).beamCtl.waitList = s.beamCtl.waitList := by
  rw [State.steer_eq, State.waitList_pushCmd, State.waitList_setBeam]

theorem State.CountsOnly.steer (r : OpenReq) (oneShot : Bool) : s.CountsOnly (s.steer b r g oneShot) [9] := by
  have hpush := State.CountsOnly.pushCmd (s.setBeam b ((s.beam b).steered r g oneShot)) (headOf b) (.steer (sideOf b) g)
  exact hpush.left rfl

/-- A beam may serve: it is IDLE, its head READY and CURRENT. -/
def State.mayServe (s : State) (b : BeamNo) : Prop :=
  (s.beam b).state = .idle ∧ (s.head (headOf b)).state = .ready ∧ (s.head (headOf b)).survey = .current

theorem State.serveIdle_not (hnot : ¬s.mayServe b) : s.serveIdle b = s := if_neg hnot

theorem State.serveIdle_none (hnone : ∀ w ∈ s.beamCtl.waitList, s.cellUsable (headOf b) w.seg = false) : s.serveIdle b = s := by
  have hfind : s.beamCtl.waitList.find? (fun w => s.cellUsable (headOf b) w.seg) = none :=
    List.find?_eq_none.mpr fun w hw => by simp [hnone w hw]
  rw [State.serveIdle]
  dsimp only
  rw [hfind]
  exact ite_self s

/-- The entries that join the beam that an entry steers (R76). -/
def WaitEntry.company (w : WaitEntry) (ws : List WaitEntry) : List WaitEntry :=
  ws.filter (fun v => !w.oneShot && v.joins w.seg)

section
variable {before after : List WaitEntry} {w : WaitEntry}

/-- The first entry that a beam can serve steers it, and takes its company along. -/
theorem State.serveIdle_some (hmay : s.mayServe b) (hlist : s.beamCtl.waitList = before ++ w :: after)
    (hbefore : ∀ v ∈ before, s.cellUsable (headOf b) v.seg = false) (hw : s.cellUsable (headOf b) w.seg = true) :
    s.serveIdle b = if w.oneShot then (s.setWaitList (before ++ after)).steer b w.req w.seg w.oneShot
      else ((s.setWaitList (before ++ after)).steer b w.req w.seg w.oneShot).joinWaiting b w.seg := by
  have hfind : s.beamCtl.waitList.find? (fun w => s.cellUsable (headOf b) w.seg) = some w := by
    refine List.find?_eq_some_iff_append.mpr ⟨hw, before, after, hlist, fun v hv => ?_⟩
    simp [hbefore v hv]
  have hnotin : w ∉ before := fun hin => by
    rw [hbefore w hin] at hw
    cases hw
  have herase : s.beamCtl.waitList.erase w = before ++ after := by
    rw [hlist, List.erase_append_right _ hnotin, List.erase_cons_head]
  rw [State.serveIdle]
  dsimp only
  obtain ⟨hidle, hready, hcurrent⟩ := hmay
  rw [if_pos ⟨hidle, hready, hcurrent⟩, hfind]
  dsimp only
  rw [herase]

/-- What it is then: a STEERING beam with its requests, and the list without them. -/
theorem State.serveIdle_serves (hmay : s.mayServe b) (hlist : s.beamCtl.waitList = before ++ w :: after)
    (hbefore : ∀ v ∈ before, s.cellUsable (headOf b) v.seg = false) (hw : s.cellUsable (headOf b) w.seg = true) :
    ((s.serveIdle b).beam b = { s.beam b with
      state := .steering, seg := some w.seg, oneShot := w.oneShot, holders := ((s.serveIdle b).beam b).holders
      awaiting := w.req :: (w.company (before ++ after)).map (fun v => v.req) }) ∧
    look ((s.serveIdle b).beam b).holders w.req.ref.link = true ∧
    (s.serveIdle b).beamCtl.waitList = (before ++ after).filter (fun v => !(!w.oneShot && v.joins w.seg)) ∧
    (s.serveIdle b).links = s.links ∧ s.CountsOnly (s.serveIdle b) [9, 19] ∧
    ∀ d : BeamNo, d ≠ b → (s.serveIdle b).beam d = s.beam d := by
  have hone : look ((s.beam b).steered w.req w.seg w.oneShot).holders w.req.ref.link = true := (LinkSet.look_only _ _).mpr rfl
  have hlinks : ((s.setWaitList (before ++ after)).steer b w.req w.seg w.oneShot).links = s.links := (State.steer_frame _ _ _ _ _).2.1
  have hcounts : s.CountsOnly ((s.setWaitList (before ++ after)).steer b w.req w.seg w.oneShot) [9] :=
    (State.CountsOnly.steer w.req w.oneShot).left rfl
  have hbeam := State.beam_steer (s := s.setWaitList (before ++ after)) (b := b) (g := w.seg) w.req w.oneShot
  have hwaits := State.waitList_steer (s := s.setWaitList (before ++ after)) (b := b) (g := w.seg) w.req w.oneShot
  rw [State.serveIdle_some hmay hlist hbefore hw]
  cases hshot : w.oneShot with
  | true =>
    rw [hshot] at hbeam hwaits hone hlinks hcounts
    rw [if_pos rfl]
    refine ⟨?_, ?_, ?_, hlinks, hcounts.mono (by decide), fun d hd => ?_⟩
    · rw [hbeam, if_pos rfl]
      simp [Beam.steered, WaitEntry.company, hshot]
    · rw [hbeam, if_pos rfl]
      exact hone
    · rw [hwaits]
      simp
    · rw [hbeam, if_neg hd]
      rfl
  | false =>
    rw [hshot] at hbeam hwaits hone hlinks hcounts
    rw [if_neg (by decide)]
    generalize (s.setWaitList (before ++ after)).steer b w.req w.seg false = u at *
    have hself := hbeam b
    rw [if_pos rfl] at hself
    have hsteer : (u.beam b).state ≠ .opened := by
      rw [hself]
      exact BeamState.noConfusion
    have hjoined := State.joinWaiting_beamCtl (s := u) (b := b) (g := w.seg)
    have hbeams := State.beam_of_beamCtl hjoined
    rw [hwaits] at hbeams
    have hafter := hbeams b
    rw [State.beam_setBeam_self, hself] at hafter
    refine ⟨?_, ?_, ?_, ?_, (hcounts.mono (by decide)).trans (State.CountsOnly.joinWaiting.mono (by decide)), fun d hd => ?_⟩
    · rw [hafter]
      refine (Beam.joinedAll_eq _ _).trans ?_
      simp [Beam.steered, WaitEntry.company, hshot]
    · rw [hafter]
      exact Beam.holders_joinedAll_mono _ _ hone
    · rw [hjoined]
      simp [hwaits]
    · exact (State.joinWaiting_quiet hsteer).trans hlinks
    · rw [hbeams, State.beam_setBeam, if_neg hd]
      exact (hbeam d).trans (if_neg hd)

end

end

end Sys2Proof.Machine
end

section
/-! PROOFS. RELEASE (R77, R78). -/

namespace Sys2Proof.Machine

/-! ### A beam that is freed before its STEER is sent (R78) -/

section
variable {s : State} {b : BeamNo}

/-- The STEER leaves the queue, and the beam is IDLE before it serves. -/
def State.steerDropped (s : State) (b : BeamNo) : State :=
  (s.setHead (headOf b) ((s.head (headOf b)).dropSteer (sideOf b))).setBeam b ((s.beam b).cleared .idle)

theorem State.closeBeam_queued (hsteer : (s.beam b).state = .steering)
    (hqueued : (s.head (headOf b)).steerQueued (sideOf b) = true) (o : Option LossReason) :
    s.closeBeam b o = (s.steerDropped b).becameIdle b := if_pos ⟨hsteer, hqueued⟩

theorem State.closeBeam_sent (hstate : (s.beam b).state = .opened ∨
      ((s.beam b).state = .steering ∧ (s.head (headOf b)).steerQueued (sideOf b) = false)) :
    s.closeBeam b none = s.toClosing b := by
  have hnot : ¬((s.beam b).state = .steering ∧ (s.head (headOf b)).steerQueued (sideOf b) = true) := by
    rintro ⟨hsteer, hqueued⟩
    rcases hstate with hopen | ⟨-, hno⟩
    · rw [hopen] at hsteer
      cases hsteer
    · rw [hno] at hqueued
      cases hqueued
  unfold State.closeBeam
  dsimp only
  rw [if_neg hnot, if_pos (hstate.imp_right And.left)]
  rfl

theorem State.closeBeam_other (hopen : (s.beam b).state ≠ .opened) (hsteer : (s.beam b).state ≠ .steering) (o : Option LossReason) :
    s.closeBeam b o = s := by
  unfold State.closeBeam
  dsimp only
  rw [if_neg fun h => hsteer h.1, if_neg (not_or.mpr ⟨hopen, hsteer⟩)]

theorem State.steerDropped_beam (d : BeamNo) : (s.steerDropped b).beam d =
    if d = b then (s.beam b).cleared .idle else s.beam d := State.beam_setBeam _ b d _

theorem State.steerDropped_head (i : HeadNo) : (s.steerDropped b).head i =
    if i = headOf b then (s.head (headOf b)).dropSteer (sideOf b) else s.head i := State.head_setHead s _ i _

/-- No STEER of the beam is left in the queue. -/
theorem Head.dropSteer_none (x : Head) (sd : Side) (g : SegNo) : HeadCmd.steer sd g ∉ (x.dropSteer sd).queue := by
  simp [Head.dropSteer]

/-! ### A beam that has become IDLE (R76, R79) -/

theorem State.trySweep_current {h : HeadNo} (hcurrent : (s.head h).survey = .current) : s.trySweep h = s := by
  refine State.trySweep_of_not fun hmay => ?_
  obtain ⟨-, hsurvey, -⟩ := State.sweepMay_iff.mp hmay
  exact hsurvey hcurrent

/-- Under a head that is CURRENT the beam serves at once. -/
theorem State.becameIdle_current (hcurrent : (s.head (headOf b)).survey = .current) : s.becameIdle b = s.serveIdle b := by
  rw [State.becameIdle, State.trySweep_current hcurrent]

/-- Under another head a sweep is tried, and the list waits. -/
theorem State.becameIdle_not (hnot : ¬((s.head (headOf b)).state = .ready ∧ (s.head (headOf b)).survey = .current)) :
    s.becameIdle b = s.trySweep (headOf b) := by
  refine State.serveIdle_not fun hmay => hnot ?_
  obtain ⟨-, hready, hcurrent⟩ := hmay
  rw [State.trySweep_survey.2.2] at hready
  rw [State.trySweep_survey.1] at hcurrent
  exact ⟨hready, hcurrent⟩

/-- What a sweep that is tried makes of a beam. -/
theorem State.trySweep_beam (s : State) (h : HeadNo) (v : Side) : (s.trySweep h).beam (beamOf h v) = s.beam (beamOf h v) ∨
    (s.trySweep h).beam (beamOf h v) = { s.beam (beamOf h v) with state := .surveying } := by
  by_cases hmay : s.sweepMay h = true
  · rw [State.trySweep_of_may hmay, State.beam_bumpCov, State.beam_setHead, State.surveyBeams_beam]
    exact .inr rfl
  · rw [State.trySweep_of_not hmay]
    exact .inl rfl

theorem State.trySweep_waitList (s : State) (h : HeadNo) : (s.trySweep h).beamCtl.waitList = s.beamCtl.waitList := by
  by_cases hmay : s.sweepMay h = true
  · rw [State.trySweep_of_may hmay]
    rfl
  · rw [State.trySweep_of_not hmay]

/-- A sweep that starts does so on an empty queue. -/
theorem State.trySweep_queue (s : State) (h : HeadNo) : ((s.trySweep h).head h).queue = (s.head h).queue := by
  by_cases hmay : s.sweepMay h = true
  · obtain ⟨-, -, -, -, -, hqueue, -⟩ := State.sweepMay_iff.mp hmay
    rw [State.trySweep_of_may hmay, State.head_bumpCov, State.head_setHead_self, hqueue]
    rfl
  · rw [State.trySweep_of_not hmay]

theorem beamOf_sideOf (b : BeamNo) : beamOf (headOf b) (sideOf b) = b := by
  unfold sideOf
  split
  · simp only [beamOf, headOf, Fin.ext_iff]
    omega
  · simp only [beamOf, headOf, Fin.ext_iff]
    omega

/-- A beam that becomes IDLE under another head: IDLE or SURVEYING, and otherwise as it was. -/
theorem State.becameIdle_waits (hidle : (s.beam b).state = .idle)
    (hnot : ¬((s.head (headOf b)).state = .ready ∧ (s.head (headOf b)).survey = .current)) :
    (((s.becameIdle b).beam b).state = .idle ∨ ((s.becameIdle b).beam b).state = .surveying) ∧
    (s.becameIdle b).beam b = { s.beam b with state := ((s.becameIdle b).beam b).state } ∧
    (s.becameIdle b).beamCtl.waitList = s.beamCtl.waitList ∧
    ((s.becameIdle b).head (headOf b)).queue = (s.head (headOf b)).queue ∧ (s.becameIdle b).links = s.links := by
  rw [State.becameIdle_not hnot]
  refine ⟨?_, ?_, State.trySweep_waitList s _, State.trySweep_queue s _, (State.trySweep_frame s _).2.1⟩
  all_goals
    have hbeam := s.trySweep_beam (headOf b) (sideOf b)
    rw [beamOf_sideOf] at hbeam
    rcases hbeam with h | h <;> rw [h]
  · exact .inl hidle
  · exact .inr rfl

end

/-! ### RELEASE (R77) -/

section
variable {s : State} {r : Request} {b : BeamNo} {l : LinkNo}

/-- A link is off a beam, and its requests that waited there are answered. -/
def State.leftBeam (s : State) (b : BeamNo) (l : LinkNo) : State :=
  ((s.beam b).awaiting.filter (fun q => q.ref.link == l)).foldl (fun s q => s.answer q.ref .noBeam)
    (s.setBeam b ((s.beam b).without l))

theorem State.leftBeam_beamCtl : (s.leftBeam b l).beamCtl = (s.setBeam b ((s.beam b).without l)).beamCtl :=
  foldl_keeps State.beamCtl (fun (s : State) (q : OpenReq) => s.answer q.ref .noBeam) (fun _ _ => rfl) _ _

theorem State.leftBeam_beam (d : BeamNo) : (s.leftBeam b l).beam d = if d = b then (s.beam b).without l else s.beam d := by
  rw [State.beam_of_beamCtl State.leftBeam_beamCtl]
  exact State.beam_setBeam _ _ _ _

theorem State.leftBeam_head (i : HeadNo) : (s.leftBeam b l).head i = s.head i :=
  State.head_of_beamCtl State.leftBeam_beamCtl i

theorem State.leftBeam_coverage : (s.leftBeam b l).coverage = s.coverage :=
  foldl_keeps State.coverage (fun (s : State) (q : OpenReq) => s.answer q.ref .noBeam) (fun _ _ => rfl) _ _

theorem State.leftBeam_keepsAllBut : s.KeepsAllBut (s.leftBeam b l) [.links, .beamCtl] := by
  have hset : s.KeepsAllBut (s.setBeam b ((s.beam b).without l)) [.links, .beamCtl] := fun p hp => by
    cases p <;> simp_all [Part.same]
  exact hset.trans (State.foldl_keepsAllBut (fun u q => fun p hp => by cases p <;> simp_all [Part.same]) _ _)

theorem State.leaveBeam_last (hlast : ∀ m : LinkNo, look (put (s.beam b).holders l false) m = false) :
    s.leaveBeam b l = (s.leftBeam b l).closeBeam b none := by
  rw [State.leaveBeam_eq]
  exact if_pos ((LinkSet.isNone_iff _).mpr hlast)

theorem State.leaveBeam_others (hothers : ∃ m : LinkNo, look (put (s.beam b).holders l false) m = true) :
    s.leaveBeam b l = s.leftBeam b l := by
  rw [State.leaveBeam_eq]
  refine if_neg ?_
  rw [Bool.not_eq_true]
  exact (LinkSet.isNone_eq_false_iff _).mpr hothers

/-- What RELEASE does, its body read. -/
def State.giveRelease (s : State) (r : Request) (b : BeamNo) : State :=
  let x := s.beam b
  let l := r.ref.link
  if !look x.holders l then s.answer r.ref .notHolder
  else
    State.answer (if x.state = .opened ∧ x.ownedBy l = true then s.setBeam b { x with releaseDeferred := true } else s.leaveBeam b l)
      r.ref .ok

theorem exec_release (hasks : s.Asks .release r) (hread : readBeamNo r.body = some b) :
    exec (.release r.ref.link) s = .next ((s.taken r).giveRelease r b) :=
  exec_asks_reading (c := .release) (f := fun u b => u.giveRelease r b) hasks (fun _ => rfl) hread

theorem State.giveRelease_notHolder (hnot : look (s.beam b).holders r.ref.link = false) :
    s.giveRelease r b = s.answer r.ref .notHolder := if_pos (by rw [hnot]; rfl)

section
variable (hholds : look (s.beam b).holders r.ref.link = true)
include hholds

theorem State.giveRelease_deferred (howned : (s.beam b).state = .opened ∧ ∃ u : Burst, (s.beam b).burst = some u ∧ u.owner = r.ref.link) :
    s.giveRelease r b = (s.setBeam b { s.beam b with releaseDeferred := true }).answer r.ref .ok := by
  unfold State.giveRelease
  dsimp only
  rw [hholds, if_neg (by decide), if_pos ⟨howned.1, (Beam.ownedBy_iff _ _).mpr howned.2⟩]

theorem State.giveRelease_leaves (hnot : ¬((s.beam b).state = .opened ∧ ∃ u : Burst, (s.beam b).burst = some u ∧
    u.owner = r.ref.link)) : s.giveRelease r b = (s.leaveBeam b r.ref.link).answer r.ref .ok := by
  unfold State.giveRelease
  dsimp only
  rw [hholds, if_neg (by decide), if_neg fun h => hnot ⟨h.1, (Beam.ownedBy_iff _ _).mp h.2⟩]

end

end

end Sys2Proof.Machine
end

section
/-! PROOFS. RELEASE of each kind of beam (R77, R78). -/

namespace Sys2Proof.Machine

section
variable {s : State} {b : BeamNo}

theorem State.cellUsable_iff (s : State) (h : HeadNo) (g : SegNo) : s.cellUsable h g = true ↔
    ∃ c : Cell, s.cell h g = some c ∧ (c.state = .good ∨ c.state = .weak) := by
  have hone := s.segUsable_iff h (some g)
  rw [Option.any_some] at hone
  rw [hone]
  constructor
  · rintro ⟨_, c, ⟨⟩, hc, hstate⟩
    exact ⟨c, hc, hstate⟩
  · rintro ⟨c, hc, hstate⟩
    exact ⟨g, c, rfl, hc, hstate⟩

theorem State.cellUsable_false (h : HeadNo) (g : SegNo) (hnot : ¬∃ c : Cell, s.cell h g = some c ∧ (c.state = .good ∨ c.state = .weak)) :
    s.cellUsable h g = false := by
  rwa [← State.cellUsable_iff, Bool.not_eq_true] at hnot

/-- Either the beam serves nobody, or it serves the first entry that it can. -/
theorem State.serveIdle_cases (s : State) (b : BeamNo) : s.serveIdle b = s ∨ s.mayServe b ∧
    ∃ (before after : List WaitEntry) (w : WaitEntry), s.beamCtl.waitList = before ++ w :: after ∧
      (∀ v ∈ before, s.cellUsable (headOf b) v.seg = false) ∧ s.cellUsable (headOf b) w.seg = true := by
  by_cases hmay : s.mayServe b
  · cases hfind : s.beamCtl.waitList.find? (fun w => s.cellUsable (headOf b) w.seg) with
    | none => exact .inl (State.serveIdle_none fun w hw => by simpa using List.find?_eq_none.mp hfind w hw)
    | some w =>
      obtain ⟨hw, before, after, hlist, hbefore⟩ := List.find?_eq_some_iff_append.mp hfind
      exact .inr ⟨hmay, before, after, w, hlist, fun v hv => by simpa using hbefore v hv, hw⟩
  · exact .inl (State.serveIdle_not hmay)

theorem State.serveIdle_quiet (s : State) (b : BeamNo) : (s.serveIdle b).links = s.links := by
  rcases s.serveIdle_cases b with hsame | ⟨hmay, before, after, w, hlist, hbefore, hw⟩
  · rw [hsame]
  · exact (State.serveIdle_serves hmay hlist hbefore hw).2.2.2.1

theorem State.becameIdle_quiet (s : State) (b : BeamNo) : (s.becameIdle b).links = s.links :=
  (State.serveIdle_quiet _ b).trans (State.trySweep_frame _ _).2.1

theorem State.closeBeam_quiet (s : State) (b : BeamNo) : (s.closeBeam b none).links = s.links := by
  by_cases hopen : (s.beam b).state = .opened
  · rw [State.closeBeam_sent (.inl hopen), State.links_toClosing]
  · by_cases hsteer : (s.beam b).state = .steering
    · cases hqueued : (s.head (headOf b)).steerQueued (sideOf b) with
      | true =>
        rw [State.closeBeam_queued hsteer hqueued, State.becameIdle_quiet]
        rfl
      | false => rw [State.closeBeam_sent (.inr ⟨hsteer, hqueued⟩), State.links_toClosing]
    · rw [State.closeBeam_other hopen hsteer]

theorem State.closeBeam_keepsAllBut (o : Option LossReason) : s.KeepsAllBut (s.closeBeam b o) [.links, .coverage, .beamCtl] :=
  fun p hp => by cases p <;> simp_all [Part.same]

end

/-- Settles O29: who may release, and what becomes of a beam left without holders: OPEN, STEERING on the line, STEERING in the queue. -/
theorem releaseTakesTheLinkOffTheBeam : Obligations.ReleaseTakesTheLinkOffTheBeam := by
  intro r s b hasks hread l x mine y owned
  have hexec := exec_release hasks hread
  refine ⟨fun hnot => hexec.trans (congrArg Host.Outcome.next (State.giveRelease_notHolder (s := s.taken r) hnot)),
    fun hholds howned => hexec.trans (congrArg Host.Outcome.next (State.giveRelease_deferred (s := s.taken r) hholds howned)),
    fun hholds hnot hothers => hexec.trans (congrArg Host.Outcome.next ((State.giveRelease_leaves (s := s.taken r) hholds hnot).trans
      (congrArg (fun u => u.answer r.ref .ok) (State.leaveBeam_others (s := s.taken r) hothers)))), fun hholds hnot hlast => ?_⟩
  have hbeam : ((s.taken r).leftBeam b l).beam b = y := (State.leftBeam_beam b).trans (if_pos rfl)
  have hhead : ∀ i, ((s.taken r).leftBeam b l).head i = s.head i := fun i => State.leftBeam_head i
  have hwaits : ((s.taken r).leftBeam b l).beamCtl.waitList = s.beamCtl.waitList := by
    rw [State.leftBeam_beamCtl]
    rfl
  have hcov : ((s.taken r).leftBeam b l).coverage = s.coverage := State.leftBeam_coverage
  refine ⟨((s.taken r).leftBeam b l).closeBeam b none, ?_, fun hstate => ?_, fun hsteer hqueued => ?_, ?_,
    (State.leftBeam_keepsAllBut.mono (by decide)).trans (State.closeBeam_keepsAllBut none)⟩
  · refine hexec.trans (congrArg Host.Outcome.next ((State.giveRelease_leaves (s := s.taken r) hholds hnot).trans ?_))
    exact congrArg (fun u => u.answer r.ref .ok) (State.leaveBeam_last (s := s.taken r) hlast)
  · generalize (s.taken r).leftBeam b l = u at hbeam hhead hwaits hcov ⊢
    have hclose : u.closeBeam b none = u.toClosing b := State.closeBeam_sent (by
      rw [hbeam, hhead]
      exact hstate)
    obtain ⟨hbusy, -⟩ := State.toClosing_took (s := u) (b := b)
    have hbeams := State.beam_of_beamCtl (State.toClosing_beamCtl (s := u) (b := b)) b
    rw [State.beam_setHead, State.beam_setBeam_self, hbeam] at hbeams
    rw [hclose, hbeams]
    refine ⟨rfl, rfl, rfl, rfl, rfl, fun hout => ?_⟩
    rw [hhead] at hbusy
    rw [hbusy hout]
  · intro h serves current
    generalize (s.taken r).leftBeam b l = u at hbeam hhead hwaits hcov ⊢
    have hclose : u.closeBeam b none = (u.steerDropped b).becameIdle b :=
      State.closeBeam_queued (by rw [hbeam]; exact hsteer) (by rw [hhead]; exact hqueued) none
    have hidle : (u.steerDropped b).beam b = y.cleared .idle := by rw [State.steerDropped_beam, if_pos rfl, hbeam]
    have hdropped : (u.steerDropped b).head h = (s.head h).dropSteer (sideOf b) := by
      rw [State.steerDropped_head, if_pos rfl, hhead]
    have hlist : (u.steerDropped b).beamCtl.waitList = s.beamCtl.waitList := hwaits
    have hcells : ∀ g, (u.steerDropped b).cellUsable h g = s.cellUsable h g := fun g => by
      rw [State.cellUsable, State.cellUsable, State.cell, State.cell, ← hcov]
      rfl
    rw [hclose]
    have hcoverage : (u.steerDropped b).coverage = s.coverage := hcov
    generalize u.steerDropped b = v at hidle hdropped hlist hcells hcoverage ⊢
    have hready : (v.head h).state = (s.head h).state ∧ (v.head h).survey = (s.head h).survey := by
      rw [hdropped]
      exact ⟨rfl, rfl⟩
    refine ⟨fun hcurrent hnone => ?_, fun hother => ?_, fun before after w hcurrent hsplit hbefore hw => ?_⟩
    · have hstays : v.becameIdle b = v := by
        rw [State.becameIdle_current (hready.2.trans hcurrent.2)]
        exact State.serveIdle_none fun w hw => by
          rw [hcells]
          exact State.cellUsable_false _ _ (hnone w (hlist ▸ hw))
      rw [hstays]
      exact ⟨hidle, hdropped, hlist, hcoverage⟩
    · have hnotcurrent : ¬((v.head h).state = .ready ∧ (v.head h).survey = .current) := by
        rw [hready.1, hready.2]
        exact hother
      obtain ⟨hstate, hsame, hwaitlist, hqueue, -⟩ := State.becameIdle_waits (s := v) (b := b) (by rw [hidle]; rfl) hnotcurrent
      rw [hidle] at hsame
      refine ⟨hstate, by rw [hsame]; rfl, by rw [hsame]; rfl, by rw [hsame]; rfl, hwaitlist.trans hlist, fun g => ?_⟩
      rw [hqueue, hdropped]
      exact Head.dropSteer_none _ _ g
    · rw [State.becameIdle_current (hready.2.trans hcurrent.2)]
      have hmay : v.mayServe b := ⟨by rw [hidle]; rfl, hready.1.trans hcurrent.1, hready.2.trans hcurrent.2⟩
      obtain ⟨hserved, hholds, -⟩ := State.serveIdle_serves hmay (hlist.trans hsplit)
        (fun u hu => (hcells _).trans (State.cellUsable_false _ _ (hbefore u hu)))
        ((hcells _).trans ((State.cellUsable_iff _ _ _).mpr hw))
      refine ⟨by rw [hserved], by rw [hserved], by rw [hserved], hholds, by rw [hserved]; rfl⟩
  · rw [State.closeBeam_quiet]
    exact foldl_answer_links rfl

end Sys2Proof.Machine
end

section
/-! PROOFS. OPEN (R73). -/

namespace Sys2Proof.Machine

section
variable {s : State} {r : Request} {g : SegNo} {b : BeamNo}

/-! ### The four steps -/

theorem State.segUsable_iff_cell : s.segUsable g = true ↔
    ∃ (h : HeadNo) (c : Cell), s.cell h g = some c ∧ (c.state = .good ∨ c.state = .weak) := by
  simp only [State.segUsable, List.any_eq_true, State.cellUsable_iff, allHeads, List.mem_finRange, true_and]

theorem State.joinable_iff : s.joinable b = true ↔ ((s.beam b).state = .opened ∨ (s.beam b).state = .steering) ∧
    (s.beam b).oneShot = false ∧ (s.beam b).closePending = none ∧ (s.head (headOf b)).survey ≠ .overdue ∧
    (s.beam b).releaseDeferred = false := by
  simp [State.joinable, and_assoc]

/-- The lowest-numbered beam that the request may join. -/
theorem State.beamToJoin_eq_some (hseg : (s.beam b).seg = some g) (hjoin : s.joinable b = true)
    (hbefore : ∀ d < b, ¬((s.beam d).seg = some g ∧ s.joinable d = true)) : s.beamToJoin g = some b := by
  refine find?_finRange_eq_some (by simp [hseg, hjoin]) fun d hd => ?_
  have hnot := hbefore d hd
  rw [← beq_iff_eq (a := (s.beam d).seg), ← Bool.and_eq_true, Bool.not_eq_true] at hnot
  exact hnot

theorem State.beamToJoin_eq_none (hnone : ∀ d, ¬((s.beam d).seg = some g ∧ s.joinable d = true)) : s.beamToJoin g = none := by
  refine List.find?_eq_none.mpr fun d _ => ?_
  rw [Bool.and_eq_true, beq_iff_eq]
  exact hnone d

theorem State.idleBeam_eq (h : HeadNo) : s.idleBeam h = if (s.beam (beamOf h .a)).state = .idle then some (beamOf h .a)
    else if (s.beam (beamOf h .b)).state = .idle then some (beamOf h .b) else none := by
  simp only [State.idleBeam, List.find?_cons, List.find?_nil]
  by_cases ha : (s.beam (beamOf h .a)).state = .idle
  · simp [ha]
  · by_cases hb : (s.beam (beamOf h .b)).state = .idle
    · simp [hb, beq_false_of_ne ha, ha]
    · simp [beq_false_of_ne hb, beq_false_of_ne ha, ha, hb]

/-- A head that can steer now. -/
def State.canSteer (s : State) (h : HeadNo) : Prop := (s.head h).state = .ready ∧ (s.head h).survey = .current ∧
  ((s.beam (beamOf h .a)).state = .idle ∨ (s.beam (beamOf h .b)).state = .idle)

/-- Its IDLE beam, beam A first. -/
def State.firstIdle (s : State) (h : HeadNo) : BeamNo := if (s.beam (beamOf h .a)).state = .idle then beamOf h .a else beamOf h .b

theorem headOf_firstIdle (h : HeadNo) : headOf (s.firstIdle h) = h := by
  unfold State.firstIdle
  split <;> exact headOf_beamOf _ _

theorem State.steersOn_eq (h : HeadNo) : (if (s.head h).state = .ready ∧ (s.head h).survey = .current then s.idleBeam h else none) =
    open Classical in if s.canSteer h then some (s.firstIdle h) else none := by
  rw [State.idleBeam_eq, State.firstIdle]
  by_cases hready : (s.head h).state = .ready ∧ (s.head h).survey = .current
  · by_cases ha : (s.beam (beamOf h .a)).state = .idle
    · rw [if_pos hready, if_pos ha, if_pos ⟨hready.1, hready.2, .inl ha⟩, if_pos ha]
    · by_cases hb : (s.beam (beamOf h .b)).state = .idle
      · rw [if_pos hready, if_neg ha, if_pos hb, if_pos ⟨hready.1, hready.2, .inr hb⟩, if_neg ha]
      · rw [if_pos hready, if_neg ha, if_neg hb, if_neg]
        rintro ⟨-, -, h | h⟩
        · exact ha h
        · exact hb h
  · rw [if_neg hready, if_neg fun h => hready ⟨h.1, h.2.1⟩]

/-- The first head of the serving order that can steer does. -/
theorem State.beamToSteer_eq_some {h : HeadNo} {before after : List HeadNo} (horder : s.servingOrder g = before ++ h :: after)
    (hbefore : ∀ i ∈ before, ¬s.canSteer i) (hh : s.canSteer h) : s.beamToSteer g = some (s.firstIdle h) := by
  refine List.findSome?_eq_some_iff.mpr ⟨before, h, after, horder, ?_, fun i hi => ?_⟩
  · rw [State.steersOn_eq, if_pos hh]
  · rw [State.steersOn_eq, if_neg (hbefore i hi)]

theorem State.beamToSteer_eq_none (hnone : ∀ i ∈ s.servingOrder g, ¬s.canSteer i) : s.beamToSteer g = none := by
  refine List.findSome?_eq_none_iff.mpr fun i hi => ?_
  rw [State.steersOn_eq, if_neg (hnone i hi)]

/-! ### OPEN -/

/-- What OPEN does, its body read. -/
def State.giveOpen (s : State) (r : Request) (g : SegNo) (one : Bool) : State :=
  let o : OpenReq := { ref := r.ref, arrival := s.now }
  if !s.segUsable g then s.answer r.ref .cellUnusable
  else
    match (if one then none else s.beamToJoin g) with
    | some b => s.join b o g
    | none => s.steerOrWait o g one

theorem exec_openBeam {one : Bool} (hasks : s.Asks .openBeam r) (hread : readOpen r.body = some (g, one)) :
    exec (.openBeam r.ref.link) s = .next ((s.taken r).giveOpen r g one) :=
  exec_asks_reading (c := .openBeam) (f := fun u (q : SegNo × Bool) => u.giveOpen r q.1 q.2) hasks (fun _ => rfl) hread

theorem State.giveOpen_unusable {one : Bool} (hnot : ¬s.segUsable g = true) :
    s.giveOpen r g one = s.answer r.ref .cellUnusable := if_pos (by rw [Bool.eq_false_of_not_eq_true hnot]; rfl)

theorem State.giveOpen_joins (huse : s.segUsable g = true) (hjoin : s.beamToJoin g = some b) :
    s.giveOpen r g false = s.join b { ref := r.ref, arrival := s.now } g := by
  unfold State.giveOpen
  dsimp only
  rw [huse, if_neg (by decide), if_neg (by decide), hjoin]

theorem State.giveOpen_waits {one : Bool} (huse : s.segUsable g = true) (hjoin : one = false → s.beamToJoin g = none) :
    s.giveOpen r g one = s.steerOrWait { ref := r.ref, arrival := s.now } g one := by
  have hnone : (if one = true then none else s.beamToJoin g) = none := by
    cases one with
    | true => rfl
    | false => exact hjoin rfl
  unfold State.giveOpen
  dsimp only
  rw [huse, if_neg (by decide), hnone]

theorem State.join_opened (hopen : (s.beam b).state = .opened) (o : OpenReq) : s.join b o g =
    ((s.setBeam b { s.beam b with holders := put (s.beam b).holders o.ref.link true }).bumpCov 19).reply o.ref .ok
      (.opened b (headOf b) g) := if_pos hopen

theorem State.join_steering (hsteer : (s.beam b).state = .steering) (o : OpenReq) : s.join b o g =
    (s.setBeam b { s.beam b with holders := put (s.beam b).holders o.ref.link true
                                 awaiting := (s.beam b).awaiting ++ [o] }).bumpCov 19 :=
  if_neg (by rw [hsteer]; decide)

/-- A STEER that joins its head's line. -/
theorem State.steer_took (o : OpenReq) (one : Bool) :
    (s.head (headOf b)).Took ((s.steer b o g one).head (headOf b)) (.steer (sideOf b) g) s.clock.ms := by
  have htook := State.pushCmd_took (s.setBeam b ((s.beam b).steered o g one)) (headOf b) (.steer (sideOf b) g)
  exact htook

theorem State.head_steer_other (o : OpenReq) (one : Bool) {i : HeadNo} (hi : i ≠ headOf b) :
    (s.steer b o g one).head i = s.head i := by
  rw [State.steer_eq, State.head_pushCmd, if_neg hi, State.head_setBeam]

theorem State.steer_keepsAllBut (o : OpenReq) (one : Bool) : s.KeepsAllBut (s.steer b o g one) [.coverage, .beamCtl] := fun p hp => by
  cases p <;> simp_all [Part.same]

end

/-- Settles O28: the four steps by the beam that is joined, the head that steers, and the place on the wait list. -/
theorem openIsRefusedJoinsSteersOrWaits : Obligations.OpenIsRefusedJoinsSteersOrWaits := by
  intro r s g one hasks hread l o usable joins steers
  have hexec := exec_openBeam hasks hread
  have husable : (s.taken r).segUsable g = true ↔ usable := State.segUsable_iff_cell (s := s)
  have hjoins : ∀ d, joins d ↔ one = false ∧ (s.beam d).seg = some g ∧ s.joinable d = true := fun d => by
    rw [State.joinable_iff]
  refine ⟨fun hnot => hexec.trans (congrArg Host.Outcome.next (State.giveOpen_unusable (fun h => hnot (husable.mp h)))),
    fun b huse hjoin hbefore => ?_, fun h before after b huse hnone horder hbefore hh hb => ?_, fun huse hnone hno => ?_⟩
  · obtain ⟨rfl, hseg, hjoinable⟩ := (hjoins b).mp hjoin
    have hfirst : (s.taken r).beamToJoin g = some b := State.beamToJoin_eq_some (s := s) hseg hjoinable fun d hd hboth =>
      hbefore d hd ((hjoins d).mpr ⟨rfl, hboth⟩)
    have hgive := State.giveOpen_joins (r := r) (husable.mpr huse) hfirst
    exact ⟨fun hopen => hexec.trans (congrArg Host.Outcome.next (hgive.trans (State.join_opened (s := s.taken r) hopen o))),
      fun hsteer => hexec.trans (congrArg Host.Outcome.next (hgive.trans (State.join_steering (s := s.taken r) hsteer o)))⟩
  · have hjoin : one = false → (s.taken r).beamToJoin g = none := fun hone =>
      State.beamToJoin_eq_none (s := s) fun d hboth => hnone d ((hjoins d).mpr ⟨hone, hboth⟩)
    have hsteer : (s.taken r).beamToSteer g = some b := hb ▸ State.beamToSteer_eq_some (s := s) horder hbefore hh
    obtain rfl : headOf b = h := hb ▸ headOf_firstIdle (s := s) h
    have hbeam := State.beam_steer (s := s.taken r) (b := b) (g := g) o one
    obtain ⟨hbusy, hidle⟩ := State.steer_took (s := s.taken r) (b := b) (g := g) o one
    refine ⟨(s.taken r).steer b o g one, hexec.trans (congrArg Host.Outcome.next ((State.giveOpen_waits (husable.mpr huse) hjoin).trans ?_)),
      (hbeam b).trans (if_pos rfl), fun d hd => (hbeam d).trans (if_neg hd), fun i hi => State.head_steer_other _ _ hi,
      State.waitList_steer _ _, hidle, fun hout => ?_, State.steer_keepsAllBut _ _⟩
    · rw [State.steerOrWait, hsteer]
      rfl
    · rw [hbusy hout]
      exact ⟨rfl, rfl⟩
  · have hjoin : one = false → (s.taken r).beamToJoin g = none := fun hone =>
      State.beamToJoin_eq_none (s := s) fun d hboth => hnone d ((hjoins d).mpr ⟨hone, hboth⟩)
    have hsteer : (s.taken r).beamToSteer g = none := State.beamToSteer_eq_none (s := s) hno
    have hgive := (State.giveOpen_waits (r := r) (husable.mpr huse) hjoin)
    refine ⟨fun hroom => hexec.trans (congrArg Host.Outcome.next (hgive.trans ?_)),
      fun hfull => hexec.trans (congrArg Host.Outcome.next (hgive.trans ?_))⟩
    · rw [State.steerOrWait, hsteer]
      exact if_pos hroom
    · rw [State.steerOrWait, hsteer]
      exact if_neg (Nat.not_lt.mpr hfull)

end Sys2Proof.Machine
end

section
/-! PROOFS. The end of a burst: what becomes of its frames, and what the beam controller does with the beam (R77, R119, R120). -/

namespace Sys2Proof.Machine

/-! ### One frame (R119) -/

theorem Frame.late_iff (f : Frame) (now : Time) : f.late now = true ↔
    ∃ d : Time, f.deadline = some d ∧ elapsed d f.accept ≤ elapsed now f.accept := by
  unfold Frame.late
  cases f.deadline <;> simp

theorem comeBack_of_late {f : Frame} {now : Time}
    (h : f.cls = .control ∧ ∃ d : Time, f.deadline = some d ∧ elapsed d f.accept ≤ elapsed now f.accept) :
    comeBack now f = (f, .expired) := if_pos ⟨h.1, (f.late_iff now).mpr h.2⟩

theorem comeBack_of_not_late {f : Frame} {now : Time}
    (h : ¬(f.cls = .control ∧ ∃ d : Time, f.deadline = some d ∧ elapsed d f.accept ≤ elapsed now f.accept)) :
    comeBack now f = (f, .returned) := if_neg fun hl => h ⟨hl.1, (f.late_iff now).mp hl.2⟩

section
variable {now : Time} {f : Frame}

theorem settle_orphan (h : f.orphaned = true) (o : FrameOutcome) : settle now f o = (f, .orphan) := if_pos h

variable (h : f.orphaned = false)
include h

theorem settle_sentOk : settle now f .sentOk = (f, .delivered) := if_neg (by rw [h]; decide)

theorem settle_notSent : settle now f .notSent = comeBack now f := if_neg (by rw [h]; decide)

theorem settle_sentFailed : settle now f .sentFailed =
    if 16 ≤ f.attempts + 1 then ({ f with attempts := f.attempts + 1 }, .excess)
    else comeBack now { f with attempts := f.attempts + 1 } := if_neg (by rw [h]; decide)

end

/-! ### The results told (R110) -/

theorem toldOf_cons (p : Frame × Settled) (fs : List (Frame × Settled)) : toldOf (p :: fs) = toldOf [p] ++ toldOf fs :=
  List.filterMap_append (l := [p]) (l' := fs)

theorem toldOf_eq_flatMap (fs : List (Frame × Settled)) : toldOf fs = fs.flatMap (fun p => toldOf [p]) := by
  induction fs with
  | nil => rfl
  | cons p fs ih => rw [toldOf_cons, ih, List.flatMap_cons]

theorem State.Tells.frameEnded (s : State) (f : Frame) : s.Tells (s.frameEnded f) noNotices :=
  .of_links (by simp)

theorem State.Tells.noteSettled (s : State) (p : Frame × Settled) : s.Tells (s.noteSettled p) (fun l => resultsAt l (toldOf [p])) := by
  obtain ⟨f, x⟩ := p
  cases x with
  | orphan => exact (State.Tells.of_links rfl).congr fun l => rfl
  | returned => exact (State.Tells.of_links rfl).congr fun l => rfl
  | excess => exact (State.Tells.frameResult s f .excessRetry).links_right (by simp [State.noteSettled])
  | expired => exact (State.Tells.frameResult s f .expired).links_right (by simp [State.noteSettled])
  | delivered =>
    by_cases hbulk : f.cls = .bulk
    · refine (State.Tells.of_links (by simp [State.noteSettled, hbulk])).congr fun l => ?_
      simp [toldOf, hbulk, resultsAt, noNotices]
    · refine ((State.Tells.frameResult s f .delivered).links_right (by simp [State.noteSettled, hbulk])).congr fun l => ?_
      simp [toldOf, hbulk]

/-- What the note of a settled frame counts. -/
theorem State.noteSettled_counters (s : State) (p : Frame × Settled) {i : Fin 21} (hi : i ∉ [15, 16, 19]) :
    look (s.noteSettled p).downlink.counters i = look s.downlink.counters i := by
  have hbump : ∀ (u : State) (k : Fin 21), k ∈ [15, 16, 19] → u.downlink = s.downlink →
      look (u.bumpDown k).downlink.counters i = look s.downlink.counters i := fun u k hk hu => by
    rw [← hu]
    exact look_bump_ne _ fun h => hi (h ▸ hk)
  obtain ⟨f, x⟩ := p
  cases x with
  | orphan => exact hbump s 19 (by decide) rfl
  | returned => rfl
  | excess => exact hbump _ 16 (by decide) (by simp)
  | expired => exact hbump _ 15 (by decide) (by simp)
  | delivered =>
    simp only [State.noteSettled]
    split <;> simp

/-! ### The burst (R119, R120) -/

section
variable {s : State} {b : BeamNo} {u : Burst} {o : Nat → FrameOutcome}

/-- A burst is off its beam, its frames back or freed, before they are counted and reported. -/
def State.burstCleared (s : State) (b : BeamNo) (u : Burst) (o : Nat → FrameOutcome) : State :=
  ((s.setWaiting (comingBack (u.settled s.now o) ++ s.downlink.waiting)).setFree
    (s.pool.free + framesBlocks (goingOut (u.settled s.now o)))).setBeam b { s.beam b with burst := none }

/-- Its frames noted in position order. -/
def State.burstNoted (s : State) (b : BeamNo) (u : Burst) (o : Nat → FrameOutcome) : State :=
  (u.settled s.now o).foldl State.noteSettled (s.burstCleared b u o)

theorem State.settleBurst_eq : s.settleBurst b u o = State.reportFronts ((((s.burstNoted b u o).bumpDownBy 11 (u.count o .sentOk)).bumpDownBy 12
    (u.count o .sentFailed)).bumpDownBy 13 (u.count o .notSent)) s.downlink.waiting := rfl

theorem State.Tells.settleBurst : s.Tells (s.settleBurst b u o) (fun l => resultsAt l (toldOf (u.settled s.now o))) := by
  have hfold := State.Tells.foldl State.Tells.noteSettled (u.settled s.now o) (s.burstCleared b u o)
  refine ((hfold.links_left rfl).links_right ?_).congr fun l => ?_
  · rw [State.settleBurst_eq, (State.reportFronts_frame _ _).2.1]
    rfl
  · rw [toldOf_eq_flatMap (u.settled s.now o), resultsAt_flatMap]

theorem State.settleBurst_counters {i : Fin 21} (hi : i ∉ [15, 16, 19]) : look (s.settleBurst b u o).downlink.counters i =
    look (bumpBy (bumpBy (bumpBy s.downlink.counters 11 (u.count o .sentOk)) 12 (u.count o .sentFailed)) 13
      (u.count o .notSent)) i := by
  have hnoted : ∀ {k : Fin 21}, k ∉ [15, 16, 19] → look (s.burstNoted b u o).downlink.counters k = look s.downlink.counters k :=
    fun {k} hk => foldl_keeps (fun v : State => look v.downlink.counters k) State.noteSettled
      (fun v p => v.noteSettled_counters p hk) _ _
  have h11 := hnoted (k := 11) (by decide)
  have h12 := hnoted (k := 12) (by decide)
  have h13 := hnoted (k := 13) (by decide)
  have hself := hnoted hi
  rw [State.settleBurst_eq, (State.reportFronts_frame _ _).2.2.2.2.2.2.2.2.1]
  simp only [State.bumpDownBy, bumpBy, look_put, h11, h12, h13, hself]

theorem State.settleBurst_keepsAllBut : s.KeepsAllBut (s.settleBurst b u o) [.links, .beamCtl, .pool, .downlink, .cranes] := fun p hp => by
  cases p <;> simp_all [Part.same]

theorem State.beam_settleBurst (d : BeamNo) : (s.settleBurst b u o).beam d =
    if d = b then { s.beam b with burst := none } else s.beam d := by
  rw [State.beam_of_beamCtl (s.settleBurst_beamCtl b u o), State.beam_setBeam]

theorem State.head_settleBurst (i : HeadNo) : (s.settleBurst b u o).head i = s.head i := by
  rw [State.head_of_beamCtl (s.settleBurst_beamCtl b u o), State.head_setBeam]

/-- How many of a burst's frames were not sent well, when every one failed. -/
theorem Burst.count_const (u : Burst) (x y : FrameOutcome) : u.count (fun _ => x) y = if x = y then u.frames.length else 0 := by
  unfold Burst.count
  split
  · next h => rw [h]; simp
  · next h => simp [h]

theorem Burst.settled_const (u : Burst) (now : Time) (x : FrameOutcome) :
    u.settled now (fun _ => x) = u.frames.map (fun f => settle now f x) := by
  have hmap : u.frames.map (fun f => settle now f x) = (u.frames.zipIdx.map Prod.fst).map (fun f => settle now f x) := by
    rw [List.zipIdx_map_fst]
  rw [hmap, List.map_map]
  rfl

end

/-! ### The beam behind it (R77) -/

/-- The beam's record as a burst has ended on it. -/
def Beam.afterBurst (x : Beam) (owner : LinkNo) : Beam := { x with holders := x.holdersAfter owner, releaseDeferred := false }

section
variable {s : State} {b : BeamNo} {l : LinkNo}

theorem State.burstEnded_eq (s : State) (b : BeamNo) (l : LinkNo) : s.burstEnded b l =
    match (s.beam b).closePending with
    | some r => (s.setBeam b ((s.beam b).afterBurst l)).closeBeam b (some r)
    | none => if (s.beam b).oneShot || ((s.beam b).holdersAfter l).isNone then
        (s.setBeam b ((s.beam b).afterBurst l)).closeBeam b none else s.setBeam b ((s.beam b).afterBurst l) := by
  unfold State.burstEnded Beam.afterBurst Beam.holdersAfter
  dsimp only
  cases hdefer : (s.beam b).releaseDeferred with
  | true => rfl
  | false =>
    have hsame : { s.beam b with releaseDeferred := false } = s.beam b := by
      rw [← hdefer]
    simp only [Bool.false_eq_true, if_false, hsame] <;> rfl

section
variable (hopen : (s.beam b).state = .opened)
include hopen

/-- An OPEN beam closes at the end of its burst, or keeps the holders it has. -/
theorem State.burstEnded_opened : s.burstEnded b l = if (s.beam b).closesAfter l = true then
    (match (s.beam b).closePending with
      | some r => (s.setBeam b ((s.beam b).afterBurst l)).raiseLost b r
      | none => s.setBeam b ((s.beam b).afterBurst l)).toClosing b
    else s.setBeam b ((s.beam b).afterBurst l) := by
  have hset : ((s.setBeam b ((s.beam b).afterBurst l)).beam b).state = .opened := by
    rw [State.beam_setBeam_self]
    exact hopen
  have hany : (!(allLinks.any (fun m => look ((s.beam b).holdersAfter l) m))) = ((s.beam b).holdersAfter l).isNone := by
    have hall : ∀ m : LinkNo, m ∈ allLinks := by decide
    rw [Bool.eq_iff_iff, LinkSet.isNone_iff]
    simp [hall]
  rw [State.burstEnded_eq, Beam.closesAfter, hany]
  cases hpending : (s.beam b).closePending with
  | some r =>
    dsimp only
    rw [Option.isSome_some, Bool.true_or, Bool.true_or, if_pos rfl]
    exact State.closeBeam_opened hset (some r)
  | none =>
    simp only [Option.isSome_none, Bool.false_or]
    split
    · exact State.closeBeam_opened hset none
    · rfl

/-- The beam then, and its head. -/
theorem State.burstEnded_acts (hburst : (s.beam b).burst = none) : ((s.beam b).closesAfter l = true →
      (s.burstEnded b l).beam b = Beam.closing (s.beam b).seg ∧
      (s.head (headOf b)).Took ((s.burstEnded b l).head (headOf b)) (.release (sideOf b)) s.clock.ms) ∧
    ((s.beam b).closesAfter l = false →
      (s.burstEnded b l).beam b = (s.beam b).afterBurst l ∧ (s.burstEnded b l).head (headOf b) = s.head (headOf b)) ∧
    (∀ d : BeamNo, d ≠ b → (s.burstEnded b l).beam d = s.beam d) ∧
    (s.burstEnded b l).beamCtl.waitList = s.beamCtl.waitList := by
  rw [State.burstEnded_opened hopen]
  have htold : ∃ v : State, (match (s.beam b).closePending with
      | some r => (s.setBeam b ((s.beam b).afterBurst l)).raiseLost b r
      | none => s.setBeam b ((s.beam b).afterBurst l)) = v ∧ v.beamCtl = (s.setBeam b ((s.beam b).afterBurst l)).beamCtl ∧
      v.clock = s.clock := by
    cases (s.beam b).closePending with
    | none => exact ⟨_, rfl, rfl, rfl⟩
    | some r => exact ⟨_, rfl, (State.raiseLost_frame _ _ _).2.2.2.2.1, (State.raiseLost_frame _ _ _).1⟩
  obtain ⟨v, hv, hbeams, hclock⟩ := htold
  rw [hv]
  have hbeam := fun d => (State.beam_of_beamCtl hbeams d).trans (State.beam_setBeam s b d _)
  have hhead : ∀ i, v.head i = s.head i := fun i => (State.head_of_beamCtl hbeams i).trans rfl
  have hself : v.beam b = (s.beam b).afterBurst l := (hbeam b).trans (if_pos rfl)
  have hclosing := State.beam_toClosing (s := v) (b := b) (by rw [hself]; exact hburst)
  refine ⟨fun hcloses => ?_, fun hstays => ?_, fun d hd => ?_, ?_⟩
  · rw [if_pos hcloses, hclosing, if_pos rfl, hself, ← hhead, ← hclock]
    exact ⟨rfl, State.toClosing_took⟩
  · rw [hstays, if_neg (by decide)]
    exact ⟨State.beam_setBeam_self _ _ _, rfl⟩
  · split
    · rw [hclosing, if_neg hd, hbeam, if_neg hd]
    · rw [State.beam_setBeam, if_neg hd]
  · split
    · rw [State.waitList_toClosing, hbeams]
      rfl
    · rfl

theorem State.Tells.burstEnded : s.Tells (s.burstEnded b l) ((s.beam b).lostAfter b l) := by
  rw [State.burstEnded_opened hopen]
  cases hpending : (s.beam b).closePending with
  | some r =>
    have hlost := State.Tells.raiseLost (s.setBeam b ((s.beam b).afterBurst l)) b r
    rw [Beam.closesAfter, hpending, Option.isSome_some, Bool.true_or, Bool.true_or, if_pos rfl]
    refine ((hlost.links_left rfl).links_right State.links_toClosing).congr fun m => ?_
    rw [State.beam_setBeam_self]
    simp [Beam.lostAfter, hpending, Beam.afterBurst]
  | none =>
    refine (State.Tells.of_links ?_).congr fun m => by rw [Beam.lostAfter, hpending]; rfl
    split
    · exact State.links_toClosing
    · rfl

theorem State.CountsOnly.burstEnded : s.CountsOnly (s.burstEnded b l) [9, 23] := by
  rw [State.burstEnded_opened hopen]
  split
  · refine State.CountsOnly.trans ?_ (State.CountsOnly.toClosing.mono (by decide))
    cases (s.beam b).closePending with
    | none => exact .of_coverage rfl
    | some r => exact ((State.CountsOnly.raiseLost _ b r).mono (by decide)).left rfl
  · exact .of_coverage rfl

end

theorem State.burstEnded_keepsAllBut : s.KeepsAllBut (s.burstEnded b l) [.links, .coverage, .beamCtl] := fun p hp => by
  cases p <;> simp_all [Part.same]

end

end Sys2Proof.Machine
end

section
/-! PROOFS. The end of a burst as a whole, and the burst limit (R119, R123). -/

namespace Sys2Proof.Machine

section
variable {s t v : State} {b : BeamNo} {u : Burst} {o : Nat → FrameOutcome}

theorem State.ActsAtBurstEnd.of_beamCtl {l : LinkNo} (h : s.ActsAtBurstEnd t b l) (hv : v.beamCtl = t.beamCtl) :
    s.ActsAtBurstEnd v b l := by
  have hbeam := State.beam_of_beamCtl hv
  have hhead := State.head_of_beamCtl hv
  unfold State.ActsAtBurstEnd
  simp only [hbeam, hhead]
  exact h

section
variable (hopen : (s.beam b).state = .opened)
include hopen

theorem State.endBurst_acts : s.ActsAtBurstEnd (s.endBurst b u o) b u.owner ∧
    (∀ d : BeamNo, d ≠ b → (s.endBurst b u o).beam d = s.beam d) ∧
    (s.endBurst b u o).beamCtl.waitList = s.beamCtl.waitList := by
  have hself : (s.settleBurst b u o).beam b = { s.beam b with burst := none } := (State.beam_settleBurst b).trans (if_pos rfl)
  have hclock : (s.settleBurst b u o).clock = s.clock := (State.settleBurst_frame _ _ _ _).1
  have hwaits : (s.settleBurst b u o).beamCtl.waitList = s.beamCtl.waitList := by
    rw [State.settleBurst_beamCtl]
    rfl
  have hacts := State.burstEnded_acts (s := s.settleBurst b u o) (b := b) (l := u.owner) (by rw [hself]; exact hopen)
    (by rw [hself])
  rw [hself, State.head_settleBurst, hclock, hwaits] at hacts
  obtain ⟨hcloses, hstays, hothers, hlist⟩ := hacts
  refine ⟨⟨hcloses, hstays⟩, fun d hd => ?_, hlist⟩
  exact (hothers d hd).trans ((State.beam_settleBurst d).trans (if_neg hd))

theorem State.Tells.endBurst : s.Tells (s.endBurst b u o) (fun l =>
    resultsAt l (toldOf (u.settled s.now o)) ++ (s.beam b).lostAfter b u.owner l) := by
  have hself : (s.settleBurst b u o).beam b = { s.beam b with burst := none } := (State.beam_settleBurst b).trans (if_pos rfl)
  have hended := State.Tells.burstEnded (s := s.settleBurst b u o) (b := b) (l := u.owner) (by rw [hself]; exact hopen)
  rw [hself] at hended
  exact State.Tells.settleBurst.trans hended

end

theorem State.endBurst_keepsAllBut : s.KeepsAllBut (s.endBurst b u o) [.links, .coverage, .beamCtl, .pool, .downlink, .cranes] :=
  (State.settleBurst_keepsAllBut.mono (by decide)).trans (State.burstEnded_keepsAllBut.mono (by decide))

theorem State.endBurst_downlink : (s.endBurst b u o).downlink = (s.settleBurst b u o).downlink := by
  simp [State.endBurst]

theorem State.endBurst_pool : (s.endBurst b u o).pool = { s.pool with free := s.pool.free + framesBlocks (goingOut (u.settled s.now o)) } := by
  rw [← State.pool_settleBurst s b]
  simp [State.endBurst]

/-- The end of a burst leaves the cells and the segments. -/
theorem State.endBurst_cells : (s.endBurst b u o).coverage.cells = s.coverage.cells ∧
    (s.endBurst b u o).coverage.segs = s.coverage.segs := by
  have hcover := State.cover_endBurst s b u o
  exact ⟨congrArg Prod.fst hcover, congrArg (fun p => p.2.1) hcover⟩

theorem State.burst_endBurst (d : BeamNo) : ((s.endBurst b u o).beam d).burst = if d = b then none else (s.beam d).burst := by
  have hbursts := congrFun (State.burstAt_endBurst s b u o) d
  rw [Function.update_apply] at hbursts
  exact hbursts

theorem State.bumpDown_keepsAllBut (s : State) (k : Fin 21) : s.KeepsAllBut (s.bumpDown k) [.downlink] := fun p hp => by
  cases p <;> simp_all [Part.same]

/-! ### BURST_LIMIT_EXPIRY (R123) -/

theorem execBurstLimitExpiry_not (h : (s.beam b).burst = none ∨
    ∃ u : Burst, (s.beam b).burst = some u ∧ elapsed s.clock.ms u.start < s.param pBurstLimit) :
    exec (.burstLimitExpiry b) s = .next s := by
  have hover : s.burstOver b = false := by
    rw [State.burstOver]
    rcases h with hnone | ⟨u, hu, hyoung⟩
    · rw [hnone]
    · rw [hu]
      exact decide_eq_false (Nat.not_le.mpr hyoung)
  simp only [exec, execBurstLimitExpiry, hover, Bool.false_eq_true, if_false]

/-- The state behind an expired burst. -/
def State.afterExpiry (s : State) (b : BeamNo) (u : Burst) : State := ((s.endBurst b u (fun _ => .sentFailed)).bumpDown 8).judge

theorem execBurstLimitExpiry_of (hu : (s.beam b).burst = some u) (hold : s.param pBurstLimit ≤ elapsed s.clock.ms u.start) :
    exec (.burstLimitExpiry b) s = .next (s.afterExpiry b u) := by
  have hover : s.burstOver b = true := by
    rw [State.burstOver, hu]
    exact decide_eq_true hold
  simp only [exec, execBurstLimitExpiry, hover, if_true, State.expireBurst, hu]
  rfl

theorem State.afterExpiry_beamCtl : (s.afterExpiry b u).beamCtl = (s.endBurst b u (fun _ => .sentFailed)).beamCtl := by
  simp [State.afterExpiry]

theorem State.afterExpiry_counters {i : Fin 21} (hi : i ≠ 8) : look (s.afterExpiry b u).downlink.counters i =
    look (s.settleBurst b u (fun _ => .sentFailed)).downlink.counters i := by
  rw [State.afterExpiry, (State.judge_frame _).2.2.2.2.2.2.1, ← State.endBurst_downlink]
  exact look_bump_ne _ hi

end

/-- Settles O43: each frame by its outcome; an expired burst's frames, blocks, counts and results, and its beam. -/
theorem framesOfAnEndedBurstSettle : Obligations.FramesOfAnEndedBurstSettle := by
  refine ⟨fun now f o => ?_, fun b s => ⟨execBurstLimitExpiry_not, fun u hu hold => ?_⟩⟩
  · intro late more
    refine ⟨fun h => settle_orphan h o, settle_sentOk, fun h hmany => ?_, fun h hfew hlate => ?_, fun h hfew hlate => ?_,
      fun h hlate => (settle_notSent h).trans (comeBack_of_late hlate), fun h hlate => (settle_notSent h).trans (comeBack_of_not_late hlate)⟩
    · rw [settle_sentFailed h, if_pos (by omega)]
    · rw [settle_sentFailed h, if_neg (by omega)]
      exact comeBack_of_late (f := more) hlate
    · rw [settle_sentFailed h, if_neg (by omega)]
      exact comeBack_of_not_late (f := more) hlate
  · intro fs
    have hfs : u.settled s.now (fun _ => .sentFailed) = fs := u.settled_const s.now .sentFailed
    have hbeam := State.beam_of_beamCtl (State.afterExpiry_beamCtl (s := s) (b := b) (u := u))
    have hdown : (s.afterExpiry b u).downlink.waiting = (s.settleBurst b u (fun _ => .sentFailed)).downlink.waiting := by
      rw [State.afterExpiry, (State.judge_frame _).2.2.2.2.2.2.1, ← State.endBurst_downlink]
      rfl
    have hpool := (State.judge_pool_keeps ((s.endBurst b u (fun _ => .sentFailed)).bumpDown 8)).2.1
    have hcover : (s.afterExpiry b u).coverage = (s.endBurst b u (fun _ => .sentFailed)).coverage := by simp [State.afterExpiry]
    obtain ⟨hcells, hsegs⟩ := State.endBurst_cells (s := s) (b := b) (u := u) (o := fun _ => .sentFailed)
    refine ⟨s.afterExpiry b u, execBurstLimitExpiry_of hu hold, ?_, fun d hd => ?_, ?_, ?_, ?_, ?_, fun hopen => ⟨?_, fun d hd => ?_, ?_⟩,
      by rw [hcover, hcells], by rw [hcover, hsegs], ?_⟩
    · rw [hbeam, State.burst_endBurst, if_pos rfl]
    · rw [hbeam, State.burst_endBurst, if_neg hd]
    · rw [hdown, State.waiting_settleBurst, hfs]
      rfl
    · rw [State.afterExpiry, hpool]
      exact (congrArg Pool.free State.endBurst_pool).trans (by rw [hfs]; rfl)
    · rw [State.afterExpiry, (State.judge_frame _).2.2.2.2.2.2.1]
      refine (look_bump_self _ _).trans (congrArg satInc ?_)
      rw [State.endBurst_downlink, State.settleBurst_counters (by decide)]
      rw [look_bumpBy_ne _ _ (by decide), look_bumpBy_ne _ _ (by decide), look_bumpBy_ne _ _ (by decide)]
    · rw [State.afterExpiry_counters (by decide), State.settleBurst_counters (by decide), look_bumpBy_ne _ _ (by decide),
        look_bumpBy_self, look_bumpBy_ne _ _ (by decide), Burst.count_const, if_pos rfl]
    · exact (State.endBurst_acts hopen).1.of_beamCtl State.afterExpiry_beamCtl
    · rw [hbeam, (State.endBurst_acts hopen).2.1 d hd]
    · have htells := State.Tells.endBurst (u := u) (o := fun _ => .sentFailed) hopen
      rw [hfs] at htells
      exact (htells.links_right (u := (s.endBurst b u (fun _ => .sentFailed)).bumpDown 8) rfl).raises.judge
    · exact (State.endBurst_keepsAllBut.step (State.bumpDown_keepsAllBut _ _) (by decide)).step (State.judge_keepsAllBut _) (by decide)

end Sys2Proof.Machine
end

section
/-! PROOFS. What a change of class spreads to: the notices, the frames that wait, the cranes and the racks (R54). -/

namespace Sys2Proof.Machine

/-! ### Frames that leave and join -/

/-- CONTROL frames may have left the waiting ones and POLLs joined at the back, each with its blocks, and no more than that is counted
(R109, R112). -/
def State.FramesChange (s t : State) : Prop :=
  t.pool.free + framesBlocks t.downlink.waiting = s.pool.free + framesBlocks s.downlink.waiting ∧
  (∃ (kept : Frame → Bool) (polls : List Frame), (∀ f : Frame, f.cls ≠ .control → kept f = true) ∧
    t.downlink.waiting = s.downlink.waiting.filter kept ++ polls ∧
    ∀ f ∈ polls, f.cls = .bulk ∧ f.origin = none ∧ f.attempts = 0) ∧
  ∀ i : Fin 21, i ≠ 1 → i ≠ 20 → look t.downlink.counters i = look s.downlink.counters i

section
variable {s t u : State}

theorem State.FramesChange.of_same (hwaiting : t.downlink.waiting = s.downlink.waiting) (hfree : t.pool.free = s.pool.free)
    (hcounts : ∀ i : Fin 21, i ≠ 1 → i ≠ 20 → look t.downlink.counters i = look s.downlink.counters i) : s.FramesChange t :=
  ⟨by rw [hwaiting, hfree], ⟨fun _ => true, [], fun _ _ => rfl, by rw [hwaiting, List.filter_true, List.append_nil], by simp⟩, hcounts⟩

theorem State.FramesChange.of_downlink (hdown : t.downlink = s.downlink) (hfree : t.pool.free = s.pool.free) : s.FramesChange t :=
  .of_same (by rw [hdown]) hfree fun i _ _ => by rw [hdown]

theorem State.FramesChange.trans (h : s.FramesChange t) (g : t.FramesChange u) : s.FramesChange u := by
  obtain ⟨hblocks, ⟨p, ps, hp, hw, hps⟩, hcounts⟩ := h
  obtain ⟨gblocks, ⟨q, qs, hq, gw, hqs⟩, gcounts⟩ := g
  have hstay : ps.filter q = ps := List.filter_eq_self.mpr fun f hf => hq f (by rw [(hps f hf).1]; decide)
  refine ⟨gblocks.trans hblocks, ⟨fun f => p f && q f, ps ++ qs, fun f hf => by simp [hp f hf, hq f hf], ?_, fun f hf => ?_⟩,
    fun i hi hj => (gcounts i hi hj).trans (hcounts i hi hj)⟩
  · rw [gw, hw, List.filter_append, hstay, List.filter_filter, List.append_assoc]
    exact congrArg (· ++ (ps ++ qs)) (List.filter_congr fun f _ => Bool.and_comm _ _)
  · exact (List.mem_append.mp hf).elim (hps f) (hqs f)

theorem State.FramesChange.foldl {β : Type} {f : State → β → State} (hf : ∀ (u : State) (b : β), u.FramesChange (f u b))
    (bs : List β) (s : State) : s.FramesChange (bs.foldl f s) := by
  induction bs generalizing s with
  | nil => exact .of_downlink rfl rfl
  | cons b bs ih => exact (hf s b).trans (ih (f s b))

/-- The waiting frames and the free blocks after a change that a change of class may have followed. -/
theorem State.FramesChange.follow {w : List Frame} {free : Nat} {quiet : Prop} (h : s.FramesChange t)
    (hwaiting : s.downlink.waiting = w) (hfree : s.pool.free = free)
    (hquiet : quiet → t.downlink.waiting = s.downlink.waiting ∧ t.pool.free = s.pool.free) : t.FramesFollow w free quiet := by
  subst hwaiting hfree
  obtain ⟨hblocks, ⟨p, ps, hp, hw, hps⟩, -⟩ := h
  refine ⟨hquiet, hblocks, s.downlink.waiting.filter p, ps, hw, List.filter_sublist, fun f hf hnot => ?_, hps⟩
  by_contra hc
  exact hnot (List.mem_filter.mpr ⟨hf, hp f hc⟩)

theorem State.dropFrames_counters (s : State) (p : Frame → Bool) (x : FrameFate) {k i : Fin 21} (hi : i ≠ k) :
    look (s.dropFrames p x k).downlink.counters i = look s.downlink.counters i := by
  rw [State.dropFrames_eq, (State.reportFronts_frame _ _).2.2.2.2.2.2.2.2.1]
  exact foldl_keeps (fun u : State => look u.downlink.counters i) (fun u f => u.dropOne x k f)
    (fun u f => (look_bump_ne _ hi).trans (by simp)) _ (s.withoutFrames p)

theorem State.FramesChange.dropControl (s : State) {p : Frame → Bool} (hp : ∀ f, p f = true → f.cls = .control) (x : FrameFate) :
    s.FramesChange (s.dropFrames p x 20) := by
  have hsum := framesBlocks_filter_add p s.downlink.waiting
  refine ⟨?_, ⟨fun f => !p f, [], fun f hf => ?_, ?_, by simp⟩, fun i _ hi => s.dropFrames_counters p x hi⟩
  · rw [State.waiting_dropFrames, State.pool_dropFrames]
    dsimp only
    omega
  · by_contra hnot
    exact hf (hp f (by simpa using hnot))
  · rw [State.waiting_dropFrames, List.append_nil]

/-! ### POLLs (R109) -/

/-- A POLL for a rack. -/
def State.pollFrame (s : State) (n : RackNo) (e : EntryNo) : Frame :=
  { handle := s.downlink.handleCount, terminal := e, cls := .bulk, origin := none, accept := s.now, deadline := none, attempts := 0
    payload := pollPayload n (s.entry e).lastReport s.nowSec, orphaned := false }

/-- A POLL is not asked for, is refused by the pool, or is queued. -/
theorem State.queuePoll_cases (s : State) (n : RackNo) (e : EntryNo) :
    s.queuePoll n e = (s, false) ∨ s.queuePoll n e = (s.bumpPool 4, false) ∨
    ((s.pollFrame n e).blocks ≤ s.pool.free ∧
      s.queuePoll n e = (((s.queueFrame (s.pollFrame n e)).bumpPool 0).bumpDown 1, true)) := by
  unfold State.queuePoll
  split
  · exact .inl rfl
  · dsimp only
    split
    · next hadmits => exact .inr (.inr ⟨Pool.blocks_le_of_admits hadmits, rfl⟩)
    · exact .inr (.inl rfl)

theorem State.FramesChange.queueFrame (s : State) {f : Frame} (hroom : f.blocks ≤ s.pool.free)
    (hf : f.cls = .bulk ∧ f.origin = none ∧ f.attempts = 0) : s.FramesChange (s.queueFrame f) := by
  have hone : framesBlocks [f] = f.blocks := by simp [framesBlocks]
  refine ⟨?_, ⟨fun _ => true, [f], fun _ _ => rfl, ?_, by simpa using hf⟩, fun i _ _ => by rw [State.queueFrame_downlink]⟩
  · rw [State.waiting_queueFrame, State.pool_queueFrame, framesBlocks_append, hone]
    dsimp only
    omega
  · rw [List.filter_true, State.waiting_queueFrame]

theorem State.FramesChange.queuePoll (s : State) (n : RackNo) (e : EntryNo) : s.FramesChange (s.queuePoll n e).1 := by
  rcases s.queuePoll_cases n e with h | h | ⟨hroom, h⟩ <;> rw [h]
  · exact .of_downlink rfl rfl
  · exact .of_downlink rfl rfl
  · exact (State.FramesChange.queueFrame s hroom ⟨rfl, rfl, rfl⟩).trans (.of_same rfl rfl fun i hi _ => look_bump_ne _ hi)

/-- A BULK frame at the back is nothing to the crane unit. -/
theorem State.queueFrame_cranes (s : State) {f : Frame} (hf : f.cls ≠ .safety) : (s.queueFrame f).cranes = s.cranes := by
  rw [State.queueFrame_eq, State.reportFronts_same _ fun e => frontId_append_other f (.inl hf)]
  rfl

theorem State.queuePoll_cranes (s : State) (n : RackNo) (e : EntryNo) : (s.queuePoll n e).1.cranes = s.cranes := by
  rcases s.queuePoll_cases n e with h | h | ⟨-, h⟩ <;> rw [h]
  · rfl
  · exact s.queueFrame_cranes (f := s.pollFrame n e) (by decide : FrameClass.bulk ≠ .safety)

end

/-! ### What one crane and one rack call for -/

/-- Notices have been raised, and frames dropped and queued, as a change of class may call for. -/
def State.Spreads (s t : State) : Prop := (∃ ns : LinkNo → List Notice, s.Tells t ns) ∧ s.FramesChange t

section
variable {s t u : State}

theorem State.Spreads.of_same (hlinks : t.links = s.links) (hdown : t.downlink = s.downlink) (hpool : t.pool = s.pool) :
    s.Spreads t := ⟨⟨_, .of_links hlinks⟩, .of_downlink hdown (by rw [hpool])⟩

theorem State.Spreads.of_tells {ns : LinkNo → List Notice} (h : s.Tells t ns) (hdown : t.downlink = s.downlink)
    (hpool : t.pool = s.pool) : s.Spreads t := ⟨⟨_, h⟩, .of_downlink hdown (by rw [hpool])⟩

theorem State.Spreads.trans (h : s.Spreads t) (g : t.Spreads u) : s.Spreads u := by
  obtain ⟨⟨ns, hns⟩, hframes⟩ := h
  obtain ⟨⟨ms, hms⟩, gframes⟩ := g
  exact ⟨⟨_, hns.trans hms⟩, hframes.trans gframes⟩

theorem State.Spreads.foldl {β : Type} {f : State → β → State} (hf : ∀ (u : State) (b : β), u.Spreads (f u b)) (bs : List β)
    (s : State) : s.Spreads (bs.foldl f s) := by
  induction bs generalizing s with
  | nil => exact .of_same rfl rfl rfl
  | cons b bs ih => exact (hf s b).trans (ih (f s b))

theorem State.Spreads.deriveCondition (s : State) (c : CraneNo) : s.Spreads (s.deriveCondition c) := by
  cases hrec : s.craneRec c with
  | none =>
    have hsame : s.deriveCondition c = s := by rw [State.deriveCondition, hrec]
    rw [hsame]
    exact .of_same rfl rfl rfl
  | some k =>
    cases hv : conditionOf (s.entry k.entry).state (s.classOf (s.entry k.entry).seg) with
    | none =>
      have hsame : s.deriveCondition c = s := by
        rw [State.deriveCondition, hrec]
        dsimp only
        rw [hv]
      rw [hsame]
      exact .of_same rfl rfl rfl
    | some v =>
      by_cases hne : v = k.cond
      · subst hne
        rw [State.deriveCondition_same hrec hv]
        exact .of_same rfl rfl rfl
      · obtain ⟨ns, htells⟩ := State.Tells.deriveCondition hrec hv hne
        have htold : s.FramesChange (s.conditionTold c k v) := .of_downlink (by simp [State.conditionTold])
          (by simp [State.conditionTold])
        refine ⟨⟨_, htells⟩, ?_⟩
        rw [State.deriveCondition_changed hrec hv hne]
        split
        · refine (htold.trans (.of_downlink rfl rfl)).trans (State.FramesChange.dropControl ((s.conditionTold c k v).bumpCrane 7)
            (fun f hf => ?_) .linkLost)
          simp only [Bool.and_eq_true, beq_iff_eq] at hf
          exact hf.2
        · exact htold

theorem State.Spreads.applyConsult (s : State) (n : RackNo) (p : PlugNo) (k : Consult) : s.Spreads (s.applyConsult n p k) := by
  have hraise : ∀ u : State, u.Spreads (u.raiseAlarm n p) := fun u =>
    .of_tells ((State.Tells.raiseWhere u _ _).links_right rfl) (by simp [State.raiseAlarm]) (by simp [State.raiseAlarm])
  have hkeeps := s.consulted_keepsAllBut n p k
  have hconsulted : s.Spreads (s.consulted n p k) :=
    .of_same (hkeeps .links (by decide)) (hkeeps .downlink (by decide)) (hkeeps .pool (by decide))
  rw [State.applyConsult_eq]
  split
  · exact hconsulted.trans (hraise _)
  · exact hconsulted

theorem State.Spreads.setSilence (s : State) (n : RackNo) (v : Silence) : s.Spreads (s.setSilence n v) := by
  have hplug : ∀ (u : State) (p : PlugNo), u.Spreads (u.silencePlug n v p) := fun u p => by
    unfold State.silencePlug
    dsimp only
    split
    · exact State.Spreads.applyConsult (u.setSlot n p _) n p _
    · exact .of_same rfl rfl rfl
  unfold State.setSilence
  split
  · exact .of_same rfl rfl rfl
  · next k _ =>
    have hset : s.Spreads (s.setRackRec n (some { k with silence := v })) := .of_same rfl rfl rfl
    exact hset.trans (State.Spreads.foldl (f := fun u p => u.silencePlug n v p) hplug _ _)

theorem State.Spreads.askPoll (s : State) (n : RackNo) : s.Spreads (s.askPoll n) := by
  have hpoll : ∀ (u : State) (i : Fin 25) (v : PollState), u.Spreads ((u.bumpReef i).setPoll n v) := fun u i v =>
    .of_same (by simp) (by simp) (by simp)
  unfold State.askPoll
  split
  · exact .of_same rfl rfl rfl
  · next k _ =>
    have hasked : s.Spreads (s.queuePoll n k.entry).1 :=
      ⟨⟨_, .of_links (s.queuePoll_frame n k.entry).2.1⟩, State.FramesChange.queuePoll s n k.entry⟩
    dsimp only
    split
    · exact hasked.trans (hpoll _ _ _)
    · exact hasked.trans (hpoll _ _ _)

theorem State.Spreads.reevaluateRack (s : State) (n : RackNo) : s.Spreads (s.reevaluateRack n) := by
  unfold State.reevaluateRack
  split
  · exact .of_same rfl rfl rfl
  · split
    · exact State.Spreads.setSilence s n _
    · exact (State.Spreads.setSilence s n _).trans (State.Spreads.askPoll _ n)
    · exact (State.Spreads.setSilence s n _).trans (State.Spreads.askPoll _ n)
    · exact .of_same rfl rfl rfl

theorem State.askPoll_cranes (s : State) (n : RackNo) : (s.askPoll n).cranes = s.cranes := by
  unfold State.askPoll
  split
  · rfl
  · next k _ =>
    dsimp only
    split
    · exact (by simp : (((s.queuePoll n k.entry).1.bumpReef 13).setPoll n .queued).cranes = _).trans (s.queuePoll_cranes n k.entry)
    · exact (by simp : (((s.queuePoll n k.entry).1.bumpReef 14).setPoll n .notQueued).cranes = _).trans (s.queuePoll_cranes n k.entry)

theorem State.reevaluateRack_cranes (s : State) (n : RackNo) : (s.reevaluateRack n).cranes = s.cranes := by
  unfold State.reevaluateRack
  split
  · rfl
  · split
    · simp
    · exact (State.askPoll_cranes _ n).trans (by simp)
    · exact (State.askPoll_cranes _ n).trans (by simp)
    · rfl

end

end Sys2Proof.Machine
end

section
/-! PROOFS. Serving cells chosen afresh (R53, R54): what is quiet without a change of class, and what a change brings about. -/

namespace Sys2Proof.Machine

/-! ### Steps that each deal with one thing of a list -/

/-- Where every step but one leaves a relation standing, the thing that step deals with is found and left as the relation has it. -/
theorem foldl_at {α β : Type} {f : α → β → α} {P : α → Prop} {R : α → α → Prop} {c : β} (hrefl : ∀ u, R u u)
    (htrans : ∀ {u v w}, R u v → R v w → R u w) (hP : ∀ u b, P u → P (f u b)) (hR : ∀ u b, P u → b ≠ c → R u (f u b))
    {bs : List β} (hnodup : bs.Nodup) (hc : c ∈ bs) {s : α} (hs : P s) : ∃ u, P u ∧ R s u ∧ R (f u c) (bs.foldl f s) := by
  have hrest : ∀ (ds : List β) (u : α), P u → c ∉ ds → R u (ds.foldl f u) := by
    intro ds
    induction ds with
    | nil => exact fun u _ _ => hrefl u
    | cons d ds ih =>
      intro u hu hnot
      obtain ⟨hne, hds⟩ := not_or.mp (mt List.mem_cons.mpr hnot)
      exact htrans (hR u d hu (Ne.symm hne)) (ih (f u d) (hP u d hu) hds)
  induction bs generalizing s with
  | nil => cases hc
  | cons b bs ih =>
    obtain ⟨hb, hbs⟩ := List.nodup_cons.mp hnodup
    by_cases hcb : c = b
    · subst hcb
      exact ⟨s, hs, hrefl s, hrest bs (f s c) (hP s c hs) hb⟩
    · obtain ⟨u, hu, hsu, hfold⟩ := ih hbs (List.mem_of_ne_of_mem hcb hc) (hP s b hs)
      exact ⟨u, hu, htrans (hR s b hs (Ne.symm hcb)) hsu, hfold⟩

/-! ### One segment's change of class -/

section
variable (s : State) (g : SegNo) (x y : SegClass)

theorem State.Spreads.followCrane (c : CraneNo) : s.Spreads (s.followCrane g c) := by
  unfold State.followCrane
  (repeat' split)
  · exact State.Spreads.deriveCondition s c
  · exact .of_same rfl rfl rfl
  · exact .of_same rfl rfl rfl

theorem State.Spreads.followRack (n : RackNo) : s.Spreads (s.followRack g n) := by
  unfold State.followRack
  (repeat' split)
  · exact State.Spreads.reevaluateRack s n
  · exact .of_same rfl rfl rfl
  · exact .of_same rfl rfl rfl

/-- The notice and the count of a change of class, before the cranes and the racks. -/
def State.classTold (s : State) (g : SegNo) (x y : SegClass) : State :=
  (s.raiseWhere (fun _ k => k.rights.traffic) (.coverageChanged g x y)).bumpCov 6

/-- The cranes on a segment whose class has changed. -/
def State.followCranes (s : State) (g : SegNo) : State := allCranes.foldl (fun u c => u.followCrane g c) s

/-- The racks on a segment whose class has changed. -/
def State.followRacks (s : State) (g : SegNo) : State := allRacks.foldl (fun u r => u.followRack g r) s

theorem State.classChanged_steps : s.classChanged g x y = ((s.classTold g x y).followCranes g).followRacks g :=
  s.classChanged_eq g x y

theorem State.Tells.classTold : s.Tells (s.classTold g x y)
    (fun l => if (s.link l).rights.traffic then [.coverageChanged g x y] else []) :=
  (State.Tells.raiseWhere s (fun _ k => k.rights.traffic) _).links_right rfl

theorem State.Spreads.classTold : s.Spreads (s.classTold g x y) :=
  .of_tells (State.Tells.classTold s g x y) (by simp [State.classTold]) (by simp [State.classTold])

theorem State.Spreads.follow : s.Spreads ((s.followCranes g).followRacks g) :=
  (State.Spreads.foldl (f := fun u c => u.followCrane g c) (fun u c => State.Spreads.followCrane u g c) allCranes s).trans
    (State.Spreads.foldl (f := fun u r => u.followRack g r) (fun u r => State.Spreads.followRack u g r) allRacks _)

theorem State.Spreads.classChanged : s.Spreads (s.classChanged g x y) := by
  rw [State.classChanged_steps]
  exact (State.Spreads.classTold s g x y).trans (State.Spreads.follow _ g)

/-- COVERAGE_CHANGED is raised before anything else. -/
theorem State.Tells.classChanged : ∃ ns : LinkNo → List Notice, s.Tells (s.classChanged g x y)
    (fun l => (if (s.link l).rights.traffic then [.coverageChanged g x y] else []) ++ ns l) := by
  obtain ⟨⟨ns, hns⟩, -⟩ := State.Spreads.follow (s.classTold g x y) g
  rw [State.classChanged_steps]
  exact ⟨ns, (State.Tells.classTold s g x y).trans hns⟩

@[simp] theorem State.followCranes_frame : (s.followCranes g).coverage = s.coverage ∧ (s.followCranes g).beamCtl = s.beamCtl ∧
    (s.followCranes g).registry = s.registry ∧ (s.followCranes g).reefer = s.reefer ∧
    (s.followCranes g).settings = s.settings ∧ (s.followCranes g).clock = s.clock := by
  have hfold : ∀ {β : Type} (v : State → β), (∀ (u : State) (c : CraneNo), v (u.followCrane g c) = v u) →
      v (s.followCranes g) = v s := fun v hv => foldl_keeps v _ hv _ _
  refine ⟨hfold State.coverage fun u c => ?_, hfold State.beamCtl fun u c => ?_, hfold State.registry fun u c => ?_,
    hfold State.reefer fun u c => ?_, hfold State.settings fun u c => ?_, hfold State.clock fun u c => ?_⟩ <;> simp

theorem State.followRack_cranes (n : RackNo) : (s.followRack g n).cranes = s.cranes := by
  unfold State.followRack
  (repeat' split)
  · exact s.reevaluateRack_cranes n
  · rfl
  · rfl

@[simp] theorem State.followRacks_frame : (s.followRacks g).coverage = s.coverage ∧ (s.followRacks g).beamCtl = s.beamCtl ∧
    (s.followRacks g).registry = s.registry ∧ (s.followRacks g).cranes = s.cranes ∧
    (s.followRacks g).settings = s.settings ∧ (s.followRacks g).clock = s.clock := by
  have hfold : ∀ {β : Type} (v : State → β), (∀ (u : State) (n : RackNo), v (u.followRack g n) = v u) →
      v (s.followRacks g) = v s := fun v hv => foldl_keeps v _ hv _ _
  refine ⟨hfold State.coverage fun u c => ?_, hfold State.beamCtl fun u c => ?_, hfold State.registry fun u c => ?_,
    hfold State.cranes (fun u n => u.followRack_cranes g n), hfold State.settings fun u c => ?_,
    hfold State.clock fun u c => ?_⟩ <;> simp

theorem State.classChanged_coverage : (s.classChanged g x y).coverage =
    { s.coverage with counters := bump s.coverage.counters 6 } := by
  rw [State.classChanged_steps]
  simp [State.classTold, State.bumpCov]

/-! ### The cranes on the segment (R130) -/

theorem State.craneRec_followCrane_other {c d : CraneNo} (hd : d ≠ c) : (s.followCrane g d).craneRec c = s.craneRec c := by
  unfold State.followCrane
  (repeat' split)
  · next k hrec _ =>
    cases hv : conditionOf (s.entry k.entry).state (s.classOf (s.entry k.entry).seg) with
    | none =>
      rw [State.deriveCondition, hrec]
      dsimp only
      rw [hv]
    | some v =>
      by_cases hne : v = k.cond
      · subst hne
        rw [State.deriveCondition_same hrec hv]
      · rw [(State.deriveCondition_cranes hrec hv hne).1, if_neg (Ne.symm hd)]
  · rfl
  · rfl

variable {s g}

theorem State.craneRec_followCrane_off {c : CraneNo} {k : CraneRec} (hrec : s.craneRec c = some k)
    (hoff : (s.entry k.entry).seg ≠ some g) : s.followCrane g c = s := by
  rw [State.followCrane, hrec]
  exact if_neg hoff

theorem State.craneRec_followCrane_on {c : CraneNo} {k : CraneRec} {v : Condition} (hrec : s.craneRec c = some k)
    (hon : (s.entry k.entry).seg = some g) (hv : conditionOf (s.entry k.entry).state (some (s.segRec g).cls) = some v) :
    (s.followCrane g c).craneRec c = some { k with cond := v } := by
  have hderive : s.followCrane g c = s.deriveCondition c := by
    rw [State.followCrane, hrec]
    exact if_pos hon
  have hcond : conditionOf (s.entry k.entry).state (s.classOf (s.entry k.entry).seg) = some v := by
    rw [hon]
    exact hv
  rw [hderive]
  by_cases hne : v = k.cond
  · subst hne
    rw [State.deriveCondition_same hrec hcond, hrec]
  · rw [(State.deriveCondition_cranes hrec hcond hne).1, if_pos rfl]

/-- Each crane's record after a change of class. -/
theorem State.craneRec_followCranes {c : CraneNo} {k : CraneRec} (hrec : s.craneRec c = some k) :
    ((s.entry k.entry).seg ≠ some g → (s.followCranes g).craneRec c = some k) ∧
    ((s.entry k.entry).seg = some g → ∀ v : Condition, conditionOf (s.entry k.entry).state (some (s.segRec g).cls) = some v →
      (s.followCranes g).craneRec c = some { k with cond := v }) := by
  obtain ⟨u, ⟨hreg, hcov⟩, hsame, hfold⟩ := foldl_at (f := fun u c => u.followCrane g c)
    (P := fun u : State => u.registry = s.registry ∧ u.coverage = s.coverage)
    (R := fun u v : State => v.craneRec c = u.craneRec c) (c := c) (fun _ => rfl) (fun h g => g.trans h)
    (fun u d hu => by simpa using hu) (fun u d _ hd => u.craneRec_followCrane_other g hd) (List.nodup_finRange _)
    (List.mem_finRange c) (s := s) ⟨rfl, rfl⟩
  have hentry : u.entry k.entry = s.entry k.entry := by rw [State.entry, hreg, State.entry]
  have hseg : u.segRec g = s.segRec g := by rw [State.segRec, hcov, State.segRec]
  have hu : u.craneRec c = some k := hsame.trans hrec
  refine ⟨fun hoff => hfold.trans ?_, fun hon v hv => hfold.trans ?_⟩
  · rw [State.craneRec_followCrane_off hu (by rwa [hentry]), hu]
  · exact State.craneRec_followCrane_on hu (by rwa [hentry]) (by rwa [hentry, hseg])

/-! ### The racks on the segment (R152) -/

/-- A rack's record is as it was, and its slots but for the alarm queue's flags. -/
def State.RackKept (s t : State) (n : RackNo) : Prop :=
  t.rackRec n = s.rackRec n ∧ ∀ p : PlugNo, (s.slot n p).Like (t.slot n p)

variable {t u : State} {n : RackNo} {k : RackRec}

theorem State.RackKept.refl (s : State) (n : RackNo) : s.RackKept s n := ⟨rfl, fun _ => .refl _⟩

theorem State.RackKept.trans (h : s.RackKept t n) (g : t.RackKept u n) : s.RackKept u n :=
  ⟨g.1.trans h.1, fun p => (h.2 p).trans (g.2 p)⟩

theorem State.followRack_off (hrec : s.rackRec n = some k) (hoff : (s.entry k.entry).seg ≠ some g) : s.followRack g n = s := by
  rw [State.followRack, hrec]
  exact if_neg hoff

theorem State.followRack_held (hrec : s.rackRec n = some k) (hon : (s.entry k.entry).seg = some g) :
    s.RackHeld (s.followRack g n) n k (s.segRec g).cls := by
  have hheld : s.followRack g n = s.reevaluateRack n := by
    rw [State.followRack, hrec]
    exact if_pos hon
  rw [hheld]
  exact State.reevaluateRack_held hrec (by rw [State.rackClass, hon]; rfl)

theorem State.followRack_kept {m : RackNo} (hm : m ≠ n) : s.RackKept (s.followRack g m) n := by
  cases hrec : s.rackRec m with
  | none =>
    rw [State.followRack, hrec]
    exact .refl s n
  | some k =>
    by_cases hon : (s.entry k.entry).seg = some g
    · obtain ⟨-, hothers, hlike⟩ := State.followRack_held hrec hon
      exact ⟨hothers n (Ne.symm hm), fun p => hlike n p (Ne.symm hm)⟩
    · rw [State.followRack_off hrec hon]
      exact .refl s n

/-- What follows a class before and after slots changed their flags alone follows it over all. -/
theorem State.RackFollows.between {v : State} {c : SegClass} (hst : s.RackKept t n) (h : t.RackFollows u n k c)
    (huv : u.RackKept v n) : s.RackFollows v n k c := by
  obtain ⟨⟨p, hrec, hpoll⟩, hslots⟩ := h
  refine ⟨⟨p, huv.1.trans hrec, hpoll⟩, fun j => Slot.Like.trans ?_ ((hslots j).trans (huv.2 j))⟩
  split
  · exact hst.2 j
  · exact (hst.2 j).silenced _

/-- Each rack after a change of class. -/
theorem State.followRacks_rack (hrec : s.rackRec n = some k) :
    ((s.entry k.entry).seg = some g → s.RackFollows (s.followRacks g) n k (s.segRec g).cls) ∧
    ((s.entry k.entry).seg ≠ some g → (s.followRacks g).rackRec n = some k ∧
      ∀ p : PlugNo, (s.slot n p).Like ((s.followRacks g).slot n p)) := by
  obtain ⟨u, ⟨hreg, hcov⟩, hbefore, hafter⟩ := foldl_at (f := fun u r => u.followRack g r)
    (P := fun u : State => u.registry = s.registry ∧ u.coverage = s.coverage)
    (R := fun u v : State => u.RackKept v n) (c := n) (fun u => .refl u n) (fun h g => h.trans g)
    (fun u d hu => by simpa using hu) (fun u d _ hd => State.followRack_kept hd) (List.nodup_finRange _)
    (List.mem_finRange n) (s := s) ⟨rfl, rfl⟩
  have hentry : u.entry k.entry = s.entry k.entry := by rw [State.entry, hreg, State.entry]
  have hseg : u.segRec g = s.segRec g := by rw [State.segRec, hcov, State.segRec]
  have hu : u.rackRec n = some k := hbefore.1.trans hrec
  refine ⟨fun hon => ?_, fun hoff => ?_⟩
  · have hheld := (State.followRack_held (g := g) hu (by rwa [hentry])).1
    rw [hseg] at hheld
    exact hheld.between hbefore hafter
  · rw [State.followRack_off hu (by rwa [hentry])] at hafter
    exact ⟨(hbefore.trans hafter).1.trans hrec, (hbefore.trans hafter).2⟩

end

end Sys2Proof.Machine
end

section
/-! PROOFS. The choice of serving cells: what it writes, and what a change of one segment's class brings about (R53, R54). -/

namespace Sys2Proof.Machine

/-! ### A choice in its two steps (R53) -/

section
variable {s t u : State} {g : SegNo} {gs : List SegNo}

/-- The records of these segments, chosen afresh. -/
def State.segsChosen (s : State) (gs : List SegNo) : State := gs.foldl (fun u g => u.setSegRec g (u.chosen g)) s

/-- The changes of class that choosing these segments afresh makes. -/
def State.classChanges (s : State) (gs : List SegNo) : List (SegNo × SegClass × SegClass) :=
  gs.filterMap (fun g => if (s.chosen g).cls = (s.segRec g).cls then none else some (g, (s.segRec g).cls, (s.chosen g).cls))

theorem State.rechoose_eq (s : State) (gs : List SegNo) : s.rechoose gs =
    (s.classChanges gs).foldl (fun u c => u.classChanged c.1 c.2.1 c.2.2) (s.segsChosen gs) := rfl

/-- No class changes where these segments are chosen afresh. -/
def State.ClassesStay (s : State) (gs : List SegNo) : Prop := ∀ g ∈ gs, (s.chosen g).cls = (s.segRec g).cls

theorem State.classChanges_of_stay (h : s.ClassesStay gs) : s.classChanges gs = [] := by
  rw [State.classChanges, List.filterMap_eq_nil_iff]
  exact fun g hg => if_pos (h g hg)

theorem State.rechoose_of_stay (h : s.ClassesStay gs) : s.rechoose gs = s.segsChosen gs := by
  rw [State.rechoose_eq, State.classChanges_of_stay h]
  rfl

theorem State.rechoose_of_change (h : (s.chosen g).cls ≠ (s.segRec g).cls) : s.rechoose [g] =
    (s.setSegRec g (s.chosen g)).classChanged g (s.segRec g).cls (s.chosen g).cls := by
  have hone : s.classChanges [g] = [(g, (s.segRec g).cls, (s.chosen g).cls)] := by
    simp [State.classChanges, h]
  rw [State.rechoose_eq, hone, List.foldl_cons, List.foldl_nil, State.segsChosen, List.foldl_cons, List.foldl_nil]

/-- The records alone are written. -/
theorem State.segsChosen_coverage (s : State) (gs : List SegNo) :
    (s.segsChosen gs).coverage = { s.coverage with segs := (s.segsChosen gs).coverage.segs } := by
  induction gs generalizing s with
  | nil => rfl
  | cons g gs ih => exact (ih (s.setSegRec g (s.chosen g))).trans rfl

theorem State.segsChosen_keepsAllBut (s : State) (gs : List SegNo) : s.KeepsAllBut (s.segsChosen gs) [.coverage] :=
  State.foldl_keepsAllBut (f := fun u g => u.setSegRec g (u.chosen g))
    (fun u g p hp => by cases p <;> simp_all [Part.same, State.setSegRec]) gs s

@[simp] theorem State.segsChosen_frame (s : State) (gs : List SegNo) :
    (s.segsChosen gs).clock = s.clock ∧ (s.segsChosen gs).links = s.links ∧ (s.segsChosen gs).handed = s.handed ∧
    (s.segsChosen gs).registry = s.registry ∧ (s.segsChosen gs).access = s.access ∧
    (s.segsChosen gs).beamCtl = s.beamCtl ∧ (s.segsChosen gs).pool = s.pool ∧ (s.segsChosen gs).downlink = s.downlink ∧
    (s.segsChosen gs).cranes = s.cranes ∧ (s.segsChosen gs).reefer = s.reefer ∧
    (s.segsChosen gs).settings = s.settings ∧ (s.segsChosen gs).pending = s.pending := by
  have h := s.segsChosen_keepsAllBut gs
  exact ⟨h .clock (by decide), h .links (by decide), h .handed (by decide), h .registry (by decide), h .access (by decide),
    h .beamCtl (by decide), h .pool (by decide), h .downlink (by decide), h .cranes (by decide), h .reefer (by decide),
    h .settings (by decide), h .pending (by decide)⟩

theorem State.Spreads.rechoose (s : State) (gs : List SegNo) : s.Spreads (s.rechoose gs) := by
  have hchosen : s.Spreads (s.segsChosen gs) := .of_same (by simp) (by simp) (by simp)
  rw [State.rechoose_eq]
  exact hchosen.trans (State.Spreads.foldl (f := fun u (c : SegNo × SegClass × SegClass) => u.classChanged c.1 c.2.1 c.2.2)
    (fun u c => State.Spreads.classChanged u c.1 c.2.1 c.2.2) _ _)

/-- Of the counters the one of the class changes moves alone. -/
theorem State.rechoose_counters (s : State) (gs : List SegNo) {i : Fin 24} (hi : i ≠ 6) :
    look (s.rechoose gs).coverage.counters i = look s.coverage.counters i := by
  have hfold : ∀ (cs : List (SegNo × SegClass × SegClass)) (u : State),
      look (cs.foldl (fun u c => u.classChanged c.1 c.2.1 c.2.2) u).coverage.counters i = look u.coverage.counters i :=
    foldl_keeps (fun u : State => look u.coverage.counters i) _ fun u c => by
      rw [State.classChanged_coverage]
      exact look_bump_ne _ hi
  rw [State.rechoose_eq, hfold, State.segsChosen_coverage]

theorem State.rechoose_keepsAllBut (s : State) (gs : List SegNo) :
    s.KeepsAllBut (s.rechoose gs) [.links, .coverage, .pool, .downlink, .cranes, .reefer] := fun p hp => by
  cases p <;> simp_all [Part.same]

/-- Without a change of class links, queues, cranes, racks and counts are as they were. -/
theorem State.rechoose_quiet (h : s.ClassesStay gs) : (s.rechoose gs).links = s.links ∧ (s.rechoose gs).pool = s.pool ∧
    (s.rechoose gs).downlink = s.downlink ∧ (s.rechoose gs).cranes = s.cranes ∧ (s.rechoose gs).reefer = s.reefer ∧
    (s.rechoose gs).coverage.counters = s.coverage.counters := by
  rw [State.rechoose_of_stay h]
  refine ⟨?_, ?_, ?_, ?_, ?_, ?_⟩
  iterate 5 simp
  rw [State.segsChosen_coverage]

theorem State.segRec_rechoose_self (s : State) {g : SegNo} (hg : g ∈ gs) : (s.rechoose gs).segRec g = s.chosen g := by
  rw [(s.rechoose_cover gs).2.2.2, if_pos hg]

theorem State.chosen_rechoose (s : State) (gs : List SegNo) (g : SegNo) : (s.rechoose gs).chosen g = s.chosen g :=
  State.chosen_congr (fun h => (s.rechoose_cover gs).1 h g) (fun h => .inr (by rw [(s.rechoose_cover gs).2.2.1 h]))

end

/-! ### What one segment's class brings about (R54) -/

/-- The segment's choice and what a change of its class brings about at the links, the cranes and the racks; no other segment's
record is written. -/
def State.ClassFollowed (s t : State) (g : SegNo) : Prop :=
  (∀ f : SegNo, f ≠ g → t.segRec f = s.segRec f) ∧
  ((s.segRec g).cls = (t.segRec g).cls → t.cranes = s.cranes ∧ t.reefer = s.reefer ∧
    look t.coverage.counters 6 = look s.coverage.counters 6) ∧
  ((s.segRec g).cls ≠ (t.segRec g).cls →
    look t.coverage.counters 6 = satInc (look s.coverage.counters 6) ∧
    (∀ l : LinkNo, (s.link l).rights.traffic = true → (s.link l).up = true → (s.link l).noticeCount < 55 →
      (t.link l).HasNotice (.coverageChanged g (s.segRec g).cls (t.segRec g).cls)) ∧
    (∀ (c : CraneNo) (k : CraneRec), s.craneRec c = some k →
      ((s.entry k.entry).seg ≠ some g → t.craneRec c = some k) ∧
      ((s.entry k.entry).seg = some g → ∀ v : Condition, conditionOf (s.entry k.entry).state (some (t.segRec g).cls) = some v →
        t.craneRec c = some { k with cond := v })) ∧
    (∀ (n : RackNo) (k : RackRec), s.rackRec n = some k →
      ((s.entry k.entry).seg = some g → s.RackFollows t n k (t.segRec g).cls) ∧
      ((s.entry k.entry).seg ≠ some g → t.rackRec n = some k ∧ ∀ p : PlugNo, (s.slot n p).Like (t.slot n p))))

section
variable {s t u : State} {g : SegNo}

theorem State.classChanged_crane {c : CraneNo} {k : CraneRec} (hrec : s.craneRec c = some k) (x y : SegClass) :
    ((s.entry k.entry).seg ≠ some g → (s.classChanged g x y).craneRec c = some k) ∧
    ((s.entry k.entry).seg = some g → ∀ v : Condition, conditionOf (s.entry k.entry).state (some (s.segRec g).cls) = some v →
      (s.classChanged g x y).craneRec c = some { k with cond := v }) := by
  rw [State.classChanged_steps, State.craneRec_of_cranes (State.followRacks_frame _ g).2.2.2.1]
  have htold : (s.classTold g x y).craneRec c = some k := (State.craneRec_of_cranes (by simp [State.classTold]) c).trans hrec
  have hcranes := State.craneRec_followCranes (g := g) htold
  have hentry : ∀ e, (s.classTold g x y).entry e = s.entry e := fun e => by
    rw [State.entry, State.classTold]
    simp [State.entry]
  have hseg : (s.classTold g x y).segRec g = s.segRec g := by
    rw [State.segRec, State.classTold]
    simp [State.segRec, State.bumpCov]
  rwa [hentry, hseg] at hcranes

theorem State.classChanged_rack {n : RackNo} {k : RackRec} (hrec : s.rackRec n = some k) (x y : SegClass) :
    ((s.entry k.entry).seg = some g → s.RackFollows (s.classChanged g x y) n k (s.segRec g).cls) ∧
    ((s.entry k.entry).seg ≠ some g → (s.classChanged g x y).rackRec n = some k ∧
      ∀ p : PlugNo, (s.slot n p).Like ((s.classChanged g x y).slot n p)) := by
  rw [State.classChanged_steps]
  have hreefer : ((s.classTold g x y).followCranes g).reefer = s.reefer := by simp [State.classTold]
  have hcoverage : ((s.classTold g x y).followCranes g).coverage.segs = s.coverage.segs := by simp [State.classTold, State.bumpCov]
  have hregistry : ((s.classTold g x y).followCranes g).registry = s.registry := by simp [State.classTold]
  generalize (s.classTold g x y).followCranes g = u at *
  have hracks := State.followRacks_rack (g := g) ((State.rackRec_of_reefer hreefer n).trans hrec)
  have hentry : ∀ e, u.entry e = s.entry e := fun e => by rw [State.entry, hregistry, State.entry]
  have hseg : u.segRec g = s.segRec g := by rw [State.segRec, hcoverage, State.segRec]
  have hslot := State.slot_of_reefer hreefer
  simpa only [State.RackFollows, hentry, hseg, hslot] using hracks

theorem State.rechoose_followed (s : State) (g : SegNo) : s.ClassFollowed (s.rechoose [g]) g := by
  have hself : (s.rechoose [g]).segRec g = s.chosen g := s.segRec_rechoose_self List.mem_cons_self
  refine ⟨fun f hf => ?_, fun hsame => ?_, fun hchange => ?_⟩
  · rw [(s.rechoose_cover [g]).2.2.2, if_neg (by simpa using hf)]
  · rw [hself] at hsame
    obtain ⟨-, -, -, hcranes, hreefer, hcounters⟩ := State.rechoose_quiet (s := s) (gs := [g]) (by
      intro f hf
      rw [List.mem_singleton.mp hf, hsame])
    exact ⟨hcranes, hreefer, by rw [hcounters]⟩
  · rw [hself] at hchange ⊢
    rw [State.rechoose_of_change (Ne.symm hchange)]
    have hnow : (s.setSegRec g (s.chosen g)).segRec g = s.chosen g := look_put_self _ _ _
    refine ⟨?_, fun l htraffic hup hroom => ?_, fun c k hrec => ?_, fun n k hrec => ?_⟩
    · rw [State.classChanged_coverage]
      exact look_bump_self _ _
    · obtain ⟨ns, htells⟩ := State.Tells.classChanged (s.setSegRec g (s.chosen g)) g (s.segRec g).cls (s.chosen g).cls
      have hlink := htells l
      dsimp only at hlink
      rw [if_pos (show ((s.setSegRec g (s.chosen g)).link l).rights.traffic = true from htraffic)] at hlink
      rw [hlink]
      exact Link.hasNotice_first (k := s.link l) hup hroom (ns l)
    · have hcrane := State.classChanged_crane (s := s.setSegRec g (s.chosen g)) (g := g) (c := c) (k := k) hrec
        (s.segRec g).cls (s.chosen g).cls
      rw [hnow] at hcrane
      exact hcrane
    · have hrack := State.classChanged_rack (s := s.setSegRec g (s.chosen g)) (g := g) (n := n) (k := k) hrec
        (s.segRec g).cls (s.chosen g).cls
      rw [hnow] at hrack
      exact hrack

/-- Where the parts that a class brings anything about in are as they were before, and after but for more notices. -/
theorem State.ClassFollowed.congr {s₀ : State} (h : s.ClassFollowed t g)
    (hbefore : s.registry = s₀.registry ∧ s.cranes = s₀.cranes ∧ s.reefer = s₀.reefer ∧ s.links = s₀.links ∧
      s.coverage.segs = s₀.coverage.segs ∧ look s.coverage.counters 6 = look s₀.coverage.counters 6)
    (hafter : u.cranes = t.cranes ∧ u.reefer = t.reefer ∧ u.coverage.segs = t.coverage.segs ∧
      look u.coverage.counters 6 = look t.coverage.counters 6)
    (htells : ∃ ns : LinkNo → List Notice, t.Tells u ns) : s₀.ClassFollowed u g := by
  obtain ⟨hreg, hcranes, hreefer, hlinks, hsegs, hcount⟩ := hbefore
  obtain ⟨gcranes, greefer, gsegs, gcount⟩ := hafter
  obtain ⟨ns, hns⟩ := htells
  obtain ⟨hothers, hsame, hchange⟩ := h
  have hseg : ∀ f, s.segRec f = s₀.segRec f := fun f => by rw [State.segRec, hsegs, State.segRec]
  have gseg : ∀ f, u.segRec f = t.segRec f := fun f => by rw [State.segRec, gsegs, State.segRec]
  have hentry : ∀ e, s.entry e = s₀.entry e := fun e => by rw [State.entry, hreg, State.entry]
  have hlink : ∀ l, s.link l = s₀.link l := fun l => by rw [State.link, hlinks, State.link]
  have hslot := State.slot_of_reefer hreefer
  have gslot := State.slot_of_reefer greefer
  simp only [hseg, hentry, hlink, hslot, hcranes, hreefer, hcount, State.craneRec_of_cranes hcranes,
    State.rackRec_of_reefer hreefer] at hothers hsame hchange
  rw [State.ClassFollowed]
  simp only [gseg, gslot, gcranes, greefer, gcount, State.craneRec_of_cranes gcranes, State.rackRec_of_reefer greefer]
  refine ⟨hothers, hsame, fun hne => ?_⟩
  obtain ⟨hsix, hnotice, hcrane, hrack⟩ := hchange hne
  refine ⟨hsix, fun l htraffic hup hroom => ?_, hcrane, fun n k hrec => ⟨fun hon => ?_, fun hoff => (hrack n k hrec).2 hoff⟩⟩
  · rw [hns l]
    exact Link.hasNotice_raiseAll (hnotice l htraffic hup hroom) _
  · have hfollows := (hrack n k hrec).1 hon
    simpa only [State.RackFollows, hslot, gslot, State.rackRec_of_reefer greefer] using hfollows

end

end Sys2Proof.Machine
end

section
/-! PROOFS. A cell that is lost under the beams of its head (R61, R78, R83). -/

namespace Sys2Proof.Machine

/-! ### One beam (R83) -/

/-- A beam once the cell beneath it is lost. -/
def Beam.lostTo (x : Beam) (g : SegNo) (r : LossReason) : Beam :=
  if x.seg = some g then
    if x.state = .opened ∧ x.burst = none then Beam.closing x.seg
    else if x.state = .opened ∨ x.state = .steering then { x with closePending := some (x.closePending.getD r) } else x
  else x

/-- BEAM_LOST at the holders of a beam that closes at once for the loss of a cell. -/
def Beam.toldLost (x : Beam) (b : BeamNo) (g : SegNo) (r : LossReason) (l : LinkNo) : List Notice :=
  if x.seg = some g then x.lostNow b r l else []

section
variable {x : Beam} {g : SegNo} {r : LossReason}

theorem Beam.lostTo_off (h : x.seg ≠ some g) : x.lostTo g r = x := if_neg h

theorem Beam.lostTo_closes (h : x.seg = some g) (hopen : x.state = .opened) (hburst : x.burst = none) :
    x.lostTo g r = Beam.closing x.seg := by
  rw [Beam.lostTo, if_pos h, if_pos ⟨hopen, hburst⟩]

theorem Beam.lostTo_pends (h : x.seg = some g) (hlater : x.state = .steering ∨ x.state = .opened ∧ x.burst ≠ none) :
    x.lostTo g r = { x with closePending := some (x.closePending.getD r) } := by
  rw [Beam.lostTo, if_pos h, if_neg (Beam.not_free_of_later hlater), if_pos (hlater.symm.imp_left And.left)]

theorem Beam.lostTo_other (hopen : x.state ≠ .opened) (hsteer : x.state ≠ .steering) : x.lostTo g r = x := by
  unfold Beam.lostTo
  split
  · rw [if_neg fun h => hopen h.1, if_neg (not_or.mpr ⟨hopen, hsteer⟩)]
  · rfl

theorem Beam.meetsLoss_lostTo : x.MeetsLoss (x.lostTo g r) g r := by
  refine ⟨fun hseg hopen hburst => ?_, fun hseg hlater => Beam.lostTo_pends hseg hlater, fun hother => ?_⟩
  · rw [Beam.lostTo_closes hseg hopen hburst, hseg]
  · rcases hother with hoff | ⟨hopen, hsteer⟩
    · exact Beam.lostTo_off hoff
    · exact Beam.lostTo_other hopen hsteer

end

section
variable {s : State} {b : BeamNo} {g : SegNo} {r : LossReason}

theorem State.loseBeam_eq (s : State) (b : BeamNo) (g : SegNo) (r : LossReason) : s.loseBeam b g r =
    if (s.beam b).seg ≠ some g then s else
      match (s.beam b).state with
      | .opened => if (s.beam b).burst.isNone then s.closeBeam b (some r)
        else s.setBeam b { s.beam b with closePending := some ((s.beam b).closePending.getD r) }
      | .steering => s.setBeam b { s.beam b with closePending := some ((s.beam b).closePending.getD r) }
      | _ => s := rfl

theorem State.loseBeam_off (h : (s.beam b).seg ≠ some g) : s.loseBeam b g r = s := if_pos h

theorem State.loseBeam_closes (h : (s.beam b).seg = some g) (hopen : (s.beam b).state = .opened)
    (hburst : (s.beam b).burst = none) : s.loseBeam b g r = (s.raiseLost b r).toClosing b := by
  rw [State.loseBeam_eq, if_neg (not_not.mpr h), hopen, hburst]
  exact State.closeBeam_opened hopen (some r)

theorem State.loseBeam_pends (h : (s.beam b).seg = some g)
    (hlater : (s.beam b).state = .steering ∨ (s.beam b).state = .opened ∧ (s.beam b).burst ≠ none) : s.loseBeam b g r =
    s.setBeam b { s.beam b with closePending := some ((s.beam b).closePending.getD r) } := by
  rw [State.loseBeam_eq, if_neg (not_not.mpr h)]
  rcases hlater with hsteer | ⟨hopen, hburst⟩
  · rw [hsteer]
  · rw [hopen]
    exact if_neg fun hnone => hburst (Option.isNone_iff_eq_none.mp hnone)

theorem State.loseBeam_other (hopen : (s.beam b).state ≠ .opened) (hsteer : (s.beam b).state ≠ .steering) :
    s.loseBeam b g r = s := by
  unfold State.loseBeam
  dsimp only
  split
  · rfl
  · split
    · next h => exact absurd h hopen
    · next h => exact absurd h hsteer
    · rfl

/-- A beam over another segment, one that closes, one whose close waits, and one that is neither OPEN nor STEERING. -/
theorem State.loseBeam_cases (s : State) (b : BeamNo) (g : SegNo) : (s.beam b).seg ≠ some g ∨
    ((s.beam b).seg = some g ∧ (s.beam b).state = .opened ∧ (s.beam b).burst = none) ∨
    ((s.beam b).seg = some g ∧ ((s.beam b).state = .steering ∨ (s.beam b).state = .opened ∧ (s.beam b).burst ≠ none)) ∨
    ((s.beam b).state ≠ .opened ∧ (s.beam b).state ≠ .steering) := by
  by_cases hseg : (s.beam b).seg = some g
  · rcases s.overdueBeam_cases b with h | h | h
    · exact .inr (.inl ⟨hseg, h⟩)
    · exact .inr (.inr (.inl ⟨hseg, h⟩))
    · exact .inr (.inr (.inr h))
  · exact .inl hseg

theorem State.loseBeam_beam (d : BeamNo) : (s.loseBeam b g r).beam d = if d = b then (s.beam b).lostTo g r else s.beam d := by
  have hself : (s.beam d) = if d = b then s.beam b else s.beam d := by
    split
    · next h => rw [h]
    · rfl
  rcases s.loseBeam_cases b g with hoff | ⟨hseg, hopen, hburst⟩ | ⟨hseg, hlater⟩ | ⟨hopen, hsteer⟩
  · rw [State.loseBeam_off hoff, Beam.lostTo_off hoff]
    exact hself
  · have hnone : ((s.raiseLost b r).beam b).burst = none := by rw [State.beam_raiseLost, hburst]
    rw [State.loseBeam_closes hseg hopen hburst, State.beam_toClosing hnone, State.beam_raiseLost, State.beam_raiseLost,
      Beam.lostTo_closes hseg hopen hburst]
  · rw [State.loseBeam_pends hseg hlater, State.beam_setBeam, Beam.lostTo_pends hseg hlater]
  · rw [State.loseBeam_other hopen hsteer, Beam.lostTo_other hopen hsteer]
    exact hself

theorem State.Tells.loseBeam (s : State) (b : BeamNo) (g : SegNo) (r : LossReason) :
    s.Tells (s.loseBeam b g r) ((s.beam b).toldLost b g r) := by
  rcases s.loseBeam_cases b g with hoff | ⟨hseg, hopen, hburst⟩ | ⟨hseg, hlater⟩ | ⟨hopen, hsteer⟩
  · rw [State.loseBeam_off hoff]
    exact (State.Tells.of_links rfl).congr fun l => (if_neg hoff).symm
  · rw [State.loseBeam_closes hseg hopen hburst]
    refine ((State.Tells.raiseLost s b r).links_right State.links_toClosing).congr fun l => ?_
    simp [Beam.toldLost, Beam.lostNow, hseg, hopen, hburst]
  · rw [State.loseBeam_pends hseg hlater]
    refine (State.Tells.of_links rfl).congr fun l => ?_
    rw [Beam.toldLost, if_pos hseg, Beam.lostNow, if_neg]
    · rfl
    · rintro ⟨hopen, hburst, -⟩
      exact Beam.not_free_of_later hlater ⟨hopen, Option.isNone_iff_eq_none.mp hburst⟩
  · rw [State.loseBeam_other hopen hsteer]
    refine (State.Tells.of_links rfl).congr fun l => ?_
    rw [Beam.toldLost, Beam.lostNow, if_neg (c := (s.beam b).state = .opened ∧ _) (fun h => hopen h.1), ite_self]
    rfl

theorem State.CountsOnly.loseBeam : s.CountsOnly (s.loseBeam b g r) [9, 23] := by
  rcases s.loseBeam_cases b g with hoff | ⟨hseg, hopen, hburst⟩ | ⟨hseg, hlater⟩ | ⟨hopen, hsteer⟩
  · rw [State.loseBeam_off hoff]
    exact .of_coverage rfl
  · rw [State.loseBeam_closes hseg hopen hburst]
    exact ((State.CountsOnly.raiseLost s b r).mono (by decide)).trans (State.CountsOnly.toClosing.mono (by decide))
  · rw [State.loseBeam_pends hseg hlater]
    exact .of_coverage rfl
  · rw [State.loseBeam_other hopen hsteer]
    exact .of_coverage rfl

/-- A loss that closes the beam at any holder is counted. -/
theorem Counts.loseBeam (s : State) (b : BeamNo) (g : SegNo) (r : LossReason) : Counts s.coverage.counters
    (s.loseBeam b g r).coverage.counters 23 (if (s.beam b).seg = some g ∧ ∃ l : LinkNo, (s.beam b).lostNow b r l ≠ [] then 1 else 0) := by
  rw [if_congr (and_congr_right fun _ => Beam.lostNow_ne_nil) rfl rfl]
  rcases s.loseBeam_cases b g with hoff | ⟨hseg, hopen, hburst⟩ | ⟨hseg, hlater⟩ | ⟨hopen, hsteer⟩
  · rw [State.loseBeam_off hoff, if_neg fun h => hoff h.1]
    exact Counts.zero rfl
  · have hclosing := (State.CountsOnly.toClosing (s := s.raiseLost b r) (b := b)).2 23 (by decide)
    rw [State.raiseLost_counters] at hclosing
    rw [State.loseBeam_closes hseg hopen hburst]
    refine Counts.right ?_ hclosing
    cases hholders : (s.beam b).holders.isNone with
    | true =>
      rw [if_pos rfl, if_neg (by simp)]
      exact Counts.zero rfl
    | false =>
      rw [if_neg (by simp), if_pos ⟨hseg, hopen, hburst, rfl⟩]
      exact Counts.bump _ _
  · rw [State.loseBeam_pends hseg hlater, if_neg fun h => Beam.not_free_of_later hlater ⟨h.2.1, h.2.2.1⟩]
    exact Counts.zero rfl
  · rw [State.loseBeam_other hopen hsteer, if_neg fun h => hopen h.2.1]
    exact Counts.zero rfl

theorem State.loseBeam_keepsAllBut : s.KeepsAllBut (s.loseBeam b g r) [.links, .coverage, .beamCtl] := fun p hp => by
  cases p <;> simp_all [Part.same]

end

/-! ### Both beams of a head (R61) -/

section
variable {s : State} {h : HeadNo} {g : SegNo} {r : LossReason}

theorem mem_beamsOf {b : BeamNo} : b ∈ beamsOf h ↔ headOf b = h := by
  rw [beamsOf, List.mem_pair]
  refine ⟨fun hb => ?_, beam_of_head⟩
  rcases hb with rfl | rfl <;> exact headOf_beamOf h _

/-- Beam B is as it was when beam A has met the loss. -/
theorem State.loseBeam_second : (s.loseBeam (beamOf h .a) g r).beam (beamOf h .b) = s.beam (beamOf h .b) := by
  rw [State.loseBeam_beam, if_neg (beamOf_ne h)]

theorem State.cellLost_beam (b : BeamNo) : (s.cellLost h g r).beam b =
    if headOf b = h then (s.beam b).lostTo g r else s.beam b := by
  rw [State.cellLost, State.loseBeam_beam, State.loseBeam_second, State.loseBeam_beam]
  by_cases hb : headOf b = h
  · rw [if_pos hb]
    rcases beam_of_head hb with rfl | rfl
    · rw [if_neg (Ne.symm (beamOf_ne h)), if_pos rfl]
    · rw [if_pos rfl]
  · rw [if_neg hb, if_neg fun he => hb (by rw [he, headOf_beamOf]), if_neg fun he => hb (by rw [he, headOf_beamOf])]

theorem State.Tells.cellLost (s : State) (h : HeadNo) (g : SegNo) (r : LossReason) :
    s.Tells (s.cellLost h g r) (fun l => (beamsOf h).flatMap (fun b => (s.beam b).toldLost b g r l)) := by
  have hsecond := State.Tells.loseBeam (s.loseBeam (beamOf h .a) g r) (beamOf h .b) g r
  rw [State.loseBeam_second] at hsecond
  refine ((State.Tells.loseBeam s (beamOf h .a) g r).trans hsecond).congr fun l => ?_
  simp [beamsOf]

theorem State.CountsOnly.cellLost : s.CountsOnly (s.cellLost h g r) [9, 23] :=
  State.CountsOnly.loseBeam.trans State.CountsOnly.loseBeam

/-- How many beams of a head meet a condition. -/
theorem length_filter_beamsOf (p : BeamNo → Prop) [DecidablePred p] : ((beamsOf h).filter (fun b => p b)).length =
    (if p (beamOf h .a) then 1 else 0) + (if p (beamOf h .b) then 1 else 0) := by
  simp only [beamsOf, List.filter_cons, List.filter_nil, decide_eq_true_eq]
  split_ifs <;> rfl

theorem Counts.cellLost (s : State) (h : HeadNo) (g : SegNo) (r : LossReason) : Counts s.coverage.counters
    (s.cellLost h g r).coverage.counters 23 ((beamsOf h).filter (fun b => (s.beam b).seg = some g ∧
      ∃ l : LinkNo, (s.beam b).lostNow b r l ≠ [])).length := by
  have hsecond := Counts.loseBeam (s.loseBeam (beamOf h .a) g r) (beamOf h .b) g r
  rw [State.loseBeam_second] at hsecond
  rw [length_filter_beamsOf]
  exact (Counts.loseBeam s (beamOf h .a) g r).trans hsecond

theorem State.cellLost_keepsAllBut : s.KeepsAllBut (s.cellLost h g r) [.links, .coverage, .beamCtl] :=
  State.loseBeam_keepsAllBut.trans State.loseBeam_keepsAllBut

end

end Sys2Proof.Machine
end

section
/-! PROOFS. A cell that is written and its segment chosen afresh: MARK CELL and UNMARK CELL (R53, R54, R61 to R63). -/

namespace Sys2Proof.Machine

theorem CellState.usable_iff {c : CellState} : c.usable = true ↔ c = .good ∨ c = .weak := by
  cases c <;> simp [CellState.usable]

/-! ### A cell that is written (R53) -/

/-- Of the states' parts one cell alone was written, and counters but that of the class changes. -/
def State.CellWritten (s u : State) (h : HeadNo) (g : SegNo) (d : Cell) : Prop :=
  u.coverage = { s.coverage with cells := (s.setCell h g d).coverage.cells, counters := u.coverage.counters } ∧
  look u.coverage.counters 6 = look s.coverage.counters 6 ∧ s.KeepsAllBut u [.coverage]

section
variable {s u v : State} {h : HeadNo} {g : SegNo} {d : Cell}

theorem State.CellWritten.counted (s : State) (h : HeadNo) (g : SegNo) (d : Cell) {k : Fin 24} (hk : k ≠ 6) :
    s.CellWritten ((s.setCell h g d).bumpCov k) h g d :=
  ⟨rfl, look_bump_ne _ (Ne.symm hk), fun p hp => by cases p <;> simp_all [Part.same]⟩

theorem State.CellWritten.bumpCov (hu : s.CellWritten u h g d) {k : Fin 24} (hk : k ≠ 6) : s.CellWritten (u.bumpCov k) h g d := by
  obtain ⟨hcov, hcount, hkeeps⟩ := hu
  refine ⟨?_, (look_bump_ne _ (Ne.symm hk)).trans hcount, hkeeps.trans (State.bumpCov_keepsAllBut _ _)⟩
  rw [State.bumpCov, hcov]

section
variable (hu : s.CellWritten u h g d)
include hu

theorem State.CellWritten.cell (i : HeadNo) (f : SegNo) : u.cell i f = if i = h ∧ f = g then some d else s.cell i f := by
  rw [← State.cell_setCell, State.cell, hu.1, State.cell]

theorem State.CellWritten.segRec (f : SegNo) : u.segRec f = s.segRec f := by
  rw [State.segRec, hu.1, State.segRec]

theorem State.CellWritten.cell_rechoose (i : HeadNo) (f : SegNo) :
    (u.rechoose [g]).cell i f = if i = h ∧ f = g then some d else s.cell i f := by
  rw [(u.rechoose_cover [g]).1, hu.cell]

theorem State.CellWritten.followed : s.ClassFollowed (u.rechoose [g]) g := by
  obtain ⟨hcov, hcount, hkeeps⟩ := hu
  exact (u.rechoose_followed g).congr
    ⟨hkeeps .registry (by decide), hkeeps .cranes (by decide), hkeeps .reefer (by decide), hkeeps .links (by decide), by rw [hcov], hcount⟩
    ⟨rfl, rfl, rfl, rfl⟩ ⟨_, .of_links rfl⟩

theorem State.CellWritten.stay (hquiet : ((u.rechoose [g]).segRec g).cls = (s.segRec g).cls) : u.ClassesStay [g] := by
  intro f hf
  rw [List.mem_singleton.mp hf, hu.segRec, ← hquiet, u.segRec_rechoose_self List.mem_cons_self]

end

/-! ### What is raised (R54, R61) -/

/-- First the one's notices, between them those of a change of class, last the other's. -/
theorem State.Raises.around {s t u v : State} {first last : LinkNo → List Notice} {quiet : Prop} (h : s.Tells t first)
    (hspreads : t.Spreads u) (hquiet : quiet → u.links = t.links) (hlast : u.Tells v last) : s.Raises v first last quiet := fun l => by
  obtain ⟨⟨ns, hns⟩, -⟩ := hspreads
  by_cases hq : quiet
  · refine ⟨[], [], fun _ => rfl, by simp, ?_⟩
    have hsame : u.link l = t.link l := by rw [State.link, hquiet hq, State.link]
    rw [hlast l, hsame, h l, ← Link.raiseAll_append]
    simp
  · refine ⟨ns l, [], fun hq' => absurd hq' hq, by simp, ?_⟩
    rw [hlast l, hns l, h l, ← Link.raiseAll_append, ← Link.raiseAll_append]
    simp

/-! ### MARK CELL and UNMARK CELL -/

/-- A marked cell. -/
def Cell.marked (c : Cell) : Cell := { c with state := .marked, recovery := 0 }

/-- A cell whose mark is taken away. -/
def Cell.unmarked (c : Cell) : Cell := { c with state := .weak, q := 128, recovery := 0 }

variable {r : Request} {c : Cell}

/-- The cell is marked and its segment chosen afresh, before the beams meet its loss. -/
def State.cellMarked (s : State) (h : HeadNo) (g : SegNo) (c : Cell) : State :=
  ((s.setCell h g c.marked).bumpCov 7).rechoose [g]

theorem State.markCell_eq (s : State) (h : HeadNo) (g : SegNo) (c : Cell) : s.markCell h g c =
    if c.state.usable then (s.cellMarked h g c).cellLost h g .marked else s.cellMarked h g c := rfl

/-- What MARK CELL does, its body read. -/
def State.giveMark (s : State) (r : Request) (h : HeadNo) (g : SegNo) : State :=
  match s.cell h g with
  | none => s.answer r.ref .badRequest
  | some c => State.reply (if c.state = .marked then s else (s.markCell h g c).judge) r.ref .ok (.cell c.state)

/-- What UNMARK CELL does, its body read. -/
def State.giveUnmark (s : State) (r : Request) (h : HeadNo) (g : SegNo) : State :=
  match s.cell h g with
  | none => s.answer r.ref .badRequest
  | some c => State.reply (if c.state = .marked then (s.unmarkCell h g c).judge else s) r.ref .ok (.cell c.state)

theorem exec_markCell (hasks : s.Asks .markCell r) (hread : readCellBody r.body = some (h, g)) :
    exec (.markCell r.ref.link) s = .next ((s.taken r).giveMark r h g) :=
  exec_asks_reading (c := .markCell) (f := fun u (q : HeadNo × SegNo) => u.giveMark r q.1 q.2) hasks (fun _ => rfl) hread

theorem exec_unmarkCell (hasks : s.Asks .unmarkCell r) (hread : readCellBody r.body = some (h, g)) :
    exec (.unmarkCell r.ref.link) s = .next ((s.taken r).giveUnmark r h g) :=
  exec_asks_reading (c := .unmarkCell) (f := fun u (q : HeadNo × SegNo) => u.giveUnmark r q.1 q.2) hasks (fun _ => rfl) hread

theorem State.giveMark_some (hc : s.cell h g = some c) : s.giveMark r h g =
    State.reply (if c.state = .marked then s else (s.markCell h g c).judge) r.ref .ok (.cell c.state) := by
  rw [State.giveMark, hc]

theorem State.giveMark_none (hc : s.cell h g = none) : s.giveMark r h g = s.answer r.ref .badRequest := by
  rw [State.giveMark, hc]

theorem State.giveUnmark_some (hc : s.cell h g = some c) : s.giveUnmark r h g =
    State.reply (if c.state = .marked then (s.unmarkCell h g c).judge else s) r.ref .ok (.cell c.state) := by
  rw [State.giveUnmark, hc]

theorem State.giveUnmark_none (hc : s.cell h g = none) : s.giveUnmark r h g = s.answer r.ref .badRequest := by
  rw [State.giveUnmark, hc]

theorem State.cellMarked_written (s : State) (h : HeadNo) (g : SegNo) (c : Cell) :
    s.CellWritten ((s.setCell h g c.marked).bumpCov 7) h g c.marked := .counted s h g c.marked (by decide)

/-- The notices of a loss that MARK CELL brings on. -/
def State.markLost (s : State) (h : HeadNo) (g : SegNo) (c : Cell) (l : LinkNo) : List Notice :=
  if c.state.usable then (beamsOf h).flatMap (fun b => (s.beam b).toldLost b g .marked l) else []

theorem State.markLost_of_usable (hc : c.state.usable = true) (l : LinkNo) :
    s.markLost h g c l = (beamsOf h).flatMap (fun b => (s.beam b).toldLost b g .marked l) := if_pos hc

theorem State.markLost_of_not (hc : ¬c.state.usable = true) (l : LinkNo) : s.markLost h g c l = [] := if_neg hc

/-- The beams of the head have met the loss, where there is one. -/
theorem State.markCell_countsOnly : (s.cellMarked h g c).CountsOnly (s.markCell h g c) [9, 23] := by
  rw [State.markCell_eq]
  split
  · exact State.CountsOnly.cellLost
  · exact .of_coverage rfl

theorem State.markCell_tells : (s.cellMarked h g c).Tells (s.markCell h g c) (s.markLost h g c) := by
  have hbeam : ∀ b, (s.cellMarked h g c).beam b = s.beam b := fun b => State.beam_of_beamCtl (by simp [State.cellMarked]) b
  rw [State.markCell_eq]
  split
  · next husable =>
    refine (State.Tells.cellLost _ h g .marked).congr fun l => ?_
    simp only [State.markLost_of_usable husable, hbeam]
  · next husable => exact (State.Tells.of_links rfl).congr fun l => (State.markLost_of_not husable l).symm

theorem State.markCell_beam (b : BeamNo) : (s.markCell h g c).beam b =
    if c.state.usable = true ∧ headOf b = h then (s.beam b).lostTo g .marked else s.beam b := by
  have hbeam : (s.cellMarked h g c).beam b = s.beam b := State.beam_of_beamCtl (by simp [State.cellMarked]) b
  rw [State.markCell_eq]
  split
  · next husable =>
    rw [State.cellLost_beam, hbeam]
    exact if_congr (by simp [husable]) rfl rfl
  · next husable => rw [hbeam, if_neg fun hand => husable hand.1]

theorem Counts.markCell (s : State) (h : HeadNo) (g : SegNo) (c : Cell) : Counts s.coverage.counters
    (s.markCell h g c).coverage.counters 23 ((beamsOf h).filter (fun b => c.state.usable = true ∧ (s.beam b).seg = some g ∧
      ∃ l : LinkNo, (s.beam b).lostNow b .marked l ≠ [])).length := by
  have hbeam : ∀ b, (s.cellMarked h g c).beam b = s.beam b := fun b => State.beam_of_beamCtl (by simp [State.cellMarked]) b
  have hbefore : look (s.cellMarked h g c).coverage.counters 23 = look s.coverage.counters 23 := by
    rw [State.cellMarked, State.rechoose_counters _ _ (by decide)]
    exact look_bump_ne _ (by decide)
  rw [State.markCell_eq]
  split
  · next husable =>
    have hlost := Counts.cellLost (s.cellMarked h g c) h g .marked
    simp only [hbeam] at hlost
    simpa only [husable, true_and] using hlost.left hbefore
  · next husable =>
    rw [List.filter_eq_nil_iff.mpr fun b _ => by simp [husable]]
    exact Counts.zero hbefore

theorem State.markCell_keepsAllBut :
    s.KeepsAllBut (s.markCell h g c) [.links, .coverage, .beamCtl, .pool, .downlink, .cranes, .reefer] := by
  have hmarked : s.KeepsAllBut (s.cellMarked h g c) [.links, .coverage, .beamCtl, .pool, .downlink, .cranes, .reefer] :=
    ((s.cellMarked_written h g c).2.2.mono (by decide)).step (State.rechoose_keepsAllBut _ _) (by decide)
  rw [State.markCell_eq]
  split
  · exact hmarked.step State.cellLost_keepsAllBut (by decide)
  · exact hmarked

end

end Sys2Proof.Machine
end

section
/-! PROOFS. MARK CELL and UNMARK CELL change one cell, and the class of its segment follows (R54, R61 to R63). -/

namespace Sys2Proof.Machine

section
variable {s u t : State} {h : HeadNo} {g : SegNo} {c d : Cell} {r : Request}

/-- A written cell whose segment is chosen afresh, and what comes after it and only moves counters other than that of the class
changes, raises notices and deals with beams: cell, choice and class stand. -/
theorem State.CellWritten.after (hu : s.CellWritten u h g d) {is : List (Fin 24)} (hcounts : (u.rechoose [g]).CountsOnly t is)
    (hsix : (6 : Fin 24) ∉ is) (hheads : ∀ i : HeadNo, (t.head i).state = (s.head i).state)
    (hcranes : t.cranes = (u.rechoose [g]).cranes) (hreefer : t.reefer = (u.rechoose [g]).reefer)
    (htells : ∃ ns : LinkNo → List Notice, (u.rechoose [g]).Tells t ns) :
    t.cell h g = some d ∧ (∀ (i : HeadNo) (f : SegNo), (i, f) ≠ (h, g) → t.cell i f = s.cell i f) ∧ t.segRec g = t.chosen g ∧
    s.ClassFollowed t g := by
  obtain ⟨hcells, hsegs, -⟩ := hcounts.cells
  have hcell : ∀ (i : HeadNo) (f : SegNo), t.cell i f = (u.rechoose [g]).cell i f := fun i f => by
    rw [State.cell, hcells, State.cell]
  have hseg : ∀ f, t.segRec f = (u.rechoose [g]).segRec f := fun f => by rw [State.segRec, hsegs, State.segRec]
  have hchosen : t.chosen g = u.chosen g := State.chosen_congr
    (fun i => by rw [hcell, (u.rechoose_cover [g]).1]) (fun i => .inr (by rw [hheads, State.head_of_beamCtl (hu.2.2 .beamCtl (by decide))]))
  refine ⟨?_, fun i f hne => ?_, ?_, ?_⟩
  · rw [hcell, hu.cell_rechoose, if_pos ⟨rfl, rfl⟩]
  · rw [hcell, hu.cell_rechoose, if_neg fun he => hne (by rw [he.1, he.2])]
  · rw [hseg, u.segRec_rechoose_self List.mem_cons_self, hchosen]
  · exact hu.followed.congr ⟨rfl, rfl, rfl, rfl, rfl, rfl⟩ ⟨hcranes, hreefer, hsegs, hcounts.2 6 hsix⟩ htells

/-- What MARK CELL raises: what a change of class calls for, then the losses. -/
theorem State.markCell_raises (hstay : (s.cellMarked h g c).segRec g = (t.segRec g)) (ht : t = (s.markCell h g c).judge) :
    s.Raises t noNotices (s.markLost h g c) ((t.segRec g).cls = (s.segRec g).cls) := by
  have hwritten := s.cellMarked_written h g c
  have hbefore : s.Tells ((s.setCell h g c.marked).bumpCov 7) noNotices := .of_links rfl
  subst ht
  refine (State.Raises.around hbefore (State.Spreads.rechoose _ [g]) (fun hquiet => ?_) State.markCell_tells).judge
  rw [← hstay] at hquiet
  exact (State.rechoose_quiet (hwritten.stay hquiet)).1

theorem State.heads_markCell (i : HeadNo) : ((s.markCell h g c).head i).state = (s.head i).state := by
  have hcover : coverOf (s.markCell h g c).coverage (s.markCell h g c).beamCtl =
      coverOf (s.cellMarked h g c).coverage (s.cellMarked h g c).beamCtl := by
    rw [State.markCell_eq]
    split
    · exact State.cover_cellLost _ h g .marked
    · rfl
  have hhead : (s.cellMarked h g c).head i = s.head i := State.head_of_beamCtl (by simp [State.cellMarked]) i
  rw [(State.cover_parts hcover).2.2.2, hhead]

/-- The pool's comparison raises its own notice at most. -/
theorem State.Tells.judged (s : State) : ∃ ns : LinkNo → List Notice, s.Tells s.judge ns :=
  ⟨fun l => (s.judge_link l).choose, fun l => (s.judge_link l).choose_spec.2⟩

theorem State.markCell_follows : (s.markCell h g c).cranes = (s.cellMarked h g c).cranes ∧
    (s.markCell h g c).reefer = (s.cellMarked h g c).reefer := by
  rw [State.markCell_eq]
  split
  · exact ⟨State.cellLost_keepsAllBut .cranes (by decide), State.cellLost_keepsAllBut .reefer (by decide)⟩
  · exact ⟨rfl, rfl⟩

end

/-- Settles O27: the cell written, its segment chosen afresh and what its class brings about, and the beams that meet the loss. -/
theorem markAndUnmarkChangeOneCell : Obligations.MarkAndUnmarkChangeOneCell := by
  refine ⟨fun r s h g hasks hread => ⟨fun hc => ?_, fun c hc hmarked => ?_, fun c hc hmarked => ?_⟩,
    fun r s h g hasks hread => ⟨fun hc => ?_, fun c hc hmarked => ?_, fun c hc hmarked => ?_⟩⟩
  · exact (exec_markCell hasks hread).trans (congrArg _ (State.giveMark_none (s := s.taken r) hc))
  · rw [exec_markCell hasks hread, State.giveMark_some (s := s.taken r) hc, if_pos hmarked, hmarked]
  · obtain ⟨hcranes, hreefer⟩ := State.markCell_follows (s := s.taken r) (h := h) (g := g) (c := c)
    have hwritten := (s.taken r).cellMarked_written h g c
    have hcoverage := (State.judge_frame ((s.taken r).markCell h g c)).2.2.2.2.1
    have hcounts := (State.markCell_countsOnly (s := s.taken r) (h := h) (g := g) (c := c)).right hcoverage
    obtain ⟨ns, hjudged⟩ := State.Tells.judged ((s.taken r).markCell h g c)
    obtain ⟨hcell, hothers, hchosen, hfollowed⟩ := hwritten.after hcounts (by decide)
      (fun i => by rw [State.head_of_beamCtl (State.judge_frame _).2.2.2.2.2.1, State.heads_markCell])
      ((State.judge_frame _).2.2.2.2.2.2.2.1.trans hcranes) ((State.judge_frame _).2.2.2.2.2.2.2.2.1.trans hreefer)
      ⟨_, State.markCell_tells.trans hjudged⟩
    have hsegs : ∀ f, ((s.taken r).cellMarked h g c).segRec f = ((s.taken r).markCell h g c).judge.segRec f := fun f => by
      rw [State.segRec, State.segRec, hcounts.cells.2.1]
    have hraises := State.markCell_raises (s := s.taken r) (c := c) (hsegs g) rfl
    have hbeam : ∀ b, ((s.taken r).markCell h g c).judge.beam b = _ := fun b =>
      (State.beam_of_beamCtl (State.judge_frame _).2.2.2.2.2.1 b).trans (State.markCell_beam b)
    have hseven : look ((s.taken r).markCell h g c).judge.coverage.counters 7 = satInc (look s.coverage.counters 7) := by
      rw [hcounts.2 7 (by decide), State.cellMarked, State.rechoose_counters _ _ (by decide)]
      exact look_bump_self _ _
    have hlosses := (Counts.markCell (s.taken r) h g c).right (congrArg (fun v : Coverage => look v.counters 23) hcoverage)
    simp only [CellState.usable_iff] at hbeam hlosses
    refine ⟨((s.taken r).markCell h g c).judge, ?_, hcell, hothers, hseven, hchosen, fun b hb => ?_, fun b hb husable => ?_, ?_,
      hlosses, hfollowed, State.markCell_keepsAllBut.step (State.judge_keepsAllBut _) (by decide)⟩
    · rw [exec_markCell hasks hread, State.giveMark_some (s := s.taken r) hc, if_neg hmarked]
    · rw [hbeam, if_neg]
      · rfl
      · rintro ⟨husable, hhead⟩
        rcases hb with hother | hretired
        · exact hother hhead
        · rw [hretired] at husable
          exact absurd husable (by decide)
    · rw [hbeam, if_pos ⟨husable, hb⟩]
      exact Beam.meetsLoss_lostTo
    · have hlost : (s.taken r).markLost h g c = fun l => if c.state = .good ∨ c.state = .weak then
          (beamsOf h).flatMap (fun b => if (s.beam b).seg = some g then (s.beam b).lostNow b .marked l else []) else [] :=
        funext fun l => if_congr CellState.usable_iff rfl rfl
      rw [hlost] at hraises
      exact hraises
  · exact (exec_unmarkCell hasks hread).trans (congrArg _ (State.giveUnmark_none (s := s.taken r) hc))
  · rw [exec_unmarkCell hasks hread, State.giveUnmark_some (s := s.taken r) hc, if_neg hmarked]
  · have hwritten : (s.taken r).CellWritten (((s.taken r).setCell h g c.unmarked).bumpCov 8) h g c.unmarked :=
      .counted _ h g c.unmarked (by decide)
    have hcoverage := (State.judge_frame ((s.taken r).unmarkCell h g c)).2.2.2.2.1
    obtain ⟨ns, hjudged⟩ := State.Tells.judged ((s.taken r).unmarkCell h g c)
    obtain ⟨hcell, hothers, hchosen, hfollowed⟩ := hwritten.after (t := ((s.taken r).unmarkCell h g c).judge) (is := [])
      (.of_coverage hcoverage) (by decide)
      (fun i => by rw [State.head_of_beamCtl (s := s.taken r) (by simp [State.unmarkCell])])
      (State.judge_frame _).2.2.2.2.2.2.2.1 (State.judge_frame _).2.2.2.2.2.2.2.2.1 ⟨_, hjudged⟩
    refine ⟨((s.taken r).unmarkCell h g c).judge, ?_, hcell, hothers, ?_, hchosen, hfollowed,
      ((hwritten.2.2.mono (by decide)).step (State.rechoose_keepsAllBut _ _) (by decide)).step (State.judge_keepsAllBut _) (by decide)⟩
    · rw [exec_unmarkCell hasks hread, State.giveUnmark_some (s := s.taken r) hc, if_pos hmarked, hmarked]
    · rw [hcoverage, State.unmarkCell, State.rechoose_counters _ _ (by decide)]
      exact look_bump_self _ _

end Sys2Proof.Machine
end

section
/-! PROOFS. A sample offered to a cell (R55 to R61): the cell, what its class brings about, the loss. -/

namespace Sys2Proof.Machine

section
variable {s t : State} {h : HeadNo} {g : SegNo} {c : Cell} {m k : Nat} {ctr : Fin 24}

/-- The cell once it has taken a sample, the sample counted, and a retirement. -/
def State.sampleTaken (s : State) (h : HeadNo) (g : SegNo) (d : Cell) (ctr : Fin 24) : State :=
  if d.state = .retired then ((s.setCell h g d).bumpCov ctr).bumpCov 4 else (s.setCell h g d).bumpCov ctr

theorem State.sample_none (hc : s.cell h g = none) : s.sample h g m k ctr = s := by
  rw [State.sample, hc]

theorem State.sample_refused (hc : s.cell h g = some c) (hnot : ¬c.state.usable = true) : s.sample h g m k ctr = s.bumpCov 3 := by
  rw [State.sample, hc]
  exact if_neg hnot

/-- A usable cell takes the sample; where that retires it, the beams meet its loss. -/
theorem State.sample_taken (hc : s.cell h g = some c) (husable : c.state.usable = true) : s.sample h g m k ctr =
    if (c.sampled m k).state = .retired then ((s.sampleTaken h g (c.sampled m k) ctr).rechoose [g]).cellLost h g .retired
    else (s.sampleTaken h g (c.sampled m k) ctr).rechoose [g] := by
  rw [State.sample, hc]
  dsimp only
  rw [if_pos husable]
  split
  · next hretired => rw [State.sampleTaken, if_pos hretired]
  · next hretired => rw [State.sampleTaken, if_neg hretired]

theorem State.sampleTaken_written (s : State) (h : HeadNo) (g : SegNo) (d : Cell) (hctr : ctr ≠ 6) :
    s.CellWritten (s.sampleTaken h g d ctr) h g d := by
  unfold State.sampleTaken
  split
  · exact (State.CellWritten.counted s h g d hctr).bumpCov (by decide)
  · exact State.CellWritten.counted s h g d hctr

/-- The sample retires the cell. -/
def State.SampleRetires (s : State) (h : HeadNo) (g : SegNo) (m k : Nat) : Prop :=
  ∃ c : Cell, s.cell h g = some c ∧ c.state.usable = true ∧ (c.sampled m k).state = .retired

theorem State.sampleRetires_iff (hc : s.cell h g = some c) :
    s.SampleRetires h g m k ↔ c.state.usable = true ∧ (c.sampled m k).state = .retired := by
  refine ⟨fun ⟨d, hd, husable, hretired⟩ => ?_, fun ⟨husable, hretired⟩ => ⟨c, hc, husable, hretired⟩⟩
  rw [hc] at hd
  cases hd
  exact ⟨husable, hretired⟩

/-- What a sample does before the beams meet a loss. -/
def State.sampleFollowed (s : State) (h : HeadNo) (g : SegNo) (m k : Nat) (ctr : Fin 24) : State :=
  match s.cell h g with
  | none => s
  | some c => if c.state.usable then (s.sampleTaken h g (c.sampled m k) ctr).rechoose [g] else s.bumpCov 3

theorem State.sample_of_retires (h' : s.SampleRetires h g m k) :
    s.sample h g m k ctr = (s.sampleFollowed h g m k ctr).cellLost h g .retired := by
  obtain ⟨c, hc, husable, hretired⟩ := h'
  rw [State.sample_taken hc husable, if_pos hretired, State.sampleFollowed, hc]
  dsimp only
  rw [if_pos husable]

theorem State.sample_of_not (h' : ¬s.SampleRetires h g m k) : s.sample h g m k ctr = s.sampleFollowed h g m k ctr := by
  cases hc : s.cell h g with
  | none =>
    rw [State.sample_none hc, State.sampleFollowed, hc]
  | some c =>
    rw [State.sampleRetires_iff hc] at h'
    by_cases husable : c.state.usable = true
    · rw [State.sample_taken hc husable, if_neg fun hr => h' ⟨husable, hr⟩, State.sampleFollowed, hc]
      dsimp only
      rw [if_pos husable]
    · rw [State.sample_refused hc husable, State.sampleFollowed, hc]
      dsimp only
      rw [if_neg husable]

/-- A view of the state before the beams' loss, proved for each of a sample's three ways. -/
theorem State.sampleFollowed_cases {P : State → Prop} (hsame : P s) (hrefused : P (s.bumpCov 3))
    (htaken : ∀ d : Cell, P ((s.sampleTaken h g d ctr).rechoose [g])) : P (s.sampleFollowed h g m k ctr) := by
  unfold State.sampleFollowed
  split
  · exact hsame
  · split
    · exact htaken _
    · exact hrefused

theorem State.Spreads.sampleFollowed (s : State) (h : HeadNo) (g : SegNo) (m k : Nat) (hctr : ctr ≠ 6) :
    s.Spreads (s.sampleFollowed h g m k ctr) := by
  refine State.sampleFollowed_cases (.of_same rfl rfl rfl) (.of_same rfl rfl rfl) fun d => ?_
  have hkeeps := (s.sampleTaken_written h g d hctr).2.2
  exact (State.Spreads.of_same (hkeeps .links (by decide)) (hkeeps .downlink (by decide)) (hkeeps .pool (by decide))).trans
    (State.Spreads.rechoose _ [g])

theorem State.sampleFollowed_beamCtl (hctr : ctr ≠ 6) : (s.sampleFollowed h g m k ctr).beamCtl = s.beamCtl := by
  refine State.sampleFollowed_cases (P := fun u => u.beamCtl = s.beamCtl) rfl rfl fun d => ?_
  have hbefore := (s.sampleTaken_written h g d hctr).2.2 .beamCtl (by decide)
  exact (State.rechoose_keepsAllBut _ [g] .beamCtl (by decide)).trans hbefore

theorem State.sampleFollowed_keepsAllBut (hctr : ctr ≠ 6) :
    s.KeepsAllBut (s.sampleFollowed h g m k ctr) [.links, .coverage, .pool, .downlink, .cranes, .reefer] :=
  State.sampleFollowed_cases (P := fun u => s.KeepsAllBut u _) (.refl _ _) ((State.bumpCov_keepsAllBut s 3).mono (by decide)) fun d =>
    ((s.sampleTaken_written h g d hctr).2.2.mono (by decide)).step (State.rechoose_keepsAllBut _ _) (by decide)

/-- Where the segment's class stays a sample raises nothing and queues nothing. -/
theorem State.sampleFollowed_quiet (hctr : ctr ≠ 6)
    (hquiet : ((s.sampleFollowed h g m k ctr).segRec g).cls = (s.segRec g).cls) :
    (s.sampleFollowed h g m k ctr).links = s.links ∧ (s.sampleFollowed h g m k ctr).pool = s.pool ∧
    (s.sampleFollowed h g m k ctr).downlink = s.downlink := by
  revert hquiet
  refine State.sampleFollowed_cases (P := fun u => (u.segRec g).cls = (s.segRec g).cls → u.links = s.links ∧ u.pool = s.pool ∧
    u.downlink = s.downlink) (fun _ => ⟨rfl, rfl, rfl⟩) (fun _ => ⟨rfl, rfl, rfl⟩) fun d hquiet => ?_
  have hwritten := s.sampleTaken_written h g d hctr
  obtain ⟨hlinks, hpool, hdown, -⟩ := State.rechoose_quiet (hwritten.stay hquiet)
  exact ⟨hlinks.trans (hwritten.2.2 .links (by decide)), hpool.trans (hwritten.2.2 .pool (by decide)),
    hdown.trans (hwritten.2.2 .downlink (by decide))⟩

/-- The cell takes the sample where it is usable. -/
theorem State.cell_sampleFollowed (hc : s.cell h g = some c) (hctr : ctr ≠ 6) : (s.sampleFollowed h g m k ctr).cell h g =
    some (if c.state.usable then c.sampled m k else c) := by
  rw [State.sampleFollowed, hc]
  dsimp only
  split
  · rw [(s.sampleTaken_written h g _ hctr).cell_rechoose, if_pos ⟨rfl, rfl⟩]
  · exact hc

/-- A sample as a whole: the beams meet the loss of a cell that it retires. -/
theorem State.sample_countsOnly : (s.sampleFollowed h g m k ctr).CountsOnly (s.sample h g m k ctr) [9, 23] := by
  by_cases hr : s.SampleRetires h g m k
  · rw [State.sample_of_retires hr]
    exact State.CountsOnly.cellLost
  · rw [State.sample_of_not hr]
    exact .of_coverage rfl

theorem State.sample_tail : (s.sampleFollowed h g m k ctr).KeepsAllBut (s.sample h g m k ctr) [.links, .coverage, .beamCtl] := by
  by_cases hr : s.SampleRetires h g m k
  · rw [State.sample_of_retires hr]
    exact State.cellLost_keepsAllBut
  · rw [State.sample_of_not hr]
    exact .refl _ _

end

end Sys2Proof.Machine
end

section
/-! PROOFS. A reported burst (R57, R120): its end, the beam's sample, and what that brings on. -/

namespace Sys2Proof.Machine

/-! ### The sample of a reported burst (R57) -/

section
variable {s t : State} {b : BeamNo} {seg : Option SegNo} {ok failed : Nat}

/-- What the sample of a burst does before the beams meet a loss. -/
def State.burstFollowed (s : State) (b : BeamNo) (seg : Option SegNo) (ok failed : Nat) : State :=
  match seg with
  | some g => if ok + failed = 0 then s else s.sampleFollowed (headOf b) g (255 * ok / (ok + failed)) 8 1
  | none => s

/-- The sample of a burst retires the cell beneath its beam. -/
def State.BurstRetires (s : State) (b : BeamNo) (seg : Option SegNo) (ok failed : Nat) (g : SegNo) : Prop :=
  seg = some g ∧ ok + failed ≠ 0 ∧ s.SampleRetires (headOf b) g (255 * ok / (ok + failed)) 8

theorem State.burstSample_of_retires {g : SegNo} (h : s.BurstRetires b seg ok failed g) :
    s.burstSample b seg ok failed = (s.burstFollowed b seg ok failed).cellLost (headOf b) g .retired := by
  obtain ⟨rfl, hsent, hretires⟩ := h
  rw [State.burstSample, State.burstFollowed]
  rw [if_neg hsent, if_neg hsent, State.sample_of_retires hretires]

theorem State.burstSample_of_not (h : ¬∃ g, s.BurstRetires b seg ok failed g) :
    s.burstSample b seg ok failed = s.burstFollowed b seg ok failed := by
  cases seg with
  | none => rfl
  | some g =>
    rw [State.burstSample, State.burstFollowed]
    split
    · rfl
    · next hsent => exact State.sample_of_not fun hretires => h ⟨g, rfl, hsent, hretires⟩

theorem State.burstFollowed_unsent (h : ok + failed = 0) : s.burstSample b seg ok failed = s := by
  cases seg with
  | none => rfl
  | some g => exact if_pos h

/-- A view of the state before the loss, proved for no sample and for a sample. -/
theorem State.burstFollowed_cases {P : State → Prop} (hsame : P s)
    (hsample : ∀ g : SegNo, seg = some g → P (s.sampleFollowed (headOf b) g (255 * ok / (ok + failed)) 8 1)) :
    P (s.burstFollowed b seg ok failed) := by
  unfold State.burstFollowed
  split
  · split
    · exact hsame
    · exact hsample _ rfl
  · exact hsame

theorem State.Spreads.burstFollowed (s : State) (b : BeamNo) (seg : Option SegNo) (ok failed : Nat) :
    s.Spreads (s.burstFollowed b seg ok failed) :=
  State.burstFollowed_cases (.of_same rfl rfl rfl) fun g _ => State.Spreads.sampleFollowed s _ g _ 8 (by decide)

theorem State.burstFollowed_beamCtl : (s.burstFollowed b seg ok failed).beamCtl = s.beamCtl :=
  State.burstFollowed_cases (P := fun u => u.beamCtl = s.beamCtl) rfl fun _ _ => State.sampleFollowed_beamCtl (by decide)

theorem State.burstFollowed_keepsAllBut :
    s.KeepsAllBut (s.burstFollowed b seg ok failed) [.links, .coverage, .pool, .downlink, .cranes, .reefer] :=
  State.burstFollowed_cases (P := fun u => s.KeepsAllBut u _) (.refl _ _) fun _ _ => State.sampleFollowed_keepsAllBut (by decide)

theorem State.burstFollowed_quiet
    (hquiet : ∀ g : SegNo, seg = some g → ((s.burstFollowed b seg ok failed).segRec g).cls = (s.segRec g).cls) :
    (s.burstFollowed b seg ok failed).links = s.links ∧ (s.burstFollowed b seg ok failed).pool = s.pool ∧
    (s.burstFollowed b seg ok failed).downlink = s.downlink := by
  revert hquiet
  exact State.burstFollowed_cases (P := fun u => (∀ g : SegNo, seg = some g → (u.segRec g).cls = (s.segRec g).cls) →
      u.links = s.links ∧ u.pool = s.pool ∧ u.downlink = s.downlink) (fun _ => ⟨rfl, rfl, rfl⟩)
    fun g hseg hquiet => State.sampleFollowed_quiet (by decide) (hquiet g hseg)

/-- What comes behind the sample leaves cells and segments, and all but links, counters and beams. -/
theorem State.burstSample_tail : (s.burstFollowed b seg ok failed).CountsOnly (s.burstSample b seg ok failed) [9, 23] ∧
    (s.burstFollowed b seg ok failed).KeepsAllBut (s.burstSample b seg ok failed) [.links, .coverage, .beamCtl] := by
  by_cases h : ∃ g, s.BurstRetires b seg ok failed g
  · obtain ⟨g, hg⟩ := h
    rw [State.burstSample_of_retires hg]
    exact ⟨State.CountsOnly.cellLost, State.cellLost_keepsAllBut⟩
  · rw [State.burstSample_of_not h]
    exact ⟨.of_coverage rfl, .refl _ _⟩

/-- The cell beneath the beam takes the sample where it is usable. -/
theorem State.cell_burstFollowed {g : SegNo} {c : Cell} (hseg : seg = some g) (hsent : ok + failed ≠ 0)
    (hc : s.cell (headOf b) g = some c) : (s.burstFollowed b seg ok failed).cell (headOf b) g =
    some (if c.state.usable then c.sampled (255 * ok / (ok + failed)) 8 else c) := by
  subst hseg
  rw [State.burstFollowed]
  rw [if_neg hsent]
  exact State.cell_sampleFollowed hc (by decide)

end

/-! ### The state behind a reported burst -/

section
variable (s : State) (b : BeamNo) (u : Burst) (o : Nat → FrameOutcome) (k : Fin 21)

/-- The burst ended, and counted. -/
def State.burstCounted (s : State) (b : BeamNo) (u : Burst) (o : Nat → FrameOutcome) (k : Fin 21) : State :=
  (s.endBurst b u o).bumpDown k

/-- What is done of a reported burst before the beams meet a loss. -/
def State.reportFollowed (s : State) (b : BeamNo) (u : Burst) (o : Nat → FrameOutcome) (k : Fin 21) : State :=
  (s.burstCounted b u o k).burstFollowed b (s.beam b).seg (u.count o .sentOk) (u.count o .sentFailed)

/-- What is done of a reported burst before the pool compares its marks. -/
def State.reportSampled (s : State) (b : BeamNo) (u : Burst) (o : Nat → FrameOutcome) (k : Fin 21) : State :=
  (s.burstCounted b u o k).burstSample b (s.beam b).seg (u.count o .sentOk) (u.count o .sentFailed)

theorem State.reportBurst_eq : s.reportBurst b u o k = (s.reportSampled b u o k).judge := rfl

/-- The report's sample retires the cell beneath the beam. -/
def State.ReportRetires (s : State) (b : BeamNo) (u : Burst) (o : Nat → FrameOutcome) : Prop :=
  0 < u.count o .sentOk + u.count o .sentFailed ∧ ∃ (g : SegNo) (c : Cell), (s.beam b).seg = some g ∧ s.cell (headOf b) g = some c ∧
    (c.state = .good ∨ c.state = .weak) ∧
    (c.sampled (255 * u.count o .sentOk / (u.count o .sentOk + u.count o .sentFailed)) 8).state = .retired

variable {s b u o k}

theorem State.cell_burstCounted (i : HeadNo) (g : SegNo) : (s.burstCounted b u o k).cell i g = s.cell i g :=
  congrArg (fun v => look (look v i) g) (State.endBurst_cells (s := s) (b := b) (u := u) (o := o)).1

theorem State.segRec_burstCounted (g : SegNo) : (s.burstCounted b u o k).segRec g = s.segRec g :=
  congrArg (fun v => look v g) (State.endBurst_cells (s := s) (b := b) (u := u) (o := o)).2

theorem State.reportRetires_iff : s.ReportRetires b u o ↔ ∃ g, (s.burstCounted b u o k).BurstRetires b (s.beam b).seg
    (u.count o .sentOk) (u.count o .sentFailed) g := by
  simp only [State.ReportRetires, State.BurstRetires, State.SampleRetires, State.cell_burstCounted, CellState.usable_iff]
  refine ⟨fun ⟨hsent, g, c, hseg, hrest⟩ => ⟨g, hseg, by omega, c, hrest⟩, fun ⟨g, hseg, hsent, c, hrest⟩ => ⟨by omega, g, c, hseg, hrest⟩⟩

theorem State.reportSampled_of_not (h : ¬s.ReportRetires b u o) : s.reportSampled b u o k = s.reportFollowed b u o k :=
  State.burstSample_of_not (mt State.reportRetires_iff.mpr h)

theorem State.reportSampled_of_retires (h : s.ReportRetires b u o) : ∃ g : SegNo, (s.beam b).seg = some g ∧
    s.reportSampled b u o k = (s.reportFollowed b u o k).cellLost (headOf b) g .retired := by
  obtain ⟨g, hg⟩ := (State.reportRetires_iff (k := k)).mp h
  exact ⟨g, hg.1, State.burstSample_of_retires hg⟩

theorem State.reportFollowed_beamCtl : (s.reportFollowed b u o k).beamCtl = (s.endBurst b u o).beamCtl :=
  State.burstFollowed_beamCtl

theorem State.burstCounted_keepsAllBut :
    s.KeepsAllBut (s.burstCounted b u o k) [.links, .coverage, .beamCtl, .pool, .downlink, .cranes] :=
  State.endBurst_keepsAllBut.step (State.bumpDown_keepsAllBut _ _) (by decide)

theorem State.reportBurst_keepsAllBut :
    s.KeepsAllBut (s.reportBurst b u o k) [.links, .coverage, .beamCtl, .pool, .downlink, .cranes, .reefer] :=
  (((State.burstCounted_keepsAllBut.mono (by decide)).step State.burstFollowed_keepsAllBut (by decide)).step
    State.burstSample_tail.2 (by decide)).step (State.judge_keepsAllBut _) (by decide)

/-- The frames and the blocks behind a reported burst. -/
theorem State.reportBurst_frames : (s.burstCounted b u o k).FramesChange (s.reportBurst b u o k) := by
  have htail := State.burstSample_tail (s := s.burstCounted b u o k) (b := b) (seg := (s.beam b).seg) (ok := u.count o .sentOk)
    (failed := u.count o .sentFailed)
  refine ((State.Spreads.burstFollowed _ b (s.beam b).seg _ _).2.trans (.of_downlink (htail.2 .downlink (by decide)) (by
    rw [htail.2 .pool (by decide)]))).trans (.of_downlink (State.judge_frame _).2.2.2.2.2.2.1 (State.judge_pool_keeps _).2.1)

theorem State.segRec_reportBurst (g : SegNo) : (s.reportBurst b u o k).segRec g = (s.reportFollowed b u o k).segRec g := by
  have htail := State.burstSample_tail (s := s.burstCounted b u o k) (b := b) (seg := (s.beam b).seg) (ok := u.count o .sentOk)
    (failed := u.count o .sentFailed)
  rw [State.segRec, State.reportBurst_eq, (State.judge_frame _).2.2.2.2.1]
  exact congrArg (fun v => look v g) htail.1.cells.2.1

theorem State.cell_reportBurst (i : HeadNo) (g : SegNo) : (s.reportBurst b u o k).cell i g = (s.reportFollowed b u o k).cell i g := by
  have htail := State.burstSample_tail (s := s.burstCounted b u o k) (b := b) (seg := (s.beam b).seg) (ok := u.count o .sentOk)
    (failed := u.count o .sentFailed)
  rw [State.cell, State.reportBurst_eq, (State.judge_frame _).2.2.2.2.1]
  exact congrArg (fun v => look (look v i) g) htail.1.cells.1

/-- Where the class of the beam's segment stays. -/
def State.ReportQuiet (s t : State) (b : BeamNo) : Prop := ∀ g : SegNo, (s.beam b).seg = some g → (t.segRec g).cls = (s.segRec g).cls

theorem State.reportFollowed_quiet (hquiet : s.ReportQuiet (s.reportBurst b u o k) b) :
    (s.reportFollowed b u o k).links = (s.burstCounted b u o k).links ∧
    (s.reportFollowed b u o k).pool = (s.burstCounted b u o k).pool ∧
    (s.reportFollowed b u o k).downlink = (s.burstCounted b u o k).downlink :=
  State.burstFollowed_quiet fun g hseg => by
    rw [State.segRec_burstCounted, ← hquiet g hseg, State.segRec_reportBurst]
    rfl

theorem State.reportBurst_follow : (s.reportBurst b u o k).FramesFollow (comingBack (u.settled s.now o) ++ s.downlink.waiting)
    (s.pool.free + framesBlocks (goingOut (u.settled s.now o))) (s.ReportQuiet (s.reportBurst b u o k) b) := by
  have htail := State.burstSample_tail (s := s.burstCounted b u o k) (b := b) (seg := (s.beam b).seg) (ok := u.count o .sentOk)
    (failed := u.count o .sentFailed)
  refine State.reportBurst_frames.follow ?_ ?_ fun hquiet => ?_
  · rw [← State.waiting_settleBurst s b, ← State.endBurst_downlink]
    rfl
  · exact congrArg Pool.free State.endBurst_pool
  · obtain ⟨-, hpool, hdown⟩ := State.reportFollowed_quiet hquiet
    rw [State.reportBurst_eq, (State.judge_frame _).2.2.2.2.2.2.1, (State.judge_pool_keeps _).2.1]
    exact ⟨congrArg Downlink.waiting ((htail.2 .downlink (by decide)).trans hdown),
      congrArg Pool.free ((htail.2 .pool (by decide)).trans hpool)⟩

end

end Sys2Proof.Machine
end

section
/-! PROOFS. DONE and CUT (R57, R61, R77, R83, R110, R119 to R122). -/

namespace Sys2Proof.Machine

section
variable {s : State} {b : BeamNo} {u : Burst} {o : Nat → FrameOutcome} {k : Fin 21} {g : SegNo}

/-! ### The beam of a reported burst (R77, R83) -/

/-- The notices of a reported burst's end: the results, then what the beam's close calls for. -/
def State.reportTold (s : State) (b : BeamNo) (u : Burst) (o : Nat → FrameOutcome) (l : LinkNo) : List Notice :=
  resultsAt l (toldOf (u.settled s.now o)) ++ (s.beam b).lostAfter b u.owner l

/-- The notices of the loss that a reported burst's sample brings on. -/
def State.reportLost (s : State) (b : BeamNo) (u : Burst) (l : LinkNo) : List Notice :=
  (beamsOf (headOf b)).flatMap (fun d =>
    if d = b then
      if (s.beam b).closesAfter u.owner = false ∧ look ((s.beam b).holdersAfter u.owner) l = true then
        [.beamLost b (s.beam b).seg .retired] else []
    else if (s.beam d).seg = (s.beam b).seg then (s.beam d).lostNow d .retired l else [])

variable (hopen : (s.beam b).state = .opened)
include hopen

/-- At the end of its burst the beam has closed, or is OPEN without one. -/
theorem State.beam_reportFollowed : (s.reportFollowed b u o k).beam b =
    if (s.beam b).closesAfter u.owner = true then Beam.closing (s.beam b).seg
    else { s.beam b with holders := (s.beam b).holdersAfter u.owner, burst := none, releaseDeferred := false } := by
  obtain ⟨⟨hcloses, hstays⟩, -⟩ := State.endBurst_acts (u := u) (o := o) hopen
  rw [State.beam_of_beamCtl State.reportFollowed_beamCtl]
  cases hc : (s.beam b).closesAfter u.owner with
  | true => exact (hcloses hc).1
  | false => exact (hstays hc).1

theorem State.beam_reportFollowed_other {d : BeamNo} (hd : d ≠ b) : (s.reportFollowed b u o k).beam d = s.beam d := by
  rw [State.beam_of_beamCtl State.reportFollowed_beamCtl]
  exact (State.endBurst_acts hopen).2.1 d hd

/-- The beam that met the end of its burst and then a loss is CLOSING. -/
theorem State.beam_reportFollowed_lost (hseg : (s.beam b).seg = some g) :
    ((s.reportFollowed b u o k).beam b).lostTo g .retired = Beam.closing (s.beam b).seg := by
  rw [State.beam_reportFollowed hopen]
  split
  · exact Beam.lostTo_other (by simp [Beam.closing]) (by simp [Beam.closing])
  · exact Beam.lostTo_closes hseg hopen rfl

/-- BEAM_LOST at the holders left, where the beam did not close at the end of the burst already. -/
theorem State.toldLost_reportFollowed (hseg : (s.beam b).seg = some g) (l : LinkNo) :
    ((s.reportFollowed b u o k).beam b).toldLost b g .retired l =
      if (s.beam b).closesAfter u.owner = false ∧ look ((s.beam b).holdersAfter u.owner) l = true then
        [.beamLost b (s.beam b).seg .retired] else [] := by
  rw [State.beam_reportFollowed hopen]
  cases hc : (s.beam b).closesAfter u.owner with
  | true => simp [Beam.toldLost, Beam.lostNow, Beam.closing]
  | false => simp [Beam.toldLost, Beam.lostNow, hopen, hseg]

theorem State.reportBurst_tells : s.Tells (s.burstCounted b u o k) (s.reportTold b u o) :=
  (State.Tells.endBurst hopen).links_right rfl

/-- No loss: the beam alone has dealt with the end of its burst. -/
theorem State.reportBurst_stays (hnot : ¬s.ReportRetires b u o) :
    s.ActsAtBurstEnd (s.reportBurst b u o k) b u.owner ∧ (∀ d : BeamNo, d ≠ b → (s.reportBurst b u o k).beam d = s.beam d) ∧
    s.Raises (s.reportBurst b u o k) (s.reportTold b u o) noNotices (s.ReportQuiet (s.reportBurst b u o k) b) := by
  have hctl : (s.reportBurst b u o k).beamCtl = (s.endBurst b u o).beamCtl := by
    rw [State.reportBurst_eq, State.reportSampled_of_not hnot, (State.judge_frame _).2.2.2.2.2.1, State.reportFollowed_beamCtl]
  refine ⟨(State.endBurst_acts hopen).1.of_beamCtl hctl, fun d hd => ?_, ?_⟩
  · rw [State.beam_of_beamCtl hctl]
    exact (State.endBurst_acts hopen).2.1 d hd
  · have hraises : s.Raises (s.reportFollowed b u o k) (s.reportTold b u o) noNotices (s.ReportQuiet (s.reportBurst b u o k) b) :=
      .around (State.reportBurst_tells hopen) (State.Spreads.burstFollowed _ b (s.beam b).seg _ _)
        (fun hquiet => (State.reportFollowed_quiet hquiet).1) (.of_links rfl)
    rw [State.reportBurst_eq, State.reportSampled_of_not hnot] at hraises ⊢
    exact hraises.judge

/-- A loss: the beam closes, and the beams of its head over the same segment meet it. -/
theorem State.reportBurst_loses (hretires : s.ReportRetires b u o) :
    (s.reportBurst b u o k).beam b = Beam.closing (s.beam b).seg ∧
    (∀ (d : BeamNo) (g : SegNo), d ≠ b → headOf d = headOf b → (s.beam b).seg = some g →
      (s.beam d).MeetsLoss ((s.reportBurst b u o k).beam d) g .retired) ∧
    (∀ d : BeamNo, headOf d ≠ headOf b → (s.reportBurst b u o k).beam d = s.beam d) ∧
    s.Raises (s.reportBurst b u o k) (s.reportTold b u o) (s.reportLost b u) (s.ReportQuiet (s.reportBurst b u o k) b) := by
  obtain ⟨g, hseg, hsampled⟩ := State.reportSampled_of_retires (k := k) hretires
  have hbeam : ∀ d, (s.reportBurst b u o k).beam d = if headOf d = headOf b then
      ((s.reportFollowed b u o k).beam d).lostTo g .retired else (s.reportFollowed b u o k).beam d := fun d => by
    rw [State.reportBurst_eq, State.beam_of_beamCtl (State.judge_frame _).2.2.2.2.2.1, hsampled, State.cellLost_beam]
  refine ⟨?_, fun d f hd hhead hf => ?_, fun d hhead => ?_, ?_⟩
  · rw [hbeam, if_pos rfl, State.beam_reportFollowed_lost hopen hseg]
  · rw [hseg] at hf
    cases hf
    rw [hbeam, if_pos hhead, State.beam_reportFollowed_other hopen hd]
    exact Beam.meetsLoss_lostTo
  · rw [hbeam, if_neg hhead, State.beam_reportFollowed_other hopen fun he => hhead (by rw [he])]
  · have hlost : (s.reportFollowed b u o k).Tells (s.reportSampled b u o k) (s.reportLost b u) := by
      rw [hsampled]
      refine (State.Tells.cellLost _ (headOf b) g .retired).congr fun l => ?_
      refine congrArg (fun f => List.flatMap f (beamsOf (headOf b))) (funext fun d => ?_)
      by_cases hd : d = b
      · subst hd
        rw [if_pos rfl, State.toldLost_reportFollowed hopen hseg]
      · rw [if_neg hd, State.beam_reportFollowed_other hopen hd, Beam.toldLost, hseg]
    exact (State.Raises.around (State.reportBurst_tells hopen) (State.Spreads.burstFollowed _ b (s.beam b).seg _ _)
      (fun hquiet => (State.reportFollowed_quiet hquiet).1) hlost).judge

end

/-! ### What the report says (R121, R122) -/

theorem doneOutcome_eq {os : List FrameOutcome} {outcome : Nat → FrameOutcome} (h : ∀ i, outcome i = (os[i]?).getD .notSent) :
    doneOutcome os = outcome := funext fun i => by
  rw [h i, doneOutcome, List.getD_eq_getElem?_getD]

theorem cutOutcome_eq {ps : List (Nat × FrameOutcome)} {outcome : Nat → FrameOutcome} (hlisted : ∀ p ∈ ps, outcome p.1 = p.2)
    (hnot : ∀ i, i ∉ ps.map Prod.fst → outcome i = .notSent) : cutOutcome ps = outcome := funext fun i => by
  rw [cutOutcome]
  cases hfind : ps.find? (fun p => p.1 == i) with
  | some p =>
    have hi : p.1 = i := by simpa using List.find?_some hfind
    have hout := hlisted p (List.mem_of_find?_eq_some hfind)
    rwa [hi, eq_comm] at hout
  | none =>
    refine (hnot i fun hmem => ?_).symm
    obtain ⟨p, hp, hi⟩ := List.mem_map.mp hmem
    exact (List.find?_eq_none.mp hfind) p hp (by simpa using hi)

theorem endReport_eq (fs : List (Frame × Settled)) : endReport fs = .burstEnd (fs.filter (fun p => p.2 == .delivered)).length
    (fs.filter (fun p => p.2 == .returned)).length (fs.filter (fun p => p.2 != .delivered && p.2 != .returned)).length := by
  have hcount : ∀ (ks : List Settled) (q : Settled → Bool), (∀ x, ks.contains x = q x) →
      settledCount fs ks = (fs.filter (fun p => q p.2)).length := fun ks q h => by
    rw [settledCount]
    exact congrArg List.length (List.filter_congr fun p _ => h p.2)
  rw [endReport, hcount [.delivered] (fun x => x == .delivered) (fun x => by cases x <;> rfl), hcount [.returned] (fun x => x == .returned)
    (fun x => by cases x <;> rfl), hcount _ (fun x => x != .delivered && x != .returned) (fun x => by cases x <;> rfl)]

/-! ### The checks of a report, and the reply -/

section
variable {s : State} {r : Request} {b : BeamNo} {n : Byte} {u : Burst} {o : Nat → FrameOutcome} {k : Fin 21}

/-- DONE and CUT alike, their bodies read. -/
theorem exec_burstReport {c : ReqCode} (hasks : s.Asks c r)
    (hbody : (∃ os : List FrameOutcome, c = .done ∧ k = 6 ∧ readDone r.body = some (b, n, os) ∧
        ∀ i : Nat, o i = (os[i]?).getD .notSent) ∨
      (∃ ps : List (Nat × FrameOutcome), c = .cut ∧ k = 7 ∧ readCut r.body = some (b, n, ps) ∧
        (∀ p ∈ ps, o p.1 = p.2) ∧ ∀ i : Nat, i ∉ ps.map Prod.fst → o i = .notSent)) :
    exec (c.command r.ref.link) s = .next ((s.taken r).burstReport r b n o k) := by
  rcases hbody with ⟨os, rfl, rfl, hread, ho⟩ | ⟨ps, rfl, rfl, hread, hlisted, hnot⟩
  · rw [← doneOutcome_eq ho]
    exact exec_asks_reading (c := .done) (f := fun v (q : BeamNo × Byte × List FrameOutcome) =>
      v.burstReport r q.1 q.2.1 (doneOutcome q.2.2) 6) hasks (fun _ => rfl) hread
  · rw [← cutOutcome_eq hlisted hnot]
    exact exec_asks_reading (c := .cut) (f := fun v (q : BeamNo × Byte × List (Nat × FrameOutcome)) =>
      v.burstReport r q.1 q.2.1 (cutOutcome q.2.2) 7) hasks (fun _ => rfl) hread

theorem State.burstReport_none (h : ∀ u : Burst, ¬((s.beam b).burst = some u ∧ u.number = n)) :
    s.burstReport r b n o k = (s.bumpDown 10).answer r.ref .noBurst := by
  unfold State.burstReport
  split
  · rfl
  · next u hu => exact if_pos fun hn => h u ⟨hu, hn⟩

theorem State.burstReport_notHolder (hu : (s.beam b).burst = some u) (hn : u.number = n) (howner : u.owner ≠ r.ref.link) :
    s.burstReport r b n o k = s.answer r.ref .notHolder := by
  unfold State.burstReport
  rw [hu]
  dsimp only
  rw [if_neg (not_not.mpr hn), if_pos howner]

theorem State.burstReport_of (hu : (s.beam b).burst = some u) (hn : u.number = n) (howner : u.owner = r.ref.link) :
    s.burstReport r b n o k = (s.reportBurst b u o k).reply r.ref .ok (endReport (u.settled s.now o)) := by
  unfold State.burstReport
  rw [hu]
  dsimp only
  rw [if_neg (not_not.mpr hn), if_neg (not_not.mpr howner)]

/-! ### The counts, and a report without a position sent -/

theorem State.reportBurst_counters {i : Fin 21} (hi : i ∉ [1, 20, 15, 16, 19]) : look (s.reportBurst b u o k).downlink.counters i =
    look (bump (bumpBy (bumpBy (bumpBy s.downlink.counters 11 (u.count o .sentOk)) 12 (u.count o .sentFailed)) 13
      (u.count o .notSent)) k) i := by
  have hframes := (State.reportBurst_frames (s := s) (b := b) (u := u) (o := o) (k := k)).2.2 i (fun he => hi (by simp [he]))
    (fun he => hi (by simp [he]))
  have hsettled := State.settleBurst_counters (s := s) (b := b) (u := u) (o := o) (i := i) (fun hm => hi (by simp_all))
  rw [hframes]
  by_cases hk : i = k
  · subst hk
    refine (look_bump_self _ _).trans ((congrArg satInc ?_).trans (look_bump_self _ _).symm)
    rw [State.endBurst_downlink, hsettled]
  · refine (look_bump_ne _ hk).trans (Eq.trans ?_ (look_bump_ne _ hk).symm)
    rw [State.endBurst_downlink, hsettled]

/-- Where no position was sent there is no sample. -/
theorem State.reportBurst_unsent (h : u.count o .sentOk = 0 ∧ u.count o .sentFailed = 0) :
    s.reportBurst b u o k = (s.burstCounted b u o k).judge := by
  rw [State.reportBurst_eq, State.reportSampled, State.burstFollowed_unsent (by omega)]

theorem State.burst_reportBurst (d : BeamNo) : ((s.reportBurst b u o k).beam d).burst = if d = b then none else (s.beam d).burst := by
  have hsampled : (s.reportBurst b u o k).burstAt = (s.endBurst b u o).burstAt := by
    simp [State.reportBurst]
  rw [← State.burst_endBurst (o := o) d]
  exact congrFun hsampled d

end

/-- Settles O42: the checks, the reply and the counts, the frames and blocks, the cell's sample, the beam's close or the loss. -/
theorem doneAndCutEndTheBurst : Obligations.DoneAndCutEndTheBurst := by
  intro c r s b n outcome k hasks hbody fits count
  have hexec := exec_burstReport hasks hbody
  have hk : k = 6 ∨ k = 7 := hbody.imp (fun ⟨_, _, hk, _⟩ => hk) (fun ⟨_, _, hk, _⟩ => hk)
  refine ⟨fun hnone => ?_, fun u ⟨hu, hn⟩ howner => ?_, fun u ⟨hu, hn⟩ howner => ?_⟩
  · exact hexec.trans (congrArg _ (State.burstReport_none (s := s.taken r) hnone))
  · exact hexec.trans (congrArg _ (State.burstReport_notHolder (s := s.taken r) hu hn howner))
  · intro fs
    have hcounters : ∀ i : Fin 21, i ∉ [1, 20, 15, 16, 19] → _ := fun i hi =>
      State.reportBurst_counters (s := s.taken r) (b := b) (u := u) (o := outcome) (k := k) hi
    have hself : look ((s.taken r).reportBurst b u outcome k).downlink.counters k = satInc (look s.downlink.counters k) := by
      rw [hcounters k (by rcases hk with rfl | rfl <;> decide), look_bump_self]
      refine congrArg satInc ?_
      rcases hk with rfl | rfl <;>
        rw [look_bumpBy_ne _ _ (by decide), look_bumpBy_ne _ _ (by decide), look_bumpBy_ne _ _ (by decide)] <;> rfl
    refine ⟨(s.taken r).reportBurst b u outcome k, ?_, ?_, fun d hd => ?_, hself, ?_, ?_, ?_, fun hok hfailed => ?_,
      fun g x hsent hseg hx => ?_, ⟨State.reportBurst_follow (s := s.taken r), fun hopen => ⟨fun hnot => ?_, fun hretires => ?_⟩⟩,
      State.reportBurst_keepsAllBut⟩
    · rw [hexec, State.burstReport_of (s := s.taken r) hu hn howner, endReport_eq]
      rfl
    · rw [State.burst_reportBurst, if_pos rfl]
    · rw [State.burst_reportBurst, if_neg hd]
      rfl
    · rw [hcounters 11 (by decide), look_bump_ne _ (by rcases hk with rfl | rfl <;> decide), look_bumpBy_ne _ _ (by decide),
        look_bumpBy_ne _ _ (by decide), look_bumpBy_self]
      rfl
    · rw [hcounters 12 (by decide), look_bump_ne _ (by rcases hk with rfl | rfl <;> decide), look_bumpBy_ne _ _ (by decide),
        look_bumpBy_self, look_bumpBy_ne _ _ (by decide)]
      rfl
    · rw [hcounters 13 (by decide), look_bump_ne _ (by rcases hk with rfl | rfl <;> decide), look_bumpBy_self,
        look_bumpBy_ne _ _ (by decide), look_bumpBy_ne _ _ (by decide)]
      rfl
    · have hunsent : (s.taken r).reportBurst b u outcome k = ((s.taken r).burstCounted b u outcome k).judge :=
        State.reportBurst_unsent ⟨hok, hfailed⟩
      obtain ⟨hcells, hsegs⟩ := State.endBurst_cells (s := s.taken r) (b := b) (u := u) (o := outcome)
      have hcoverage : ((s.taken r).burstCounted b u outcome k).judge.coverage = ((s.taken r).endBurst b u outcome).coverage :=
        (State.judge_frame _).2.2.2.2.1
      rw [hunsent, hcoverage, hcells, hsegs, (State.judge_frame _).2.2.2.2.2.2.1, (State.judge_pool_keeps _).2.1]
      refine ⟨?_, congrArg Pool.free State.endBurst_pool, rfl, rfl⟩
      exact (congrArg Downlink.waiting State.endBurst_downlink).trans (State.waiting_settleBurst _ _ _ _)
    · rw [State.cell_reportBurst]
      have hcell : ((s.taken r).reportFollowed b u outcome k).cell (headOf b) g = _ := State.cell_burstFollowed
        (s := (s.taken r).burstCounted b u outcome k) hseg (Nat.ne_of_gt hsent) ((State.cell_burstCounted _ g).trans hx)
      rw [hcell]
      exact congrArg some (if_congr CellState.usable_iff rfl rfl)
    · exact State.reportBurst_stays (s := s.taken r) hopen hnot
    · exact State.reportBurst_loses (s := s.taken r) hopen hretires

end Sys2Proof.Machine
end

section
/-! PROOFS. A PROBE that is answered (R71, R84, R86, R89). -/

namespace Sys2Proof.Machine

/-! ### A command that has been answered (R71) -/

section
variable {s t : State} {h : HeadNo} {bs : List Byte} {o : Outstanding} {k : AnswerKind}

theorem State.CountsOnly.endOutstanding : s.CountsOnly (s.endOutstanding h) [9] :=
  (State.CountsOnly.sendNext (s.setHead h { s.head h with outstanding := none }) h).left rfl

theorem State.endOutstanding_keepsAllBut : s.KeepsAllBut (s.endOutstanding h) [.coverage, .beamCtl] := fun p hp => by
  cases p <;> simp_all [Part.same]

theorem State.head_endOutstanding (i : HeadNo) : (s.endOutstanding h).head i =
    if i = h then Head.next { s.head h with outstanding := none } s.clock.ms else s.head i := by
  rw [State.head_of_beamCtl (s.endOutstanding_beamCtl h), State.head_setHead]

theorem State.waitList_endOutstanding : (s.endOutstanding h).beamCtl.waitList = s.beamCtl.waitList := by
  rw [State.endOutstanding_beamCtl]
  rfl

theorem State.beams_endOutstanding : (s.endOutstanding h).beamCtl.beams = s.beamCtl.beams := by
  rw [State.endOutstanding_beamCtl]
  rfl

/-- The command that follows an answered one. -/
def Head.follower (x : Head) (now : Time) : Option Outstanding :=
  match x.queue with
  | [] => none
  | c :: _ => some { cmd := c, number := x.nextNumber, sentAt := now, leftToFinish := false }

/-- The line behind an answer carries the next command queued. -/
theorem Head.next_follower (x : Head) (now : Time) :
    (Head.next { x with outstanding := none } now).outstanding = x.follower now ∧
    (Head.next { x with outstanding := none } now).queue = x.queue.tail := by
  unfold Head.next Head.follower
  cases hq : x.queue <;> simp

theorem Head.next_kept (x : Head) (now : Time) : (x.next now).probeAt = x.probeAt ∧ (x.next now).reference = x.reference := by
  unfold Head.next
  split <;> exact ⟨rfl, rfl⟩

/-- What an answer leaves of its head beside the line. -/
theorem State.endOutstanding_kept (s : State) (h : HeadNo) :
    ((s.endOutstanding h).head h).state = (s.head h).state ∧ ((s.endOutstanding h).head h).survey = (s.head h).survey ∧
    ((s.endOutstanding h).head h).retryAt = (s.head h).retryAt ∧
    ((s.endOutstanding h).head h).restartProbe = (s.head h).restartProbe ∧
    ((s.endOutstanding h).head h).probeAt = (s.head h).probeAt ∧ ((s.endOutstanding h).head h).reference = (s.head h).reference ∧
    ((s.endOutstanding h).head h).outstanding = (s.head h).follower s.clock.ms ∧
    ((s.endOutstanding h).head h).queue = (s.head h).queue.tail := by
  rw [State.head_endOutstanding, if_pos rfl]
  obtain ⟨hstate, hsurvey, hretry, hprobe⟩ := Head.next_state { s.head h with outstanding := none } s.clock.ms
  obtain ⟨hat, href⟩ := Head.next_kept { s.head h with outstanding := none } s.clock.ms
  obtain ⟨hout, hqueue⟩ := Head.next_follower (s.head h) s.clock.ms
  exact ⟨hstate, hsurvey, hretry, hprobe, hat, href, hout, hqueue⟩

/-- What an answered command that no warm restart left to finish comes to. -/
def State.afterAnswer (s : State) (h : HeadNo) (f : State → State) : State := (f (s.endOutstanding h)).trySweep h

theorem State.answered_eq (hleft : o.leftToFinish = false) (f : State → State) : s.answered h o f = s.afterAnswer h f := by
  rw [State.answered, hleft]
  rfl

/-- A sweep that starts, or not, leaves all of a head but its line. -/
theorem State.head_trySweep (s : State) (h : HeadNo) :
    (s.trySweep h).head h = s.head h ∨ (s.trySweep h).head h = (s.head h).sending .sweep s.clock.ms := by
  by_cases hmay : s.sweepMay h = true
  · rw [State.trySweep_of_may hmay, State.head_bumpCov, State.head_setHead_self]
    exact .inr rfl
  · rw [State.trySweep_of_not hmay]
    exact .inl rfl

theorem State.trySweep_kept (s : State) (h : HeadNo) : ((s.trySweep h).head h).probeAt = (s.head h).probeAt ∧
    ((s.trySweep h).head h).restartProbe = (s.head h).restartProbe ∧ ((s.trySweep h).head h).retryAt = (s.head h).retryAt := by
  rcases s.head_trySweep h with hh | hh <;> rw [hh] <;> exact ⟨rfl, rfl, rfl⟩

end

/-! ### HEAD_STATE (R84) -/

section
variable {s t : State} {h : HeadNo}

/-- HEAD_STATE at the links that hold TRAFFIC or ADMIN. -/
def State.headTold (s : State) (h : HeadNo) (l : LinkNo) : List Notice :=
  if (s.link l).rights.traffic = true ∨ (s.link l).rights.admin = true then [.headState h (s.head h).state (s.head h).survey] else []

theorem State.Tells.raiseHeadState (s : State) (h : HeadNo) : s.Tells (s.raiseHeadState h) (s.headTold h) :=
  (State.Tells.raiseWhere s (fun _ k => k.rights.traffic || k.rights.admin) _).congr fun l => by
    simp only [State.headTold, Bool.or_eq_true]

/-- Notices leave every link's rights. -/
theorem State.Tells.rights {ns : LinkNo → List Notice} (ht : s.Tells t ns) (l : LinkNo) : (t.link l).rights = (s.link l).rights := by
  rw [ht l]
  exact (Link.raiseAll_keeps _ _).2.1

theorem State.headTold_congr (hhead : t.head h = s.head h) (hrights : ∀ l, (t.link l).rights = (s.link l).rights) :
    t.headTold h = s.headTold h := funext fun l => by
  rw [State.headTold, hhead, hrights, State.headTold]

end

/-! ### A head that recovers (R86) -/

section
variable {s : State} {h : HeadNo}

/-- A head that has become READY and its idle beams, before the choices. -/
def State.recovering (s : State) (h : HeadNo) : State :=
  let s := s.setHead h { s.head h with state := .ready, probeAt := none, reference := s.now, survey := .due }
  let s := s.setBeam (beamOf h .a) { s.beam (beamOf h .a) with state := .idle }
  s.setBeam (beamOf h .b) { s.beam (beamOf h .b) with state := .idle }

theorem State.recoverHead_eq (s : State) (h : HeadNo) : s.recoverHead h =
    (((s.recovering h).rechoose (s.reachSegs h)).raiseHeadState h).bumpCov 17 := rfl

theorem State.head_recovering : (s.recovering h).head h =
    { s.head h with state := .ready, probeAt := none, reference := s.clock.ms, survey := .due } := State.head_setHead_self _ _ _

theorem State.beam_recovering (v : Side) : ((s.recovering h).beam (beamOf h v)) = { s.beam (beamOf h v) with state := .idle } := by
  cases v
  · rw [State.recovering, State.beam_setBeam, if_neg (beamOf_ne h).symm, State.beam_setBeam_self]
    rfl
  · rw [State.recovering, State.beam_setBeam_self, State.beam_setBeam, if_neg (beamOf_ne h)]
    rfl

theorem State.recoverHead_beamCtl : (s.recoverHead h).beamCtl = (s.recovering h).beamCtl := by
  rw [State.recoverHead_eq]
  simp [State.raiseHeadState]

end

end Sys2Proof.Machine
end

section
/-! PROOFS. A head that answers a PROBE recovers, or goes on (R84, R86, R89). -/

namespace Sys2Proof.Machine

/-! ### Choices that nothing behind them touches -/

section
variable {s t w : State} {gs : List SegNo} {g : SegNo}

theorem State.segRec_of_cover (h : coverOf t.coverage t.beamCtl = coverOf (w.rechoose gs).coverage (w.rechoose gs).beamCtl)
    (hg : g ∈ gs) : t.segRec g = w.chosen g := by
  rw [(State.cover_parts h).2.1, w.segRec_rechoose_self hg]

theorem State.segRec_eq_chosen (h : coverOf t.coverage t.beamCtl = coverOf (w.rechoose gs).coverage (w.rechoose gs).beamCtl)
    (hg : g ∈ gs) : t.segRec g = t.chosen g := by
  obtain ⟨hcell, -, -, hhead⟩ := State.cover_parts h
  have hchosen : t.chosen g = (w.rechoose gs).chosen g := State.chosen_congr (fun i => hcell i g) (fun i => .inr (hhead i))
  rw [State.segRec_of_cover h hg, hchosen, State.chosen_rechoose]

/-- Where the classes of the segments chosen afresh are as they were, none changed. -/
theorem State.stay_of_cover (h : coverOf t.coverage t.beamCtl = coverOf (w.rechoose gs).coverage (w.rechoose gs).beamCtl)
    (hsegs : ∀ g, w.segRec g = s.segRec g) (hquiet : ∀ g ∈ gs, (t.segRec g).cls = (s.segRec g).cls) : w.ClassesStay gs :=
  fun g hg => by rw [hsegs, ← hquiet g hg, State.segRec_of_cover h hg]

end

/-! ### PROBE_ANSWERED -/

section
variable {s : State} {h : HeadNo} {bs : List Byte} {o : Outstanding} {k : AnswerKind}

theorem exec_probeAnswered (hcmd : o.cmd = .probe) (hleft : o.leftToFinish = false) (hm : s.matched h bs = some (o, k)) :
    exec (.probeAnswered h bs) s = .next (s.afterAnswer h (fun u => u.probed h)).judge := by
  simp only [exec, execProbeAnswered, hm, hcmd, if_true, State.answered_eq hleft]

/-- The state behind the PROBE of a head in FAULT, before the pool compares its marks. -/
def State.recovered (s : State) (h : HeadNo) : State := ((s.endOutstanding h).recoverHead h).trySweep h

/-- The state in which the head's segments are chosen afresh. -/
def State.recoveryChoice (s : State) (h : HeadNo) : State := (s.endOutstanding h).recovering h

theorem State.reachSegs_endOutstanding : (s.endOutstanding h).reachSegs h = s.reachSegs h :=
  State.reachSegs_congr State.CountsOnly.endOutstanding.cells.2.2 h

theorem State.recovered_eq : s.recovered h =
    ((((s.recoveryChoice h).rechoose (s.reachSegs h)).raiseHeadState h).bumpCov 17).trySweep h := by
  rw [State.recovered, State.recoverHead_eq, State.reachSegs_endOutstanding]
  rfl

theorem State.recovered_cover : coverOf (s.recovered h).judge.coverage (s.recovered h).judge.beamCtl =
    coverOf ((s.recoveryChoice h).rechoose (s.reachSegs h)).coverage ((s.recoveryChoice h).rechoose (s.reachSegs h)).beamCtl := by
  rw [(State.judge_frame _).2.2.2.2.1, (State.judge_frame _).2.2.2.2.2.1, State.recovered_eq, State.cover_trySweep]
  simp [State.raiseHeadState]

theorem State.segRec_recoveryChoice (g : SegNo) : (s.recoveryChoice h).segRec g = s.segRec g := by
  have hsegs : (s.recoveryChoice h).coverage.segs = s.coverage.segs := State.CountsOnly.endOutstanding.cells.2.1
  rw [State.segRec, hsegs, State.segRec]

theorem State.recovering_keepsAllBut : s.KeepsAllBut (s.recovering h) [.coverage, .beamCtl] := fun p hp => by
  cases p <;> simp_all [Part.same, State.recovering]

theorem State.recoveryChoice_keepsAllBut : s.KeepsAllBut (s.recoveryChoice h) [.coverage, .beamCtl] :=
  State.endOutstanding_keepsAllBut.trans State.recovering_keepsAllBut

theorem State.recovered_keepsAllBut :
    s.KeepsAllBut (s.recovered h) [.links, .coverage, .beamCtl, .pool, .downlink, .cranes, .reefer] := by
  have hraise : ∀ u : State, u.KeepsAllBut (u.raiseHeadState h) [.links] := fun u p hp => by
    cases p <;> simp_all [Part.same, State.raiseHeadState]
  rw [State.recovered_eq]
  exact ((((State.recoveryChoice_keepsAllBut.mono (by decide)).step (State.rechoose_keepsAllBut _ _) (by decide)).step (hraise _)
    (by decide)).step (State.bumpCov_keepsAllBut _ _) (by decide)).step State.trySweep_keepsAllBut (by decide)

/-- The head before a sweep is tried. -/
theorem State.head_recoverHead (u : State) : (u.recoverHead h).head h =
    { u.head h with state := .ready, probeAt := none, reference := u.clock.ms, survey := .due } := by
  rw [State.head_of_beamCtl State.recoverHead_beamCtl, State.head_recovering]

theorem State.recovered_raises : s.Raises (s.recovered h).judge noNotices
    (fun l => if (s.link l).rights.traffic = true ∨ (s.link l).rights.admin = true then [.headState h .ready .due] else [])
    (∀ g ∈ s.reachSegs h, ((s.recovered h).judge.segRec g).cls = (s.segRec g).cls) := by
  have hlinks : (s.recoveryChoice h).links = s.links := State.recoveryChoice_keepsAllBut .links (by decide)
  have hspreads := State.Spreads.rechoose (s.recoveryChoice h) (s.reachSegs h)
  have hhead : ((s.recoveryChoice h).rechoose (s.reachSegs h)).head h = (s.recoveryChoice h).head h :=
    ((s.recoveryChoice h).rechoose_cover _).2.2.1 h
  have hrights : ∀ l, (((s.recoveryChoice h).rechoose (s.reachSegs h)).link l).rights = (s.link l).rights := fun l => by
    obtain ⟨⟨ns, hns⟩, -⟩ := hspreads
    rw [hns.rights, State.link, hlinks, State.link]
  have htold : (((s.recoveryChoice h).rechoose (s.reachSegs h)).raiseHeadState h).links = (s.recovered h).links := by
    rw [State.recovered_eq]
    simp
  refine (State.Raises.around (.of_links hlinks) hspreads (fun hquiet => ?_)
    (((State.Tells.raiseHeadState _ h).links_right htold.symm).congr fun l => ?_)).judge
  · exact (State.rechoose_quiet (State.stay_of_cover State.recovered_cover State.segRec_recoveryChoice hquiet)).1
  · rw [State.headTold, hhead, hrights, State.recoveryChoice, State.head_recovering]

/-- With nothing else on hand the head's beams are SURVEYING. -/
theorem State.recovered_surveys (hqueue : (s.head h).queue = []) (hretry : (s.head h).retryAt = none)
    (hprobe : (s.head h).restartProbe = false) (v : Side) : ((s.recovered h).beam (beamOf h v)).state = .surveying := by
  obtain ⟨-, -, kretry, kprobe, -, -, kout, kqueue⟩ := s.endOutstanding_kept h
  have hbeam : ∀ v : Side, (((s.endOutstanding h).recoverHead h).beam (beamOf h v)).state = .idle := fun v => by
    rw [State.beam_of_beamCtl State.recoverHead_beamCtl, State.beam_recovering]
  have hmay : ((s.endOutstanding h).recoverHead h).sweepMay h = true := by
    rw [State.sweepMay_iff, hbeam, hbeam, State.head_recoverHead]
    refine ⟨rfl, by simp, rfl, rfl, ?_, ?_, kretry.trans hretry, kprobe.trans hprobe⟩
    · exact kout.trans (by rw [Head.follower, hqueue])
    · exact kqueue.trans (by rw [hqueue]; rfl)
  rw [State.recovered, State.trySweep_of_may hmay, State.beam_bumpCov, State.beam_setHead, State.surveyBeams_beam]

theorem State.counter_recovered : look (s.recovered h).coverage.counters 17 = satInc (look s.coverage.counters 17) := by
  rw [State.recovered_eq, (State.CountsOnly.trySweep _ h).2 17 (by decide)]
  refine (look_bump_self _ _).trans (congrArg satInc ?_)
  have hraise : (((s.recoveryChoice h).rechoose (s.reachSegs h)).raiseHeadState h).coverage =
      ((s.recoveryChoice h).rechoose (s.reachSegs h)).coverage := by simp [State.raiseHeadState]
  rw [hraise, State.rechoose_counters _ _ (by decide)]
  exact State.CountsOnly.endOutstanding.2 17 (by decide)

/-- PROBE_ANSWERED of a head in FAULT. -/
theorem probeAnswered_recovers (hcmd : o.cmd = .probe) (hleft : o.leftToFinish = false) (hm : s.matched h bs = some (o, k))
    (hfault : (s.head h).state = .fault) : exec (.probeAnswered h bs) s = .next (s.recovered h).judge := by
  rw [exec_probeAnswered hcmd hleft hm, State.afterAnswer, State.probed, if_pos]
  · rfl
  · rw [(s.endOutstanding_kept h).1, hfault]

/-- The state behind the restart probe of a head that is not in FAULT. -/
def State.restartProbed (s : State) (h : HeadNo) : State :=
  ((s.endOutstanding h).setHead h { (s.endOutstanding h).head h with restartProbe := false, reference := s.clock.ms, survey := .due }).trySweep h

theorem probeAnswered_goesOn (hcmd : o.cmd = .probe) (hleft : o.leftToFinish = false) (hm : s.matched h bs = some (o, k))
    (hfault : (s.head h).state ≠ .fault) : exec (.probeAnswered h bs) s = .next (s.restartProbed h).judge := by
  rw [exec_probeAnswered hcmd hleft hm, State.afterAnswer, State.probed, if_neg]
  · rw [show (s.endOutstanding h).now = s.clock.ms from congrArg Clock.ms (State.endOutstanding_frame s h).1]
    rfl
  · rwa [(s.endOutstanding_kept h).1]

theorem State.restartProbed_keepsAllBut : s.KeepsAllBut (s.restartProbed h) [.coverage, .beamCtl] := by
  have hset : ∀ (u : State) (x : Head), u.KeepsAllBut (u.setHead h x) [.coverage, .beamCtl] := fun u x p hp => by
    cases p <;> simp_all [Part.same]
  exact (State.endOutstanding_keepsAllBut.trans (hset _ _)).trans State.trySweep_keepsAllBut

theorem State.head_restartProbed : ((s.restartProbed h).head h).state = (s.head h).state ∧
    ((s.restartProbed h).head h).survey = .due ∧ ((s.restartProbed h).head h).reference = s.clock.ms ∧
    ((s.restartProbed h).head h).restartProbe = false := by
  obtain ⟨hsurvey, href, hstate⟩ := State.trySweep_survey (h := h) (s := (s.endOutstanding h).setHead h
    { (s.endOutstanding h).head h with restartProbe := false, reference := s.clock.ms, survey := .due })
  obtain ⟨-, hprobe, -⟩ := State.trySweep_kept ((s.endOutstanding h).setHead h
    { (s.endOutstanding h).head h with restartProbe := false, reference := s.clock.ms, survey := .due }) h
  rw [State.head_setHead_self] at hsurvey href hstate hprobe
  exact ⟨hstate.trans (s.endOutstanding_kept h).1, hsurvey, href, hprobe⟩

theorem State.segs_restartProbed : (s.restartProbed h).coverage.segs = s.coverage.segs :=
  ((State.CountsOnly.trySweep _ h).cells.2.1).trans State.CountsOnly.endOutstanding.cells.2.1

end

end Sys2Proof.Machine
end

section
/-! PROOFS. A burst returned by force, and a beam of a head that enters FAULT (R78, R85, R124). -/

namespace Sys2Proof.Machine

/-! ### A burst returned by force (R124) -/

section
variable {s : State} {b : BeamNo} {u : Burst}

/-- What becomes of a burst's frames when every one is NOT_SENT. -/
def Burst.returned (u : Burst) (now : Time) : List (Frame × Settled) := u.frames.map (fun f => settle now f .notSent)

theorem Burst.settled_returned (u : Burst) (now : Time) : u.settled now (fun _ => .notSent) = u.returned now :=
  u.settled_const now .notSent

theorem Beam.returned_some {x : Beam} (hu : x.burst = some u) (now : Time) : x.returned now = u.returned now := by
  simp [Beam.returned, Beam.frames, Burst.returned, hu]

theorem Beam.returned_none {x : Beam} (hnone : x.burst = none) (now : Time) : x.returned now = [] := by
  simp [Beam.returned, Beam.frames, hnone]

theorem State.waiting_forcedReturn : (s.forcedReturn b u).downlink.waiting =
    comingBack (u.returned s.clock.ms) ++ s.downlink.waiting := by
  rw [← Burst.settled_returned]
  exact State.waiting_settleBurst s b u _

theorem State.pool_forcedReturn : (s.forcedReturn b u).pool =
    { s.pool with free := s.pool.free + framesBlocks (goingOut (u.returned s.clock.ms)) } := by
  rw [← Burst.settled_returned]
  exact State.pool_settleBurst s b u _

theorem State.Tells.forcedReturn : s.Tells (s.forcedReturn b u) (fun l => resultsAt l (toldOf (u.returned s.clock.ms))) := by
  rw [← Burst.settled_returned]
  exact State.Tells.settleBurst.links_right rfl

theorem Counts.forcedReturn : Counts s.downlink.counters (s.forcedReturn b u).downlink.counters 9 1 := by
  have hsettled := State.settleBurst_counters (s := s) (b := b) (u := u) (o := fun _ => .notSent) (i := 9) (by decide)
  rw [look_bumpBy_ne _ _ (by decide), look_bumpBy_ne _ _ (by decide), look_bumpBy_ne _ _ (by decide)] at hsettled
  exact (Counts.bump _ 9).left hsettled

theorem State.forcedReturn_keepsAllBut : s.KeepsAllBut (s.forcedReturn b u) [.links, .beamCtl, .pool, .downlink, .cranes] :=
  State.settleBurst_keepsAllBut.step (State.bumpDown_keepsAllBut _ _) (by decide)

end

/-! ### One beam (R85) -/

section
variable {s v : State} {b : BeamNo}

/-- BEAM_LOST raised where the beam is OPEN. -/
def State.faultLost (s : State) (b : BeamNo) : State :=
  if (s.beam b).state = .opened then s.raiseLost b .headFault else s

/-- The beam's burst returned behind that. -/
def State.faultReturned (s : State) (b : BeamNo) : State :=
  match (s.beam b).burst with
  | some u => (s.faultLost b).forcedReturn b u
  | none => s.faultLost b

theorem State.beamFault_eq (s : State) (b : BeamNo) : s.beamFault b = if (s.beam b).state = .steering then
    (s.beam b).awaiting.foldl (fun v q => v.answer q.ref .headFault) ((s.faultReturned b).setBeam b (s.beam b).faulted)
    else (s.faultReturned b).setBeam b (s.beam b).faulted := rfl

/-- BEAM_LOST at a holder of an OPEN beam whose head enters FAULT. -/
def Beam.faultLoss (x : Beam) (b : BeamNo) (l : LinkNo) : List Notice :=
  if (x.state == .opened && look x.holders l) = true then [.beamLost b x.seg .headFault] else []

theorem State.Tells.faultLost (s : State) (b : BeamNo) : s.Tells (s.faultLost b) ((s.beam b).faultLoss b) := by
  unfold State.faultLost
  split
  · next hopen => exact (State.Tells.raiseLost s b .headFault).congr fun l => by simp [Beam.faultLoss, hopen]
  · next hopen => exact (State.Tells.of_links rfl).congr fun l => by simp [Beam.faultLoss, hopen, noNotices]

theorem State.Tells.faultReturned (s : State) (b : BeamNo) : s.Tells (s.faultReturned b) (fun l =>
    (s.beam b).faultLoss b l ++ resultsAt l (toldOf ((s.beam b).returned s.clock.ms))) := by
  have hclock : (s.faultLost b).clock = s.clock := by
    unfold State.faultLost
    split <;> simp
  unfold State.faultReturned
  split
  · next u hu =>
    have hreturn := State.Tells.forcedReturn (s := s.faultLost b) (b := b) (u := u)
    rw [hclock] at hreturn
    rw [Beam.returned_some hu]
    exact (State.Tells.faultLost s b).trans hreturn
  · next hnone =>
    rw [Beam.returned_none hnone]
    exact (State.Tells.faultLost s b).congr fun l => (List.append_nil _).symm

theorem State.CountsOnly.faultReturned : s.CountsOnly (s.faultReturned b) [23] := by
  have hlost : s.CountsOnly (s.faultLost b) [23] := by
    unfold State.faultLost
    split
    · exact State.CountsOnly.raiseLost s b _
    · exact .of_coverage rfl
  unfold State.faultReturned
  split
  · exact hlost.right (State.forcedReturn_keepsAllBut .coverage (by decide))
  · exact hlost

/-- What is told where the beam goes DOWN: BEAM_LOST, the results of its frames, HEAD_FAULT to its awaiting requests. -/
def State.faultTold (s v : State) (b : BeamNo) : State :=
  let v := v.tell (fun l => (s.beam b).faultLoss b l ++ resultsAt l (toldOf ((s.beam b).returned s.clock.ms)))
  if (s.beam b).state = .steering then (s.beam b).awaiting.foldl (fun v q => v.answer q.ref .headFault) v else v

theorem State.links_of_tells {t : State} {ns : LinkNo → List Notice} (h : s.Tells t ns) : t.links = (s.tell ns).links := by
  refine Vector.ext fun i hi => ?_
  have hlink := h ⟨i, hi⟩
  rw [← State.tell_link] at hlink
  exact hlink

theorem State.links_beamFault (hv : v.links = s.links) : (s.beamFault b).links = (s.faultTold v b).links := by
  have htold : (s.faultReturned b).links = (v.tell (fun l =>
      (s.beam b).faultLoss b l ++ resultsAt l (toldOf ((s.beam b).returned s.clock.ms)))).links :=
    State.links_of_tells ((State.Tells.faultReturned s b).links_left hv.symm)
  rw [State.beamFault_eq]
  unfold State.faultTold
  dsimp only
  split
  · exact foldl_answer_links htold
  · exact htold

/-- Answering leaves all but the links. -/
theorem foldl_answer_keepsAllBut (qs : List OpenReq) (st : Status) (u : State) :
    u.KeepsAllBut (qs.foldl (fun v q => v.answer q.ref st) u) [.links] :=
  State.foldl_keepsAllBut (f := fun v (q : OpenReq) => v.answer q.ref st) (fun v q p hp => by cases p <;> simp_all [Part.same]) qs u

theorem State.beamFault_behind (s : State) (b : BeamNo) : (s.faultReturned b).KeepsAllBut (s.beamFault b) [.links, .beamCtl] := by
  have hset : (s.faultReturned b).KeepsAllBut ((s.faultReturned b).setBeam b (s.beam b).faulted) [.links, .beamCtl] := fun p hp => by
    cases p <;> simp_all [Part.same]
  rw [State.beamFault_eq]
  split
  · exact hset.step (foldl_answer_keepsAllBut _ _ _) (by decide)
  · exact hset

theorem State.faultLost_keepsAllBut : s.KeepsAllBut (s.faultLost b) [.links, .coverage] := by
  unfold State.faultLost
  split
  · exact State.raiseLost_keepsAllBut _
  · exact .refl _ _

theorem State.faultReturned_keepsAllBut :
    s.KeepsAllBut (s.faultReturned b) [.links, .coverage, .beamCtl, .pool, .downlink, .cranes] := by
  unfold State.faultReturned
  split
  · exact (State.faultLost_keepsAllBut.mono (by decide)).step State.forcedReturn_keepsAllBut (by decide)
  · exact State.faultLost_keepsAllBut.mono (by decide)

theorem State.beamFault_keepsAllBut : s.KeepsAllBut (s.beamFault b) [.links, .coverage, .beamCtl, .pool, .downlink, .cranes] :=
  State.faultReturned_keepsAllBut.step (s.beamFault_behind b) (by decide)

theorem State.CountsOnly.beamFault : s.CountsOnly (s.beamFault b) [23] :=
  State.CountsOnly.faultReturned.right (s.beamFault_behind b .coverage (by decide))

/-- The frames of the beam's burst, if it has one. -/
theorem State.beamFault_frames : (s.beamFault b).downlink.waiting =
      comingBack ((s.beam b).returned s.clock.ms) ++ s.downlink.waiting ∧
    (s.beamFault b).pool.free = s.pool.free + framesBlocks (goingOut ((s.beam b).returned s.clock.ms)) := by
  have hdown : (s.faultLost b).downlink = s.downlink := State.faultLost_keepsAllBut .downlink (by decide)
  have hpool : (s.faultLost b).pool = s.pool := State.faultLost_keepsAllBut .pool (by decide)
  have hclock : (s.faultLost b).clock = s.clock := State.faultLost_keepsAllBut .clock (by decide)
  have bdown : (s.beamFault b).downlink = (s.faultReturned b).downlink := s.beamFault_behind b .downlink (by decide)
  have bpool : (s.beamFault b).pool = (s.faultReturned b).pool := s.beamFault_behind b .pool (by decide)
  rw [bdown, bpool]
  unfold State.faultReturned
  split
  · next u hu =>
    rw [State.waiting_forcedReturn, State.pool_forcedReturn, hdown, hpool, hclock, Beam.returned_some hu]
    exact ⟨rfl, rfl⟩
  · next hnone =>
    rw [hdown, hpool, Beam.returned_none hnone]
    exact ⟨rfl, rfl⟩

theorem Counts.beamFault_returned : Counts s.downlink.counters (s.beamFault b).downlink.counters 9
    (if (s.beam b).burst.isSome = true then 1 else 0) := by
  have hdown : (s.faultLost b).downlink = s.downlink := State.faultLost_keepsAllBut .downlink (by decide)
  have bdown : (s.beamFault b).downlink = (s.faultReturned b).downlink := s.beamFault_behind b .downlink (by decide)
  rw [bdown]
  unfold State.faultReturned
  split
  · next u hu =>
    rw [if_pos (by rw [hu]; rfl), ← hdown]
    exact Counts.forcedReturn
  · next hnone =>
    rw [if_neg (by simp [hnone]), hdown]
    exact Counts.zero rfl

/-- A BEAM_LOST at any holder counts once. -/
theorem Counts.beamFault_lost : Counts s.coverage.counters (s.beamFault b).coverage.counters 23
    (if allLinks.any (fun l => (s.beam b).state == .opened && look (s.beam b).holders l) = true then 1 else 0) := by
  have hlost : Counts s.coverage.counters (s.faultLost b).coverage.counters 23
      (if allLinks.any (fun l => (s.beam b).state == .opened && look (s.beam b).holders l) = true then 1 else 0) := by
    unfold State.faultLost
    split
    · next hopen =>
      have hany : allLinks.any (fun l => (s.beam b).state == .opened && look (s.beam b).holders l) = true ↔
          (s.beam b).holders.isNone = false := by
        rw [LinkSet.isNone_eq_false_iff, List.any_eq_true]
        exact ⟨fun ⟨l, _, hl⟩ => ⟨l, by simpa [hopen] using hl⟩, fun ⟨l, hl⟩ => ⟨l, List.mem_finRange l, by simpa [hopen] using hl⟩⟩
      rw [State.raiseLost_counters, if_congr hany rfl rfl]
      cases (s.beam b).holders.isNone with
      | true => exact Counts.zero rfl
      | false => exact Counts.bump _ _
    · next hopen =>
      rw [if_neg (by simp [hopen])]
      exact Counts.zero rfl
  have hafter : (s.beamFault b).coverage = (s.faultReturned b).coverage := s.beamFault_behind b .coverage (by decide)
  rw [hafter]
  unfold State.faultReturned
  split
  · exact hlost.right (congrArg (fun c : Coverage => look c.counters 23) (State.forcedReturn_keepsAllBut .coverage (by decide)))
  · exact hlost

end

end Sys2Proof.Machine
end

section
/-! PROOFS. The answer limit, and a head that enters FAULT (R72, R84, R85). -/

namespace Sys2Proof.Machine

section
variable {s : State} {h : HeadNo}

/-! ### Both beams of a head in FAULT -/

/-- The head's line and timers once it is in FAULT. -/
def Head.inFault (x : Head) (now : Time) : Head :=
  { x with state := .fault, outstanding := none, queue := [], retryAt := none, restartProbe := false, probeAt := some (now + 1000) }

/-- The head in FAULT, its beams not yet DOWN. -/
def State.lineFaulted (s : State) (h : HeadNo) : State := s.setHead h ((s.head h).inFault s.clock.ms)

/-- The head in FAULT and its beams DOWN. -/
def State.beamsFaulted (s : State) (h : HeadNo) : State := ((s.lineFaulted h).beamFault (beamOf h .a)).beamFault (beamOf h .b)

theorem State.beamFault_beam (s : State) (b d : BeamNo) :
    (s.beamFault b).beam d = if d = b then (s.beam b).faulted else s.beam d := by
  rw [State.beam_of_beamCtl (s.beamFault_beamCtl b), State.beam_setBeam]

theorem State.beamFault_head (s : State) (b : BeamNo) (i : HeadNo) : (s.beamFault b).head i = s.head i := by
  rw [State.head_of_beamCtl (s.beamFault_beamCtl b), State.head_setBeam]

/-- Beam B is as it was when beam A has gone DOWN. -/
theorem State.beamFault_second : ((s.lineFaulted h).beamFault (beamOf h .a)).beam (beamOf h .b) = s.beam (beamOf h .b) := by
  rw [State.beamFault_beam, if_neg (beamOf_ne h)]
  rfl

theorem State.beamsFaulted_beam (b : BeamNo) : (s.beamsFaulted h).beam b = if headOf b = h then (s.beam b).faulted else s.beam b := by
  rw [State.beamsFaulted, State.beamFault_beam, State.beamFault_second, State.beamFault_beam]
  by_cases hb : headOf b = h
  · rw [if_pos hb]
    rcases beam_of_head hb with rfl | rfl
    · rw [if_neg (Ne.symm (beamOf_ne h)), if_pos rfl]
      rfl
    · rw [if_pos rfl]
  · rw [if_neg hb, if_neg fun he => hb (by rw [he, headOf_beamOf]), if_neg fun he => hb (by rw [he, headOf_beamOf])]
    rfl

theorem State.beamsFaulted_head (i : HeadNo) :
    (s.beamsFaulted h).head i = if i = h then (s.head h).inFault s.clock.ms else s.head i := by
  rw [State.beamsFaulted, State.beamFault_head, State.beamFault_head, State.lineFaulted, State.head_setHead]

theorem State.clock_beamFault (s : State) (b : BeamNo) : (s.beamFault b).clock = s.clock :=
  State.beamFault_keepsAllBut .clock (by decide)

theorem State.CountsOnly.beamsFaulted : s.CountsOnly (s.beamsFaulted h) [23] :=
  (State.CountsOnly.beamFault.trans State.CountsOnly.beamFault).left rfl

theorem State.beamsFaulted_keepsAllBut :
    s.KeepsAllBut (s.beamsFaulted h) [.links, .coverage, .beamCtl, .pool, .downlink, .cranes] := by
  have hline : s.KeepsAllBut (s.lineFaulted h) [.links, .coverage, .beamCtl, .pool, .downlink, .cranes] := fun p hp => by
    cases p <;> simp_all [Part.same, State.lineFaulted]
  exact (hline.step State.beamFault_keepsAllBut (by decide)).step State.beamFault_keepsAllBut (by decide)

/-- The frames of beam B's burst stand ahead of beam A's. -/
theorem State.beamsFaulted_frames :
    (s.beamsFaulted h).downlink.waiting =
      (beamsOf h).reverse.flatMap (fun b => comingBack ((s.beam b).returned s.clock.ms)) ++ s.downlink.waiting ∧
    (s.beamsFaulted h).pool.free =
      s.pool.free + framesBlocks ((beamsOf h).flatMap (fun b => goingOut ((s.beam b).returned s.clock.ms))) := by
  obtain ⟨afirst, afree⟩ := State.beamFault_frames (s := s.lineFaulted h) (b := beamOf h .a)
  obtain ⟨bfirst, bfree⟩ := State.beamFault_frames (s := (s.lineFaulted h).beamFault (beamOf h .a)) (b := beamOf h .b)
  rw [State.beamFault_second, State.clock_beamFault, afirst] at bfirst
  rw [State.beamFault_second, State.clock_beamFault, afree] at bfree
  constructor
  · refine bfirst.trans ?_
    simp only [beamsOf, List.reverse_cons, List.reverse_nil, List.nil_append, List.cons_append, List.flatMap_cons,
      List.flatMap_nil, List.append_nil, List.append_assoc]
    rfl
  · refine bfree.trans ?_
    simp only [beamsOf, List.flatMap_cons, List.flatMap_nil, List.append_nil, framesBlocks_append]
    exact Nat.add_assoc _ _ _

theorem Counts.beamsFaulted_returned : Counts s.downlink.counters (s.beamsFaulted h).downlink.counters 9
    ((beamsOf h).filter (fun b => (s.beam b).burst.isSome)).length := by
  have afirst := Counts.beamFault_returned (s := s.lineFaulted h) (b := beamOf h .a)
  have bsecond := Counts.beamFault_returned (s := (s.lineFaulted h).beamFault (beamOf h .a)) (b := beamOf h .b)
  rw [State.beamFault_second] at bsecond
  have hlength := length_filter_beamsOf (h := h) (fun b => (s.beam b).burst.isSome = true)
  simp only [Bool.decide_eq_true] at hlength
  rw [hlength]
  exact afirst.trans bsecond

theorem Counts.beamsFaulted_lost : Counts s.coverage.counters (s.beamsFaulted h).coverage.counters 23
    ((beamsOf h).filter (fun b => allLinks.any (fun l => (s.beam b).state == .opened && look (s.beam b).holders l))).length := by
  have afirst := Counts.beamFault_lost (s := s.lineFaulted h) (b := beamOf h .a)
  have bsecond := Counts.beamFault_lost (s := (s.lineFaulted h).beamFault (beamOf h .a)) (b := beamOf h .b)
  rw [State.beamFault_second] at bsecond
  have hlength := length_filter_beamsOf (h := h)
    (fun b => allLinks.any (fun l => (s.beam b).state == .opened && look (s.beam b).holders l) = true)
  simp only [Bool.decide_eq_true] at hlength
  rw [hlength]
  exact afirst.trans bsecond

/-- What is told looks at the beam and the clock alone. -/
theorem State.faultTold_congr {u v : State} {b : BeamNo} (hbeam : u.beam b = s.beam b) (hclock : u.clock = s.clock) :
    u.faultTold v b = s.faultTold v b := by
  unfold State.faultTold
  rw [hbeam, hclock]

/-- Beam A's part is told before beam B's. -/
theorem State.beamsFaulted_links : (s.beamsFaulted h).links = ((beamsOf h).foldl s.faultTold s).links := by
  have afirst : ((s.lineFaulted h).beamFault (beamOf h .a)).links = (s.faultTold s (beamOf h .a)).links := by
    rw [State.links_beamFault (s := s.lineFaulted h) (v := s) rfl]
    exact congrArg State.links (State.faultTold_congr (s := s) rfl rfl)
  rw [State.beamsFaulted, State.links_beamFault afirst.symm,
    State.faultTold_congr (s := s) State.beamFault_second (State.clock_beamFault _ _)]
  rfl

/-! ### The head (R85) -/

/-- The state behind the choices that a FAULT calls for. -/
def State.faultChosen (s : State) (h : HeadNo) : State := (s.beamsFaulted h).rechoose (s.reachSegs h)

theorem State.headFault_eq (s : State) (h : HeadNo) :
    s.headFault h = ((s.faultChosen h).raiseHeadState h).bumpCov 15 := by
  have hreach : (s.beamsFaulted h).reachSegs h = s.reachSegs h := State.reachSegs_congr State.CountsOnly.beamsFaulted.cells.2.2 h
  rw [State.faultChosen, ← hreach]
  rfl

theorem State.faultChosen_beamCtl : (s.faultChosen h).beamCtl = (s.beamsFaulted h).beamCtl :=
  State.rechoose_keepsAllBut _ _ .beamCtl (by decide)

theorem State.headFault_beamCtl : (s.headFault h).judge.beamCtl = (s.beamsFaulted h).beamCtl := by
  rw [(State.judge_frame _).2.2.2.2.2.1, State.headFault_eq, ← State.faultChosen_beamCtl]
  simp [State.raiseHeadState]

theorem State.headFault_cover : coverOf (s.headFault h).judge.coverage (s.headFault h).judge.beamCtl =
    coverOf ((s.beamsFaulted h).rechoose (s.reachSegs h)).coverage ((s.beamsFaulted h).rechoose (s.reachSegs h)).beamCtl := by
  rw [(State.judge_frame _).2.2.2.2.1, (State.judge_frame _).2.2.2.2.2.1, State.headFault_eq]
  simp [State.raiseHeadState, State.faultChosen]

/-- The classes of the head's segments are as they were. -/
def State.FaultQuiet (s : State) (h : HeadNo) : Prop :=
  ∀ g ∈ s.reachSegs h, ((s.headFault h).judge.segRec g).cls = (s.segRec g).cls

theorem State.faultChosen_quiet (hquiet : s.FaultQuiet h) : (s.faultChosen h).links = (s.beamsFaulted h).links ∧
    (s.faultChosen h).pool = (s.beamsFaulted h).pool ∧ (s.faultChosen h).downlink = (s.beamsFaulted h).downlink := by
  have hsegs : ∀ g, (s.beamsFaulted h).segRec g = s.segRec g := fun g => by
    rw [State.segRec, State.CountsOnly.beamsFaulted.cells.2.1, State.segRec]
  obtain ⟨hlinks, hpool, hdown, -⟩ := State.rechoose_quiet (State.stay_of_cover State.headFault_cover hsegs hquiet)
  exact ⟨hlinks, hpool, hdown⟩

theorem State.headFault_raises : ((beamsOf h).foldl s.faultTold s).Raises (s.headFault h).judge noNotices
    (fun l => if (s.link l).rights.traffic = true ∨ (s.link l).rights.admin = true then
      [.headState h .fault (s.head h).survey] else []) (s.FaultQuiet h) := by
  have hspreads : (s.beamsFaulted h).Spreads (s.faultChosen h) := State.Spreads.rechoose _ _
  have hhead : (s.faultChosen h).head h = (s.head h).inFault s.clock.ms := by
    rw [State.head_of_beamCtl State.faultChosen_beamCtl, State.beamsFaulted_head, if_pos rfl]
  have hreply : ∀ (u : State) (r : ReqRef) (l : LinkNo), ((u.answer r .headFault).link l).rights = (u.link l).rights := fun u r l => by
    rw [State.answer, State.reply, State.link_onLink]
    split
    · next hl => rw [hl, (Link.reply_keeps _ _ _ _).2.1]
    · rfl
  have htold : ∀ (u : State) (b : BeamNo) (l : LinkNo), ((s.faultTold u b).link l).rights = (u.link l).rights := fun u b l => by
    have htell := State.Tells.rights (s := u) (t := u.tell (fun l => (s.beam b).faultLoss b l ++
      resultsAt l (toldOf ((s.beam b).returned s.clock.ms)))) (fun l => u.tell_link _ l) l
    unfold State.faultTold
    dsimp only
    split
    · exact (foldl_keeps (fun v : State => (v.link l).rights) (fun v (q : OpenReq) => v.answer q.ref .headFault)
        (fun v q => hreply v q.ref l) _ _).trans htell
    · exact htell
  have hrights : ∀ l, ((s.faultChosen h).link l).rights = (s.link l).rights := fun l => by
    obtain ⟨⟨ns, hns⟩, -⟩ := hspreads
    rw [hns.rights, State.link, State.beamsFaulted_links]
    exact foldl_keeps (fun v : State => (v.link l).rights) s.faultTold (fun v b => htold v b l) _ s
  have hraised : ((s.faultChosen h).raiseHeadState h).links = (s.headFault h).links := by
    rw [State.headFault_eq]
    simp
  refine (State.Raises.around (.of_links State.beamsFaulted_links) hspreads (fun hquiet => (State.faultChosen_quiet hquiet).1)
    (((State.Tells.raiseHeadState _ h).links_right hraised.symm).congr fun l => ?_)).judge
  rw [State.headTold, hhead, hrights]
  rfl

theorem State.headFault_follow : (s.headFault h).judge.FramesFollow
    ((beamsOf h).reverse.flatMap (fun b => comingBack ((s.beam b).returned s.clock.ms)) ++ s.downlink.waiting)
    (s.pool.free + framesBlocks ((beamsOf h).flatMap (fun b => goingOut ((s.beam b).returned s.clock.ms)))) (s.FaultQuiet h) := by
  obtain ⟨hwaiting, hfree⟩ := State.beamsFaulted_frames (s := s) (h := h)
  have hdown : (s.headFault h).judge.downlink = (s.faultChosen h).downlink := by
    rw [(State.judge_frame _).2.2.2.2.2.2.1, State.headFault_eq]
    simp [State.raiseHeadState]
  have hpool : (s.headFault h).judge.pool.free = (s.faultChosen h).pool.free := by
    rw [(State.judge_pool_keeps _).2.1, State.headFault_eq]
    simp [State.raiseHeadState]
  have hspreads : (s.beamsFaulted h).Spreads (s.faultChosen h) := State.Spreads.rechoose _ _
  refine (hspreads.2.trans (.of_downlink hdown hpool)).follow hwaiting hfree fun hquiet => ?_
  obtain ⟨-, qpool, qdown⟩ := State.faultChosen_quiet hquiet
  exact ⟨by rw [hdown, qdown], by rw [hpool, qpool]⟩

theorem State.headFault_counters {i : Fin 24} (hi : i ≠ 6 ∧ i ≠ 15) :
    look (s.headFault h).judge.coverage.counters i = look (s.beamsFaulted h).coverage.counters i := by
  rw [(State.judge_frame _).2.2.2.2.1, State.headFault_eq]
  refine (look_bump_ne _ hi.2).trans ?_
  have hraise : ((s.faultChosen h).raiseHeadState h).coverage = (s.faultChosen h).coverage := by simp [State.raiseHeadState]
  rw [hraise]
  exact State.rechoose_counters _ _ hi.1

theorem State.headFault_counted : look (s.headFault h).judge.coverage.counters 15 = satInc (look s.coverage.counters 15) := by
  rw [(State.judge_frame _).2.2.2.2.1, State.headFault_eq]
  refine (look_bump_self _ _).trans (congrArg satInc ?_)
  have hraise : ((s.faultChosen h).raiseHeadState h).coverage = (s.faultChosen h).coverage := by simp [State.raiseHeadState]
  rw [hraise, State.faultChosen, State.rechoose_counters _ _ (by decide)]
  exact State.CountsOnly.beamsFaulted.2 15 (by decide)

theorem State.headFault_returned : Counts s.downlink.counters (s.headFault h).judge.downlink.counters 9
    ((beamsOf h).filter (fun b => (s.beam b).burst.isSome)).length := by
  have hspreads : (s.beamsFaulted h).Spreads (s.faultChosen h) := State.Spreads.rechoose _ _
  have hdown : (s.headFault h).judge.downlink = (s.faultChosen h).downlink := by
    rw [(State.judge_frame _).2.2.2.2.2.2.1, State.headFault_eq]
    simp [State.raiseHeadState]
  exact Counts.beamsFaulted_returned.right (by rw [hdown, hspreads.2.2.2 9 (by decide) (by decide)])

theorem State.headFault_keepsAllBut :
    s.KeepsAllBut (s.headFault h).judge [.links, .coverage, .beamCtl, .pool, .downlink, .cranes, .reefer] := by
  have hraise : ∀ u : State, u.KeepsAllBut (u.raiseHeadState h) [.links] := fun u p hp => by
    cases p <;> simp_all [Part.same, State.raiseHeadState]
  rw [State.headFault_eq]
  exact ((((State.beamsFaulted_keepsAllBut.mono (by decide)).step (State.rechoose_keepsAllBut _ _) (by decide)).step (hraise _)
    (by decide)).step (State.bumpCov_keepsAllBut _ _) (by decide)).step (State.judge_keepsAllBut _) (by decide)

/-! ### ANSWER_LIMIT_EXPIRY -/

variable {o : Outstanding}

theorem State.answerOver_of (hout : (s.head h).outstanding = some o) :
    s.answerOver h = decide ((if o.cmd = .sweep then s.param pSweepLimit else s.param pSteerLimit) ≤ elapsed s.clock.ms o.sentAt) := by
  rw [State.answerOver, hout]
  rfl

theorem execAnswerLimitExpiry_not (hnot : s.answerOver h = false) : exec (.answerLimitExpiry h) s = .next s := by
  simp only [exec, execAnswerLimitExpiry, hnot, Bool.false_eq_true, if_false]

theorem execAnswerLimitExpiry_of (hover : s.answerOver h = true) :
    exec (.answerLimitExpiry h) s = .next (s.answerRunsOut h).judge := by
  simp only [exec, execAnswerLimitExpiry, hover, if_true]

/-- A FAULT head's answer limit: its command ends and nothing else of it. -/
theorem State.answerRunsOut_fault (hfault : (s.head h).state = .fault) : s.answerRunsOut h = s.endOutstanding h := if_pos hfault

theorem State.answerRunsOut_of (hnot : (s.head h).state ≠ .fault) : s.answerRunsOut h = s.headFault h := if_neg hnot

end

/-- Settles O34: a head that answers its PROBE recovers or goes on; one whose answer limit runs out enters FAULT. -/
theorem probesRecoverAHeadAndLimitsFaultIt : Obligations.ProbesRecoverAHeadAndLimitsFaultIt := by
  refine ⟨fun h bs s o k hcmd hleft hm => ⟨fun hfault => ?_, fun hfault => ?_⟩, fun h s hout => ?_, fun h s o hout => ?_⟩
  · obtain ⟨hsurvey, href, hstate⟩ := State.trySweep_survey (s := (s.endOutstanding h).recoverHead h) (h := h)
    obtain ⟨hprobe, -⟩ := State.trySweep_kept ((s.endOutstanding h).recoverHead h) h
    rw [State.head_recoverHead] at hsurvey href hstate hprobe
    have hctl := State.judge_frame (s.recovered h)
    have hhead : (s.recovered h).judge.head h = (s.recovered h).head h := State.head_of_beamCtl hctl.2.2.2.2.2.1 h
    have hbeam := State.beam_of_beamCtl hctl.2.2.2.2.2.1
    refine ⟨(s.recovered h).judge, probeAnswered_recovers hcmd hleft hm hfault, ?_, ?_, ?_, ?_, ?_,
      fun g hg => State.segRec_eq_chosen State.recovered_cover hg, State.recovered_raises, fun hqueue hretry hrestart => ?_,
      State.recovered_keepsAllBut.step (State.judge_keepsAllBut _) (by decide)⟩
    · rw [hhead]; exact hstate
    · rw [hhead]; exact hsurvey
    · rw [hhead]; exact href.trans (congrArg Clock.ms (s.endOutstanding_frame h).1)
    · rw [hhead]; exact hprobe
    · rw [hctl.2.2.2.2.1]; exact State.counter_recovered
    · rw [hbeam, hbeam]
      exact ⟨State.recovered_surveys hqueue hretry hrestart .a, State.recovered_surveys hqueue hretry hrestart .b⟩
  · obtain ⟨hstate, hsurvey, href, hrestart⟩ := State.head_restartProbed (s := s) (h := h)
    have hctl := State.judge_frame (s.restartProbed h)
    have hhead : (s.restartProbed h).judge.head h = (s.restartProbed h).head h := State.head_of_beamCtl hctl.2.2.2.2.2.1 h
    rw [← hhead] at hstate hsurvey href hrestart
    exact ⟨(s.restartProbed h).judge, probeAnswered_goesOn hcmd hleft hm hfault, hstate, hsurvey, href, hrestart,
      by rw [hctl.2.2.2.2.1, State.segs_restartProbed],
      (State.restartProbed_keepsAllBut.mono (by decide)).step (State.judge_keepsAllBut _) (by decide)⟩
  · exact execAnswerLimitExpiry_not (by rw [State.answerOver, hout])
  · intro limit
    have hanswer := State.answerOver_of hout
    refine ⟨fun hyoung => execAnswerLimitExpiry_not (hanswer.trans (decide_eq_false (Nat.not_le.mpr hyoung))),
      fun hold hfault => ?_, fun hold hnot => ?_⟩
    · obtain ⟨hstate, -, -, -, hprobe, -, hline, -⟩ := s.endOutstanding_kept h
      have hctl : (s.endOutstanding h).judge.beamCtl = (s.endOutstanding h).beamCtl := (State.judge_frame _).2.2.2.2.2.1
      refine ⟨(s.endOutstanding h).judge, ?_, ?_, fun hqueue => ?_, ?_, ?_,
        (State.endOutstanding_keepsAllBut.mono (by decide)).step (State.judge_keepsAllBut _) (by decide)⟩
      · rw [execAnswerLimitExpiry_of (hanswer.trans (decide_eq_true hold)), State.answerRunsOut_fault hfault]
      · rw [State.head_of_beamCtl hctl, hstate, hfault]
      · rw [State.head_of_beamCtl hctl, hline, Head.follower, hqueue]
      · rw [State.head_of_beamCtl hctl, hprobe]
      · rw [hctl, State.beams_endOutstanding]
    · have hhead : (s.headFault h).judge.head h = (s.head h).inFault s.clock.ms := by
        rw [State.head_of_beamCtl State.headFault_beamCtl, State.beamsFaulted_head, if_pos rfl]
      have hbeam : ∀ b, (s.headFault h).judge.beam b = _ := fun b =>
        (State.beam_of_beamCtl State.headFault_beamCtl b).trans (State.beamsFaulted_beam b)
      refine ⟨(s.headFault h).judge, ?_, ?_, ?_, ?_, ?_, ?_, ?_, State.headFault_counted, fun b hb => ?_, fun b hb => ?_,
        fun g hg => State.segRec_eq_chosen State.headFault_cover hg, ⟨State.headFault_raises, State.headFault_follow,
          State.headFault_returned, Counts.beamsFaulted_lost.right (State.headFault_counters (by decide))⟩,
        State.headFault_keepsAllBut⟩
      · rw [execAnswerLimitExpiry_of (hanswer.trans (decide_eq_true hold)), State.answerRunsOut_of hnot]
      iterate 6
        rw [hhead]
        rfl
      · rw [hbeam, if_pos hb]
        exact ⟨rfl, rfl, rfl, rfl, rfl⟩
      · rw [hbeam, if_neg hb]

end Sys2Proof.Machine
end

section
/-! PROOFS. A RELEASE and a SWEEP that are answered (R56, R78, R81). -/

namespace Sys2Proof.Machine

/-! ### Beams that serve, and their head (R76, R79) -/

section
variable {s : State} {b : BeamNo} {h : HeadNo} {g : SegNo}

/-- A head's state, survey and reference stand. -/
def Head.Stays (x y : Head) : Prop := y.state = x.state ∧ y.survey = x.survey ∧ y.reference = x.reference

theorem State.head_pushCmd_stays (c : HeadCmd) (i : HeadNo) : (s.head i).Stays ((s.pushCmd h c).head i) := by
  rw [State.head_pushCmd]
  split
  · next hi =>
    rw [hi]
    obtain ⟨hstate, hsurvey, -⟩ := Head.next_state { s.head h with queue := (s.head h).queue ++ [c] } s.clock.ms
    obtain ⟨-, href⟩ := Head.next_kept { s.head h with queue := (s.head h).queue ++ [c] } s.clock.ms
    exact ⟨hstate, hsurvey, href⟩
  · exact ⟨rfl, rfl, rfl⟩

theorem State.head_joinWaiting (i : HeadNo) : (s.joinWaiting b g).head i = s.head i := by
  rw [State.head_of_beamCtl State.joinWaiting_beamCtl, State.head_setBeam]
  rfl

/-- A beam that serves the list steers and joins. -/
theorem State.serveIdle_keeps {P : State → Prop} (hsame : P s) (hsteer : ∀ (ws : List WaitEntry) (r : OpenReq) (g : SegNo) (o : Bool),
    P ((s.setWaitList ws).steer b r g o)) (hjoin : ∀ (u : State) (g : SegNo), P u → P (u.joinWaiting b g)) : P (s.serveIdle b) := by
  unfold State.serveIdle
  dsimp only
  split
  · split
    · exact hsame
    · split
      · exact hsteer _ _ _ _
      · exact hjoin _ _ (hsteer _ _ _ _)
  · exact hsame

theorem State.serveIdle_stays (i : HeadNo) : (s.head i).Stays ((s.serveIdle b).head i) :=
  State.serveIdle_keeps (P := fun u => (s.head i).Stays (u.head i)) ⟨rfl, rfl, rfl⟩
    (fun ws r g o => by
      rw [State.steer_eq]
      exact State.head_pushCmd_stays (s := (s.setWaitList ws).setBeam b _) _ i)
    (fun u g hu => by rwa [State.head_joinWaiting])

theorem State.CountsOnly.serveIdle : s.CountsOnly (s.serveIdle b) [9, 19] :=
  State.serveIdle_keeps (P := fun u => s.CountsOnly u [9, 19]) (.of_coverage rfl)
    (fun ws r g o => (State.CountsOnly.steer r o).mono (by decide) |>.left rfl)
    (fun _ _ hu => hu.trans (State.CountsOnly.joinWaiting.mono (by decide)))

theorem State.CountsOnly.becameIdle : s.CountsOnly (s.becameIdle b) [9, 12, 19] :=
  ((State.CountsOnly.trySweep s (headOf b)).mono (by decide)).trans (State.CountsOnly.serveIdle.mono (by decide))

theorem State.serveIdle_keepsAllBut : s.KeepsAllBut (s.serveIdle b) [.links, .coverage, .beamCtl] := fun p hp => by
  cases p <;> simp_all [Part.same]

theorem State.becameIdle_keepsAllBut : s.KeepsAllBut (s.becameIdle b) [.links, .coverage, .beamCtl] :=
  (State.trySweep_keepsAllBut.mono (by decide)).trans State.serveIdle_keepsAllBut

/-- A beam that serves, or finds nobody to serve, is not CLOSING. -/
theorem State.serveIdle_not_closing (hnot : (s.beam b).state ≠ .closing) : ((s.serveIdle b).beam b).state ≠ .closing := by
  rcases s.serveIdle_cases b with hsame | ⟨hmay, before, after, w, hlist, hbefore, hw⟩
  · rwa [hsame]
  · rw [(State.serveIdle_serves hmay hlist hbefore hw).1]
    exact BeamState.noConfusion

theorem State.trySweep_not_closing (hnot : (s.beam b).state ≠ .closing) (h : HeadNo) : ((s.trySweep h).beam b).state ≠ .closing := by
  by_cases hb : headOf b = h
  · have hbeam := s.trySweep_beam h (sideOf b)
    rw [← hb, beamOf_sideOf] at hbeam
    rcases hbeam with hsame | hsurvey
    · rwa [← hb, hsame]
    · rw [← hb, hsurvey]
      exact BeamState.noConfusion
  · rwa [State.trySweep_beam_other hb]

/-- On an empty list nobody is served. -/
theorem State.serveIdle_empty (hempty : s.beamCtl.waitList = []) : s.serveIdle b = s :=
  State.serveIdle_none fun w hw => by
    rw [hempty] at hw
    cases hw

end

/-! ### RELEASE_ANSWERED (R78) -/

section
variable {s : State} {h : HeadNo} {bs : List Byte} {o : Outstanding} {k : AnswerKind} {sd : Side}

theorem exec_releaseAnswered (hcmd : o.cmd = .release sd) (hleft : o.leftToFinish = false) (hm : s.matched h bs = some (o, k)) :
    exec (.releaseAnswered h bs) s = .next (s.afterAnswer h (fun u => u.released (beamOf h sd) (k == .refused))) := by
  simp only [exec, execReleaseAnswered, hm, hcmd, State.answered_eq hleft]

/-- The beam IDLE before it serves, a refusal counted. -/
def State.releasedIdle (s : State) (b : BeamNo) (refused : Bool) : State :=
  State.setBeam (if refused then s.bumpCov 11 else s) b { s.beam b with state := .idle, seg := none }

theorem State.released_closing {b : BeamNo} (hclosing : (s.beam b).state = .closing) (refused : Bool) :
    s.released b refused = (s.releasedIdle b refused).becameIdle b := by
  have hbeam : ∀ u : State, u = (if refused then s.bumpCov 11 else s) → u.beam b = s.beam b := fun u hu => by
    rw [hu]
    split <;> rfl
  unfold State.released State.releasedIdle
  dsimp only
  rw [hbeam _ rfl, if_pos hclosing]

theorem State.beam_releasedIdle {b : BeamNo} (refused : Bool) :
    (s.releasedIdle b refused).beam b = { s.beam b with state := .idle, seg := none } := State.beam_setBeam_self _ _ _

theorem State.releasedIdle_beamCtl {b : BeamNo} (refused : Bool) : (s.releasedIdle b refused).beamCtl =
    (s.setBeam b { s.beam b with state := .idle, seg := none }).beamCtl := by
  unfold State.releasedIdle
  split <;> rfl

theorem State.counter_releasedIdle {b : BeamNo} (refused : Bool) : look (s.releasedIdle b refused).coverage.counters 11 =
    if refused = true then satInc (look s.coverage.counters 11) else look s.coverage.counters 11 := by
  unfold State.releasedIdle
  split
  · exact look_bump_self _ _
  · rfl

theorem State.releasedIdle_keepsAllBut {b : BeamNo} (refused : Bool) :
    s.KeepsAllBut (s.releasedIdle b refused) [.links, .coverage, .beamCtl] := fun p hp => by
  unfold State.releasedIdle
  split <;> cases p <;> simp_all [Part.same]

/-- The state behind a RELEASE answered. -/
def State.releaseEnded (s : State) (h : HeadNo) (b : BeamNo) (refused : Bool) : State :=
  (((s.endOutstanding h).releasedIdle b refused).becameIdle b).trySweep h

theorem exec_releaseAnswered_closing (hcmd : o.cmd = .release sd) (hleft : o.leftToFinish = false)
    (hm : s.matched h bs = some (o, k)) (hclosing : (s.beam (beamOf h sd)).state = .closing) :
    exec (.releaseAnswered h bs) s = .next (s.releaseEnded h (beamOf h sd) (k == .refused)) := by
  rw [exec_releaseAnswered hcmd hleft hm, State.afterAnswer, State.released_closing (by rwa [State.beam_endOutstanding])]
  rfl

theorem State.releaseEnded_not_closing {b : BeamNo} (refused : Bool) : ((s.releaseEnded h b refused).beam b).state ≠ .closing := by
  refine State.trySweep_not_closing (State.serveIdle_not_closing (State.trySweep_not_closing ?_ _)) h
  rw [State.beam_releasedIdle]
  exact BeamState.noConfusion

/-- With an empty list and a CURRENT head the beam stays IDLE. -/
theorem State.releaseEnded_idle (refused : Bool) (hempty : s.beamCtl.waitList = []) (hcurrent : (s.head h).survey = .current) :
    (s.releaseEnded h (beamOf h sd) refused).beam (beamOf h sd) = { s.beam (beamOf h sd) with state := .idle, seg := none } := by
  have hctl := (s.endOutstanding h).releasedIdle_beamCtl (b := beamOf h sd) refused
  have hsurvey : (((s.endOutstanding h).releasedIdle (beamOf h sd) refused).head h).survey = .current := by
    rw [State.head_of_beamCtl hctl, State.head_setBeam, (s.endOutstanding_kept h).2.1, hcurrent]
  have hlist : ((s.endOutstanding h).releasedIdle (beamOf h sd) refused).beamCtl.waitList = [] := by
    rw [hctl, State.waitList_setBeam, State.waitList_endOutstanding, hempty]
  rw [State.releaseEnded, State.becameIdle, headOf_beamOf, State.trySweep_current hsurvey, State.serveIdle_empty hlist,
    State.trySweep_current hsurvey, State.beam_releasedIdle, State.beam_endOutstanding]

theorem State.counter_releaseEnded {b : BeamNo} (refused : Bool) : look (s.releaseEnded h b refused).coverage.counters 11 =
    if refused = true then satInc (look s.coverage.counters 11) else look s.coverage.counters 11 := by
  have hend : look (s.endOutstanding h).coverage.counters 11 = look s.coverage.counters 11 :=
    State.CountsOnly.endOutstanding.2 11 (by decide)
  rw [State.releaseEnded, (State.CountsOnly.trySweep _ h).2 11 (by decide), State.CountsOnly.becameIdle.2 11 (by decide),
    State.counter_releasedIdle, hend]

theorem State.releaseEnded_keepsAllBut {b : BeamNo} (refused : Bool) :
    s.KeepsAllBut (s.releaseEnded h b refused) [.links, .coverage, .beamCtl] :=
  (((State.endOutstanding_keepsAllBut.mono (by decide)).trans (State.releasedIdle_keepsAllBut refused)).trans
    State.becameIdle_keepsAllBut).trans (State.trySweep_keepsAllBut.mono (by decide))

/-! ### SWEEP_REFUSED (R81) -/

theorem exec_sweepRefused (hcmd : o.cmd = .sweep) (hleft : o.leftToFinish = false) (hm : s.matched h bs = some (o, .refused)) :
    exec (.sweepRefused h bs) s = .next (s.afterAnswer h (fun u =>
      (u.setHead h { u.head h with retryAt := some (u.now + 1000) }).bumpCov 14)) := by
  simp only [exec, execSweepRefused, hm, hcmd, if_true, State.answered_eq hleft]

/-- The state behind a SWEEP refused: a retry is on hand, so no other sweep starts. -/
def State.sweepPutOff (s : State) (h : HeadNo) : State :=
  ((s.endOutstanding h).setHead h { (s.endOutstanding h).head h with retryAt := some (s.clock.ms + 1000) }).bumpCov 14

theorem State.head_sweepPutOff : (s.sweepPutOff h).head h = { (s.endOutstanding h).head h with retryAt := some (s.clock.ms + 1000) } :=
  State.head_setHead_self _ _ _

theorem exec_sweepRefused_putOff (hcmd : o.cmd = .sweep) (hleft : o.leftToFinish = false) (hm : s.matched h bs = some (o, .refused)) :
    exec (.sweepRefused h bs) s = .next (s.sweepPutOff h) := by
  have hnow : (s.endOutstanding h).now = s.clock.ms := congrArg Clock.ms (s.endOutstanding_frame h).1
  have hnone : (s.sweepPutOff h).trySweep h = s.sweepPutOff h := State.trySweep_of_not fun hmay => by
    obtain ⟨-, -, -, -, -, -, hretry, -⟩ := State.sweepMay_iff.mp hmay
    rw [State.head_sweepPutOff] at hretry
    cases hretry
  rw [exec_sweepRefused hcmd hleft hm, State.afterAnswer, hnow]
  exact congrArg _ hnone

theorem State.sweepPutOff_keepsAllBut : s.KeepsAllBut (s.sweepPutOff h) [.coverage, .beamCtl] := by
  have hset : ∀ (u : State) (x : Head), u.KeepsAllBut (u.setHead h x) [.coverage, .beamCtl] := fun u x p hp => by
    cases p <;> simp_all [Part.same]
  exact (State.endOutstanding_keepsAllBut.trans (hset _ _)).step (State.bumpCov_keepsAllBut _ _) (by decide)

end

end Sys2Proof.Machine
end

section
/-! PROOFS. SWEEP_RESULT: each entry's cell, the choices and losses, the beams freed (R55, R56, R60, R81). -/

namespace Sys2Proof.Machine

/-! ### The entries of a sweep result (R56) -/

/-- A cell that an entry of a sweep result has reached. -/
def Cell.swept (c : Cell) (m : Option Nat) : Cell :=
  match m with
  | none => { c with sweep := none }
  | some v => match c.state with
    | .good | .weak => { c.sampled v 2 with sweep := some v }
    | .retired => { c.recovering v with sweep := some v }
    | .marked => { c with sweep := some v }

section
variable {s : State} {h : HeadNo} {g : SegNo} {c : Cell}

/-- One entry writes its cell and counts. -/
theorem State.sweepEntry_written (hc : s.cell h g = some c) (m : Option Nat) : ∃ ns : Vector Nat 24,
    s.sweepEntry h g m = { s.setCell h g (c.swept m) with coverage := { (s.setCell h g (c.swept m)).coverage with counters := ns } } ∧
    ∀ i : Fin 24, i ∉ [0, 3, 4, 5] → look ns i = look s.coverage.counters i := by
  unfold State.sweepEntry
  rw [hc]
  cases m with
  | none => exact ⟨s.coverage.counters, rfl, fun _ _ => rfl⟩
  | some v =>
    have hsample : c.state = .good ∨ c.state = .weak → c.swept (some v) = { c.sampled v 2 with sweep := some v } := fun hstate => by
      rcases hstate with hs | hs <;> simp only [Cell.swept, hs]
    have hbump : ∀ (i j : Fin 24) (ns : Vector Nat 24), i ∉ [0, 3, 4, 5] → j ∈ [0, 3, 4, 5] → look (bump ns j) i = look ns i :=
      fun i j ns hi hj => look_bump_ne _ fun he => hi (he ▸ hj)
    cases hs : c.state with
    | good =>
      rw [hsample (.inl hs)]
      dsimp only
      rw [hs]
      dsimp only
      by_cases hr : (c.sampled v 2).state = .retired
      · rw [if_pos hr]
        exact ⟨_, rfl, fun i hi => (hbump i 4 _ hi (by decide)).trans (hbump i 0 _ hi (by decide))⟩
      · rw [if_neg hr]
        exact ⟨_, rfl, fun i hi => hbump i 0 _ hi (by decide)⟩
    | weak =>
      rw [hsample (.inr hs)]
      dsimp only
      rw [hs]
      dsimp only
      by_cases hr : (c.sampled v 2).state = .retired
      · rw [if_pos hr]
        exact ⟨_, rfl, fun i hi => (hbump i 4 _ hi (by decide)).trans (hbump i 0 _ hi (by decide))⟩
      · rw [if_neg hr]
        exact ⟨_, rfl, fun i hi => hbump i 0 _ hi (by decide)⟩
    | retired =>
      have hrecover : c.swept (some v) = { c.recovering v with sweep := some v } := by simp only [Cell.swept, hs]
      rw [hrecover]
      dsimp only
      rw [hs]
      dsimp only
      by_cases hg : (c.recovering v).state = .good
      · rw [if_pos hg]
        exact ⟨_, rfl, fun i hi => hbump i 5 _ hi (by decide)⟩
      · rw [if_neg hg]
        exact ⟨s.coverage.counters, rfl, fun _ _ => rfl⟩
    | marked =>
      have hmark : c.swept (some v) = { c with sweep := some v } := by simp only [Cell.swept, hs]
      rw [hmark]
      dsimp only
      rw [hs]
      exact ⟨_, rfl, fun i hi => hbump i 3 _ hi (by decide)⟩

theorem State.sweepEntry_none (hc : s.cell h g = none) (m : Option Nat) : s.sweepEntry h g m = s := by
  unfold State.sweepEntry
  rw [hc]

theorem State.cell_sweepEntry (m : Option Nat) (i : HeadNo) (f : SegNo) : (s.sweepEntry h g m).cell i f =
    if i = h ∧ f = g then (s.cell h g).map (fun c => c.swept m) else s.cell i f := by
  cases hc : s.cell h g with
  | none =>
    rw [State.sweepEntry_none hc]
    split
    · next he => rw [he.1, he.2, hc]; rfl
    · rfl
  | some c =>
    obtain ⟨ns, heq, -⟩ := State.sweepEntry_written hc m
    rw [heq]
    exact State.cell_setCell s h i g f _

theorem State.counter_sweepEntry (m : Option Nat) {i : Fin 24} (hi : i ∉ [0, 3, 4, 5]) :
    look (s.sweepEntry h g m).coverage.counters i = look s.coverage.counters i := by
  cases hc : s.cell h g with
  | none => rw [State.sweepEntry_none hc]
  | some c =>
    obtain ⟨ns, heq, hns⟩ := State.sweepEntry_written hc m
    rw [heq]
    exact hns i hi

/-- The entries of a sweep result, before the choices. -/
def State.sweepEntries (s : State) (h : HeadNo) (ps : List (SegNo × Option Nat)) : State :=
  ps.foldl (fun t p => t.sweepEntry h p.1 p.2) s

theorem State.cell_sweepEntries_other (ps : List (SegNo × Option Nat)) (s : State) {i : HeadNo} (hi : i ≠ h) (f : SegNo) :
    (s.sweepEntries h ps).cell i f = s.cell i f :=
  foldl_keeps (fun u : State => u.cell i f) (fun t (p : SegNo × Option Nat) => t.sweepEntry h p.1 p.2)
    (fun u p => by rw [State.cell_sweepEntry, if_neg fun he => hi he.1]) ps s

/-- Each segment's entry reaches its cell. -/
theorem State.cell_sweepEntries (ps : List (SegNo × Option Nat)) (s : State) (hnodup : (ps.map Prod.fst).Nodup) {m : Option Nat}
    (hmem : (g, m) ∈ ps) : (s.sweepEntries h ps).cell h g = (s.cell h g).map (fun c => c.swept m) := by
  induction ps generalizing s with
  | nil => cases hmem
  | cons p ps ih =>
    obtain ⟨hnot, hrest⟩ := List.nodup_cons.mp hnodup
    rcases List.mem_cons.mp hmem with rfl | hmem
    · refine ((State.sweepEntries_cover h ps (s.sweepEntry h g m)).1 h g hnot).trans ?_
      rw [State.cell_sweepEntry, if_pos ⟨rfl, rfl⟩]
    · have hne : g ≠ p.1 := fun he => hnot (he ▸ List.mem_map_of_mem (f := Prod.fst) hmem)
      refine (ih (s.sweepEntry h p.1 p.2) hrest hmem).trans ?_
      rw [State.cell_sweepEntry, if_neg fun he => hne he.2]

theorem State.counter_sweepEntries (ps : List (SegNo × Option Nat)) (s : State) {i : Fin 24} (hi : i ∉ [0, 3, 4, 5]) :
    look (s.sweepEntries h ps).coverage.counters i = look s.coverage.counters i :=
  foldl_keeps (fun u : State => look u.coverage.counters i) (fun t (p : SegNo × Option Nat) => t.sweepEntry h p.1 p.2)
    (fun _ p => State.counter_sweepEntry p.2 hi) ps s

theorem State.sweepEntries_keepsAllBut (ps : List (SegNo × Option Nat)) : s.KeepsAllBut (s.sweepEntries h ps) [.coverage] :=
  State.foldl_keepsAllBut (f := fun t (p : SegNo × Option Nat) => t.sweepEntry h p.1 p.2)
    (fun u p q hq => by cases q <;> simp_all [Part.same]) ps s

theorem State.reachSegs_nodup (s : State) (h : HeadNo) : (s.reachSegs h).Nodup := by
  unfold State.reachSegs
  split
  · exact List.nodup_nil
  · exact (List.nodup_finRange 64).filter _

end

/-! ### The sweep result as a whole (R81) -/

section
variable {s : State} {h : HeadNo} {bs : List Byte} {o : Outstanding} {ms : List (Option Nat)} {g : SegNo}

/-- The cells of the head once the entries have reached them. -/
def State.sweepCells (s : State) (h : HeadNo) (ms : List (Option Nat)) : State := s.sweepEntries h ((s.reachSegs h).zip ms)

theorem State.applySweep_eq (s : State) (h : HeadNo) (ms : List (Option Nat)) : s.applySweep h ms =
    (s.retiredBy (s.sweepCells h ms) h).foldl (fun u g => u.cellLost h g .retired) ((s.sweepCells h ms).rechoose (s.reachSegs h)) := rfl

/-- The beams IDLE and the head CURRENT, before the list is served. -/
def State.sweptIdle (s : State) (h : HeadNo) (ms : List (Option Nat)) : State :=
  let s := s.applySweep h ms
  let s := s.setBeam (beamOf h .a) { s.beam (beamOf h .a) with state := .idle }
  let s := s.setBeam (beamOf h .b) { s.beam (beamOf h .b) with state := .idle }
  (s.setHead h { s.head h with reference := s.now, survey := .current }).bumpCov 13

theorem State.swept_eq (s : State) (h : HeadNo) (ms : List (Option Nat)) :
    s.swept h ms = ((s.sweptIdle h ms).serveIdle (beamOf h .a)).serveIdle (beamOf h .b) := rfl

theorem State.clock_applySweep (s : State) (h : HeadNo) (ms : List (Option Nat)) : (s.applySweep h ms).clock = s.clock := by simp

theorem State.head_sweptIdle : ((s.sweptIdle h ms).head h).survey = .current ∧
    ((s.sweptIdle h ms).head h).reference = s.clock.ms := by
  rw [State.sweptIdle, State.head_bumpCov, State.head_setHead_self]
  exact ⟨rfl, congrArg Clock.ms (s.clock_applySweep h ms)⟩

theorem State.head_swept : ((s.swept h ms).head h).survey = .current ∧ ((s.swept h ms).head h).reference = s.clock.ms := by
  obtain ⟨hsurvey, href⟩ := State.head_sweptIdle (s := s) (h := h) (ms := ms)
  obtain ⟨-, asurvey, aref⟩ := State.serveIdle_stays (s := s.sweptIdle h ms) (b := beamOf h .a) h
  obtain ⟨-, bsurvey, bref⟩ := State.serveIdle_stays (s := (s.sweptIdle h ms).serveIdle (beamOf h .a)) (b := beamOf h .b) h
  rw [State.swept_eq]
  exact ⟨bsurvey.trans (asurvey.trans hsurvey), bref.trans (aref.trans href)⟩

/-- A CURRENT head starts no sweep behind the result. -/
theorem exec_sweepResult (hleft : o.leftToFinish = false) (hm : s.matched h bs = some (o, .sweepResult ms)) :
    exec (.sweepResult h bs) s = .next ((s.endOutstanding h).swept h ms).judge := by
  have hanswer : s.answered h o (fun u => u.swept h ms) = (s.endOutstanding h).swept h ms := by
    rw [State.answered_eq hleft, State.afterAnswer, State.trySweep_current State.head_swept.1]
  simp only [exec, execSweepResult, hm, hanswer]

theorem State.swept_cover : coverOf (s.swept h ms).coverage (s.swept h ms).beamCtl =
    coverOf ((s.sweepCells h ms).rechoose (s.reachSegs h)).coverage ((s.sweepCells h ms).rechoose (s.reachSegs h)).beamCtl := by
  have hlosses : coverOf (s.applySweep h ms).coverage (s.applySweep h ms).beamCtl =
      coverOf ((s.sweepCells h ms).rechoose (s.reachSegs h)).coverage ((s.sweepCells h ms).rechoose (s.reachSegs h)).beamCtl :=
    foldl_coverOf (fun u g => u.cover_cellLost h g .retired) _ _
  rw [← hlosses]
  unfold State.swept
  simp only [State.cover_serveIdle, State.cover_bumpCov, State.setHead_frame, State.setBeam_frame, State.bumpCov_frame]
  rw [State.cover_setHead _ (by rfl)]
  simp

theorem State.cell_swept (i : HeadNo) (f : SegNo) : (s.swept h ms).cell i f = (s.sweepCells h ms).cell i f := by
  rw [(State.cover_parts State.swept_cover).1, ((s.sweepCells h ms).rechoose_cover _).1]

theorem State.counter_swept : look (s.swept h ms).coverage.counters 13 = satInc (look s.coverage.counters 13) := by
  have hlosses : look (s.applySweep h ms).coverage.counters 13 = look s.coverage.counters 13 := by
    rw [State.applySweep_eq]
    refine (foldl_keeps (fun u : State => look u.coverage.counters 13) (fun u g => u.cellLost h g .retired)
      (fun u g => State.CountsOnly.cellLost.2 13 (by decide)) _ _).trans ?_
    rw [State.rechoose_counters _ _ (by decide)]
    exact State.counter_sweepEntries _ s (by decide)
  rw [State.swept_eq, State.CountsOnly.serveIdle.2 13 (by decide), State.CountsOnly.serveIdle.2 13 (by decide), ← hlosses]
  exact look_bump_self _ _

theorem State.applySweep_keepsAllBut :
    s.KeepsAllBut (s.applySweep h ms) [.links, .coverage, .beamCtl, .pool, .downlink, .cranes, .reefer] := by
  rw [State.applySweep_eq]
  exact (((State.sweepEntries_keepsAllBut _).mono (by decide)).step (State.rechoose_keepsAllBut _ _) (by decide)).step
    (State.foldl_keepsAllBut (f := fun u g => u.cellLost h g .retired) (fun _ _ => State.cellLost_keepsAllBut) _ _) (by decide)

theorem State.swept_keepsAllBut :
    s.KeepsAllBut (s.swept h ms) [.links, .coverage, .beamCtl, .pool, .downlink, .cranes, .reefer] := by
  have hidle : (s.applySweep h ms).KeepsAllBut (s.sweptIdle h ms) [.coverage, .beamCtl] := fun p hp => by
    cases p <;> simp_all [Part.same, State.sweptIdle]
  rw [State.swept_eq]
  exact ((State.applySweep_keepsAllBut.step hidle (by decide)).step State.serveIdle_keepsAllBut (by decide)).step
    State.serveIdle_keepsAllBut (by decide)

/-! ### Beams behind an empty list -/

theorem State.waitList_loseBeam {b : BeamNo} {r : LossReason} : (s.loseBeam b g r).beamCtl.waitList = s.beamCtl.waitList := by
  rcases s.loseBeam_cases b g with hoff | ⟨hseg, hopen, hburst⟩ | ⟨hseg, hlater⟩ | ⟨hopen, hsteer⟩
  · rw [State.loseBeam_off hoff]
  · rw [State.loseBeam_closes hseg hopen hburst, State.waitList_toClosing, (State.raiseLost_frame _ _ _).2.2.2.2.1]
  · rw [State.loseBeam_pends hseg hlater]
    rfl
  · rw [State.loseBeam_other hopen hsteer]

theorem State.waitList_cellLost {r : LossReason} : (s.cellLost h g r).beamCtl.waitList = s.beamCtl.waitList := by
  rw [State.cellLost, State.waitList_loseBeam, State.waitList_loseBeam]

theorem State.waitList_applySweep : (s.applySweep h ms).beamCtl.waitList = s.beamCtl.waitList := by
  rw [State.applySweep_eq]
  refine (foldl_keeps (fun u : State => u.beamCtl.waitList) (fun u g => u.cellLost h g .retired)
    (fun u g => State.waitList_cellLost) _ _).trans ?_
  have hchoice : ((s.sweepCells h ms).rechoose (s.reachSegs h)).beamCtl = (s.sweepCells h ms).beamCtl :=
    State.rechoose_keepsAllBut _ _ .beamCtl (by decide)
  have hcells : (s.sweepCells h ms).beamCtl = s.beamCtl := State.sweepEntries_keepsAllBut _ .beamCtl (by decide)
  rw [hchoice, hcells]

/-- With nobody waiting both beams are IDLE. -/
theorem State.swept_idle (hempty : s.beamCtl.waitList = []) (v : Side) : ((s.swept h ms).beam (beamOf h v)).state = .idle := by
  have hlist : (s.sweptIdle h ms).beamCtl.waitList = [] := (State.waitList_applySweep (s := s) (h := h) (ms := ms)).trans hempty
  rw [State.swept_eq, State.serveIdle_empty hlist, State.serveIdle_empty hlist, State.sweptIdle, State.beam_bumpCov, State.beam_setHead]
  cases v
  · rw [State.beam_setBeam, if_neg (beamOf_ne h).symm, State.beam_setBeam_self]
  · rw [State.beam_setBeam_self]

end

/-- Settles O33: a RELEASE answered frees its beam, a SWEEP's result reaches the cells and frees both, a SWEEP refused is put off. -/
theorem releaseAndSweepAnswersFreeTheBeams : Obligations.ReleaseAndSweepAnswersFreeTheBeams := by
  refine fun h bs s o hleft => ⟨fun sd k hcmd hm hclosing => ?_, fun ms hm => ?_, fun hcmd hm => ?_⟩
  · have hcount := State.counter_releaseEnded (s := s) (h := h) (b := beamOf h sd) (k == .refused)
    refine ⟨s.releaseEnded h (beamOf h sd) (k == .refused), exec_releaseAnswered_closing hcmd hleft hm hclosing,
      State.releaseEnded_not_closing _, fun hempty hcurrent => ?_, fun hrefused => ?_, fun hnot => ?_, State.releaseEnded_keepsAllBut _⟩
    · rw [State.releaseEnded_idle _ hempty hcurrent]
      exact ⟨rfl, rfl⟩
    · rw [hcount, if_pos (by rw [hrefused]; rfl)]
    · rw [hcount, if_neg (by simpa using hnot)]
  · have hframe := State.judge_frame ((s.endOutstanding h).swept h ms)
    have hcover := hframe.2.2.2.2.1
    have hctl := hframe.2.2.2.2.2.1
    have hcells : ∀ i f, (s.endOutstanding h).cell i f = s.cell i f := fun i f => by
      rw [State.cell, State.CountsOnly.endOutstanding.cells.1, State.cell]
    have hcell : ∀ i f, ((s.endOutstanding h).swept h ms).judge.cell i f = ((s.endOutstanding h).sweepCells h ms).cell i f := fun i f => by
      rw [State.cell, hcover]
      exact State.cell_swept i f
    have hreach : (s.endOutstanding h).reachSegs h = s.reachSegs h := State.reachSegs_endOutstanding
    have hclock : (s.endOutstanding h).clock.ms = s.clock.ms := congrArg Clock.ms (s.endOutstanding_frame h).1
    have hsweep := State.swept_cover (s := s.endOutstanding h) (h := h) (ms := ms)
    rw [← hcover, ← hctl, hreach] at hsweep
    obtain ⟨hsurvey, href⟩ := State.head_swept (s := s.endOutstanding h) (h := h) (ms := ms)
    refine ⟨((s.endOutstanding h).swept h ms).judge, exec_sweepResult hleft hm, ?_, ?_, ?_, fun g m hmem c hc => ?_,
      fun i g hi => ?_, fun g hg => State.segRec_eq_chosen hsweep hg, fun hempty => ?_,
      ((State.endOutstanding_keepsAllBut.mono (by decide)).trans State.swept_keepsAllBut).step (State.judge_keepsAllBut _) (by decide)⟩
    · rw [State.head_of_beamCtl hctl]
      exact hsurvey
    · rw [State.head_of_beamCtl hctl, href, hclock]
    · rw [hcover, State.counter_swept]
      exact congrArg satInc (State.CountsOnly.endOutstanding.2 13 (by decide))
    · rw [hcell, State.sweepCells, hreach, State.cell_sweepEntries _ _ ?_ hmem, hcells, hc]
      · rfl
      · obtain ⟨-, hlength⟩ := (HeadCmd.fits_iff _ _ _).mp (State.matched_some hm).2
        rw [List.map_fst_zip (Nat.le_of_eq hlength.symm)]
        exact s.reachSegs_nodup h
    · rw [hcell, State.sweepCells, State.cell_sweepEntries_other _ _ hi, hcells]
    · rw [← State.waitList_endOutstanding (h := h)] at hempty
      rw [State.beam_of_beamCtl hctl, State.beam_of_beamCtl hctl]
      exact ⟨State.swept_idle hempty .a, State.swept_idle hempty .b⟩
  · obtain ⟨-, hsurvey, -⟩ := s.endOutstanding_kept h
    refine ⟨s.sweepPutOff h, exec_sweepRefused_putOff hcmd hleft hm, ?_, ?_, ?_, State.beams_endOutstanding,
      State.waitList_endOutstanding, State.sweepPutOff_keepsAllBut⟩
    · rw [State.head_sweepPutOff]
    · rw [State.head_sweepPutOff]
      exact hsurvey
    · exact (look_bump_self _ _).trans (congrArg satInc (State.CountsOnly.endOutstanding.2 14 (by decide)))

end Sys2Proof.Machine
end

section
/-! PROOFS. A STEER answered DONE (R74, R76, R78). -/

namespace Sys2Proof.Machine

section
variable {s : State} {h : HeadNo} {bs : List Byte} {o : Outstanding} {sd : Side} {f g : SegNo} {b : BeamNo} {v : LossReason}

theorem exec_steerDone (hcmd : o.cmd = .steer sd g) (hleft : o.leftToFinish = false) (hm : s.matched h bs = some (o, .done)) :
    exec (.steerDone h bs) s = .next (s.afterAnswer h (fun u => u.steered (beamOf h sd))) := by
  simp only [exec, execSteerDone, hm, hcmd, State.answered_eq hleft]

/-! ### A beam that opens (R74) -/

/-- A beam whose STEER was DONE. -/
def Beam.arrived (x : Beam) : Beam := { x with state := .opened, awaiting := [] }

/-- The beam OPEN and its requests answered, before it closes or takes the list's. -/
def State.openAnswered (s : State) (b : BeamNo) : State :=
  match (s.beam b).seg with
  | some g => (s.setBeam b (s.beam b).arrived).answerOpened b g (s.beam b).awaiting
  | none => s.setBeam b (s.beam b).arrived

theorem State.steered_eq (hsteer : (s.beam b).state = .steering) : s.steered b = match (s.beam b).closePending with
    | some r => (s.openAnswered b).closeBeam b (some r)
    | none => (s.openAnswered b).serveOpen b := by
  unfold State.steered
  dsimp only
  rw [if_pos hsteer]
  rfl

theorem State.steered_other (hnot : (s.beam b).state ≠ .steering) : s.steered b = s := if_neg hnot

theorem State.answerOpened_keepsAllBut (qs : List OpenReq) : s.KeepsAllBut (s.answerOpened b g qs) [.links] :=
  State.foldl_keepsAllBut (f := fun s (q : OpenReq) => s.reply q.ref .ok (.opened b (headOf b) g))
    (fun u q p hp => by cases p <;> simp_all [Part.same]) qs s

theorem State.openAnswered_behind (s : State) (b : BeamNo) : (s.setBeam b (s.beam b).arrived).KeepsAllBut (s.openAnswered b) [.links] := by
  unfold State.openAnswered
  split
  · exact State.answerOpened_keepsAllBut _
  · exact .refl _ _

theorem State.beam_openAnswered (d : BeamNo) : (s.openAnswered b).beam d = if d = b then (s.beam b).arrived else s.beam d := by
  rw [State.beam_of_beamCtl (s.openAnswered_behind b .beamCtl (by decide)), State.beam_setBeam]

theorem State.head_openAnswered (i : HeadNo) : (s.openAnswered b).head i = s.head i :=
  State.head_of_beamCtl (s.openAnswered_behind b .beamCtl (by decide)) i

theorem State.links_openAnswered (hseg : (s.beam b).seg = some g) {u : State} (hu : s.links = u.links) : (s.openAnswered b).links =
    ((s.beam b).awaiting.foldl (fun v q => v.reply q.ref .ok (.opened b (headOf b) g)) u).links := by
  unfold State.openAnswered
  rw [hseg]
  exact foldl_links_congr (f := fun v (q : OpenReq) => v.reply q.ref .ok (.opened b (headOf b) g))
    (g := fun v (q : OpenReq) => v.reply q.ref .ok (.opened b (headOf b) g))
    (fun _ _ q hlinks => State.reply_links_congr hlinks q.ref .ok _) _ hu

theorem State.openAnswered_keepsAllBut : s.KeepsAllBut (s.openAnswered b) [.links, .beamCtl] := by
  have hset : s.KeepsAllBut (s.setBeam b (s.beam b).arrived) [.links, .beamCtl] := fun p hp => by
    cases p <;> simp_all [Part.same]
  exact hset.step (s.openAnswered_behind b) (by decide)

/-- A tell depends on the links alone. -/
theorem State.tell_links_congr {u w : State} (hlinks : u.links = w.links) (ns : LinkNo → List Notice) :
    (u.tell ns).links = (w.tell ns).links := by
  simp only [State.tell, State.link, hlinks]

/-! ### The beam takes the list's requests for its segment (R76) -/

/-- The waiting requests that join a beam which has opened. -/
def State.openTakes (s : State) (b : BeamNo) (f : SegNo) : List ReqRef :=
  if (s.beam b).oneShot = false ∧ (s.head (headOf b)).survey ≠ .overdue ∧ (s.beam b).releaseDeferred = false then
    (s.beamCtl.waitList.filter (fun w => !w.oneShot && w.seg == f)).map (fun w => w.req.ref) else []

theorem State.serveOpen_links (hopen : (s.beam b).state = .opened) (hseg : (s.beam b).seg = some f)
    (hpending : (s.beam b).closePending = none) : (s.serveOpen b).links =
    ((s.openTakes b f).foldl (fun v q => v.reply q .ok (.opened b (headOf b) f)) s).links := by
  have hjoin : s.joinable b = true ↔
      ((s.beam b).oneShot = false ∧ (s.head (headOf b)).survey ≠ .overdue ∧ (s.beam b).releaseDeferred = false) := by
    rw [State.joinable_iff]
    exact ⟨fun ⟨_, hone, _, hsurvey, hdeferred⟩ => ⟨hone, hsurvey, hdeferred⟩,
      fun ⟨hone, hsurvey, hdeferred⟩ => ⟨.inl hopen, hone, hpending, hsurvey, hdeferred⟩⟩
  unfold State.serveOpen State.openTakes
  rw [hseg]
  dsimp only
  by_cases hj : s.joinable b = true
  · rw [if_pos hj, if_pos (hjoin.mp hj), State.joinWaiting_answers hopen]
    rfl
  · rw [if_neg hj, if_neg (mt hjoin.mpr hj)]
    rfl

/-- Joining leaves the beam's state and segment, and its head; no holder goes. -/
theorem State.serveOpen_beam (hopen : (s.beam b).state = .opened) : ((s.serveOpen b).beam b).state = .opened ∧
    ((s.serveOpen b).beam b).awaiting = (s.beam b).awaiting ∧ ((s.serveOpen b).beam b).seg = (s.beam b).seg ∧
    (∀ l : LinkNo, look (s.beam b).holders l = true → look ((s.serveOpen b).beam b).holders l = true) ∧
    ∀ i : HeadNo, (s.serveOpen b).head i = s.head i := by
  unfold State.serveOpen
  split
  · next g _ =>
    split
    · have hbeam := State.beam_of_beamCtl (State.joinWaiting_beamCtl (s := s) (b := b) (g := g)) b
      rw [State.beam_setBeam_self] at hbeam
      have heq := Beam.joinedAll_eq (s.beam b) (s.beamCtl.waitList.filter (fun w => w.joins g))
      have hmono := fun l => Beam.holders_joinedAll_mono (s.beam b) (s.beamCtl.waitList.filter (fun w => w.joins g)) (l := l)
      rw [hopen, if_pos rfl] at heq
      rw [hbeam]
      refine ⟨?_, ?_, ?_, fun l hl => hmono l hl, State.head_joinWaiting⟩
      · rw [heq]
      · rw [heq]
      · rw [heq]
    · exact ⟨hopen, rfl, rfl, fun _ hl => hl, fun _ => rfl⟩
  · exact ⟨hopen, rfl, rfl, fun _ hl => hl, fun _ => rfl⟩

theorem State.serveOpen_keepsAllBut : s.KeepsAllBut (s.serveOpen b) [.links, .coverage, .beamCtl] := fun p hp => by
  cases p <;> simp_all [Part.same]

/-! ### The state behind STEER_DONE -/

/-- A beam that is not IDLE keeps its head from a sweep. -/
theorem State.afterAnswer_busy {w : State} {k : State → State} (hk : k (s.endOutstanding h) = w)
    (hbusy : (w.beam (beamOf h sd)).state ≠ .idle) : s.afterAnswer h k = w := by
  rw [State.afterAnswer, hk]
  exact State.trySweep_busy hbusy

/-- The beam OPEN and its requests answered, the answered STEER off the line. -/
def State.steerOpened (s : State) (h : HeadNo) (b : BeamNo) : State := (s.endOutstanding h).openAnswered b

theorem State.beam_steerOpened : (s.steerOpened h b).beam b = (s.beam b).arrived := by
  rw [State.steerOpened, State.beam_openAnswered, if_pos rfl, State.beam_endOutstanding]

theorem State.head_steerOpened (i : HeadNo) : (s.steerOpened h b).head i = (s.endOutstanding h).head i := State.head_openAnswered i

theorem State.waitList_steerOpened : (s.steerOpened h b).beamCtl.waitList = s.beamCtl.waitList := by
  rw [State.steerOpened, (s.endOutstanding h).openAnswered_behind b .beamCtl (by decide)]
  exact State.waitList_endOutstanding

theorem State.links_steerOpened (hseg : (s.beam b).seg = some f) : (s.steerOpened h b).links =
    ((s.beam b).awaiting.foldl (fun v q => v.reply q.ref .ok (.opened b (headOf b) f)) s).links := by
  rw [← State.beam_endOutstanding s h b] at hseg
  rw [← State.beam_endOutstanding s h b]
  exact State.links_openAnswered hseg (State.endOutstanding_frame s h).2.1

theorem State.steerOpened_keepsAllBut : s.KeepsAllBut (s.steerOpened h b) [.links, .coverage, .beamCtl] :=
  (State.endOutstanding_keepsAllBut.mono (by decide)).step State.openAnswered_keepsAllBut (by decide)

/-- Without a pending close the beam takes the list's requests. -/
theorem exec_steerDone_opens (hcmd : o.cmd = .steer sd g) (hleft : o.leftToFinish = false) (hm : s.matched h bs = some (o, .done))
    (hsteer : (s.beam (beamOf h sd)).state = .steering) (hpending : (s.beam (beamOf h sd)).closePending = none) :
    exec (.steerDone h bs) s = .next ((s.steerOpened h (beamOf h sd)).serveOpen (beamOf h sd)) := by
  rw [exec_steerDone hcmd hleft hm, State.afterAnswer_busy (w := (s.steerOpened h (beamOf h sd)).serveOpen (beamOf h sd)) (sd := sd)]
  · rw [State.steered_eq (by rwa [State.beam_endOutstanding]), State.beam_endOutstanding, hpending]
    rfl
  · rw [(State.serveOpen_beam (by rw [State.beam_steerOpened]; rfl)).1]
    exact BeamState.noConfusion

/-- With a pending close it closes. -/
theorem exec_steerDone_closes (hcmd : o.cmd = .steer sd g) (hleft : o.leftToFinish = false) (hm : s.matched h bs = some (o, .done))
    (hsteer : (s.beam (beamOf h sd)).state = .steering) (hpending : (s.beam (beamOf h sd)).closePending = some v) :
    exec (.steerDone h bs) s =
      .next (((s.steerOpened h (beamOf h sd)).raiseLost (beamOf h sd) v).toClosing (beamOf h sd)) := by
  have hopen : ((s.steerOpened h (beamOf h sd)).beam (beamOf h sd)).state = .opened := by
    rw [State.beam_steerOpened]
    rfl
  rw [exec_steerDone hcmd hleft hm, State.afterAnswer_busy (sd := sd)
    (w := ((s.steerOpened h (beamOf h sd)).raiseLost (beamOf h sd) v).toClosing (beamOf h sd))]
  · rw [State.steered_eq (by rwa [State.beam_endOutstanding]), State.beam_endOutstanding, hpending]
    exact State.closeBeam_opened hopen (some v)
  · rw [State.beam_of_beamCtl State.toClosing_beamCtl, State.beam_setHead, State.beam_setBeam_self]
    exact BeamState.noConfusion

theorem exec_steerDone_closing (hcmd : o.cmd = .steer sd g) (hleft : o.leftToFinish = false) (hm : s.matched h bs = some (o, .done))
    (hclosing : (s.beam (beamOf h sd)).state = .closing) : exec (.steerDone h bs) s = .next (s.endOutstanding h) := by
  rw [exec_steerDone hcmd hleft hm, State.afterAnswer_busy (w := s.endOutstanding h) (sd := sd)]
  · exact State.steered_other (by rw [State.beam_endOutstanding, hclosing]; exact BeamState.noConfusion)
  · rw [State.beam_endOutstanding, hclosing]
    exact BeamState.noConfusion

end

end Sys2Proof.Machine
end

section
/-! PROOFS. A STEER answered REFUSED: the wait list in its order of age, the refused sample (R58, R74). -/

namespace Sys2Proof.Machine

/-! ### The list in order of age (R74) -/

section
variable {now : Time} {w : WaitEntry} {l ws : List WaitEntry}

/-- How long an entry has waited. -/
def WaitEntry.age (w : WaitEntry) (now : Time) : Nat := elapsed now w.req.arrival

/-- A list in order of age, the oldest first. -/
def byAge (now : Time) (l : List WaitEntry) : Prop := l.Pairwise (fun v w => w.age now ≤ v.age now)

theorem insertByAge_cons (now : Time) (w v : WaitEntry) (l : List WaitEntry) : insertByAge now w (v :: l) =
    if v.age now < w.age now then w :: v :: l else v :: insertByAge now w l := rfl

theorem byAge_insertByAge (hl : byAge now l) : byAge now (insertByAge now w l) := by
  induction l with
  | nil => exact List.pairwise_singleton _ _
  | cons v vs ih =>
    obtain ⟨hv, hvs⟩ := List.pairwise_cons.mp hl
    rw [insertByAge_cons]
    split
    · next hyounger =>
      refine List.pairwise_cons.mpr ⟨fun x hx => ?_, hl⟩
      rcases List.mem_cons.mp hx with rfl | hx
      · exact Nat.le_of_lt hyounger
      · exact Nat.le_trans (hv x hx) (Nat.le_of_lt hyounger)
    · next holder =>
      refine List.pairwise_cons.mpr ⟨fun x hx => ?_, ih hvs⟩
      rcases mem_insertByAge hx with rfl | hx
      · exact Nat.not_lt.mp holder
      · exact hv x hx

/-- An entry joins behind those of its age. -/
theorem filter_insertByAge (hl : byAge now l) (n : Nat) : (insertByAge now w l).filter (fun v => v.age now == n) =
    l.filter (fun v => v.age now == n) ++ [w].filter (fun v => v.age now == n) := by
  induction l with
  | nil => rfl
  | cons v vs ih =>
    obtain ⟨hv, hvs⟩ := List.pairwise_cons.mp hl
    rw [insertByAge_cons]
    split
    · next hyounger =>
      by_cases hw : w.age now = n
      · have hnone : (v :: vs).filter (fun v => v.age now == n) = [] := List.filter_eq_nil_iff.mpr fun x hx => by
          have hle : x.age now ≤ v.age now := by
            rcases List.mem_cons.mp hx with rfl | hx
            · exact Nat.le_refl _
            · exact hv x hx
          simp only [beq_iff_eq]
          omega
        rw [hnone, List.filter_cons_of_pos (by simpa using hw), hnone, List.nil_append,
          List.filter_cons_of_pos (by simpa using hw)]
        rfl
      · rw [List.filter_cons_of_neg (by simpa using hw), List.filter_cons_of_neg (a := w) (by simpa using hw)]
        exact (List.append_nil _).symm
    · by_cases hn : v.age now = n
      · rw [List.filter_cons_of_pos (by simpa using hn), List.filter_cons_of_pos (by simpa using hn), ih hvs]
        rfl
      · rw [List.filter_cons_of_neg (by simpa using hn), List.filter_cons_of_neg (by simpa using hn), ih hvs]

/-- Entries that join in turn keep the order, each behind those of its age. -/
theorem foldl_insertByAge (hl : byAge now l) : byAge now (ws.foldl (fun l w => insertByAge now w l) l) ∧
    ∀ n : Nat, (ws.foldl (fun l w => insertByAge now w l) l).filter (fun v => v.age now == n) =
      (l ++ ws).filter (fun v => v.age now == n) := by
  induction ws generalizing l with
  | nil => exact ⟨hl, fun n => by rw [List.append_nil]; rfl⟩
  | cons w ws ih =>
    obtain ⟨hsorted, hfilter⟩ := ih (byAge_insertByAge (w := w) hl)
    refine ⟨hsorted, fun n => (hfilter n).trans ?_⟩
    rw [List.filter_append, filter_insertByAge hl, List.append_assoc, ← List.filter_append, ← List.filter_append]
    rfl

end

/-! ### Requests that go back onto the list (R74) -/

section
variable {s : State} {ws : List WaitEntry}

/-- Those past the steer wait limit. -/
def State.requeueLate (s : State) (ws : List WaitEntry) : List WaitEntry := ws.filter s.waitOver

/-- The list once the others have joined it, before its end is cut. -/
def State.requeueAll (s : State) (ws : List WaitEntry) : List WaitEntry :=
  (ws.filter (fun w => !s.waitOver w)).foldl (fun l w => insertByAge s.now w l) s.beamCtl.waitList

theorem State.requeue_eq (s : State) (ws : List WaitEntry) : s.requeue ws =
    ((s.requeueAll ws).drop 16).foldl (fun v w => (v.bumpCov 21).answer w.req.ref .noBeam)
      ((s.requeueLate ws).foldl (fun v w => v.answer w.req.ref .noBeam) (s.setWaitList ((s.requeueAll ws).take 16))) := rfl

theorem State.requeue_links {u : State} (hu : s.links = u.links) : (s.requeue ws).links =
    ((s.requeueLate ws ++ (s.requeueAll ws).drop 16).foldl (fun v w => v.answer w.req.ref .noBeam) u).links := by
  rw [State.requeue_eq, List.foldl_append]
  refine foldl_links_congr (f := fun v (w : WaitEntry) => (v.bumpCov 21).answer w.req.ref .noBeam)
    (g := fun v (w : WaitEntry) => v.answer w.req.ref .noBeam)
    (fun v x w hlinks => State.answer_links_congr (u := v.bumpCov 21) hlinks w.req.ref .noBeam) _ ?_
  exact foldl_links_congr (f := fun v (w : WaitEntry) => v.answer w.req.ref .noBeam)
    (g := fun v (w : WaitEntry) => v.answer w.req.ref .noBeam)
    (fun v x w hlinks => State.answer_links_congr hlinks w.req.ref .noBeam) _ hu

theorem State.requeue_beamCtl : (s.requeue ws).beamCtl = (s.setWaitList ((s.requeueAll ws).take 16)).beamCtl := by
  rw [State.requeue_eq]
  refine (foldl_keeps State.beamCtl (fun v (w : WaitEntry) => (v.bumpCov 21).answer w.req.ref .noBeam) (fun _ _ => by simp) _ _).trans ?_
  exact foldl_keeps State.beamCtl (fun v (w : WaitEntry) => v.answer w.req.ref .noBeam) (fun _ _ => by simp) _ _

theorem State.answers_coverage (s : State) (ws : List WaitEntry) :
    (ws.foldl (fun v w => v.answer w.req.ref .noBeam) s).coverage = s.coverage :=
  foldl_keeps State.coverage (fun v (w : WaitEntry) => v.answer w.req.ref .noBeam) (fun _ _ => by simp) _ _

theorem State.CountsOnly.requeue : s.CountsOnly (s.requeue ws) [21] := by
  have hdropped : ∀ (ds : List WaitEntry) (u : State),
      u.CountsOnly (ds.foldl (fun v w => (v.bumpCov 21).answer w.req.ref .noBeam) u) [21] := by
    intro ds
    induction ds with
    | nil => exact fun u => .of_coverage rfl
    | cons d ds ih => exact fun u => ((State.CountsOnly.bumpCov u (k := 21) (by decide)).right (by simp)).trans (ih _)
  rw [State.requeue_eq]
  exact (hdropped _ _).left (State.answers_coverage _ _)

theorem Counts.requeue (s : State) (ws : List WaitEntry) : Counts s.coverage.counters (s.requeue ws).coverage.counters 21
    ((s.requeueAll ws).drop 16).length := by
  have hone : ∀ (u : State) (w : WaitEntry), Counts u.coverage.counters ((u.bumpCov 21).answer w.req.ref .noBeam).coverage.counters 21 1 :=
    fun u w => (Counts.bump u.coverage.counters 21).right (by simp [State.bumpCov])
  have hfold := Counts.foldl (view := fun u : State => u.coverage.counters) hone ((s.requeueAll ws).drop 16)
    ((s.requeueLate ws).foldl (fun v w => v.answer w.req.ref .noBeam) (s.setWaitList ((s.requeueAll ws).take 16)))
  rw [List.map_const', List.sum_replicate, smul_eq_mul, mul_one, State.answers_coverage] at hfold
  exact hfold

theorem State.requeue_keepsAllBut : s.KeepsAllBut (s.requeue ws) [.links, .coverage, .beamCtl] := fun p hp => by
  cases p <;> simp_all [Part.same]

end

/-! ### What a sample tells and counts (R57, R58) -/

section
variable {s : State} {h : HeadNo} {g : SegNo} {c : Cell} {m k : Nat} {ctr : Fin 24}

theorem State.segRec_sample (f : SegNo) : (s.sample h g m k ctr).segRec f = (s.sampleFollowed h g m k ctr).segRec f := by
  rw [State.segRec, State.sample_countsOnly.cells.2.1, State.segRec]

theorem State.cell_sample (i : HeadNo) (f : SegNo) : (s.sample h g m k ctr).cell i f = (s.sampleFollowed h g m k ctr).cell i f := by
  rw [State.cell, State.sample_countsOnly.cells.1, State.cell]

/-- A sample tells nothing where the class stays and no cell is retired. -/
theorem State.Tells.sample (s : State) (h : HeadNo) (g : SegNo) (m k : Nat) (hctr : ctr ≠ 6) : ∃ ns : LinkNo → List Notice,
    s.Tells (s.sample h g m k ctr) ns ∧
    (((s.sample h g m k ctr).segRec g).cls = (s.segRec g).cls → ¬s.SampleRetires h g m k → ∀ l, ns l = []) := by
  obtain ⟨⟨ns, hns⟩, -⟩ := State.Spreads.sampleFollowed s h g m k hctr
  rw [State.segRec_sample]
  by_cases hretires : s.SampleRetires h g m k
  · rw [State.sample_of_retires hretires]
    exact ⟨_, hns.trans (State.Tells.cellLost _ h g .retired), fun _ hnot => absurd hretires hnot⟩
  · rw [State.sample_of_not hretires]
    by_cases hquiet : ((s.sampleFollowed h g m k ctr).segRec g).cls = (s.segRec g).cls
    · exact ⟨noNotices, .of_links (State.sampleFollowed_quiet hctr hquiet).1, fun _ _ _ => rfl⟩
    · exact ⟨ns, hns, fun hq => absurd hq hquiet⟩

/-- A sample that a usable cell takes is counted. -/
theorem State.counter_sample_taken (hc : s.cell h g = some c) (husable : c.state.usable = true) (hctr : ctr ∉ [4, 6, 9, 23]) :
    look (s.sample h g m k ctr).coverage.counters ctr = satInc (look s.coverage.counters ctr) := by
  have htaken : look (s.sampleTaken h g (c.sampled m k) ctr).coverage.counters ctr = satInc (look s.coverage.counters ctr) := by
    unfold State.sampleTaken
    split
    · exact (look_bump_ne _ fun he => hctr (by simp [he])).trans (look_bump_self _ _)
    · exact look_bump_self _ _
  rw [State.sample_countsOnly.2 ctr (fun hm => hctr (by simp_all)), State.sampleFollowed, hc]
  dsimp only
  rw [if_pos husable, State.rechoose_counters _ _ fun he => hctr (by simp [he]), htaken]

/-- A sample that a cell refuses is counted, and nothing else. -/
theorem State.counter_sample_refused (hc : s.cell h g = some c) (hnot : ¬c.state.usable = true) :
    look (s.sample h g m k ctr).coverage.counters 3 = satInc (look s.coverage.counters 3) := by
  rw [State.sample_refused hc hnot]
  exact look_bump_self _ _

/-- Counters that are not a sample's stand. -/
theorem State.counter_sample_other {i : Fin 24} (hi : i ∉ [3, 4, 6, 9, 23]) (hctr : i ≠ ctr) :
    look (s.sample h g m k ctr).coverage.counters i = look s.coverage.counters i := by
  have hne : ∀ j ∈ [3, 4, 6, 9, 23], i ≠ j := fun j hj he => hi (he ▸ hj)
  rw [State.sample_countsOnly.2 i (fun hm => hi (by simp_all))]
  refine State.sampleFollowed_cases (P := fun u => look u.coverage.counters i = look s.coverage.counters i) rfl
    (look_bump_ne _ (hne 3 (by decide))) fun d => ?_
  rw [State.rechoose_counters _ _ (hne 6 (by decide)), State.sampleTaken]
  split
  · exact (look_bump_ne _ (hne 4 (by decide))).trans (look_bump_ne _ hctr)
  · exact look_bump_ne _ hctr

/-- A loss leaves the state and the survey of every head. -/
theorem State.loseBeam_stays {b : BeamNo} {r : LossReason} (i : HeadNo) : (s.head i).Stays ((s.loseBeam b g r).head i) := by
  rcases s.loseBeam_cases b g with hoff | ⟨hseg, hopen, hburst⟩ | ⟨hseg, hlater⟩ | ⟨hopen, hsteer⟩
  · rw [State.loseBeam_off hoff]
    exact ⟨rfl, rfl, rfl⟩
  · have hlost : (s.raiseLost b r).head i = s.head i := State.head_of_beamCtl (State.raiseLost_frame _ _ _).2.2.2.2.1 i
    rw [State.loseBeam_closes hseg hopen hburst, ← hlost]
    exact State.head_pushCmd_stays (s := (s.raiseLost b r).setBeam b _) _ i
  · rw [State.loseBeam_pends hseg hlater]
    exact ⟨rfl, rfl, rfl⟩
  · rw [State.loseBeam_other hopen hsteer]
    exact ⟨rfl, rfl, rfl⟩

theorem Head.Stays.trans {x y z : Head} (hxy : x.Stays y) (hyz : y.Stays z) : x.Stays z :=
  ⟨hyz.1.trans hxy.1, hyz.2.1.trans hxy.2.1, hyz.2.2.trans hxy.2.2⟩

theorem State.sample_stays (hctr : ctr ≠ 6) (i : HeadNo) : (s.head i).Stays ((s.sample h g m k ctr).head i) := by
  have hbefore : (s.sampleFollowed h g m k ctr).head i = s.head i := State.head_of_beamCtl (State.sampleFollowed_beamCtl hctr) i
  by_cases hretires : s.SampleRetires h g m k
  · rw [State.sample_of_retires hretires, ← hbefore]
    exact (State.loseBeam_stays i).trans (State.loseBeam_stays i)
  · rw [State.sample_of_not hretires, hbefore]
    exact ⟨rfl, rfl, rfl⟩

theorem State.waitList_sample (hctr : ctr ≠ 6) : (s.sample h g m k ctr).beamCtl.waitList = s.beamCtl.waitList := by
  by_cases hretires : s.SampleRetires h g m k
  · rw [State.sample_of_retires hretires, State.waitList_cellLost, State.sampleFollowed_beamCtl hctr]
  · rw [State.sample_of_not hretires, State.sampleFollowed_beamCtl hctr]

theorem State.sample_keepsAllBut (hctr : ctr ≠ 6) :
    s.KeepsAllBut (s.sample h g m k ctr) [.links, .coverage, .beamCtl, .pool, .downlink, .cranes, .reefer] :=
  ((State.sampleFollowed_keepsAllBut hctr).mono (by decide)).step State.sample_tail (by decide)

end

end Sys2Proof.Machine
end

section
/-! PROOFS. STEER_DONE and STEER_REFUSED (R58, R74, R76, R78, R79). -/

namespace Sys2Proof.Machine

/-! ### The state behind a refused STEER -/

section
variable {s : State} {h : HeadNo} {bs : List Byte} {o : Outstanding} {sd : Side} {f g : SegNo} {b : BeamNo} {c : Cell}

/-- A beam whose STEER was refused, before it serves. -/
def Beam.denied (x : Beam) : Beam :=
  { x with state := .idle, seg := none, holders := LinkSet.none, awaiting := [], oneShot := false, closePending := none }

/-- The requests of a beam as entries of the wait list. -/
def Beam.entries (x : Beam) (g : SegNo) : List WaitEntry := x.awaiting.map (fun q => { req := q, seg := g, oneShot := x.oneShot })

/-- The refused STEER counted and the beam IDLE. -/
def State.refusedIdle (a : State) (b : BeamNo) : State := (a.bumpCov 10).setBeam b (a.beam b).denied

/-- The beam's requests back on the list. -/
def State.refusedListed (a : State) (b : BeamNo) (ws : List WaitEntry) : State := (a.refusedIdle b).requeue ws

theorem State.steerRefused_eq (s : State) (b : BeamNo) (g : SegNo) : s.steerRefused b g =
    if (s.beam b).state = .steering then
      ((s.sample (headOf b) g 0 2 2).refusedListed b ((s.beam b).entries g)).becameIdle b
    else s.sample (headOf b) g 0 2 2 := rfl

/-- The answered STEER off the line and the refused sample taken. -/
def State.refusalSampled (s : State) (h : HeadNo) (g : SegNo) : State := (s.endOutstanding h).sample h g 0 2 2

/-- What the refused beam and its requests come to. -/
def State.refusalServed (s : State) (h : HeadNo) (b : BeamNo) (g : SegNo) : State :=
  if (s.beam b).state = .steering then
    ((s.refusalSampled h g).refusedListed b ((s.beam b).entries g)).becameIdle b else s.refusalSampled h g

/-- The state behind STEER_REFUSED, before the pool compares its marks. -/
def State.refusalEnded (s : State) (h : HeadNo) (b : BeamNo) (g : SegNo) : State := (s.refusalServed h b g).trySweep h

theorem exec_steerRefused (hcmd : o.cmd = .steer sd g) (hleft : o.leftToFinish = false) (hm : s.matched h bs = some (o, .refused)) :
    exec (.steerRefused h bs) s = .next (s.refusalEnded h (beamOf h sd) g).judge := by
  have hserved : (s.endOutstanding h).steerRefused (beamOf h sd) g = s.refusalServed h (beamOf h sd) g := by
    rw [State.steerRefused_eq, State.beam_endOutstanding, headOf_beamOf]
    rfl
  simp only [exec, execSteerRefused, hm, hcmd, State.answered_eq hleft, State.afterAnswer, hserved]
  rfl

theorem State.refusedIdle_keepsAllBut : s.KeepsAllBut (s.refusedIdle b) [.coverage, .beamCtl] := fun p hp => by
  cases p <;> simp_all [Part.same, State.refusedIdle]

theorem State.refusedListed_keepsAllBut {ws : List WaitEntry} :
    s.KeepsAllBut (s.refusedListed b ws) [.links, .coverage, .beamCtl] :=
  (State.refusedIdle_keepsAllBut.mono (by decide)).trans State.requeue_keepsAllBut

theorem State.refusalEnded_keepsAllBut :
    s.KeepsAllBut (s.refusalEnded h b g) [.links, .coverage, .beamCtl, .pool, .downlink, .cranes, .reefer] := by
  have hsampled : s.KeepsAllBut (s.refusalSampled h g) [.links, .coverage, .beamCtl, .pool, .downlink, .cranes, .reefer] :=
    (State.endOutstanding_keepsAllBut.mono (by decide)).trans (State.sample_keepsAllBut (by decide))
  have hserved : s.KeepsAllBut (s.refusalServed h b g) [.links, .coverage, .beamCtl, .pool, .downlink, .cranes, .reefer] := by
    unfold State.refusalServed
    split
    · exact (hsampled.step State.refusedListed_keepsAllBut (by decide)).step State.becameIdle_keepsAllBut (by decide)
    · exact hsampled
  exact hserved.step State.trySweep_keepsAllBut (by decide)

/-- Behind the sample only counters move of the coverage block. -/
theorem State.refusalEnded_countsOnly : (s.refusalSampled h g).CountsOnly (s.refusalEnded h b g) [9, 10, 12, 19, 21] := by
  have hserved : (s.refusalSampled h g).CountsOnly (s.refusalServed h b g) [9, 10, 12, 19, 21] := by
    unfold State.refusalServed
    split
    · have hidle : (s.refusalSampled h g).CountsOnly ((s.refusalSampled h g).refusedIdle b) [9, 10, 12, 19, 21] :=
        (State.CountsOnly.bumpCov _ (k := 10) (by decide)).right rfl
      exact (hidle.trans (State.CountsOnly.requeue.mono (by decide))).trans (State.CountsOnly.becameIdle.mono (by decide))
    · exact .of_coverage rfl
  exact hserved.trans ((State.CountsOnly.trySweep _ h).mono (by decide))

theorem State.cell_refusalEnded (i : HeadNo) (f : SegNo) : (s.refusalEnded h b g).cell i f = (s.refusalSampled h g).cell i f := by
  rw [State.cell, State.refusalEnded_countsOnly.cells.1, State.cell]

theorem State.cell_endOutstanding (i : HeadNo) (f : SegNo) : (s.endOutstanding h).cell i f = s.cell i f := by
  rw [State.cell, State.CountsOnly.endOutstanding.cells.1, State.cell]

/-- The refused sample's cell. -/
theorem State.cell_refusalSampled (hc : s.cell h g = some c) : (s.refusalSampled h g).cell h g =
    some (if c.state.usable then c.sampled 0 2 else c) := by
  rw [State.refusalSampled, State.cell_sample]
  exact State.cell_sampleFollowed ((State.cell_endOutstanding h g).trans hc) (by decide)

/-- Counters that are not a sample's stand at the refused one. -/
theorem State.counter_refusalSampled {i : Fin 24} (hi : i ∉ [2, 3, 4, 6, 9, 23]) :
    look (s.refusalSampled h g).coverage.counters i = look s.coverage.counters i := by
  rw [State.refusalSampled, State.counter_sample_other (fun hm => hi (by simp_all)) (fun he => hi (by simp [he]))]
  exact State.CountsOnly.endOutstanding.2 i fun hm => hi (by simp_all)

theorem State.counter_refusalEnded {i : Fin 24} (hi : i ∉ [9, 10, 12, 19, 21]) :
    look (s.refusalEnded h b g).coverage.counters i = look (s.refusalSampled h g).coverage.counters i :=
  State.refusalEnded_countsOnly.2 i hi

/-! ### A STEERING beam that is refused -/

/-- The beam IDLE and its requests listed, before it serves. -/
def State.refusalListed (s : State) (h : HeadNo) (b : BeamNo) (g : SegNo) : State :=
  (s.refusalSampled h g).refusedListed b ((s.beam b).entries g)

variable (hsteer : (s.beam b).state = .steering)

section
include hsteer

theorem State.refusalServed_steering : s.refusalServed h b g = (s.refusalListed h b g).becameIdle b := if_pos hsteer

theorem State.counter_refusalEnded_ten : look (s.refusalEnded h b g).coverage.counters 10 = satInc (look s.coverage.counters 10) := by
  rw [State.refusalEnded, (State.CountsOnly.trySweep _ h).2 10 (by decide), State.refusalServed_steering hsteer,
    State.CountsOnly.becameIdle.2 10 (by decide), State.refusalListed, State.refusedListed, State.CountsOnly.requeue.2 10 (by decide),
    ← State.counter_refusalSampled (s := s) (h := h) (g := g) (i := 10) (by decide)]
  exact look_bump_self _ _

end

theorem State.refusalListed_beamCtl : (s.refusalListed h b g).beamCtl = (((s.refusalSampled h g).refusedIdle b).setWaitList
    ((((s.refusalSampled h g).refusedIdle b).requeueAll ((s.beam b).entries g)).take 16)).beamCtl := State.requeue_beamCtl

/-- The list with the refused requests back on it, before its end is cut. -/
def State.refusalAll (s : State) (b : BeamNo) (g : SegNo) : List WaitEntry :=
  (((s.beam b).entries g).filter (fun w => decide (w.age s.clock.ms < s.param pWaitLimit))).foldl
    (fun l w => insertByAge s.clock.ms w l) s.beamCtl.waitList

theorem State.refusal_kept : ((s.refusalSampled h g).refusedIdle b).clock = s.clock ∧
    ((s.refusalSampled h g).refusedIdle b).settings = s.settings := by
  have hsampled : s.KeepsAllBut (s.refusalSampled h g) [.links, .coverage, .beamCtl, .pool, .downlink, .cranes, .reefer] :=
    (State.endOutstanding_keepsAllBut.mono (by decide)).trans (State.sample_keepsAllBut (by decide))
  have hidle := hsampled.step (State.refusedIdle_keepsAllBut (b := b)) (by decide)
  exact ⟨hidle .clock (by decide), hidle .settings (by decide)⟩

/-- Which requests are past the limit when a refusal brings them back. -/
theorem State.waitOver_refusedIdle (w : WaitEntry) : ((s.refusalSampled h g).refusedIdle b).waitOver w =
    decide (s.param pWaitLimit ≤ w.age s.clock.ms) := by
  obtain ⟨hclock, hsettings⟩ := State.refusal_kept (s := s) (h := h) (g := g) (b := b)
  rw [State.waitOver, State.param, hsettings, State.now, hclock]
  rfl

theorem State.requeueAll_refusedIdle :
    ((s.refusalSampled h g).refusedIdle b).requeueAll ((s.beam b).entries g) = s.refusalAll b g := by
  obtain ⟨hclock, -⟩ := State.refusal_kept (s := s) (h := h) (g := g) (b := b)
  have hlist : ((s.refusalSampled h g).refusedIdle b).beamCtl.waitList = s.beamCtl.waitList :=
    (State.waitList_sample (s := s.endOutstanding h) (by decide)).trans State.waitList_endOutstanding
  have hyoung : ∀ w : WaitEntry, (!((s.refusalSampled h g).refusedIdle b).waitOver w) =
      decide (w.age s.clock.ms < s.param pWaitLimit) := fun w => by
    rw [State.waitOver_refusedIdle, ← decide_not]
    exact decide_eq_decide.mpr Nat.not_le
  simp only [State.requeueAll, hyoung, hlist, State.now, hclock]
  rfl

theorem State.requeueLate_refusedIdle :
    ((s.refusalSampled h g).refusedIdle b).requeueLate ((s.beam b).entries g) =
      ((s.beam b).entries g).filter (fun w => decide (s.param pWaitLimit ≤ w.age s.clock.ms)) := by
  rw [State.requeueLate]
  exact List.filter_congr fun w _ => State.waitOver_refusedIdle w

theorem State.waitList_refusalListed : (s.refusalListed h b g).beamCtl.waitList = (s.refusalAll b g).take 16 := by
  rw [State.refusalListed_beamCtl, State.requeueAll_refusedIdle]
  rfl

theorem State.beam_refusalListed : (s.refusalListed h b g).beam b = ((s.refusalSampled h g).beam b).denied := by
  rw [State.beam_of_beamCtl State.refusalListed_beamCtl]
  exact State.beam_setBeam_self _ _ _

/-- The head of a refused STEER keeps its state and survey until its beam serves. -/
theorem State.head_refusalListed (i : HeadNo) : ((s.refusalListed h b g).head i).state = (s.head i).state ∧
    ((s.refusalListed h b g).head i).survey = (s.head i).survey := by
  have hsample : ((s.endOutstanding h).head i).Stays ((s.refusalSampled h g).head i) := State.sample_stays (by decide) i
  have hidle : ∀ (a : State) (ws : List WaitEntry), ((a.refusedIdle b).setWaitList ws).head i = a.head i := fun _ _ => rfl
  have hlist : (s.refusalListed h b g).head i = (s.refusalSampled h g).head i := by
    rw [State.head_of_beamCtl State.refusalListed_beamCtl, hidle]
  obtain ⟨hstate, hsurvey, -⟩ := hsample
  rw [hlist]
  by_cases hi : i = h
  · subst hi
    exact ⟨hstate.trans (s.endOutstanding_kept i).1, hsurvey.trans (s.endOutstanding_kept i).2.1⟩
  · rw [State.head_endOutstanding, if_neg hi] at hstate hsurvey
    exact ⟨hstate, hsurvey⟩

end

end Sys2Proof.Machine
end

section
/-! PROOFS. What a refused beam's requests are told, and what the beam then serves (R74, R76, R79). -/

namespace Sys2Proof.Machine

section
variable {s : State} {h : HeadNo} {sd : Side} {g : SegNo} {c : Cell} {b : BeamNo}

/-! ### What the requests are told -/

theorem State.refusalEnded_links (hsteer : (s.beam b).state = .steering) : (s.refusalEnded h b g).links =
    (s.refusalListed h b g).links := by
  rw [State.refusalEnded, (State.trySweep_frame _ _).2.1, State.refusalServed_steering hsteer, State.becameIdle_quiet]

theorem State.refusalListed_links {u : State} (hu : (s.refusalSampled h g).links = u.links) : (s.refusalListed h b g).links =
    ((((s.beam b).entries g).filter (fun w => decide (s.param pWaitLimit ≤ w.age s.clock.ms)) ++ (s.refusalAll b g).drop 16).foldl
      (fun v w => v.answer w.req.ref .noBeam) u).links := by
  have hidle : ((s.refusalSampled h g).refusedIdle b).links = u.links := hu
  rw [State.refusalListed, State.refusedListed, State.requeue_links hidle, State.requeueAll_refusedIdle, State.requeueLate_refusedIdle]

/-- The pool's comparison writes the links as its notices do. -/
theorem State.judge_links (s : State) : ∃ pool : LinkNo → List Notice, (∀ l : LinkNo, ∀ n ∈ pool l, n.ofPool = true) ∧
    s.judge.links = (s.tell pool).links :=
  ⟨fun l => (s.judge_link l).choose, fun l => (s.judge_link l).choose_spec.1,
    State.links_of_tells fun l => (s.judge_link l).choose_spec.2⟩

theorem State.segRec_refusalEnded (f : SegNo) : (s.refusalEnded h b g).segRec f = (s.refusalSampled h g).segRec f := by
  rw [State.segRec, State.refusalEnded_countsOnly.cells.2.1, State.segRec]

/-- The refused sample tells nothing where the class stays and the cell is not retired. -/
theorem State.refusalSampled_tells : ∃ before : LinkNo → List Notice, s.Tells (s.refusalSampled h g) before ∧
    (((s.refusalSampled h g).segRec g).cls = (s.segRec g).cls →
      (∀ c : Cell, (s.refusalSampled h g).cell h g = some c → c.state ≠ .retired) → ∀ l : LinkNo, before l = []) := by
  obtain ⟨ns, hns, hquiet⟩ := State.Tells.sample (ctr := 2) (s.endOutstanding h) h g 0 2 (by decide)
  have hsegs : (s.endOutstanding h).segRec g = s.segRec g := by
    rw [State.segRec, State.CountsOnly.endOutstanding.cells.2.1, State.segRec]
  refine ⟨ns, hns.links_left (State.endOutstanding_frame s h).2.1, fun hclass hcell => hquiet ?_ fun hretires => ?_⟩
  · rw [hsegs]
    exact hclass
  · obtain ⟨c, hc, husable, hretired⟩ := hretires
    refine hcell (c.sampled 0 2) ?_ hretired
    rw [State.refusalSampled, State.cell_sample, State.cell_sampleFollowed hc (by decide), if_pos husable]

theorem Counts.refusal (hsteer : (s.beam b).state = .steering) : Counts s.coverage.counters
    (s.refusalEnded h b g).coverage.counters 21 ((s.refusalAll b g).drop 16).length := by
  have hbefore : look ((s.refusalSampled h g).refusedIdle b).coverage.counters 21 = look s.coverage.counters 21 :=
    (look_bump_ne _ (by decide)).trans (State.counter_refusalSampled (by decide))
  have hlisted := (Counts.requeue ((s.refusalSampled h g).refusedIdle b) ((s.beam b).entries g)).left hbefore
  rw [State.requeueAll_refusedIdle] at hlisted
  refine hlisted.right ?_
  rw [State.refusalEnded, (State.CountsOnly.trySweep _ h).2 21 (by decide), State.refusalServed_steering hsteer,
    State.CountsOnly.becameIdle.2 21 (by decide)]
  rfl

/-! ### What the beam serves (R76, R79) -/

/-- A free beam's record: nothing but its state tells what the head's sweep made of it. -/
def Beam.Free (x : Beam) : Prop := (x.state = .idle ∨ x.state = .surveying) ∧ x.holders = LinkSet.none ∧ x.awaiting = [] ∧ x.seg = none

theorem Beam.free_denied (x : Beam) : x.denied.Free := ⟨.inl rfl, rfl, rfl, rfl⟩

theorem Beam.Free.with_state {x : Beam} (hx : x.Free) {st : BeamState} (hst : st = .idle ∨ st = .surveying) :
    Beam.Free { x with state := st } := ⟨hst, hx.2.1, hx.2.2.1, hx.2.2.2⟩

theorem State.free_trySweep {v : Side} (hfree : (s.beam (beamOf h v)).Free) : ((s.trySweep h).beam (beamOf h v)).Free := by
  rcases s.trySweep_beam h v with hsame | hsurvey
  · rwa [hsame]
  · rw [hsurvey]
    exact hfree.with_state (.inr rfl)

/-- The head may serve: it is READY and CURRENT. -/
def Head.Serving (x : Head) : Prop := x.state = .ready ∧ x.survey = .current

theorem State.serving_refusalListed (hb : headOf b = h) : ((s.refusalListed h b g).head (headOf b)).Serving ↔ (s.head h).Serving := by
  obtain ⟨hstate, hsurvey⟩ := State.head_refusalListed (s := s) (h := h) (g := g) (b := b) h
  rw [hb, Head.Serving, hstate, hsurvey]
  rfl

/-- A refused beam that finds nobody to serve. -/
theorem State.refusalEnded_waits (hsteer : (s.beam (beamOf h sd)).state = .steering)
    (hnone : ¬(s.head h).Serving ∨ ∀ w ∈ (s.refusalAll (beamOf h sd) g).take 16,
      (s.refusalListed h (beamOf h sd) g).cellUsable h w.seg = false) :
    ((s.refusalEnded h (beamOf h sd) g).beam (beamOf h sd)).Free ∧
    (s.refusalEnded h (beamOf h sd) g).beamCtl.waitList = (s.refusalAll (beamOf h sd) g).take 16 := by
  have hlist := State.waitList_refusalListed (s := s) (h := h) (b := beamOf h sd) (g := g)
  have hserving := State.serving_refusalListed (s := s) (g := g) (headOf_beamOf h sd)
  have hfree : ((s.refusalListed h (beamOf h sd) g).beam (beamOf h sd)).Free := by
    rw [State.beam_refusalListed]
    exact Beam.free_denied _
  rw [State.refusalEnded, State.refusalServed_steering hsteer]
  by_cases hcurrent : (s.head h).Serving
  · have hidle : (s.refusalListed h (beamOf h sd) g).becameIdle (beamOf h sd) = s.refusalListed h (beamOf h sd) g := by
      rw [State.becameIdle_current (hserving.mpr hcurrent).2]
      refine State.serveIdle_none fun w hw => ?_
      rw [hlist] at hw
      rw [headOf_beamOf]
      exact hnone.resolve_left (not_not.mpr hcurrent) w hw
    rw [hidle, State.trySweep_waitList]
    exact ⟨State.free_trySweep hfree, hlist⟩
  · rw [State.becameIdle_not (mt hserving.mp hcurrent), headOf_beamOf, State.trySweep_waitList, State.trySweep_waitList]
    exact ⟨State.free_trySweep (State.free_trySweep hfree), hlist⟩

/-- A refused beam that serves the first entry that it can. -/
theorem State.refusalEnded_serves {before after : List WaitEntry} {w : WaitEntry} (hsteer : (s.beam (beamOf h sd)).state = .steering)
    (hserving : (s.head h).Serving) (hlist : (s.refusalAll (beamOf h sd) g).take 16 = before ++ w :: after)
    (hbefore : ∀ v ∈ before, (s.refusalListed h (beamOf h sd) g).cellUsable h v.seg = false)
    (hw : (s.refusalListed h (beamOf h sd) g).cellUsable h w.seg = true) :
    (∃ holders : LinkSet, (s.refusalEnded h (beamOf h sd) g).beam (beamOf h sd) =
      { (s.refusalListed h (beamOf h sd) g).beam (beamOf h sd) with
        state := .steering, seg := some w.seg, oneShot := w.oneShot, holders := holders
        awaiting := w.req :: (w.company (before ++ after)).map (fun v => v.req) }) ∧
    (s.refusalEnded h (beamOf h sd) g).beamCtl.waitList = (before ++ after).filter (fun v => !(!w.oneShot && v.joins w.seg)) := by
  have hcurrent := (State.serving_refusalListed (s := s) (g := g) (headOf_beamOf h sd)).mpr hserving
  have hidle : ((s.refusalListed h (beamOf h sd) g).beam (beamOf h sd)).state = .idle := by
    rw [State.beam_refusalListed]
    rfl
  have hserves := State.serveIdle_serves (s := s.refusalListed h (beamOf h sd) g) (b := beamOf h sd) (before := before) (after := after)
    (w := w) ⟨hidle, hcurrent⟩ (State.waitList_refusalListed.trans hlist) (by rwa [headOf_beamOf]) (by rwa [headOf_beamOf])
  obtain ⟨hbeam, -, hwaits, -⟩ := hserves
  have hbusy : (((s.refusalListed h (beamOf h sd) g).serveIdle (beamOf h sd)).beam (beamOf h sd)).state ≠ .idle := by
    rw [hbeam]
    exact BeamState.noConfusion
  rw [State.refusalEnded, State.refusalServed_steering hsteer, State.becameIdle_current hcurrent.2, State.trySweep_busy hbusy]
  exact ⟨⟨_, hbeam⟩, hwaits⟩

/-- The cells that serving looks at are those behind the refusal. -/
theorem State.cellUsable_refusalListed (f : SegNo) : (s.refusalListed h b g).cellUsable h f = (s.refusalEnded h b g).cellUsable h f := by
  have hcell : (s.refusalListed h b g).cell h f = (s.refusalSampled h g).cell h f := by
    have hidle : (s.refusalSampled h g).CountsOnly ((s.refusalSampled h g).refusedIdle b) [10, 21] :=
      (State.CountsOnly.bumpCov _ (k := 10) (by decide)).right rfl
    have hlisted : (s.refusalSampled h g).CountsOnly (s.refusalListed h b g) [10, 21] :=
      hidle.trans (State.CountsOnly.requeue.mono (by decide))
    rw [State.cell, hlisted.cells.1, State.cell]
  rw [State.cellUsable, hcell, ← State.cell_refusalEnded (b := b), State.cellUsable]

end

end Sys2Proof.Machine
end

section
/-! PROOFS. A STEER's answer opens the beam or frees it (O32: R74, R76, R78, R79). -/

namespace Sys2Proof.Machine

section
variable {s : State} {h : HeadNo} {sd : Side} {g f : SegNo} {b : BeamNo} {v : LossReason}

/-! ### What STEER_DONE leaves -/

theorem State.outstanding_steerOpened : ((s.steerOpened h b).head h).outstanding = (s.head h).follower s.clock.ms := by
  obtain ⟨-, -, -, -, -, -, hout, -⟩ := s.endOutstanding_kept h
  rw [State.head_steerOpened, hout]

theorem State.openTakes_steerOpened (hb : headOf b = h) : (s.steerOpened h b).openTakes b f =
    if (s.beam b).oneShot = false ∧ (s.head h).survey ≠ .overdue ∧ (s.beam b).releaseDeferred = false then
      (s.beamCtl.waitList.filter (fun w => !w.oneShot && w.seg == f)).map (fun w => w.req.ref) else [] := by
  obtain ⟨-, hsurvey, -⟩ := s.endOutstanding_kept h
  rw [State.openTakes, State.beam_steerOpened, State.waitList_steerOpened, State.head_steerOpened, hb, hsurvey]
  rfl

theorem State.links_steerOpened_serveOpen (hseg : (s.beam (beamOf h sd)).seg = some f)
    (hpending : (s.beam (beamOf h sd)).closePending = none) :
    ((s.steerOpened h (beamOf h sd)).serveOpen (beamOf h sd)).links =
    (((s.beam (beamOf h sd)).awaiting.map OpenReq.ref ++ (s.steerOpened h (beamOf h sd)).openTakes (beamOf h sd) f).foldl
      (fun v q => v.reply q .ok (.opened (beamOf h sd) h f)) s).links := by
  have hbeam := State.beam_steerOpened (s := s) (h := h) (b := beamOf h sd)
  have hanswered := State.links_steerOpened (h := h) hseg
  rw [State.serveOpen_links (by rw [hbeam]; rfl) (by rw [hbeam]; exact hseg) (by rw [hbeam]; exact hpending),
    List.foldl_append, List.foldl_map]
  rw [headOf_beamOf] at hanswered ⊢
  exact foldl_links_congr (f := fun v (q : ReqRef) => v.reply q .ok (.opened (beamOf h sd) h f))
    (g := fun v (q : ReqRef) => v.reply q .ok (.opened (beamOf h sd) h f))
    (fun _ _ q hlinks => State.reply_links_congr hlinks q .ok _) _ hanswered

theorem State.steerOpened_opens (hb : b = beamOf h sd) (hseg : (s.beam b).seg = some f) (hpending : (s.beam b).closePending = none) :
    let t := (s.steerOpened h b).serveOpen b
    (t.beam b).state = .opened ∧ (t.beam b).awaiting = [] ∧ (t.beam b).seg = some f ∧
    (∀ l : LinkNo, look (s.beam b).holders l = true → look (t.beam b).holders l = true) ∧
    (t.head h).outstanding = (s.head h).follower s.clock.ms ∧
    t.links = (((s.beam b).awaiting.map OpenReq.ref ++ (s.steerOpened h b).openTakes b f).foldl
      (fun v q => v.reply q .ok (.opened b h f)) s).links ∧
    s.KeepsAllBut t [.links, .coverage, .beamCtl] := by
  have hbeam := State.beam_steerOpened (s := s) (h := h) (b := b)
  obtain ⟨hopen, hawaiting, hkeptSeg, hholders, hheads⟩ := State.serveOpen_beam (s := s.steerOpened h b) (b := b) (by rw [hbeam]; rfl)
  rw [hbeam] at hawaiting hkeptSeg hholders
  refine ⟨hopen, hawaiting, hkeptSeg.trans hseg, hholders, ?_, ?_, ?_⟩
  · rw [hheads, State.outstanding_steerOpened]
  · subst hb
    exact State.links_steerOpened_serveOpen hseg hpending
  · exact State.steerOpened_keepsAllBut.step State.serveOpen_keepsAllBut (by decide)

theorem State.steerOpened_closes (hb : headOf b = h) :
    let t := ((s.steerOpened h b).raiseLost b v).toClosing b
    (t.beam b).state = .closing ∧ (t.beam b).awaiting = [] ∧ (t.beam b).holders = LinkSet.none ∧
    (t.beam b).seg = (s.beam b).seg ∧ (t.beam b).closePending = none ∧
    (∀ f : SegNo, (s.beam b).seg = some f →
      t.links = (((s.beam b).awaiting.foldl (fun s q => s.reply q.ref .ok (.opened b h f)) s).tell (fun l =>
        if look (s.beam b).holders l = true then [.beamLost b (some f) v] else [])).links) ∧
    s.KeepsAllBut t [.links, .coverage, .beamCtl] := by
  subst hb
  have hbeam : (((s.steerOpened (headOf b) b).raiseLost b v).toClosing b).beam b =
      { (s.beam b).arrived.cleared .closing with seg := (s.beam b).seg } := by
    rw [State.beam_of_beamCtl State.toClosing_beamCtl, State.beam_setHead, State.beam_setBeam_self, State.beam_raiseLost,
      State.beam_steerOpened]
    rfl
  refine ⟨by rw [hbeam]; rfl, by rw [hbeam]; rfl, by rw [hbeam]; rfl, by rw [hbeam], by rw [hbeam]; rfl, fun f hseg => ?_, ?_⟩
  · have hanswered := State.links_steerOpened (h := headOf b) hseg
    have htold := State.links_of_tells (State.Tells.raiseLost (s.steerOpened (headOf b) b) b v)
    rw [State.beam_steerOpened] at htold
    rw [State.links_toClosing, htold, State.tell_links_congr hanswered]
    simp only [Beam.arrived, hseg]
  · exact (State.steerOpened_keepsAllBut.step (State.raiseLost_keepsAllBut v) (by decide)).step State.toClosing_keepsAllBut
      (by decide)

/-! ### What STEER_REFUSED leaves, the pool's comparison behind it -/

theorem State.cell_judge (s : State) (i : HeadNo) (f : SegNo) : s.judge.cell i f = s.cell i f := by
  rw [State.cell, (State.judge_frame s).2.2.2.2.1, State.cell]

theorem State.segRec_judge (s : State) (f : SegNo) : s.judge.segRec f = s.segRec f := by
  rw [State.segRec, (State.judge_frame s).2.2.2.2.1, State.segRec]

theorem State.beam_judge (s : State) (d : BeamNo) : s.judge.beam d = s.beam d :=
  State.beam_of_beamCtl (State.judge_frame s).2.2.2.2.2.1 d

/-- The notices before the replies are the refused sample's. -/
theorem State.refusalEnded_tells (hsteer : (s.beam b).state = .steering) : ∃ before pool : LinkNo → List Notice,
    (∀ l : LinkNo, ∀ n ∈ pool l, n.ofPool = true) ∧
    (((s.refusalEnded h b g).judge.segRec g).cls = (s.segRec g).cls →
      (∀ c : Cell, (s.refusalEnded h b g).judge.cell h g = some c → c.state ≠ .retired) → ∀ l : LinkNo, before l = []) ∧
    (s.refusalEnded h b g).judge.links =
      (((((s.beam b).entries g).filter (fun w => decide (s.param pWaitLimit ≤ w.age s.clock.ms)) ++
        (s.refusalAll b g).drop 16).foldl (fun v w => v.answer w.req.ref .noBeam) (s.tell before)).tell pool).links := by
  obtain ⟨before, hbefore, hquiet⟩ := State.refusalSampled_tells (s := s) (h := h) (g := g)
  obtain ⟨pool, hpool, hjudge⟩ := (s.refusalEnded h b g).judge_links
  refine ⟨before, pool, hpool, ?_, ?_⟩
  · rw [State.segRec_judge, State.segRec_refusalEnded, State.cell_judge, State.cell_refusalEnded]
    exact hquiet
  · rw [hjudge]
    refine State.tell_links_congr ?_ pool
    rw [State.refusalEnded_links hsteer]
    exact State.refusalListed_links (State.links_of_tells hbefore)

theorem State.counters_refusalEnded_judge : (∀ c : Cell, s.cell h g = some c → c.state = .good ∨ c.state = .weak →
      (s.refusalEnded h b g).judge.cell h g = some (c.sampled 0 2) ∧
      look (s.refusalEnded h b g).judge.coverage.counters 2 = satInc (look s.coverage.counters 2)) ∧
    (∀ c : Cell, s.cell h g = some c → c.state = .retired ∨ c.state = .marked →
      (s.refusalEnded h b g).judge.cell h g = some c ∧
      look (s.refusalEnded h b g).judge.coverage.counters 3 = satInc (look s.coverage.counters 3)) := by
  have hcells := fun c => (State.cell_endOutstanding (s := s) (h := h) h g).trans (b := s.cell h g) (c := some c)
  have hcount : ∀ i ∈ [2, 3], look (s.endOutstanding h).coverage.counters i = look s.coverage.counters i := fun i hi =>
    State.CountsOnly.endOutstanding.2 i fun hm => by simp_all
  refine ⟨fun c hc hgood => ?_, fun c hc hbad => ?_⟩
  · have husable : c.state.usable = true := CellState.usable_iff.mpr hgood
    rw [State.cell_judge, State.cell_refusalEnded, State.cell_refusalSampled hc, if_pos husable,
      (State.judge_frame _).2.2.2.2.1, State.counter_refusalEnded (by decide), State.refusalSampled,
      State.counter_sample_taken (hcells c hc) husable (by decide), hcount 2 (by decide)]
    exact ⟨rfl, rfl⟩
  · have hnot : ¬c.state.usable = true := by rcases hbad with hr | hm <;> simp [CellState.usable_iff, *]
    rw [State.cell_judge, State.cell_refusalEnded, State.cell_refusalSampled hc, if_neg hnot,
      (State.judge_frame _).2.2.2.2.1, State.counter_refusalEnded (by decide), State.refusalSampled,
      State.counter_sample_refused (hcells c hc) hnot, hcount 3 (by decide)]
    exact ⟨rfl, rfl⟩

/-- An entry that names a cell which no beam serves, said as the cell's record. -/
theorem State.not_usable_refusal {w : WaitEntry}
    (hnot : ¬∃ c : Cell, (s.refusalEnded h b g).judge.cell h w.seg = some c ∧ (c.state = .good ∨ c.state = .weak)) :
    (s.refusalListed h b g).cellUsable h w.seg = false := by
  rw [State.cell_judge, ← State.cellUsable_iff, ← State.cellUsable_refusalListed] at hnot
  exact Bool.not_eq_true _ ▸ hnot

end

/-- Settles O32. -/
theorem steerAnswersOpenOrFreeTheBeam : Obligations.SteerAnswersOpenOrFreeTheBeam := by
  unfold Obligations.SteerAnswersOpenOrFreeTheBeam
  intro h bs s o sd g hcmd hleft b x next
  have hb : headOf b = h := headOf_beamOf h sd
  have hnext : (s.head h).follower s.clock.ms = next := rfl
  refine ⟨fun hm => ⟨fun f hsteer hseg hpending => ?_, fun v hsteer hpending => ?_, fun hclosing => ?_⟩, fun hm => ?_⟩
  · refine ⟨_, exec_steerDone_opens hcmd hleft hm hsteer hpending, ?_⟩
    have hopens := State.steerOpened_opens (s := s) (h := h) (sd := sd) rfl hseg hpending
    rw [State.openTakes_steerOpened hb, hnext] at hopens
    exact hopens
  · exact ⟨_, exec_steerDone_closes hcmd hleft hm hsteer hpending, State.steerOpened_closes hb⟩
  · obtain ⟨-, -, -, -, -, -, hout, -⟩ := s.endOutstanding_kept h
    exact ⟨_, exec_steerDone_closing hcmd hleft hm hclosing, by rw [State.endOutstanding_beamCtl]; rfl, hout,
      State.endOutstanding_keepsAllBut⟩
  · obtain ⟨htaken, hrefused⟩ := State.counters_refusalEnded_judge (s := s) (h := h) (g := g) (b := b)
    refine ⟨_, exec_steerRefused hcmd hleft hm, htaken, hrefused, fun hsteer => ?_, ?_,
      State.refusalEnded_keepsAllBut.step (State.judge_keepsAllBut _) (by decide)⟩
    · rw [(State.judge_frame _).2.2.2.2.1]
      exact State.counter_refusalEnded_ten hsteer
    · intro age limit back late young usable current hsteer hsorted
      obtain ⟨hall, hsame⟩ := foldl_insertByAge (ws := young) hsorted
      have htold := State.refusalEnded_tells (h := h) (g := g) hsteer
      refine ⟨s.refusalAll b g, hall, hsame, htold, fun hsmall => ?_, fun hnone => ?_, fun before after w hcur hlist hbefore hw => ?_⟩
      · rw [(State.judge_frame _).2.2.2.2.1]
        exact Counts.refusal hsteer hsmall
      · have hwaits := State.refusalEnded_waits (s := s) (h := h) (sd := sd) (g := g) hsteer
          (hnone.imp id fun hno w hw => State.not_usable_refusal (hno w hw))
        obtain ⟨⟨hstate, hholders, hawaiting, hseg⟩, hlist⟩ := hwaits
        rw [State.beam_judge, (State.judge_frame _).2.2.2.2.2.1]
        exact ⟨hstate, hholders, hawaiting, hseg, hlist⟩
      · intro joins
        have hserves := State.refusalEnded_serves (s := s) (h := h) (sd := sd) (g := g) hsteer hcur hlist
          (fun v hv => State.not_usable_refusal (hbefore v hv)) (by
            rw [State.cellUsable_refusalListed, State.cellUsable_iff]
            obtain ⟨c, hc, hgood⟩ := hw
            exact ⟨c, (State.cell_judge _ _ _).symm.trans hc, hgood⟩)
        obtain ⟨⟨holders, hbeam⟩, hwaits⟩ := hserves
        have hjoins : (fun v : WaitEntry => !w.oneShot && v.joins w.seg) = joins := by
          funext v
          simp only [joins, WaitEntry.joins, Bool.and_assoc]
        rw [State.beam_judge, (State.judge_frame _).2.2.2.2.2.1, hbeam, hwaits, WaitEntry.company, hjoins]
        refine ⟨rfl, rfl, rfl, rfl, ?_⟩
        rw [← hjoins]

end Sys2Proof.Machine
end

section
/-! PROOFS. A HEARD entry past its kind's limit falls silent (O20: R28, R130, R131, R150). -/

namespace Sys2Proof.Machine

section
variable {s : State} {e : EntryNo} {c : CraneNo} {n : RackNo} {i : Fin 12}

/-! ### The registry's part -/

/-- The entry SILENT and counted. -/
def State.fellSilent (s : State) (e : EntryNo) (i : Fin 12) : State := (s.setEntry e { s.entry e with state := .silent }).bumpReg i

theorem State.entry_fellSilent (f : EntryNo) :
    (s.fellSilent e i).entry f = if f = e then { s.entry e with state := .silent } else s.entry f := State.entry_setEntry s e f _

theorem State.counter_fellSilent : look (s.fellSilent e i).registry.counters i = satInc (look s.registry.counters i) :=
  look_bump_self _ _

theorem State.fellSilent_keepsAllBut : s.KeepsAllBut (s.fellSilent e i) [.registry] := fun p hp => by
  cases p <;> simp_all [Part.same, State.fellSilent]

theorem State.goSilent_crane (hk : (s.entry e).kind = some .crane) (hc : (s.entry e).crane = some c) :
    s.goSilent e = (s.fellSilent e 9).deriveCondition c := by
  simp only [State.goSilent, hk, hc, State.fellSilent]

theorem State.goSilent_rack (hk : (s.entry e).kind = some .rack) (hn : (s.entry e).rack = some n) :
    s.goSilent e = (s.fellSilent e 10).rackSilent n := by
  simp only [State.goSilent, hk, hn, State.fellSilent]

/-! ### What SILENCE_EXPIRY does -/

theorem exec_silenceExpiry_waits (hover : s.silenceOver e = false) : exec (.silenceExpiry e) s = .next s := by
  simp only [exec, execSilenceExpiry, hover, Bool.false_eq_true, if_false]

theorem exec_silenceExpiry_over (hover : s.silenceOver e = true) : exec (.silenceExpiry e) s = .next (s.goSilent e).judge := by
  simp only [exec, execSilenceExpiry, hover, if_true]

theorem State.silenceOver_unheard (hstate : (s.entry e).state ≠ .heard) : s.silenceOver e = false := by
  unfold State.silenceOver
  split
  · next hs _ => exact absurd hs hstate
  · rfl

theorem State.silenceOver_of_heard {k : Kind} (hstate : (s.entry e).state = .heard) (hk : (s.entry e).kind = some k) :
    s.silenceOver e = decide (s.silenceLimit k ≤ elapsed (s.silenceClock k) (s.entry e).silenceFrom) := by
  simp only [State.silenceOver, hstate, hk]

/-! ### A crane that is LOST (R112, R130) -/

/-- The crane of an entry that falls silent: LOST, told, and its CONTROL frames dropped. -/
theorem State.fellSilent_lost {k : CraneRec} (hrec : s.craneRec c = some k) (he : k.entry = e) :
    (((s.fellSilent e i).deriveCondition c).craneRec c).map CraneRec.cond = some .lost ∧
    (k.cond ≠ .lost →
      ((s.fellSilent e i).deriveCondition c).downlink.waiting =
        s.downlink.waiting.filter (fun f => !(f.terminal == e && f.cls == .control)) ∧
      s.Tells ((s.fellSilent e i).deriveCondition c) (fun l =>
        (if look k.subs l || (s.link l).rights.command then
          [.craneState c k.cond .lost (s.entry e).seg (s.classOf (s.entry e).seg)] else []) ++
        resultsAt l ((s.downlink.waiting.filter (fun f => f.terminal == e && f.cls == .control)).map (fun f => (f, .linkLost))))) := by
  subst he
  have hentry : (s.fellSilent k.entry i).entry k.entry = { s.entry k.entry with state := .silent } :=
    (State.entry_fellSilent _).trans (if_pos rfl)
  have hcond : conditionOf ((s.fellSilent k.entry i).entry k.entry).state
      ((s.fellSilent k.entry i).classOf ((s.fellSilent k.entry i).entry k.entry).seg) = some .lost := by
    rw [hentry]
    rfl
  by_cases hlost : k.cond = .lost
  · rw [State.deriveCondition_same (s := s.fellSilent k.entry i) hrec (hcond.trans (congrArg some hlost.symm))]
    exact ⟨by rw [← hlost]; exact congrArg (Option.map CraneRec.cond) hrec, fun hne => absurd hlost hne⟩
  · have hne : Condition.lost ≠ k.cond := Ne.symm hlost
    have hdropped := State.deriveCondition_changed (s := s.fellSilent k.entry i) hrec hcond hne
    rw [if_pos rfl] at hdropped
    refine ⟨?_, fun _ => ⟨?_, ?_⟩⟩
    · rw [(State.deriveCondition_cranes (s := s.fellSilent k.entry i) hrec hcond hne).1, if_pos rfl]
      rfl
    · have hwaiting : (((s.fellSilent k.entry i).conditionTold c k .lost).bumpCrane 7).downlink.waiting = s.downlink.waiting := by
        simp [State.conditionTold, State.fellSilent]
      rw [hdropped, State.waiting_dropFrames, hwaiting]
    · have hwaiting : (((s.fellSilent k.entry i).conditionTold c k .lost).bumpCrane 7).downlink.waiting = s.downlink.waiting := by
        simp [State.conditionTold, State.fellSilent]
      have htold := State.Tells.dropFrames (((s.fellSilent k.entry i).conditionTold c k .lost).bumpCrane 7)
        (fun f => f.terminal == k.entry && f.cls == .control) .linkLost 20
      have hfirst := State.Tells.raiseWhere (((s.fellSilent k.entry i).setCraneRec c (some { k with cond := .lost })).bumpCrane 5)
        (fun l x => look k.subs l || x.rights.command)
        (.craneState c k.cond .lost ((s.fellSilent k.entry i).entry k.entry).seg
          ((s.fellSilent k.entry i).classOf ((s.fellSilent k.entry i).entry k.entry).seg))
      rw [hdropped]
      rw [hwaiting] at htold
      refine ((hfirst.links_left (s := s) rfl).trans (htold.links_left rfl)).congr fun l => ?_
      rw [hentry]
      rfl

/-! ### A rack that falls silent (R150) -/

theorem Slot.reasons_silenced {x : Slot} (hocc : x.occupied = true) (v : Silence) :
    (x.silenced v).reasons = x.reasons.underSilence v := by
  unfold Slot.silenced
  dsimp only
  split
  · rfl
  · next h => exact (not_not.mp fun hne => h ⟨hocc, hne⟩).symm

theorem Slot.Like.reasons {x y : Slot} (h : x.Like y) : y.reasons = x.reasons := by
  rw [h]

theorem State.reasons_setSilence {k : RackRec} {p : PlugNo} (hrec : s.rackRec n = some k) (hocc : (s.slot n p).occupied = true)
    (v : Silence) : ((s.setSilence n v).slot n p).reasons = (s.slot n p).reasons.underSilence v := by
  have hslot := s.setSilence_slot n v k hrec n p
  rw [if_pos rfl] at hslot
  exact hslot.reasons.trans (Slot.reasons_silenced hocc v)

/-- A rack whose segment is DARK goes DARK and polls nothing; another goes SILENT and has a POLL asked for. -/
theorem State.rackSilent_record {k : RackRec} (hrec : s.rackRec n = some k) : ∃ k' : RackRec, (s.rackSilent n).rackRec n = some k' ∧
    (s.rackClass k = some .dark → k'.silence = .dark ∧ k'.poll = .noPoll ∧ ∀ p : PlugNo, (s.slot n p).occupied = true →
      ((s.rackSilent n).slot n p).reasons = (s.slot n p).reasons.underSilence .dark) ∧
    (s.rackClass k ≠ some .dark → k'.silence = .silent ∧ k'.poll ≠ .noPoll ∧ ∀ p : PlugNo, (s.slot n p).occupied = true →
      ((s.rackSilent n).slot n p).reasons = (s.slot n p).reasons.underSilence .silent) := by
  have hset : ∀ v : Silence, (s.setSilence n v).rackRec n = some { k with silence := v } := fun v =>
    (State.rackRec_setSilence hrec v n).trans (if_pos rfl)
  unfold State.rackSilent
  rw [hrec]
  dsimp only
  by_cases hdark : s.rackClass k = some .dark
  · rw [if_pos hdark]
    have hpoll : (s.setSilence n .dark).setPoll n .noPoll =
        (s.setSilence n .dark).setRackRec n (some { k with silence := .dark, poll := .noPoll }) := by
      unfold State.setPoll
      rw [hset]
    rw [hpoll]
    exact ⟨_, (State.rackRec_setRackRec _ n n _).trans (if_pos rfl), fun _ => ⟨rfl, rfl, fun p hocc =>
      State.reasons_setSilence hrec hocc .dark⟩, fun hnot => absurd hdark hnot⟩
  · rw [if_neg hdark]
    obtain ⟨⟨q, hq, hrecs⟩, hslots⟩ := State.askPoll_records (hset .silent)
    refine ⟨_, (hrecs n).trans (if_pos rfl), fun hd => absurd hd hdark, fun _ => ⟨rfl, hq, fun p hocc => ?_⟩⟩
    rw [hslots]
    exact State.reasons_setSilence hrec hocc .silent

theorem State.rackSilent_keepsAllBut : s.KeepsAllBut (s.rackSilent n) [.links, .pool, .downlink, .cranes, .reefer] := fun p hp => by
  cases p <;> simp_all [Part.same]

/-! ### The pool's comparison behind it -/

theorem State.entry_judge (s : State) (f : EntryNo) : s.judge.entry f = s.entry f := by
  rw [State.entry, (State.judge_frame s).2.2.1, State.entry]

end

section
variable {s : State} {e : EntryNo} {n : RackNo} {c : CraneNo}

theorem exec_silenceExpiry_crane (hstate : (s.entry e).state = .heard) (hk : (s.entry e).kind = some .crane)
    (hc : (s.entry e).crane = some c) (hpast : s.param pCraneSilence ≤ elapsed s.clock.ms (s.entry e).silenceFrom) :
    exec (.silenceExpiry e) s = .next ((s.fellSilent e 9).deriveCondition c).judge := by
  rw [exec_silenceExpiry_over ((State.silenceOver_of_heard hstate hk).trans (decide_eq_true hpast)), State.goSilent_crane hk hc]

theorem exec_silenceExpiry_rack (hstate : (s.entry e).state = .heard) (hk : (s.entry e).kind = some .rack)
    (hn : (s.entry e).rack = some n) (hpast : s.param pRackSilence ≤ elapsed s.clock.sec (s.entry e).silenceFrom) :
    exec (.silenceExpiry e) s = .next ((s.fellSilent e 10).rackSilent n).judge := by
  rw [exec_silenceExpiry_over ((State.silenceOver_of_heard hstate hk).trans (decide_eq_true hpast)), State.goSilent_rack hk hn]

end

/-- Settles O20. -/
theorem aHeardEntryPastItsLimitFallsSilent : Obligations.AHeardEntryPastItsLimitFallsSilent := by
  unfold Obligations.AHeardEntryPastItsLimitFallsSilent
  refine fun e s => ⟨fun hstate => exec_silenceExpiry_waits (State.silenceOver_unheard hstate), fun c hstate hk hc =>
    ⟨fun hshort => ?_, fun hpast => ?_⟩, fun n hstate hk hn => ⟨fun hshort => ?_, fun hpast => ?_⟩⟩
  · exact exec_silenceExpiry_waits ((State.silenceOver_of_heard hstate hk).trans (decide_eq_false (Nat.not_le.mpr hshort)))
  · have hregistry : ((s.fellSilent e 9).deriveCondition c).judge.registry = (s.fellSilent e 9).registry := by
      rw [(State.judge_frame _).2.2.1]
      simp
    have hentry : ∀ f, ((s.fellSilent e 9).deriveCondition c).judge.entry f =
        if f = e then { s.entry e with state := .silent } else s.entry f := fun f => by
      rw [State.entry, hregistry]
      exact State.entry_fellSilent f
    refine ⟨_, exec_silenceExpiry_crane hstate hk hc hpast, (hentry e).trans (if_pos rfl), fun f hf => (hentry f).trans (if_neg hf),
      by rw [hregistry]; exact State.counter_fellSilent, fun k hrec he => ?_, ?_⟩
    · obtain ⟨hcond, hchanged⟩ := State.fellSilent_lost (i := 9) hrec he
      refine ⟨?_, fun hne => ?_⟩
      · rw [State.craneRec_of_cranes (State.judge_frame _).2.2.2.2.2.2.2.1]
        exact hcond
      · obtain ⟨hwaiting, htells⟩ := hchanged hne
        rw [(State.judge_frame _).2.2.2.2.2.2.1]
        refine ⟨hwaiting, fun l => ?_⟩
        obtain ⟨pool, hpool, hlink⟩ := ((s.fellSilent e 9).deriveCondition c).judge_link l
        refine ⟨[], pool, fun _ => rfl, hpool, ?_⟩
        rw [hlink, htells l, ← Link.raiseAll_append]
        simp
    · exact ((State.fellSilent_keepsAllBut.mono (by decide)).step (State.deriveCondition_keepsAllBut _ _) (by decide)).step
        (State.judge_keepsAllBut _) (by decide)
  · exact exec_silenceExpiry_waits ((State.silenceOver_of_heard hstate hk).trans (decide_eq_false (Nat.not_le.mpr hshort)))
  · have hregistry : ((s.fellSilent e 10).rackSilent n).judge.registry = (s.fellSilent e 10).registry := by
      rw [(State.judge_frame _).2.2.1, (State.rackSilent_frame _ _).2.2.1]
    have hentry : ∀ f, ((s.fellSilent e 10).rackSilent n).judge.entry f =
        if f = e then { s.entry e with state := .silent } else s.entry f := fun f => by
      rw [State.entry, hregistry]
      exact State.entry_fellSilent f
    refine ⟨_, exec_silenceExpiry_rack hstate hk hn hpast, (hentry e).trans (if_pos rfl), fun f hf => (hentry f).trans (if_neg hf),
      by rw [hregistry]; exact State.counter_fellSilent, fun k hrec he => ?_, ?_⟩
    · have hreefer : ((s.fellSilent e 10).rackSilent n).judge.reefer = ((s.fellSilent e 10).rackSilent n).reefer :=
        (State.judge_frame _).2.2.2.2.2.2.2.2.1
      have hclass : (s.fellSilent e 10).rackClass k = s.classOf (s.entry e).seg := by
        rw [State.rackClass, he, State.entry_fellSilent, if_pos rfl]
        rfl
      obtain ⟨k', hrec', hdark, hsilent⟩ := State.rackSilent_record (s := s.fellSilent e 10) hrec
      rw [hclass] at hdark hsilent
      simp only [State.slot_of_reefer hreefer, State.rackRec_of_reefer hreefer]
      exact ⟨k', hrec', hdark, hsilent⟩
    · exact ((State.fellSilent_keepsAllBut.mono (by decide)).step State.rackSilent_keepsAllBut (by decide)).step
        (State.judge_keepsAllBut _) (by decide)

end Sys2Proof.Machine
end

section
/-! PROOFS. DELIVER disposes of each frame by its address (O17: R26, R29). -/

namespace Sys2Proof.Machine

section
variable {s : State} {l : LinkNo} {a : Word} {f : Word × List Byte} {r : Request}

theorem exec_deliver {fs : List (Word × List Byte)} (hasks : s.Asks .deliver r) (hread : readDeliver r.body = some fs) :
    exec (.deliver r.ref.link) s = .next (((s.taken r).takeUplinks r.ref.link fs).1.reply r.ref .ok
      (.dispositions ((s.taken r).takeUplinks r.ref.link fs).2)) :=
  exec_asks_reading (c := .deliver)
    (f := fun u (fs : List (Word × List Byte)) =>
      (u.takeUplinks r.ref.link fs).1.reply r.ref .ok (.dispositions (u.takeUplinks r.ref.link fs).2))
    hasks (fun _ => rfl) hread

/-- The one frame of a DELIVER. -/
theorem exec_deliver_one (hasks : s.Asks .deliver r) (hread : readDeliver r.body = some [f]) :
    exec (.deliver r.ref.link) s = .next (((s.taken r).takeUplink r.ref.link f).1.reply r.ref .ok
      (.dispositions [((s.taken r).takeUplink r.ref.link f).2])) := exec_deliver hasks hread

/-! ### The disposition of a frame -/

/-- How a frame from an address is disposed of. -/
def State.dispositionOf (s : State) (a : Word) : Disposition :=
  match (s.registry.lookup a).bind (fun e => (s.entry e).kind) with
  | some .crane => .crane
  | some .rack => .rack
  | none => .unknown

/-- The map and the kinds of the entries are as they were. -/
def State.MapStays (s t : State) : Prop := t.registry.addrMap = s.registry.addrMap ∧ ∀ e : EntryNo, (t.entry e).kind = (s.entry e).kind

theorem State.MapStays.dispositionOf {t : State} (h : s.MapStays t) (w : Word) : t.dispositionOf w = s.dispositionOf w := by
  obtain ⟨hmap, hkinds⟩ := h
  have hlookup : t.registry.lookup w = s.registry.lookup w := by rw [Registry.lookup, hmap, Registry.lookup]
  simp only [State.dispositionOf, hlookup, hkinds]

theorem State.MapStays.of_roles {t : State} (h : rolesOf t.registry = rolesOf s.registry) : s.MapStays t :=
  ⟨congrArg (fun r => r.2.1) h, fun e => congrArg (fun r => r.2.2.2.2.1) (State.entry_of_roles h e)⟩

theorem State.MapStays.takeUnknown (s : State) (l : LinkNo) (w : Word) : s.MapStays (s.takeUnknown l w) := by
  obtain ⟨hentries, hmap, -⟩ := s.registry_takeUnknown l w
  exact ⟨hmap, fun e => by rw [State.entry, hentries, State.entry]⟩

/-- A registered address has a kind, and the number of its kind. -/
theorem State.registryAgrees.unit_of_lookup (h : s.registryAgrees) {w : Word} {e : EntryNo} (he : s.registry.lookup w = some e) :
    (∃ c : CraneNo, (s.entry e).kind = some .crane ∧ (s.entry e).crane = some c) ∨
    ∃ n : RackNo, (s.entry e).kind = some .rack ∧ (s.entry e).rack = some n := by
  have hlive := h.enrolled_of_lookup he
  obtain ⟨hsound, -⟩ := h
  obtain ⟨-, -, hnone, hcrane, hrack⟩ := hsound e
  cases hk : (s.entry e).kind with
  | none => exact absurd (hnone.mp hk).1 hlive
  | some k =>
    cases k with
    | crane => exact .inl ((Option.isSome_iff_exists.mp (hcrane.mp hk)).imp fun c hc => ⟨rfl, hc⟩)
    | rack => exact .inr ((Option.isSome_iff_exists.mp (hrack.mp hk)).imp fun n hn => ⟨rfl, hn⟩)

/-- A crane's frame. -/
theorem State.takeUplink_crane {e : EntryNo} {c : CraneNo} (he : s.registry.lookup f.1 = some e)
    (hk : (s.entry e).kind = some .crane) (hc : (s.entry e).crane = some c) : s.takeUplink l f =
    ((((s.bumpReg 0).setEntry e ((s.entry e).hear s.clock.ms)).takeTelemetry e c ((s.entry e).state != .heard) f.2).judge, .crane) := by
  simp only [State.takeUplink, he, hk, hc]
  rfl

/-- A rack's frame. -/
theorem State.takeUplink_rack {e : EntryNo} {n : RackNo} (he : s.registry.lookup f.1 = some e)
    (hk : (s.entry e).kind = some .rack) (hn : (s.entry e).rack = some n) :
    s.takeUplink l f = (((s.bumpReg 1).takeReport e n f.2).judge, .rack) := by
  simp only [State.takeUplink, he, hk, hn]

theorem State.takeUplink_unknown (hnone : s.registry.lookup f.1 = none) : s.takeUplink l f = (s.takeUnknown l f.1, .unknown) := by
  simp only [State.takeUplink, hnone]

theorem State.takeUplink_disposes (h : s.registryAgrees) (l : LinkNo) (f : Word × List Byte) :
    (s.takeUplink l f).2 = s.dispositionOf f.1 ∧ s.MapStays (s.takeUplink l f).1 := by
  cases he : s.registry.lookup f.1 with
  | none =>
    rw [State.takeUplink_unknown he]
    exact ⟨by simp only [State.dispositionOf, he, Option.bind_none], State.MapStays.takeUnknown s l _⟩
  | some e =>
    have hlive := h.enrolled_of_lookup he
    rcases h.unit_of_lookup he with ⟨c, hk, hc⟩ | ⟨n, hk, hn⟩
    · rw [State.takeUplink_crane he hk hc]
      refine ⟨by simp only [State.dispositionOf, he, Option.bind_some, hk], .of_roles ?_⟩
      simp only [State.judge_frame, State.roles_takeTelemetry]
      exact State.roles_setEntry (s := s.bumpReg 0) (Entry.role_hear (x := s.entry e) hlive _)
    · rw [State.takeUplink_rack he hk hn]
      refine ⟨by simp only [State.dispositionOf, he, Option.bind_some, hk], .of_roles ?_⟩
      simp only [State.judge_frame]
      exact State.roles_takeReport (s := s.bumpReg 1) hlive n f.2

theorem State.takeUplinks_dispose (l : LinkNo) (fs : List (Word × List Byte)) (s : State) (h : s.registryAgrees) :
    (s.takeUplinks l fs).2 = fs.map (fun f => s.dispositionOf f.1) ∧
    (s.takeUplinks l fs).1.registry.addrMap = s.registry.addrMap := by
  induction fs generalizing s with
  | nil => exact ⟨rfl, rfl⟩
  | cons f fs ih =>
    obtain ⟨hone, hstays⟩ := State.takeUplink_disposes h l f
    obtain ⟨hrest, hmap⟩ := ih _ (State.takeUplink_agrees h l f)
    refine ⟨?_, hmap.trans hstays.1⟩
    rw [State.takeUplinks, List.map_cons, hone, hrest]
    simp only [hstays.dispositionOf]

/-! ### A frame from an unknown address (R29) -/

theorem State.takeUnknown_counter : look (s.takeUnknown l a).registry.counters 2 = satInc (look s.registry.counters 2) := by
  unfold State.takeUnknown
  dsimp only
  split_ifs <;> simp [State.bumpReg]

theorem State.takeUnknown_keepsAllBut : s.KeepsAllBut (s.takeUnknown l a) [.links, .registry] := fun p hp => by
  cases p <;> simp_all [Part.same]

/-- A known source is noted again, and told to nobody. -/
theorem State.takeUnknown_again {u : UnknownRec} (hu : s.registry.unknowns.find? (fun v => v.addr == a) = some u) :
    (s.takeUnknown l a).registry.unknowns = s.registry.unknowns.filter (fun v => v.addr != a) ++
      [{ u with last := s.clock.ms, count := satInc u.count }] ∧ (s.takeUnknown l a).links = s.links := by
  have hnote : noteUnknown s.registry.unknowns a s.now = (s.registry.unknowns.filter (fun v => v.addr != a) ++
      [{ u with last := s.clock.ms, count := satInc u.count }], false, false) := by
    simp only [noteUnknown, hu, State.now]
  simp only [State.takeUnknown, hnote, Bool.false_eq_true, if_false]
  exact ⟨trivial, rfl⟩

/-- A new source joins the list, which holds 8, and is told to the links with the ADMIN right. -/
theorem State.takeUnknown_new (hnew : ∀ u ∈ s.registry.unknowns, u.addr ≠ a) :
    (s.takeUnknown l a).registry.unknowns = (if 8 ≤ s.registry.unknowns.length then s.registry.unknowns.tail else s.registry.unknowns) ++
      [{ addr := a, first := s.clock.ms, last := s.clock.ms, count := 1 }] ∧
    ∀ m : LinkNo, (s.takeUnknown l a).link m =
      if (s.link m).rights.admin then (s.link m).raise (.unknownTerminal a l) else s.link m := by
  have hnone : s.registry.unknowns.find? (fun v => v.addr == a) = none :=
    List.find?_eq_none.mpr fun u hu => by simpa using hnew u hu
  have hnote : noteUnknown s.registry.unknowns a s.now = ((if 8 ≤ s.registry.unknowns.length then s.registry.unknowns.tail else
      s.registry.unknowns) ++ [{ addr := a, first := s.clock.ms, last := s.clock.ms, count := 1 }], true,
      decide (8 ≤ s.registry.unknowns.length)) := by
    simp only [noteUnknown, hnone, State.now, decide_eq_true_eq]
  refine ⟨by rw [(s.registry_takeUnknown l a).2.2.2.2, hnote], fun m => ?_⟩
  have hlinks : ∀ u : State, u.links = s.links →
      (u.raiseWhere (fun _ k => k.rights.admin) (.unknownTerminal a l)).link m =
        if (s.link m).rights.admin then (s.link m).raise (.unknownTerminal a l) else s.link m := fun u hu => by
    have htells := State.Tells.raiseWhere u (fun _ k => k.rights.admin) (.unknownTerminal a l) m
    have hlink : u.link m = s.link m := by rw [State.link, hu, State.link]
    rw [htells]
    dsimp only
    rw [hlink]
    cases (s.link m).rights.admin <;> rfl
  simp only [State.takeUnknown, hnote, if_true]
  exact hlinks _ (by split_ifs <;> rfl)

end

/-- Settles O17. -/
theorem deliverDisposesOfEachFrameByItsAddress : Obligations.DeliverDisposesOfEachFrameByItsAddress := by
  unfold Obligations.DeliverDisposesOfEachFrameByItsAddress
  refine ⟨fun r s fs hagrees hasks hread => ?_, fun r s a bytes hasks hread hnone => ?_⟩
  · obtain ⟨hdisposed, hmap⟩ := State.takeUplinks_dispose r.ref.link fs (s.taken r) hagrees
    refine ⟨_, ?_, hmap, State.takeUplinks_keepsAllBut _ _ _⟩
    rw [exec_deliver hasks hread, hdisposed]
    rfl
  · have hone : (s.taken r).takeUplink r.ref.link (a, bytes) = ((s.taken r).takeUnknown r.ref.link a, .unknown) :=
      State.takeUplink_unknown hnone
    refine ⟨(s.taken r).takeUnknown r.ref.link a, ?_, State.takeUnknown_counter, fun u hu => State.takeUnknown_again hu,
      fun hnew => State.takeUnknown_new hnew, (State.registry_takeUnknown _ _ _).1, State.takeUnknown_keepsAllBut⟩
    rw [exec_deliver_one hasks hread, hone]

end Sys2Proof.Machine
end

section
/-! PROOFS. Copies offered to links (R99, R100), and a crane's telemetry (O18: R25, R27, R132, R133). -/

namespace Sys2Proof.Machine

/-! ### What the offering of copies depends on -/

/-- Two states offer copies alike: the same deliveries, links UP, parameters and clock. -/
def State.OffersAs (s t : State) : Prop :=
  s.SameDeliveries t ∧ upOf t.links = upOf s.links ∧ t.settings.params = s.settings.params ∧ t.clock = s.clock

section
variable {s t u : State} {l : LinkNo} {c : Content}

theorem State.OffersAs.refl (s : State) : s.OffersAs s := ⟨⟨rfl, rfl, rfl⟩, rfl, rfl, rfl⟩

theorem State.OffersAs.trans (h : s.OffersAs t) (g : t.OffersAs u) : s.OffersAs u := by
  obtain ⟨⟨hqueues, hdropped, hfree⟩, hup, hparams, hclock⟩ := h
  obtain ⟨⟨gqueues, gdropped, gfree⟩, gup, gparams, gclock⟩ := g
  exact ⟨⟨gqueues.trans hqueues, gdropped.trans hdropped, gfree.trans hfree⟩, gup.trans hup, gparams.trans hparams, gclock.trans hclock⟩

theorem State.OffersAs.offerCopy (h : s.OffersAs t) (l : LinkNo) (c : Content) : (s.offerCopy l c).OffersAs (t.offerCopy l c) := by
  obtain ⟨hsame, hup, hparams, hclock⟩ := h
  obtain ⟨hoffered, hups⟩ := State.offerCopy_same hsame (fun m => congrFun hup m) hparams hclock l c
  refine ⟨hoffered, funext hups, ?_, ?_⟩
  · rw [(State.offerCopy_frame t l c).2.2.2.2.2.2.2.2.2.1, (State.offerCopy_frame s l c).2.2.2.2.2.2.2.2.2.1, hparams]
  · rw [(State.offerCopy_frame t l c).1, (State.offerCopy_frame s l c).1, hclock]

theorem State.OffersAs.offerEach (h : s.OffersAs t) (ls : List LinkNo) (c : Content) :
    (s.offerEach ls c).OffersAs (t.offerEach ls c) := by
  induction ls generalizing s t with
  | nil => exact h
  | cons l ls ih => exact ih (h.offerCopy l c)

/-- Steps that offer a copy to the links chosen, and change nothing else that an offer depends on. -/
theorem State.OffersAs.foldl {f : State → LinkNo → State} {p : LinkNo → Bool} {R : State → Prop}
    (hf : ∀ (v : State) (m : LinkNo), R v → R (f v m) ∧ (if p m then v.offerCopy m c else v).OffersAs (f v m))
    (ls : List LinkNo) (hR : R t) (h : s.OffersAs t) : (s.offerEach (ls.filter p) c).OffersAs (ls.foldl f t) := by
  induction ls generalizing s t with
  | nil => exact h
  | cons m ls ih =>
    obtain ⟨hnext, hstep⟩ := hf t m hR
    rw [List.foldl_cons, List.filter_cons]
    by_cases hp : p m = true
    · rw [if_pos hp] at hstep ⊢
      exact ih hnext ((h.offerCopy m c).trans hstep)
    · rw [if_neg hp] at hstep ⊢
      exact ih hnext (h.trans hstep)

theorem State.OffersAs.judge (s : State) : s.OffersAs s.judge := by
  obtain ⟨hqueues, hfree, hdropped, -⟩ := s.judge_pool_keeps
  exact ⟨⟨hqueues, hdropped, hfree⟩, s.upOf_judge, by rw [(State.judge_frame s).2.2.2.2.2.2.2.2.2.1], (State.judge_frame s).1⟩

end

/-! ### A crane that has been heard (R129, R130) -/

section
variable {s : State} {c : CraneNo} {k : CraneRec}

theorem conditionOf_heard_some (x : Option SegClass) : ∃ v : Condition, conditionOf .heard x = some v ∧ v ≠ .lost := by
  rcases x with - | - | - | -
  · exact ⟨.degraded, rfl, by decide⟩
  · exact ⟨.up, rfl, by decide⟩
  · exact ⟨.degraded, rfl, by decide⟩
  · exact ⟨.degraded, rfl, by decide⟩

/-- A crane that is not LOST has its condition written and told; no frame goes. -/
theorem State.deriveCondition_heard (hrec : s.craneRec c = some k) (hheard : (s.entry k.entry).state = .heard) :
    (∃ v : Condition, conditionOf .heard (s.classOf (s.entry k.entry).seg) = some v ∧
      (s.deriveCondition c).craneRec c = some { k with cond := v }) ∧
    (∀ i : Fin 11, i ∉ [5, 6] → look (s.deriveCondition c).cranes.counters i = look s.cranes.counters i) ∧
    s.OffersAs (s.deriveCondition c) := by
  obtain ⟨v, hv, hlost⟩ := conditionOf_heard_some (s.classOf (s.entry k.entry).seg)
  have hcond := hv
  rw [← hheard] at hcond
  by_cases hsame : v = k.cond
  · rw [State.deriveCondition_same hrec (hcond.trans (congrArg some hsame))]
    exact ⟨⟨v, hv, by rw [hrec, hsame]⟩, fun _ _ => rfl, .refl s⟩
  · refine ⟨⟨v, hv, ?_⟩, fun i hi => ?_, ?_⟩
    · rw [(State.deriveCondition_cranes hrec hcond hsame).1, if_pos rfl]
    · rw [State.deriveCondition_changed hrec hcond hsame, if_neg hlost, State.conditionTold_cranes,
        look_bump_ne _ (fun he => hi (by simp [he])), look_bump_ne _ (fun he => hi (by simp [he]))]
    · have hpool : (s.deriveCondition c).pool = s.pool := by
        rw [State.deriveCondition_changed hrec hcond hsame, if_neg hlost]
        simp [State.conditionTold]
      exact ⟨⟨by rw [hpool], by rw [hpool], by rw [hpool]⟩, State.upOf_deriveCondition s c, by simp, by simp⟩

end

/-! ### The intake of a telemetry frame (R132) -/

section
variable {s : State} {e : EntryNo} {c : CraneNo} {k : CraneRec} {b : Bool} {g1 g0 : Byte} {payload : List Byte}

/-- The segment that a gantry value names, or else the one before (R25). -/
def placedSeg (gantry : Half) (old : Option SegNo) : Option SegNo :=
  if h : gantry.toNat < 64 then some ⟨gantry.toNat, h⟩ else old

theorem State.entry_placeCrane (g : Half) (f : EntryNo) : (s.placeCrane e g).entry f =
    if f = e then { s.entry e with seg := placedSeg g (s.entry e).seg } else s.entry f := by
  have hself : (s.entry e).seg = placedSeg g (s.entry e).seg →
      s.entry f = if f = e then { s.entry e with seg := placedSeg g (s.entry e).seg } else s.entry f := fun hsame => by
    rw [← hsame]
    split
    · next he => rw [he]
    · rfl
  unfold State.placeCrane
  by_cases hlow : g.toNat < 64
  · have hplaced : placedSeg g (s.entry e).seg = some ⟨g.toNat, hlow⟩ := dif_pos hlow
    rw [dif_pos hlow]
    split
    · next hsame => exact hself (hsame.trans hplaced.symm)
    · rw [hplaced]
      exact State.entry_setEntry s e f _
  · rw [dif_neg hlow]
    exact hself (by rw [placedSeg, dif_neg hlow])

theorem State.placeCrane_cranes (g : Half) : (s.placeCrane e g).cranes.records = s.cranes.records ∧
    ∀ i : Fin 11, i ≠ 3 → look (s.placeCrane e g).cranes.counters i = look s.cranes.counters i := by
  unfold State.placeCrane
  split
  · split <;> exact ⟨rfl, fun _ _ => rfl⟩
  · exact ⟨rfl, fun i hi => look_bump_ne _ hi⟩

/-- The frame recorded and the crane placed, before its condition is derived. -/
def State.telemetryPlaced (s : State) (e : EntryNo) (c : CraneNo) (k : CraneRec) (gantry : Half) (size : Nat) : State :=
  let truncated := decide (1008 < size)
  let s := (s.setCraneRec c (some (k.telemetered s.clock.ms gantry truncated (decide (64 ≤ gantry.toNat))))).bumpCrane 0
  let s := s.placeCrane e gantry
  if truncated then s.bumpCrane 2 else s

/-- The copy of a frame that the subscribers are offered. -/
def State.telemetryCopy (s : State) (e : EntryNo) (c : CraneNo) (gantry : Half) (payload : List Byte) : TelemetryCopy :=
  { crane := c, truncated := decide (1008 < payload.length), positionHeld := decide (64 ≤ gantry.toNat), seg := (s.entry e).seg
    time := s.clock.ms, gantry := gantry, received := payload.length, payload := payload.take 1008 }

theorem State.takeTelemetry_eq (hrec : s.craneRec c = some k) : s.takeTelemetry e c b (g1 :: g0 :: payload) =
    ((s.telemetryPlaced e c k (half g1 g0) payload.length).deriveCondition c).copyTelemetry k.subs
      (((s.telemetryPlaced e c k (half g1 g0) payload.length).deriveCondition c).telemetryCopy e c (half g1 g0) payload) := by
  unfold State.takeTelemetry
  rw [hrec]
  rfl

theorem State.takeTelemetry_short {bytes : List Byte} (hshort : bytes.length < 2) : s.takeTelemetry e c b bytes =
    if b then (s.bumpCrane 1).deriveCondition c else s.bumpCrane 1 := by
  unfold State.takeTelemetry
  split
  · simp only [List.length_cons] at hshort
    omega
  · rfl

theorem State.telemetryPlaced_placed (gantry : Half) (size : Nat) :
    (∀ f, (s.telemetryPlaced e c k gantry size).entry f =
      if f = e then { s.entry e with seg := placedSeg gantry (s.entry e).seg } else s.entry f) ∧
    (s.telemetryPlaced e c k gantry size).craneRec c =
      some (k.telemetered s.clock.ms gantry (decide (1008 < size)) (decide (64 ≤ gantry.toNat))) ∧
    look (s.telemetryPlaced e c k gantry size).cranes.counters 0 = satInc (look s.cranes.counters 0) ∧
    look (s.telemetryPlaced e c k gantry size).cranes.counters 4 = look s.cranes.counters 4 ∧
    s.OffersAs (s.telemetryPlaced e c k gantry size) := by
  generalize hu : (s.setCraneRec c (some (k.telemetered s.clock.ms gantry (decide (1008 < size))
    (decide (64 ≤ gantry.toNat))))).bumpCrane 0 = u
  have hplaced : s.telemetryPlaced e c k gantry size =
      if decide (1008 < size) then (u.placeCrane e gantry).bumpCrane 2 else u.placeCrane e gantry := by
    rw [← hu]
    rfl
  obtain ⟨hrecords, hcounters⟩ := State.placeCrane_cranes (s := u) (e := e) gantry
  have hcount : ∀ i : Fin 11, i ≠ 2 → i ≠ 3 →
      look (s.telemetryPlaced e c k gantry size).cranes.counters i = look u.cranes.counters i := fun i h2 h3 => by
    rw [hplaced, ← hcounters i h3]
    split
    · exact look_bump_ne _ h2
    · rfl
  have hrec : (s.telemetryPlaced e c k gantry size).craneRec c = u.craneRec c := by
    rw [hplaced, State.craneRec, State.craneRec, ← hrecords]
    split <;> rfl
  refine ⟨fun f => ?_, ?_, ?_, ?_, ?_⟩
  · have hentry : (s.telemetryPlaced e c k gantry size).entry f = (u.placeCrane e gantry).entry f := by
      rw [hplaced]
      split <;> rfl
    rw [hentry, State.entry_placeCrane, ← hu]
    rfl
  · rw [hrec, ← hu]
    exact (look_put _ _ _ _).trans (if_pos rfl)
  · rw [hcount 0 (by decide) (by decide), ← hu]
    exact look_bump_self _ _
  · rw [hcount 4 (by decide) (by decide), ← hu]
    exact look_bump_ne _ (by decide)
  · have hparts : u.pool = s.pool ∧ u.links = s.links ∧ u.settings = s.settings ∧ u.clock = s.clock := by
      rw [← hu]
      exact ⟨rfl, rfl, rfl, rfl⟩
    obtain ⟨hpool, hlinks, hsettings, hclock⟩ := hparts
    have hall : (s.telemetryPlaced e c k gantry size).pool = s.pool ∧ (s.telemetryPlaced e c k gantry size).links = s.links ∧
        (s.telemetryPlaced e c k gantry size).settings = s.settings ∧ (s.telemetryPlaced e c k gantry size).clock = s.clock := by
      rw [hplaced]
      split <;> simp [hpool, hlinks, hsettings, hclock]
    obtain ⟨gpool, glinks, gsettings, gclock⟩ := hall
    exact ⟨⟨by rw [gpool], by rw [gpool], by rw [gpool]⟩, by rw [glinks], by rw [gsettings], gclock⟩

/-! ### The copies (R133) -/

theorem State.copyTelemetry_offers (s : State) (subs : LinkSet) (x : TelemetryCopy) :
    (s.offerEach (allLinks.filter (fun l => look subs l)) (.telemetry x)).OffersAs (s.copyTelemetry subs x) ∧
    (s.copyTelemetry subs x).registry = s.registry ∧ (s.copyTelemetry subs x).cranes.records = s.cranes.records ∧
    (∀ i : Fin 11, i ≠ 4 → look (s.copyTelemetry subs x).cranes.counters i = look s.cranes.counters i) ∧
    Counts s.cranes.counters (s.copyTelemetry subs x).cranes.counters 4 (allLinks.filter (fun l => look subs l)).length := by
  have hone : ∀ (v : State) (l : LinkNo), ((v.offerCopy l (.telemetry x)).bumpCrane 4).cranes = (v.bumpCrane 4).cranes :=
    fun v l => by simp [State.bumpCrane]
  refine ⟨?_, ?_, ?_, fun i hi => ?_, ?_⟩
  · have hfold := State.OffersAs.foldl (c := .telemetry x) (f := fun v l => (v.offerCopy l (.telemetry x)).bumpCrane 4)
      (p := fun _ => true) (R := fun _ => True) (fun v l _ => ⟨trivial, ⟨⟨rfl, rfl, rfl⟩, rfl, rfl, rfl⟩⟩)
      (allLinks.filter (fun l => look subs l)) trivial (State.OffersAs.refl s)
    rwa [List.filter_true] at hfold
  · exact foldl_keeps State.registry (fun v l => (v.offerCopy l (.telemetry x)).bumpCrane 4) (fun v l => by simp) _ _
  · exact foldl_keeps (fun v : State => v.cranes.records) (fun v l => (v.offerCopy l (.telemetry x)).bumpCrane 4)
      (fun v l => by rw [hone]; rfl) _ _
  · exact foldl_keeps (fun v : State => look v.cranes.counters i) (fun v l => (v.offerCopy l (.telemetry x)).bumpCrane 4)
      (fun v l => by rw [hone]; exact look_bump_ne _ hi) _ _
  · have hfold := Counts.foldl (view := fun v : State => v.cranes.counters) (f := fun v l => (v.offerCopy l (.telemetry x)).bumpCrane 4)
      (k := 4) (n := fun _ => 1) (fun v l => (Counts.bump v.cranes.counters 4).right (by rw [hone]; rfl))
      (allLinks.filter (fun l => look subs l)) s
    rw [List.map_const', List.sum_replicate, smul_eq_mul, mul_one] at hfold
    exact hfold

end

end Sys2Proof.Machine
end

section
/-! PROOFS. Telemetry updates the crane and its entry (O18: R25, R27, R132, R133). -/

namespace Sys2Proof.Machine

section
variable {s : State} {r : Request} {e : EntryNo} {c : CraneNo} {k : CraneRec}

/-- The frame counted and its entry HEARD, before the crane unit takes it. -/
def State.uplinkHeard (s : State) (r : Request) (e : EntryNo) : State :=
  ((s.taken r).bumpReg 0).setEntry e ((s.entry e).hear s.clock.ms)

theorem State.entry_uplinkHeard (f : EntryNo) : (s.uplinkHeard r e).entry f =
    if f = e then (s.entry e).hear s.clock.ms else s.entry f := State.entry_setEntry ((s.taken r).bumpReg 0) e f _

theorem State.OffersAs.uplinkHeard : s.OffersAs (s.uplinkHeard r e) := ⟨⟨rfl, rfl, rfl⟩, rfl, rfl, rfl⟩

theorem State.uplinkHeard_keepsAllBut : (s.taken r).KeepsAllBut (s.uplinkHeard r e) [.registry] := fun p hp => by
  cases p <;> simp_all [Part.same, State.uplinkHeard]

theorem exec_deliver_telemetry {a : Word} {bytes : List Byte} (hasks : s.Asks .deliver r) (hread : readDeliver r.body = some [(a, bytes)])
    (he : s.registry.lookup a = some e) (hk : (s.entry e).kind = some .crane) (hc : (s.entry e).crane = some c) :
    exec (.deliver r.ref.link) s =
      .next ((((s.uplinkHeard r e).takeTelemetry e c ((s.entry e).state != .heard) bytes).judge).reply r.ref .ok
        (.dispositions [.crane])) := by
  have htake : (s.taken r).takeUplink r.ref.link (a, bytes) =
      (((s.uplinkHeard r e).takeTelemetry e c ((s.entry e).state != .heard) bytes).judge, .crane) :=
    State.takeUplink_crane he hk hc
  rw [exec_deliver_one hasks hread, htake]

/-! ### A frame too short for a gantry value -/

/-- A short frame is counted; the crane's condition follows a change of its entry's state. -/
theorem State.telemetry_short {bytes : List Byte} {b : Bool} (hrec : s.craneRec c = some k) (hheard : (s.entry k.entry).state = .heard)
    (hshort : bytes.length < 2) : (s.takeTelemetry e c b bytes).registry = s.registry ∧
    look (s.takeTelemetry e c b bytes).cranes.counters 1 = satInc (look s.cranes.counters 1) ∧
    ((s.takeTelemetry e c b bytes).craneRec c).map CraneRec.telemetryCount = some k.telemetryCount ∧
    s.OffersAs (s.takeTelemetry e c b bytes) := by
  have hbump : s.OffersAs (s.bumpCrane 1) := ⟨⟨rfl, rfl, rfl⟩, rfl, rfl, rfl⟩
  have hcount : look (s.bumpCrane 1).cranes.counters 1 = satInc (look s.cranes.counters 1) := look_bump_self _ _
  rw [State.takeTelemetry_short hshort]
  cases b
  · exact ⟨rfl, hcount, congrArg (Option.map CraneRec.telemetryCount) hrec, hbump⟩
  · obtain ⟨⟨v, -, hrecord⟩, hcounters, hoffers⟩ := State.deriveCondition_heard (s := s.bumpCrane 1) hrec hheard
    rw [if_pos rfl]
    refine ⟨(State.deriveCondition_keepsAllBut (s.bumpCrane 1) c) .registry (by decide), ?_, ?_, hbump.trans hoffers⟩
    · rw [hcounters 1 (by decide), hcount]
    · rw [hrecord]
      rfl

/-! ### A frame with a gantry value -/

/-- What a frame with a gantry value leaves of the entry, of the crane and of the deliveries. -/
theorem State.telemetry_taken {b : Bool} {g1 g0 : Byte} {payload : List Byte} (hrec : s.craneRec c = some k) (he : k.entry = e)
    (hheard : (s.entry e).state = .heard) :
    let t := s.takeTelemetry e c b (g1 :: g0 :: payload)
    let gantry := half g1 g0
    (∀ f, t.entry f = if f = e then { s.entry e with seg := placedSeg gantry (s.entry e).seg } else s.entry f) ∧
    (∃ v : Condition, conditionOf .heard (s.classOf (placedSeg gantry (s.entry e).seg)) = some v ∧
      t.craneRec c = some { k.telemetered s.clock.ms gantry (decide (1008 < payload.length)) (decide (64 ≤ gantry.toNat)) with cond := v }) ∧
    look t.cranes.counters 0 = satInc (look s.cranes.counters 0) ∧
    State.OffersAs (s.offerEach (allLinks.filter (fun l => look k.subs l)) (.telemetry
      { crane := c, truncated := decide (1008 < payload.length), positionHeld := decide (64 ≤ gantry.toNat)
        seg := placedSeg gantry (s.entry e).seg, time := s.clock.ms, gantry := gantry, received := payload.length
        payload := payload.take 1008 })) t ∧
    Counts s.cranes.counters t.cranes.counters 4 (allLinks.filter (fun l => look k.subs l)).length := by
  subst he
  intro t gantry
  obtain ⟨hentry, hplacedRec, hzero, hfour, hplaced⟩ :=
    State.telemetryPlaced_placed (s := s) (e := k.entry) (c := c) (k := k) gantry payload.length
  generalize hp : s.telemetryPlaced k.entry c k gantry payload.length = p at hentry hplacedRec hzero hfour hplaced
  have hself : p.entry k.entry = { s.entry k.entry with seg := placedSeg gantry (s.entry k.entry).seg } := (hentry _).trans (if_pos rfl)
  have hcoverage : p.coverage = s.coverage := by
    rw [← hp]
    unfold State.telemetryPlaced
    dsimp only
    split <;> simp
  obtain ⟨⟨v, hv, hrecord⟩, hcounters, hderived⟩ := State.deriveCondition_heard (s := p) hplacedRec (by
    change (p.entry k.entry).state = .heard
    rwa [hself])
  have hregistry : (p.deriveCondition c).registry = p.registry := (State.deriveCondition_keepsAllBut p c) .registry (by decide)
  have hbehind : ∀ f, (p.deriveCondition c).entry f = p.entry f := fun f => by rw [State.entry, hregistry, State.entry]
  have hcopy : (p.deriveCondition c).telemetryCopy k.entry c gantry payload =
      { crane := c, truncated := decide (1008 < payload.length), positionHeld := decide (64 ≤ gantry.toNat)
        seg := placedSeg gantry (s.entry k.entry).seg, time := s.clock.ms, gantry := gantry, received := payload.length
        payload := payload.take 1008 } := by
    obtain ⟨-, -, -, hclock⟩ := hplaced.trans hderived
    rw [State.telemetryCopy, hbehind, hself, hclock]
  have ht : t = (p.deriveCondition c).copyTelemetry k.subs ((p.deriveCondition c).telemetryCopy k.entry c gantry payload) := by
    rw [← hp]
    exact State.takeTelemetry_eq hrec
  obtain ⟨hoffers, hcopyRegistry, hcopyRecords, hcopyCounters, hcopies⟩ := State.copyTelemetry_offers (p.deriveCondition c) k.subs
    ((p.deriveCondition c).telemetryCopy k.entry c gantry payload)
  rw [← ht] at hoffers hcopyRegistry hcopyRecords hcopyCounters hcopies
  refine ⟨fun f => ?_, ⟨v, ?_, ?_⟩, ?_, ?_, ?_⟩
  · rw [State.entry, hcopyRegistry, hregistry]
    exact hentry f
  · have hseg : (p.entry k.entry).seg = placedSeg gantry (s.entry k.entry).seg := by rw [hself]
    have hclass : p.classOf (p.entry k.entry).seg = s.classOf (placedSeg gantry (s.entry k.entry).seg) := by
      rw [hseg]
      simp only [State.classOf, State.segRec, hcoverage]
    rw [← hclass]
    exact hv
  · rw [State.craneRec, hcopyRecords]
    exact hrecord
  · rw [hcopyCounters 0 (by decide), hcounters 0 (by decide), hzero]
  · rw [hcopy] at hoffers
    exact ((hplaced.trans hderived).offerEach _ _).trans hoffers
  · refine hcopies.left ?_
    rw [hcounters 4 (by decide), hfour]

/-- The crane's entry is HEARD and stands where the frame says, if it says so; the others are as they were. -/
theorem State.telemetry_entries {b : Bool} {bytes : List Byte} (hrec : s.craneRec c = some k) (he : k.entry = e) (f : EntryNo) :
    ((s.uplinkHeard r e).takeTelemetry e c b bytes).entry f = if f = e then
      { (s.entry e).hear s.clock.ms with seg := (((s.uplinkHeard r e).takeTelemetry e c b bytes).entry e).seg } else s.entry f := by
  have hself : (s.uplinkHeard r e).entry e = (s.entry e).hear s.clock.ms := (State.entry_uplinkHeard e).trans (if_pos rfl)
  have hheard : ((s.uplinkHeard r e).entry e).state = .heard := by
    rw [hself]
    rfl
  rcases Nat.lt_or_ge bytes.length 2 with hlen | hlen
  · obtain ⟨hregistry, -⟩ := State.telemetry_short (s := s.uplinkHeard r e) (e := e) (b := b) hrec (by rwa [he]) hlen
    have hstays : ∀ f, ((s.uplinkHeard r e).takeTelemetry e c b bytes).entry f = (s.uplinkHeard r e).entry f := fun f => by
      rw [State.entry, hregistry, State.entry]
    rw [hstays, hstays, hself]
    exact State.entry_uplinkHeard f
  · obtain ⟨g1, g0, payload, rfl⟩ : ∃ g1 g0 payload, bytes = g1 :: g0 :: payload := by
      rcases bytes with - | ⟨g1, - | ⟨g0, payload⟩⟩
      · cases hlen
      · exact absurd hlen (Nat.lt_irrefl 1)
      · exact ⟨g1, g0, payload, rfl⟩
    obtain ⟨hentry, -⟩ := State.telemetry_taken (s := s.uplinkHeard r e) (b := b) (g1 := g1) (g0 := g0) (payload := payload)
      hrec he hheard
    rw [hentry f, hentry e, if_pos rfl, hself]
    split
    · rfl
    · next hf => exact (State.entry_uplinkHeard f).trans (if_neg hf)

theorem placedSeg_named {gantry : Half} {old : Option SegNo} {g : SegNo} (h : gantry.toNat = g.val) : placedSeg gantry old = some g := by
  rw [placedSeg, dif_pos (h ▸ g.isLt)]
  exact congrArg some (Fin.ext h)

theorem placedSeg_held {gantry : Half} {old : Option SegNo} (h : 64 ≤ gantry.toNat) : placedSeg gantry old = old := by
  rw [placedSeg, dif_neg (Nat.not_lt.mpr h)]

theorem State.takeTelemetry_keepsAllBut (s : State) (e : EntryNo) (c : CraneNo) (b : Bool) (bytes : List Byte) :
    s.KeepsAllBut (s.takeTelemetry e c b bytes) [.links, .registry, .pool, .downlink, .cranes] := fun p hp => by
  cases p <;> simp_all [Part.same]

end

/-- Settles O18. -/
theorem telemetryUpdatesTheCraneAndItsEntry : Obligations.TelemetryUpdatesTheCraneAndItsEntry := by
  unfold Obligations.TelemetryUpdatesTheCraneAndItsEntry
  intro r s a e c k bytes hasks hread hlookup hkind hcrane hrec he
  have hself : (s.uplinkHeard r e).entry e = (s.entry e).hear s.clock.ms := (State.entry_uplinkHeard e).trans (if_pos rfl)
  have hheard : ((s.uplinkHeard r e).entry e).state = .heard := by
    rw [hself]
    rfl
  have hold : ((s.uplinkHeard r e).entry e).seg = (s.entry e).seg := by
    rw [hself]
    rfl
  generalize hb : ((s.entry e).state != TermState.heard) = b
  have hexec := exec_deliver_telemetry hasks hread hlookup hkind hcrane
  rw [hb] at hexec
  have hjudged : ∀ f, (((s.uplinkHeard r e).takeTelemetry e c b bytes).judge).entry f =
      ((s.uplinkHeard r e).takeTelemetry e c b bytes).entry f := State.entry_judge _
  have hcranes : (((s.uplinkHeard r e).takeTelemetry e c b bytes).judge).cranes =
      ((s.uplinkHeard r e).takeTelemetry e c b bytes).cranes := (State.judge_frame _).2.2.2.2.2.2.2.1
  have hoffered := State.OffersAs.judge ((s.uplinkHeard r e).takeTelemetry e c b bytes)
  have hshort := fun hlen : bytes.length < 2 => State.telemetry_short (s := s.uplinkHeard r e) (e := e) (b := b) hrec (by rwa [he]) hlen
  have htaken := fun (g1 g0 : Byte) (payload : List Byte) => State.telemetry_taken (s := s.uplinkHeard r e) (b := b) (g1 := g1)
    (g0 := g0) (payload := payload) hrec he hheard
  have hentries := State.telemetry_entries (s := s) (r := r) (b := b) (bytes := bytes) hrec he
  refine ⟨_, hexec, ?_, ?_, ?_, fun f hf => ?_, fun hlen => ?_, fun g1 g0 payload hbytes => ?_, ?_⟩
  · rw [hjudged, hentries, if_pos rfl]
    rfl
  · rw [hjudged, hentries, if_pos rfl]
    rfl
  · rw [hjudged, hentries, if_pos rfl]
    rfl
  · rw [hjudged, hentries, if_neg hf]
  · obtain ⟨hregistry, hcount, hrecord, hoffers⟩ := hshort hlen
    have hsame := (State.OffersAs.uplinkHeard.trans hoffers).trans hoffered
    rw [hjudged, hcranes, State.craneRec_of_cranes hcranes, State.entry, hregistry]
    exact ⟨hold, hcount, hrecord, hsame.1⟩
  · subst hbytes
    obtain ⟨hentry, ⟨v, hv, hrecord⟩, hzero, hoffers, hcopies⟩ := htaken g1 g0 payload
    have hseg : (((s.uplinkHeard r e).takeTelemetry e c b (g1 :: g0 :: payload)).entry e).seg =
        placedSeg (half g1 g0) (s.entry e).seg := by
      rw [hentry, if_pos rfl, hself]
      rfl
    rw [hold] at hv hoffers
    rw [hjudged, hcranes, State.craneRec_of_cranes hcranes, hseg]
    refine ⟨hzero, fun g hg => placedSeg_named hg, fun hheld => placedSeg_held hheld, _, hrecord, rfl, rfl, rfl, rfl, rfl, rfl, hv, ?_,
      hcopies⟩
    exact ((State.OffersAs.uplinkHeard.offerEach _ _).trans (hoffers.trans hoffered)).1
  · exact ((State.uplinkHeard_keepsAllBut.mono (by decide)).step (State.takeTelemetry_keepsAllBut _ _ _ _ _) (by decide)).step
      (State.judge_keepsAllBut _) (by decide)

end Sys2Proof.Machine
end

section
/-! PROOFS. What slots and alarm queue become follows from slots, alarm queue, parameters and clock (R146, R150, R163, R165). -/

namespace Sys2Proof.Machine

/-- Two states that agree in what the grading of slots depends on. -/
def State.GradesAs (s t : State) : Prop :=
  gradesOf t.reefer = gradesOf s.reefer ∧ t.settings.params = s.settings.params ∧ t.clock = s.clock

section
variable {s t u : State} {r : RackNo} {p : PlugNo}

theorem State.GradesAs.refl (s : State) : s.GradesAs s := ⟨rfl, rfl, rfl⟩

theorem State.GradesAs.trans (h : s.GradesAs t) (g : t.GradesAs u) : s.GradesAs u :=
  ⟨g.1.trans h.1, g.2.1.trans h.2.1, g.2.2.trans h.2.2⟩

theorem State.GradesAs.symm (h : s.GradesAs t) : t.GradesAs s := ⟨h.1.symm, h.2.1.symm, h.2.2.symm⟩

/-- Steps that write neither slots nor alarm queue, on both sides. -/
theorem State.GradesAs.around {v : State} (h : s.GradesAs t) (hs : s.GradesAs u) (ht : t.GradesAs v) : u.GradesAs v :=
  hs.symm.trans (h.trans ht)

theorem State.GradesAs.slot (h : s.GradesAs t) (i : RackNo) (j : PlugNo) : t.slot i j = s.slot i j := by
  have hslots : t.reefer.slots = s.reefer.slots := congrArg Prod.fst h.1
  rw [State.slot, hslots, State.slot]

theorem State.GradesAs.alarms (h : s.GradesAs t) : t.reefer.alarms = s.reefer.alarms := congrArg Prod.snd h.1

theorem State.GradesAs.setSlot (h : s.GradesAs t) (i : RackNo) (j : PlugNo) (x : Slot) :
    (s.setSlot i j x).GradesAs (t.setSlot i j x) := by
  obtain ⟨hgrades, hparams, hclock⟩ := h
  simp only [gradesOf, Prod.mk.injEq] at hgrades
  obtain ⟨hslots, halarms⟩ := hgrades
  exact ⟨by simp only [gradesOf, State.setSlot, hslots, halarms], hparams, hclock⟩

theorem State.GradesAs.setAlarms (h : s.GradesAs t) (as : List AlarmRec) : (s.setAlarms as).GradesAs (t.setAlarms as) := by
  obtain ⟨hgrades, hparams, hclock⟩ := h
  have hslots : t.reefer.slots = s.reefer.slots := congrArg Prod.fst hgrades
  exact ⟨by simp only [gradesOf, State.setAlarms, hslots], hparams, hclock⟩

theorem State.GradesAs.bumpReef (s : State) (n : Fin 25) : s.GradesAs (s.bumpReef n) := ⟨rfl, rfl, rfl⟩

/-- An alarm queue's verdict is written alike. -/
theorem State.GradesAs.rewritten (h : s.GradesAs t) (k : Consult) : (s.rewritten r p k).GradesAs (t.rewritten r p k) := by
  have hwritten := (h.setAlarms k.alarms).setSlot r p k.slot
  unfold State.rewritten
  cases k.displacement with
  | none => exact hwritten
  | some a =>
    dsimp only
    have hcounted := hwritten.around (.bumpReef _ 20) (.bumpReef _ 20)
    split
    · exact hcounted
    · rw [hcounted.slot]
      exact hcounted.setSlot _ _ _

/-- Beyond what is rewritten a consulting counts and raises. -/
theorem State.GradesAs.applyConsult_rewritten (s : State) (r : RackNo) (p : PlugNo) (k : Consult) :
    (s.rewritten r p k).GradesAs (s.applyConsult r p k) := by
  have hconsulted : (s.rewritten r p k).GradesAs (s.consulted r p k) := by
    unfold State.consulted
    dsimp only
    split <;> split <;> exact ⟨rfl, rfl, rfl⟩
  rw [State.applyConsult_eq]
  split
  · exact hconsulted.trans ⟨State.grades_raiseAlarm _ r p, by simp, by simp⟩
  · exact hconsulted

theorem State.GradesAs.applyConsult (h : s.GradesAs t) (k : Consult) : (s.applyConsult r p k).GradesAs (t.applyConsult r p k) :=
  (h.rewritten k).around (.applyConsult_rewritten s r p k) (.applyConsult_rewritten t r p k)

theorem State.GradesAs.regrade (h : s.GradesAs t) (r : RackNo) (p : PlugNo) (reading : Bool) :
    (s.regrade r p reading).GradesAs (t.regrade r p reading) := by
  unfold State.regrade
  rw [h.slot, h.alarms, State.nowSec, State.nowSec, h.2.2]
  exact h.applyConsult _

theorem State.GradesAs.silencePlug (h : s.GradesAs t) (r : RackNo) (v : Silence) (p : PlugNo) :
    (s.silencePlug r v p).GradesAs (t.silencePlug r v p) := by
  unfold State.silencePlug
  rw [h.slot]
  dsimp only
  split
  · exact (h.setSlot _ _ _).regrade _ _ _
  · exact h

theorem State.GradesAs.foldl {β : Type} {f : State → β → State} (hf : ∀ (v w : State) (b : β), v.GradesAs w → (f v b).GradesAs (f w b))
    (bs : List β) (h : s.GradesAs t) : (bs.foldl f s).GradesAs (bs.foldl f t) := by
  induction bs generalizing s t with
  | nil => exact h
  | cons b bs ih => exact ih (hf s t b h)

theorem State.GradesAs.setSilence {k k' : RackRec} (h : s.GradesAs t) (hs : s.rackRec r = some k) (ht : t.rackRec r = some k')
    (v : Silence) : (s.setSilence r v).GradesAs (t.setSilence r v) := by
  unfold State.setSilence
  rw [hs, ht]
  exact State.GradesAs.foldl (fun _ _ p g => g.silencePlug r v p) _ (h.around ⟨rfl, rfl, rfl⟩ ⟨rfl, rfl, rfl⟩)

theorem State.GradesAs.countReading (s : State) (x y : Slot) : s.GradesAs (s.countReading x y) :=
  ⟨State.grades_countReading s x y, by simp, by simp⟩

/-! ### A reading -/

/-- The slot that a reading is for, occupied. -/
def State.slotOpened (s : State) (r : RackNo) (p : PlugNo) : State :=
  if (s.slot r p).occupied then s else (s.setSlot r p { Slot.clear with occupied := true }).bumpReef 6

/-- A reading written to an occupied slot and counted, its grade not yet derived. -/
def State.readingWritten (s : State) (r : RackNo) (q : Reading) : State :=
  let y := (s.slot r q.plug).afterReading s.settings.params s.nowSec q
  (s.countReading (s.slot r q.plug) y).setSlot r q.plug y

theorem State.applyReading_empty (q : Reading) (hempty : q.plugState = .empty) : s.applyReading r q =
    if (s.slot r q.plug).occupied then s.releaseSlot r q.plug else s := if_pos hempty

theorem State.applyReading_read (q : Reading) (hempty : q.plugState ≠ .empty) : s.applyReading r q =
    ((s.slotOpened r q.plug).readingWritten r q).regrade r q.plug true := if_neg hempty

theorem State.GradesAs.slotOpened (h : s.GradesAs t) (r : RackNo) (p : PlugNo) : (s.slotOpened r p).GradesAs (t.slotOpened r p) := by
  unfold State.slotOpened
  rw [h.slot]
  split
  · exact h
  · exact (h.setSlot _ _ _).around (.bumpReef _ _) (.bumpReef _ _)

theorem State.GradesAs.readingWritten (h : s.GradesAs t) (r : RackNo) (q : Reading) :
    (s.readingWritten r q).GradesAs (t.readingWritten r q) := by
  unfold State.readingWritten
  rw [h.slot, State.nowSec, State.nowSec, h.2.1, h.2.2]
  exact (h.around (.countReading _ _ _) (.countReading _ _ _)).setSlot _ _ _

theorem State.GradesAs.releaseSlot (h : s.GradesAs t) (r : RackNo) (p : PlugNo) : (s.releaseSlot r p).GradesAs (t.releaseSlot r p) := by
  unfold State.releaseSlot
  rw [h.alarms]
  exact ((h.setAlarms _).setSlot _ _ _).around (.bumpReef _ _) (.bumpReef _ _)

theorem State.GradesAs.applyReading (h : s.GradesAs t) (r : RackNo) (q : Reading) :
    (s.applyReading r q).GradesAs (t.applyReading r q) := by
  by_cases hempty : q.plugState = .empty
  · rw [State.applyReading_empty q hempty, State.applyReading_empty q hempty, h.slot]
    split
    · exact h.releaseSlot _ _
    · exact h
  · rw [State.applyReading_read q hempty, State.applyReading_read q hempty]
    exact ((h.slotOpened _ _).readingWritten _ _).regrade _ _ _

end

end Sys2Proof.Machine
end

section
/-! PROOFS. What the readings of a report leave of the slots (R146, R147, R163, R167). -/

namespace Sys2Proof.Machine

/-! ### One reading on a slot -/

section
variable {x y : Slot} {ps : Vector Nat 19} {now : Time} {q : Reading}

/-- A reading writes its plug state. -/
theorem Slot.plugState_afterReading (x : Slot) (ps : Vector Nat 19) (now : Time) (q : Reading) :
    (x.afterReading ps now q).plugState = q.plugState := by
  have hcontrolled : ∀ y : Slot, (y.controlled q).plugState = y.plugState := fun y => by
    unfold Slot.controlled
    split <;> rfl
  have hdosed : ∀ y : Slot, (y.dosed ps now q).plugState = y.plugState := fun y => by
    unfold Slot.dosed Slot.judgeDose
    dsimp only
    split
    · unfold Slot.judgeExcursion Slot.addExcess
      dsimp only
      split <;> split <;> rfl
    · rfl
  rw [Slot.afterReading, hdosed, hcontrolled]
  rfl

/-- A slot behind one reading, its grade derived. -/
def Slot.readWith (x : Slot) (ps : Vector Nat 19) (now : Time) (q : Reading) : Slot :=
  if q.plugState = .empty then (if x.occupied then Slot.clear else x)
  else ((if x.occupied then x else { Slot.clear with occupied := true }).afterReading ps now q).regraded

theorem Slot.Like.occupied (h : x.Like y) : y.occupied = x.occupied := by
  rw [h]

theorem Slot.Like.readWith (h : x.Like y) (ps : Vector Nat 19) (now : Time) (q : Reading) :
    (x.readWith ps now q).Like (y.readWith ps now q) := by
  unfold Slot.readWith
  rw [h.occupied]
  split <;> split
  · exact .refl _
  · exact h
  · exact (h.afterReading ps now q).regraded
  · exact .refl _

/-- A reading other than EMPTY leaves its slot occupied, an EMPTY one leaves it free; the plug state is the reading's. -/
theorem Slot.readWith_written (x : Slot) (ps : Vector Nat 19) (now : Time) (q : Reading) :
    ((x.readWith ps now q).occupied = true ↔ q.plugState ≠ .empty) ∧
    (x.occupied = true ∨ q.plugState ≠ .empty → (x.readWith ps now q).plugState = q.plugState) := by
  unfold Slot.readWith
  by_cases hempty : q.plugState = .empty
  · rw [if_pos hempty]
    by_cases hocc : x.occupied = true
    · rw [if_pos hocc]
      exact ⟨⟨fun h => Bool.noConfusion h, fun h => absurd hempty h⟩, fun _ => hempty.symm⟩
    · rw [if_neg hocc]
      exact ⟨⟨fun h => absurd h hocc, fun h => absurd hempty h⟩, fun h => absurd (h.resolve_left hocc) (not_not.mpr hempty)⟩
  · rw [if_neg hempty]
    have hopened : (if x.occupied then x else { Slot.clear with occupied := true }).occupied = true := by
      split
      · assumption
      · rfl
    exact ⟨⟨fun _ => hempty, fun _ => (Slot.afterReading_flags _ ps now q).1.trans hopened⟩,
      fun _ => Slot.plugState_afterReading _ ps now q⟩

/-- A slot behind the reading of its plug, if there is one. -/
def Slot.reported (x : Slot) (ps : Vector Nat 19) (now : Time) : Option Reading → Slot
  | none => x
  | some q => x.readWith ps now q

end

/-! ### One reading on the state (R146, R167) -/

section
variable {v : State} {n : RackNo} {q : Reading}

theorem State.applyReading_free (hempty : q.plugState = .empty) (hocc : (v.slot n q.plug).occupied = false) :
    v.applyReading n q = v := by
  rw [State.applyReading_empty q hempty, if_neg (by simp [hocc])]

theorem AlarmRec.released_isOf (a : AlarmRec) (r : RackNo) (p : PlugNo) :
    (if a.isOf r p && !a.released then { a with released := true } else a) =
    if a.rack = r ∧ a.plug = p ∧ a.released = false then { a with released := true } else a :=
  if_congr (by simp [AlarmRec.isOf, and_assoc]) rfl rfl

theorem State.slot_other {s t : State} {x : Slot} (h : ∀ i j, t.slot i j = if i = n ∧ j = q.plug then x else s.slot i j) (m : RackNo)
    (p : PlugNo) (hne : (m, p) ≠ (n, q.plug)) : t.slot m p = s.slot m p := by
  rw [h, if_neg]
  rintro ⟨rfl, rfl⟩
  exact hne rfl

theorem State.applyReading_releases (hempty : q.plugState = .empty) (hocc : (v.slot n q.plug).occupied = true) :
    (v.applyReading n q).slot n q.plug = Slot.clear ∧
    (∀ (m : RackNo) (p : PlugNo), (m, p) ≠ (n, q.plug) → (v.applyReading n q).slot m p = v.slot m p) ∧
    (v.applyReading n q).reefer.alarms = v.reefer.alarms.map (fun a =>
      if a.rack = n ∧ a.plug = q.plug ∧ a.released = false then { a with released := true } else a) ∧
    v.KeepsAllBut (v.applyReading n q) [.reefer] := by
  have hslot : ∀ i j, (v.releaseSlot n q.plug).slot i j = if i = n ∧ j = q.plug then Slot.clear else v.slot i j := fun i j => by
    unfold State.releaseSlot
    rw [State.slot_bumpReef, State.slot_setSlot]
    rfl
  rw [State.applyReading_empty q hempty, if_pos hocc]
  refine ⟨(hslot _ _).trans (if_pos ⟨rfl, rfl⟩), State.slot_other hslot, ?_, fun p hp => by cases p <;> simp_all [Part.same]⟩
  simp only [← AlarmRec.released_isOf]
  rfl

theorem State.slot_slotOpened (p : PlugNo) (i : RackNo) (j : PlugNo) : (v.slotOpened n p).slot i j =
    if i = n ∧ j = p then (if (v.slot n p).occupied then v.slot n p else { Slot.clear with occupied := true }) else v.slot i j := by
  unfold State.slotOpened
  split
  · next hocc =>
    split
    · next h => rw [h.1, h.2]
    · rfl
  · rw [State.slot_bumpReef, State.slot_setSlot]

theorem State.slotOpened_keeps (v : State) (n : RackNo) (p : PlugNo) : (v.slotOpened n p).reefer.alarms = v.reefer.alarms ∧
    (v.slotOpened n p).reefer.racks = v.reefer.racks ∧ (v.slotOpened n p).reefer.interest = v.reefer.interest ∧
    v.KeepsAllBut (v.slotOpened n p) [.reefer] := by
  unfold State.slotOpened
  split
  · exact ⟨rfl, rfl, rfl, .refl _ _⟩
  · exact ⟨rfl, rfl, rfl, fun p hp => by cases p <;> simp_all [Part.same]⟩

/-- The counters that a reading moves are all that it moves of the rest of the unit. -/
theorem State.countReading_keeps (v : State) (x y : Slot) : (v.countReading x y).reefer.alarms = v.reefer.alarms ∧
    (v.countReading x y).reefer.racks = v.reefer.racks ∧ (v.countReading x y).reefer.interest = v.reefer.interest ∧
    v.KeepsAllBut (v.countReading x y) [.reefer] := by
  have hone : ∀ (b : Bool) (u : State) (k : Fin 25), (if b then u.bumpReef k else u).reefer.alarms = u.reefer.alarms ∧
      (if b then u.bumpReef k else u).reefer.racks = u.reefer.racks ∧
      (if b then u.bumpReef k else u).reefer.interest = u.reefer.interest := fun b u k => by
    cases b <;> exact ⟨rfl, rfl, rfl⟩
  have halarms := fun b u k => (hone b u k).1
  have hracks := fun b u k => (hone b u k).2.1
  have hinterest := fun b u k => (hone b u k).2.2
  exact ⟨by simp only [State.countReading, halarms], by simp only [State.countReading, hracks],
    by simp only [State.countReading, hinterest], fun p hp => by cases p <;> simp_all [Part.same]⟩

theorem State.slot_readingWritten (u : State) (n : RackNo) (q : Reading) (i : RackNo) (j : PlugNo) :
    (u.readingWritten n q).slot i j = if i = n ∧ j = q.plug then
      (u.slot n q.plug).afterReading u.settings.params u.nowSec q else u.slot i j := by
  unfold State.readingWritten
  dsimp only
  rw [State.slot_setSlot, State.countReading_slot]

/-- What a reading other than EMPTY writes before the grade is derived. -/
theorem State.readingWritten_written (v : State) (n : RackNo) (q : Reading) :
    let w := (v.slotOpened n q.plug).readingWritten n q
    w.slot n q.plug = (if (v.slot n q.plug).occupied then v.slot n q.plug else
      { Slot.clear with occupied := true }).afterReading v.settings.params v.clock.sec q ∧
    (∀ (m : RackNo) (p : PlugNo), (m, p) ≠ (n, q.plug) → w.slot m p = v.slot m p) ∧
    w.reefer.alarms = v.reefer.alarms ∧ w.reefer.racks = v.reefer.racks ∧ w.reefer.interest = v.reefer.interest ∧
    v.KeepsAllBut w [.reefer] := by
  intro w
  obtain ⟨halarms, hracks, hinterest, hkeeps⟩ := v.slotOpened_keeps n q.plug
  have hslots := State.slot_slotOpened (v := v) (n := n) q.plug
  have hself : (v.slotOpened n q.plug).slot n q.plug =
      if (v.slot n q.plug).occupied then v.slot n q.plug else { Slot.clear with occupied := true } :=
    (hslots _ _).trans (if_pos ⟨rfl, rfl⟩)
  have hread : ((v.slotOpened n q.plug).slot n q.plug).afterReading (v.slotOpened n q.plug).settings.params
      (v.slotOpened n q.plug).nowSec q = (if (v.slot n q.plug).occupied then v.slot n q.plug else
      { Slot.clear with occupied := true }).afterReading v.settings.params v.clock.sec q := by
    rw [hself, State.nowSec, hkeeps .settings (by decide), hkeeps .clock (by decide)]
  obtain ⟨calarms, cracks, cinterest, ckeeps⟩ := (v.slotOpened n q.plug).countReading_keeps
    ((v.slotOpened n q.plug).slot n q.plug) (((v.slotOpened n q.plug).slot n q.plug).afterReading
      (v.slotOpened n q.plug).settings.params (v.slotOpened n q.plug).nowSec q)
  have hw := (v.slotOpened n q.plug).slot_readingWritten n q
  refine ⟨((hw _ _).trans (if_pos ⟨rfl, rfl⟩)).trans hread, fun m p hne => ?_, calarms.trans halarms, cracks.trans hracks,
    cinterest.trans hinterest, ?_⟩
  · rw [State.slot_other hw m p hne, State.slot_other hslots m p hne]
  · refine (hkeeps.trans ckeeps).trans fun p hp => ?_
    cases p <;> simp_all [Part.same, w, State.readingWritten]

/-! ### The readings of a report, one for each plug -/

theorem State.applyReading_like (i : RackNo) (j : PlugNo) : (if i = n ∧ j = q.plug then
      (v.slot n q.plug).readWith v.settings.params v.clock.sec q else v.slot i j).Like ((v.applyReading n q).slot i j) :=
  v.applyReading_slot n q i j

theorem lastReading_plug {qs : List Reading} {p : PlugNo} {q : Reading} (h : lastReading qs p = some q) : q.plug = p :=
  beq_iff_eq.mp (List.find?_some (p := fun q : Reading => q.plug == p) h)

/-- Each slot of the rack is what the reading of its plug gives; of the others the alarm queue's flags alone change. -/
theorem State.readings_like {qs : List Reading} (ps : List PlugNo) (hps : ps.Nodup) (v : State) (i : RackNo) (j : PlugNo) :
    (if i = n ∧ j ∈ ps then (v.slot i j).reported v.settings.params v.clock.sec (lastReading qs j) else v.slot i j).Like
      (((ps.filterMap (lastReading qs)).foldl (fun u q => u.applyReading n q) v).slot i j) := by
  induction ps generalizing v with
  | nil =>
    rw [if_neg (by simp)]
    exact .refl _
  | cons p ps ih =>
    obtain ⟨hp, hnodup⟩ := List.nodup_cons.mp hps
    cases hlast : lastReading qs p with
    | none =>
      rw [List.filterMap_cons_none hlast]
      convert ih hnodup v using 1
      by_cases hj : j = p
      · subst hj
        simp [hlast, hp, Slot.reported]
      · simp [hj]
    | some q =>
      obtain rfl := lastReading_plug hlast
      rw [List.filterMap_cons_some hlast, List.foldl_cons]
      have hrest := ih hnodup (v.applyReading n q)
      have hone := State.applyReading_like (v := v) (n := n) (q := q) i j
      have hclock : (v.applyReading n q).clock = v.clock := (v.applyReading_frame n q).1
      have hsettings : (v.applyReading n q).settings = v.settings := (v.applyReading_frame n q).2.2.2.2.2.2.2.2.2.1
      rw [hclock, hsettings] at hrest
      refine Slot.Like.trans ?_ hrest
      by_cases hi : i = n
      · subst hi
        by_cases hj : j = q.plug
        · subst hj
          rw [if_pos ⟨rfl, rfl⟩] at hone
          rw [if_pos ⟨rfl, List.mem_cons_self⟩, if_neg (fun h => hp h.2), hlast]
          exact hone
        · rw [if_neg (fun h => hj h.2)] at hone
          by_cases hm : j ∈ ps
          · rw [if_pos ⟨rfl, List.mem_cons_of_mem _ hm⟩, if_pos ⟨rfl, hm⟩]
            cases lastReading qs j with
            | none => exact hone
            | some q' => exact hone.readWith _ _ _
          · rw [if_neg (fun h => (List.mem_cons.mp h.2).elim hj hm), if_neg (fun h => hm h.2)]
            exact hone
      · rw [if_neg (fun h => hi h.1)] at hone
        rw [if_neg (fun h => hi h.1), if_neg (fun h => hi h.1)]
        exact hone

end

end Sys2Proof.Machine
end

section
/-! PROOFS. What an accepted report leaves of the reefer unit beside the slots, and its digests (R145, R153, R154). -/

namespace Sys2Proof.Machine

/-! ### Interest and the report's own counters -/

/-- The links' interest and the counts of accepted reports and of digests are as they were. -/
def State.SlotsOnly (s t : State) : Prop := t.reefer.interest = s.reefer.interest ∧
  ∀ i ∈ ([2, 15] : List (Fin 25)), look t.reefer.counters i = look s.reefer.counters i

section
variable {s t u : State} {n : RackNo} {p : PlugNo} {q : Reading}

theorem State.SlotsOnly.refl (s : State) : s.SlotsOnly s := ⟨rfl, fun _ _ => rfl⟩

theorem State.SlotsOnly.trans (h : s.SlotsOnly t) (g : t.SlotsOnly u) : s.SlotsOnly u :=
  ⟨g.1.trans h.1, fun i hi => (g.2 i hi).trans (h.2 i hi)⟩

theorem State.SlotsOnly.bumpReef (s : State) {k : Fin 25} (hk : k ∉ ([2, 15] : List (Fin 25))) : s.SlotsOnly (s.bumpReef k) :=
  ⟨rfl, fun _ hi => look_bump_ne _ fun he => hk (he ▸ hi)⟩

theorem State.SlotsOnly.foldl {β : Type} {f : State → β → State} (hf : ∀ (v : State) (b : β), v.SlotsOnly (f v b)) (bs : List β)
    (s : State) : s.SlotsOnly (bs.foldl f s) := by
  induction bs generalizing s with
  | nil => exact .refl s
  | cons b bs ih => exact (hf s b).trans (ih _)

theorem State.SlotsOnly.applyConsult (s : State) (n : RackNo) (p : PlugNo) (k : Consult) : s.SlotsOnly (s.applyConsult n p k) := by
  refine ⟨(s.applyConsult_reefer n p k).2, fun i hi => ?_⟩
  have hne : ∀ j : Fin 25, j ∉ ([2, 15] : List (Fin 25)) → i ≠ j := fun j hj he => hj (he ▸ hi)
  rw [State.counter_applyConsult, if_neg (fun h => hne 18 (by decide) h.2), s.counter_consulted n p k (hne 19 (by decide))
    (hne 21 (by decide)), State.counters_rewritten]
  split
  · exact look_bump_ne _ (hne 20 (by decide))
  · rfl

theorem State.SlotsOnly.regrade (s : State) (n : RackNo) (p : PlugNo) (b : Bool) : s.SlotsOnly (s.regrade n p b) :=
  .applyConsult s n p _

theorem State.SlotsOnly.silencePlug (s : State) (n : RackNo) (v : Silence) (p : PlugNo) : s.SlotsOnly (s.silencePlug n v p) := by
  have hset : ∀ x : Slot, s.SlotsOnly (s.setSlot n p x) := fun _ => ⟨rfl, fun _ _ => rfl⟩
  unfold State.silencePlug
  dsimp only
  split
  · exact (hset _).trans (.regrade _ n p false)
  · exact .refl s

theorem State.SlotsOnly.setSilence (s : State) (n : RackNo) (v : Silence) : s.SlotsOnly (s.setSilence n v) := by
  unfold State.setSilence
  split
  · exact .refl s
  · next k _ =>
    have hset : s.SlotsOnly (s.setRackRec n (some { k with silence := v })) := ⟨rfl, fun _ _ => rfl⟩
    exact hset.trans (.foldl (f := fun u p => u.silencePlug n v p) (fun u p => .silencePlug u n v p) _ _)

theorem State.SlotsOnly.setPoll (s : State) (n : RackNo) (v : PollState) : s.SlotsOnly (s.setPoll n v) := by
  unfold State.setPoll
  split <;> exact ⟨rfl, fun _ _ => rfl⟩

theorem State.SlotsOnly.countReading (s : State) (x y : Slot) : s.SlotsOnly (s.countReading x y) := by
  refine ⟨(s.countReading_keeps x y).2.2.1, fun i hi => ?_⟩
  have hone : ∀ (b : Bool) (v : State) (k : Fin 25), k ∉ ([2, 15] : List (Fin 25)) →
      look (if b then v.bumpReef k else v).reefer.counters i = look v.reefer.counters i := fun b v k hk => by
    cases b
    · rfl
    · exact (State.SlotsOnly.bumpReef v hk).2 i hi
  simp only [State.countReading]
  rw [hone _ _ 17 (by decide), hone _ _ 16 (by decide), hone _ _ 12 (by decide), hone _ _ 11 (by decide), hone _ _ 10 (by decide),
    hone _ _ 10 (by decide), hone _ _ 9 (by decide), hone _ _ 9 (by decide), hone _ _ 8 (by decide)]

theorem State.SlotsOnly.applyReading (s : State) (n : RackNo) (q : Reading) : s.SlotsOnly (s.applyReading n q) := by
  have hset : ∀ (v : State) (x : Slot), v.SlotsOnly (v.setSlot n q.plug x) := fun _ _ => ⟨rfl, fun _ _ => rfl⟩
  by_cases hempty : q.plugState = .empty
  · rw [State.applyReading_empty q hempty]
    split
    · have hreleased : s.SlotsOnly ((s.setAlarms (s.reefer.alarms.map (fun a =>
          if a.isOf n q.plug && !a.released then { a with released := true } else a))).setSlot n q.plug Slot.clear) :=
        ⟨rfl, fun _ _ => rfl⟩
      exact hreleased.trans (.bumpReef _ (by decide))
    · exact .refl s
  · have hopened : s.SlotsOnly (s.slotOpened n q.plug) := by
      unfold State.slotOpened
      split
      · exact .refl s
      · exact (hset _ _).trans (.bumpReef _ (by decide))
    rw [State.applyReading_read q hempty]
    exact (hopened.trans ((State.SlotsOnly.countReading _ _ _).trans (hset _ _))).trans (.regrade _ _ _ _)

/-! ### Rack records -/

theorem State.applyReading_racks (s : State) (n : RackNo) (q : Reading) : (s.applyReading n q).reefer.racks = s.reefer.racks := by
  by_cases hempty : q.plugState = .empty
  · rw [State.applyReading_empty q hempty]
    split <;> rfl
  · rw [State.applyReading_read q hempty, State.regrade_racks]
    exact (s.readingWritten_written n q).2.2.2.1

/-- An accepted report's record of its rack, counted. -/
def RackRec.accept (k : RackRec) (now : Time) : RackRec :=
  { k with silence := .notSilent, poll := (if k.silence = .notSilent then k.poll else .noPoll),
           accepted := satInc k.accepted, lastAcceptance := some now }

theorem State.rackRec_endSilence {k : RackRec} (hrec : s.rackRec n = some k) (m : RackNo) : (s.endSilence n k).rackRec m =
    if m = n then some { k with silence := .notSilent, poll := if k.silence = .notSilent then k.poll else .noPoll } else s.rackRec m := by
  unfold State.endSilence
  by_cases hquiet : k.silence = .notSilent
  · rw [if_pos hquiet, if_pos hquiet, ← hquiet]
    split
    · next hm => rw [hm, hrec]
    · rfl
  · have hset := State.rackRec_setSilence hrec .notSilent
    have hself : (s.setSilence n .notSilent).rackRec n = some { k with silence := .notSilent } := (hset n).trans (if_pos rfl)
    have hpoll : (s.setSilence n .notSilent).setPoll n .noPoll =
        (s.setSilence n .notSilent).setRackRec n (some { k with silence := .notSilent, poll := .noPoll }) := by
      unfold State.setPoll
      rw [hself]
    rw [if_neg hquiet, if_neg hquiet, hpoll, State.rackRec_setRackRec]
    split
    · rfl
    · next hm => rw [hset, if_neg hm]

theorem State.rackRec_noteAccepted {k : RackRec} (hrec : s.rackRec n = some k) (m : RackNo) : (s.noteAccepted n).rackRec m =
    if m = n then some { k with accepted := satInc k.accepted, lastAcceptance := some s.clock.sec } else s.rackRec m := by
  unfold State.noteAccepted
  rw [hrec]
  exact State.rackRec_setRackRec _ _ _ _

end

end Sys2Proof.Machine
end

section
/-! PROOFS. Which links a digest is offered to (R153, R154). -/

namespace Sys2Proof.Machine

/-- Steps that agree in every state of a kind that they keep agree over a list. -/
theorem foldl_eq_of_invariant {α β : Type} {R : α → Prop} {f g : α → β → α} (h : ∀ (v : α) (b : β), R v → f v b = g v b ∧ R (g v b))
    (bs : List β) {a : α} (ha : R a) : bs.foldl f a = bs.foldl g a := by
  induction bs generalizing a with
  | nil => rfl
  | cons b bs ih =>
    obtain ⟨hsame, hnext⟩ := h a b ha
    rw [List.foldl_cons, List.foldl_cons, hsame]
    exact ih hnext

theorem sum_map_ite_one {β : Type} (p : β → Bool) (bs : List β) : (bs.map (fun b => if p b then 1 else 0)).sum = (bs.filter p).length := by
  induction bs with
  | nil => rfl
  | cons b bs ih =>
    rw [List.map_cons, List.sum_cons, ih, List.filter_cons]
    cases p b
    · exact Nat.zero_add _
    · exact Nat.add_comm _ _

section
variable {s w : State} {n : RackNo} {d : Digest} {change : Bool}

/-- A link is offered a digest: it is UP, it covers the rack, and its mode calls for one. -/
def State.isServed (s : State) (n : RackNo) (change : Bool) (l : LinkNo) : Bool :=
  (s.link l).up && s.covers l n && wantsDigest (look s.reefer.interest l).mode s.pool.paused change

/-- A link that takes all digests is not sent one while the pool is paused. -/
def State.isWithheld (s : State) (n : RackNo) (change : Bool) (l : LinkNo) : Bool :=
  (s.link l).up && s.covers l n && !wantsDigest (look s.reefer.interest l).mode s.pool.paused change &&
    (look s.reefer.interest l).mode == .all

/-- What one link is offered, the links that are served being known. -/
def State.digestStep (d : Digest) (served withheld : LinkNo → Bool) (v : State) (l : LinkNo) : State :=
  if served l then (v.bumpReef 15).offerCopy l (.digest d) else if withheld l then v.bumpPool 12 else v

theorem State.digestStep_reefer (d : Digest) (p q : LinkNo → Bool) (v : State) (l : LinkNo) : (v.digestStep d p q l).reefer =
    if p l then (v.bumpReef 15).reefer else v.reefer := by
  unfold State.digestStep
  split
  · exact (State.offerCopy_frame _ _ _).2.2.2.2.2.2.2.2.1
  · split <;> rfl

theorem State.offerDigests_eq (s : State) (n : RackNo) (d : Digest) (change : Bool) : s.offerDigests n d change =
    allLinks.foldl (State.digestStep d (s.isServed n change) (s.isWithheld n change)) s := by
  refine foldl_eq_of_invariant (R := fun v : State => upOf v.links = upOf s.links ∧ v.registry = s.registry ∧
    v.reefer.racks = s.reefer.racks ∧ v.reefer.interest = s.reefer.interest) (fun v l hv => ?_) _ ⟨rfl, rfl, rfl, rfl⟩
  obtain ⟨hup, hregistry, hracks, hinterest⟩ := hv
  have hlink : (v.link l).up = (s.link l).up := congrFun hup l
  have hcovers : v.covers l n = s.covers l n := by simp only [State.covers, State.rackRec, State.entry, hregistry, hracks, hinterest]
  refine ⟨?_, ?_, ?_, ?_, ?_⟩
  · rw [hlink, hcovers, hinterest]
    unfold State.digestStep State.isServed State.isWithheld
    dsimp only
    cases (s.link l).up
    · rfl
    · cases s.covers l n
      · rfl
      · cases wantsDigest (look s.reefer.interest l).mode s.pool.paused change <;> simp
  · rw [← hup]
    unfold State.digestStep
    split
    · simp
    · split <;> rfl
  · rw [← hregistry]
    unfold State.digestStep
    split
    · simp
    · split <;> rfl
  · rw [State.digestStep_reefer, ← hracks]
    split <;> rfl
  · rw [State.digestStep_reefer, ← hinterest]
    split <;> rfl

/-- The digests are offered as copies, and each offered one counted. -/
theorem State.offerDigests_offers (s : State) (n : RackNo) (d : Digest) (change : Bool) :
    (s.offerEach (allLinks.filter (s.isServed n change)) (.digest d)).OffersAs (s.offerDigests n d change) ∧
    Counts s.reefer.counters (s.offerDigests n d change).reefer.counters 15 (allLinks.filter (s.isServed n change)).length ∧
    look (s.offerDigests n d change).reefer.counters 2 = look s.reefer.counters 2 ∧
    (s.offerDigests n d change).reefer.racks = s.reefer.racks := by
  rw [State.offerDigests_eq]
  generalize s.isServed n change = p
  generalize s.isWithheld n change = q
  refine ⟨?_, ?_, ?_, ?_⟩
  · refine State.OffersAs.foldl (R := fun _ => True) (fun v l _ => ⟨trivial, ?_⟩) _ trivial (.refl s)
    have hcounted : v.OffersAs (v.bumpReef 15) := ⟨⟨rfl, rfl, rfl⟩, rfl, rfl, rfl⟩
    unfold State.digestStep
    split
    · exact hcounted.offerCopy l _
    · split
      · exact ⟨⟨rfl, rfl, rfl⟩, rfl, rfl, rfl⟩
      · exact .refl v
  · have hfold := Counts.foldl (view := fun v : State => v.reefer.counters) (f := State.digestStep d p q) (k := 15)
      (n := fun l => if p l then 1 else 0) (fun v l => ?_) allLinks s
    · rwa [sum_map_ite_one] at hfold
    · rw [State.digestStep_reefer]
      split
      · exact Counts.bump _ _
      · exact Counts.zero rfl
  · refine foldl_keeps (fun v : State => look v.reefer.counters 2) (State.digestStep d p q) (fun v l => ?_) _ _
    rw [State.digestStep_reefer]
    split
    · exact look_bump_ne _ (by decide)
    · rfl
  · refine foldl_keeps (fun v : State => v.reefer.racks) (State.digestStep d p q) (fun v l => ?_) _ _
    rw [State.digestStep_reefer]
    split <;> rfl

end

end Sys2Proof.Machine
end

section
/-! PROOFS. Rack reports are judged by their counter (O19: R144 to R146, R150, R153, R154, R163). -/

namespace Sys2Proof.Machine

section
variable {s : State} {r : Request} {e : EntryNo} {n : RackNo} {k : RackRec} {c : Byte} {qs : List Reading}

/-! ### The judgement (R145) -/

/-- The report counted by the registry and the reefer unit. -/
def State.reportTaken (s : State) (r : Request) : State := ((s.taken r).bumpReg 1).bumpReef 0

theorem exec_deliver_report {a : Word} {bytes : List Byte} (hasks : s.Asks .deliver r) (hread : readDeliver r.body = some [(a, bytes)])
    (he : s.registry.lookup a = some e) (hk : (s.entry e).kind = some .rack) (hn : (s.entry e).rack = some n) :
    exec (.deliver r.ref.link) s = .next ((((s.taken r).bumpReg 1).takeReport e n bytes).judge.reply r.ref .ok (.dispositions [.rack])) := by
  have htake : (s.taken r).takeUplink r.ref.link (a, bytes) = ((((s.taken r).bumpReg 1).takeReport e n bytes).judge, .rack) :=
    State.takeUplink_rack he hk hn
  rw [exec_deliver_one hasks hread, htake]

theorem State.takeReport_malformed {bytes : List Byte} (hread : readReport bytes = none) :
    ((s.taken r).bumpReg 1).takeReport e n bytes = (s.reportTaken r).bumpReef 1 := by
  unfold State.takeReport
  rw [hread]
  rfl

theorem State.takeReport_judged {bytes : List Byte} (hread : readReport bytes = some (c, qs)) (hrec : s.rackRec n = some k) :
    ((s.taken r).bumpReg 1).takeReport e n bytes = match judgeReport (s.entry e).lastReport c with
      | .accepted => (s.reportTaken r).acceptReport e n k c qs
      | .duplicate => (s.reportTaken r).bumpReef 3
      | .stale => (s.reportTaken r).bumpReef 4 := by
  have hrec' : (((s.taken r).bumpReg 1).bumpReef 0).rackRec n = some k := hrec
  unfold State.takeReport
  dsimp only
  rw [hread, hrec']
  rfl

theorem judgeReport_same (c : Byte) : judgeReport (some c) c = .duplicate := by
  simp [judgeReport]

theorem judgeReport_stale {l c : Byte} (h : 128 ≤ (c - l).toNat) : judgeReport (some l) c = .stale := by
  unfold judgeReport
  dsimp only
  rw [if_neg (by omega), if_neg (by omega)]

theorem judgeReport_accepted {o : Option Byte} {c : Byte}
    (h : o = none ∨ ∃ l : Byte, o = some l ∧ 1 ≤ (c - l).toNat ∧ (c - l).toNat ≤ 127) : judgeReport o c = .accepted := by
  rcases h with rfl | ⟨l, rfl, hlow, hhigh⟩
  · rfl
  · unfold judgeReport
    dsimp only
    rw [if_neg (by omega), if_pos hhigh]

/-! ### The readings of an accepted report -/

/-- The state with its rack heard again, and its readings applied. -/
def State.readingsApplied (s : State) (n : RackNo) (k : RackRec) (qs : List Reading) : State :=
  (appliedReadings qs).foldl (fun v q => v.applyReading n q)
    (if k.silence = .notSilent then s else s.setSilence n .notSilent)

/-- The slots once the rack is heard again. -/
def Slot.heardIn (x : Slot) (k : RackRec) : Slot := if k.silence = .notSilent then x else x.silenced .notSilent

theorem State.readingsApplied_like (hrec : s.rackRec n = some k) (i : RackNo) (j : PlugNo) :
    (if i = n then ((s.slot i j).heardIn k).reported s.settings.params s.clock.sec (lastReading qs j) else s.slot i j).Like
      ((s.readingsApplied n k qs).slot i j) := by
  have hclosed : ∀ u : State, u.settings = s.settings → u.clock = s.clock →
      (if i = n then ((s.slot i j).heardIn k) else s.slot i j).Like (u.slot i j) →
      (if i = n then ((s.slot i j).heardIn k).reported s.settings.params s.clock.sec (lastReading qs j) else s.slot i j).Like
        (((appliedReadings qs).foldl (fun v q => v.applyReading n q) u).slot i j) := fun u hsettings hclock hu => by
    have hread := State.readings_like (n := n) (qs := qs) allPlugs (List.nodup_finRange 24) u i j
    rw [hsettings, hclock] at hread
    by_cases hi : i = n
    · rw [if_pos hi] at hu ⊢
      rw [if_pos ⟨hi, List.mem_finRange j⟩] at hread
      refine Slot.Like.trans ?_ hread
      cases lastReading qs j with
      | none => exact hu
      | some q => exact hu.readWith _ _ _
    · rw [if_neg hi] at hu ⊢
      rw [if_neg (fun h => hi h.1)] at hread
      exact hu.trans hread
  unfold State.readingsApplied
  by_cases hquiet : k.silence = .notSilent
  · simp only [Slot.heardIn, hquiet, if_true] at hclosed ⊢
    refine hclosed s rfl rfl ?_
    split <;> exact .refl _
  · simp only [Slot.heardIn, hquiet, if_false] at hclosed ⊢
    exact hclosed _ (by simp) (by simp) (s.setSilence_slot n .notSilent k hrec i j)

/-! ### The state behind an accepted report, before its digests -/

/-- The report taken and its entry heard. -/
def State.reportHeard (s : State) (r : Request) (e : EntryNo) (c : Byte) : State :=
  (s.reportTaken r).setEntry e { (s.entry e).hear s.clock.sec with lastReport := some c }

/-- The report's readings applied, before its acceptance is counted. -/
def State.reportRead (s : State) (r : Request) (e : EntryNo) (n : RackNo) (k : RackRec) (c : Byte) (qs : List Reading) : State :=
  (appliedReadings qs).foldl (fun v q => v.applyReading n q)
    (((s.reportHeard r e c).endSilence n k).bumpReefBy 5 (qs.length - (appliedReadings qs).length))

theorem State.reportApplied_taken : (s.reportTaken r).reportApplied e n k c qs =
    ((s.reportRead r e n k c qs).noteAccepted n).bumpReef 2 := rfl

theorem State.endSilence_keepsAllBut : s.KeepsAllBut (s.endSilence n k) [.links, .reefer] := fun p hp => by
  unfold State.endSilence
  split <;> cases p <;> simp_all [Part.same]

theorem State.reportRead_keepsAllBut : (s.taken r).KeepsAllBut (s.reportRead r e n k c qs) [.links, .registry, .reefer] := by
  have hheard : (s.taken r).KeepsAllBut (s.reportHeard r e c) [.links, .registry, .reefer] := fun p hp => by
    cases p <;> simp_all [Part.same, State.reportHeard, State.reportTaken]
  have hcounted : ∀ u : State, ∀ m, u.KeepsAllBut (u.bumpReefBy 5 m) [.links, .registry, .reefer] := fun u m p hp => by
    cases p <;> simp_all [Part.same]
  have hended := hheard.step (State.endSilence_keepsAllBut (n := n) (k := k)) (by decide)
  refine (hended.trans (hcounted _ (qs.length - (appliedReadings qs).length))).trans ?_
  exact State.foldl_keepsAllBut (f := fun v q => v.applyReading n q) (fun u q p hp => by cases p <;> simp_all [Part.same]) _ _

theorem State.noteAccepted_keepsAllBut : s.KeepsAllBut (s.noteAccepted n) [.reefer] := by
  unfold State.noteAccepted
  split
  · exact .refl _ _
  · exact fun p hp => by cases p <;> simp_all [Part.same]

theorem State.reportApplied_keepsAllBut :
    (s.taken r).KeepsAllBut ((s.reportTaken r).reportApplied e n k c qs) [.links, .registry, .reefer] := by
  have hcounted : ∀ u : State, u.KeepsAllBut (u.bumpReef 2) [.reefer] := fun u p hp => by cases p <;> simp_all [Part.same]
  rw [State.reportApplied_taken]
  exact (State.reportRead_keepsAllBut.step State.noteAccepted_keepsAllBut (by decide)).step (hcounted _) (by decide)

theorem State.entry_reportApplied (f : EntryNo) : ((s.reportTaken r).reportApplied e n k c qs).entry f =
    if f = e then { (s.entry e).hear s.clock.sec with lastReport := some c } else s.entry f := by
  rw [State.entry, State.registry_reportApplied]
  exact State.entry_setEntry (s.reportTaken r) e f _

/-- The slots and the alarm queue are what the readings make of the state before. -/
theorem State.reportApplied_grades (hrec : s.rackRec n = some k) :
    (s.readingsApplied n k qs).GradesAs ((s.reportTaken r).reportApplied e n k c qs) := by
  have hheard : s.GradesAs (s.reportHeard r e c) := ⟨rfl, rfl, rfl⟩
  have hended : (if k.silence = .notSilent then s else s.setSilence n .notSilent).GradesAs ((s.reportHeard r e c).endSilence n k) := by
    unfold State.endSilence
    split
    · exact hheard
    · have hset := hheard.setSilence (r := n) hrec (t := s.reportHeard r e c) hrec .notSilent
      exact hset.trans ⟨State.grades_setPoll _ n _, by simp, by simp⟩
  have hread : (s.readingsApplied n k qs).GradesAs (s.reportRead r e n k c qs) :=
    State.GradesAs.foldl (fun _ _ q h => h.applyReading n q) _ (hended.trans ⟨rfl, rfl, rfl⟩)
  have hnoted : (s.reportRead r e n k c qs).GradesAs ((s.reportRead r e n k c qs).noteAccepted n) := by
    refine ⟨State.grades_noteAccepted _ n, ?_, State.noteAccepted_keepsAllBut .clock (by decide)⟩
    rw [State.noteAccepted_keepsAllBut (s := s.reportRead r e n k c qs) .settings (by decide)]
  exact (hread.trans hnoted).trans ⟨rfl, rfl, rfl⟩

theorem State.rackRec_reportApplied (hrec : s.rackRec n = some k) (m : RackNo) :
    ((s.reportTaken r).reportApplied e n k c qs).rackRec m = if m = n then some (k.accept s.clock.sec) else s.rackRec m := by
  have hended := State.rackRec_endSilence (s := s.reportHeard r e c) hrec
  have hread : ∀ i, (s.reportRead r e n k c qs).rackRec i = ((s.reportHeard r e c).endSilence n k).rackRec i := fun i => by
    rw [State.rackRec, State.reportRead, foldl_keeps (fun v : State => v.reefer.racks) (fun v q => v.applyReading n q)
      (fun v q => v.applyReading_racks n q)]
    rfl
  have hclock : (s.reportRead r e n k c qs).clock = s.clock := State.reportRead_keepsAllBut .clock (by decide)
  have hnoted := State.rackRec_noteAccepted ((hread n).trans ((hended n).trans (if_pos rfl)))
  rw [State.reportApplied_taken]
  refine (hnoted m).trans ?_
  split
  · rw [hclock]
    rfl
  · next hm => rw [hread, hended, if_neg hm]; rfl

/-- Interest stands, and of the counts that digests and reports have only the acceptance is counted. -/
theorem State.reportApplied_counts : ((s.reportTaken r).reportApplied e n k c qs).reefer.interest = s.reefer.interest ∧
    look ((s.reportTaken r).reportApplied e n k c qs).reefer.counters 2 = satInc (look s.reefer.counters 2) ∧
    look ((s.reportTaken r).reportApplied e n k c qs).reefer.counters 15 = look s.reefer.counters 15 := by
  have hheard : s.SlotsOnly (s.reportHeard r e c) := ⟨rfl, fun i hi => look_bump_ne _ fun he => by simp [he] at hi⟩
  have hended : ∀ u : State, u.SlotsOnly (u.endSilence n k) := fun u => by
    unfold State.endSilence
    split
    · exact .refl u
    · exact (State.SlotsOnly.setSilence u n _).trans (.setPoll _ n _)
  have hcounted : ∀ (u : State) (m : Nat), u.SlotsOnly (u.bumpReefBy 5 m) := fun u m =>
    ⟨rfl, fun i hi => look_bumpBy_ne _ _ fun he => by simp [he] at hi⟩
  have hread : s.SlotsOnly (s.reportRead r e n k c qs) := ((hheard.trans (hended _)).trans (hcounted _ _)).trans
    (.foldl (fun v q => .applyReading v n q) _ _)
  have hnoted : ∀ u : State, u.SlotsOnly (u.noteAccepted n) := fun u => by
    unfold State.noteAccepted
    split <;> exact ⟨rfl, fun _ _ => rfl⟩
  obtain ⟨hinterest, hcounters⟩ := hread.trans (hnoted _)
  rw [State.reportApplied_taken]
  refine ⟨hinterest, ?_, ?_⟩
  · exact (look_bump_self _ _).trans (congrArg satInc (hcounters 2 (by decide)))
  · exact (look_bump_ne _ (by decide)).trans (hcounters 15 (by decide))

theorem State.upOf_reportApplied : upOf ((s.reportTaken r).reportApplied e n k c qs).links = upOf s.links := by
  have hended : ∀ u : State, upOf (u.endSilence n k).links = upOf u.links := fun u => by
    unfold State.endSilence
    split <;> simp
  have hread : upOf (s.reportRead r e n k c qs).links = upOf s.links :=
    (foldl_keeps (fun v : State => upOf v.links) (fun v q => v.applyReading n q) (fun v q => State.upOf_applyReading v n q) _ _).trans
      (hended _)
  rw [← hread, State.reportApplied_taken]
  exact congrArg upOf (State.noteAccepted_keepsAllBut .links (by decide))

end

end Sys2Proof.Machine
end

section
/-! PROOFS. What an accepted report leaves, its digests offered (O19). -/

namespace Sys2Proof.Machine

section
variable {s : State} {r : Request} {e : EntryNo} {n : RackNo} {k : RackRec} {c : Byte} {qs : List Reading}

/-- The state behind an accepted report. -/
def State.reportAccepted (s : State) (r : Request) (e : EntryNo) (n : RackNo) (k : RackRec) (c : Byte) (qs : List Reading) : State :=
  ((s.reportTaken r).acceptReport e n k c qs).judge

/-- The digest of an accepted report, said from the state before it and the slots behind it. -/
def State.reportDigest (s : State) (e : EntryNo) (n : RackNo) (c : Byte) (qs : List Reading) (after : Vector Slot 24) : Digest :=
  { rack := n, yard := (s.entry e).yard, seg := (s.entry e).seg, cls := s.classOf (s.entry e).seg, counter := c
    second := s.clock.sec
    entries := (digestPlugs qs (look s.reefer.slots n) after).map (fun p => digestEntry p (look after p)) }

theorem State.reportApplied_digest : ((s.reportTaken r).reportApplied e n k c qs).digest n e c qs (look s.reefer.slots n) =
    s.reportDigest e n c qs (look ((s.reportTaken r).reportApplied e n k c qs).reefer.slots n) := by
  have hentry : ((s.reportTaken r).reportApplied e n k c qs).entry e = { (s.entry e).hear s.clock.sec with lastReport := some c } :=
    (State.entry_reportApplied e).trans (if_pos rfl)
  have hclass : ∀ g, ((s.reportTaken r).reportApplied e n k c qs).classOf g = s.classOf g := fun g => by
    have hcoverage : ((s.reportTaken r).reportApplied e n k c qs).coverage = s.coverage :=
      State.reportApplied_keepsAllBut .coverage (by decide)
    simp only [State.classOf, State.segRec, hcoverage]
  have hclock : ((s.reportTaken r).reportApplied e n k c qs).clock = s.clock := State.reportApplied_keepsAllBut .clock (by decide)
  rw [State.digest, hentry, hclass, State.nowSec, hclock]
  rfl

/-- The state behind an accepted report, before the pool compares its marks. -/
theorem State.reportAccepted_eq : s.reportAccepted r e n k c qs =
    (((s.reportTaken r).reportApplied e n k c qs).offerDigests n
      (s.reportDigest e n c qs (look ((s.reportTaken r).reportApplied e n k c qs).reefer.slots n))
      (changing (look s.reefer.slots n) (look ((s.reportTaken r).reportApplied e n k c qs).reefer.slots n))).judge := by
  rw [State.reportAccepted, State.acceptReport_eq, ← State.reportApplied_digest]
  rfl

theorem State.reefer_reportAccepted : (s.reportAccepted r e n k c qs).reefer =
    (((s.reportTaken r).reportApplied e n k c qs).offerDigests n
      (s.reportDigest e n c qs (look ((s.reportTaken r).reportApplied e n k c qs).reefer.slots n))
      (changing (look s.reefer.slots n) (look ((s.reportTaken r).reportApplied e n k c qs).reefer.slots n))).reefer := by
  rw [State.reportAccepted_eq, (State.judge_frame _).2.2.2.2.2.2.2.2.1]

theorem State.reportAccepted_grades (hrec : s.rackRec n = some k) :
    (s.readingsApplied n k qs).GradesAs (s.reportAccepted r e n k c qs) := by
  refine (State.reportApplied_grades hrec (r := r) (e := e) (c := c)).trans ?_
  rw [State.reportAccepted_eq]
  exact ⟨by simp, by simp, by simp⟩

theorem State.rackRec_reportAccepted (hrec : s.rackRec n = some k) (m : RackNo) : (s.reportAccepted r e n k c qs).rackRec m =
    if m = n then some (k.accept s.clock.sec) else s.rackRec m := by
  rw [State.rackRec, State.reefer_reportAccepted, (State.offerDigests_offers _ _ _ _).2.2.2]
  exact State.rackRec_reportApplied hrec m

theorem State.entry_reportAccepted (f : EntryNo) : (s.reportAccepted r e n k c qs).entry f =
    if f = e then { (s.entry e).hear s.clock.sec with lastReport := some c } else s.entry f := by
  rw [State.reportAccepted_eq, State.entry_judge, State.entry, (State.offerDigests_frame _ _ _ _).2.2.1]
  exact State.entry_reportApplied f

theorem State.reportAccepted_keepsAllBut :
    (s.taken r).KeepsAllBut (s.reportAccepted r e n k c qs) [.links, .registry, .pool, .reefer] := by
  have hoffered : ∀ (u : State) (d : Digest) (b : Bool), u.KeepsAllBut (u.offerDigests n d b) [.links, .pool, .reefer] :=
    fun u d b p hp => by cases p <;> simp_all [Part.same]
  rw [State.reportAccepted_eq]
  exact ((State.reportApplied_keepsAllBut.mono (by decide)).step (hoffered _ _ _) (by decide)).step (State.judge_keepsAllBut _) (by decide)

theorem State.reportApplied_offers : s.OffersAs ((s.reportTaken r).reportApplied e n k c qs) := by
  have hpool : ((s.reportTaken r).reportApplied e n k c qs).pool = s.pool := State.reportApplied_keepsAllBut .pool (by decide)
  have hsettings : ((s.reportTaken r).reportApplied e n k c qs).settings = s.settings :=
    State.reportApplied_keepsAllBut .settings (by decide)
  exact ⟨⟨by rw [hpool], by rw [hpool], by rw [hpool]⟩, State.upOf_reportApplied, by rw [hsettings],
    State.reportApplied_keepsAllBut .clock (by decide)⟩

/-- The links that are served, said from the state before the report. -/
theorem State.isServed_reportApplied (hrec : s.rackRec n = some k) (change : Bool) (l : LinkNo) :
    ((s.reportTaken r).reportApplied e n k c qs).isServed n change l = ((s.link l).up &&
      (s.entry k.entry).yard.any (fun y => (look s.reefer.interest l).yards.getLsbD y.val) &&
      wantsDigest (look s.reefer.interest l).mode s.pool.paused change) := by
  have hpool : ((s.reportTaken r).reportApplied e n k c qs).pool = s.pool := State.reportApplied_keepsAllBut .pool (by decide)
  have hup : (((s.reportTaken r).reportApplied e n k c qs).link l).up = (s.link l).up := congrFun State.upOf_reportApplied l
  have hrec' : ((s.reportTaken r).reportApplied e n k c qs).rackRec n = some (k.accept s.clock.sec) :=
    (State.rackRec_reportApplied hrec n).trans (if_pos rfl)
  have hyard : (((s.reportTaken r).reportApplied e n k c qs).entry k.entry).yard = (s.entry k.entry).yard := by
    rw [State.entry_reportApplied]
    split
    · next he => rw [he]; rfl
    · rfl
  have hcovers : ((s.reportTaken r).reportApplied e n k c qs).covers l n =
      (s.entry k.entry).yard.any (fun y => (look s.reefer.interest l).yards.getLsbD y.val) := by
    rw [State.covers, hrec', Option.bind_some, State.reportApplied_counts.1]
    change (match (((s.reportTaken r).reportApplied e n k c qs).entry k.entry).yard with
      | none => false
      | some y => (look s.reefer.interest l).yards.getLsbD y.val) = _
    rw [hyard]
    cases (s.entry k.entry).yard <;> rfl
  rw [State.isServed, hup, hcovers, State.reportApplied_counts.1, hpool]

/-- The digests offered and counted. -/
theorem State.reportAccepted_digests (hrec : s.rackRec n = some k) :
    let after := look (s.reportAccepted r e n k c qs).reefer.slots n
    let change := changing (look s.reefer.slots n) after
    let served := allLinks.filter (fun l => (s.link l).up &&
      (s.entry k.entry).yard.any (fun y => (look s.reefer.interest l).yards.getLsbD y.val) &&
      wantsDigest (look s.reefer.interest l).mode s.pool.paused change)
    (s.offerEach served (.digest (s.reportDigest e n c qs after))).SameDeliveries (s.reportAccepted r e n k c qs) ∧
    Counts s.reefer.counters (s.reportAccepted r e n k c qs).reefer.counters 15 served.length ∧
    look (s.reportAccepted r e n k c qs).reefer.counters 2 = satInc (look s.reefer.counters 2) := by
  intro after change served
  have hslots : ((s.reportTaken r).reportApplied e n k c qs).reefer.slots = (s.reportAccepted r e n k c qs).reefer.slots :=
    congrArg Prod.fst ((State.reportApplied_grades hrec (r := r) (e := e) (c := c)).symm.trans
      (State.reportAccepted_grades hrec)).1.symm
  have heq := State.reportAccepted_eq (s := s) (r := r) (e := e) (n := n) (k := k) (c := c) (qs := qs)
  have hreefer := State.reefer_reportAccepted (s := s) (r := r) (e := e) (n := n) (k := k) (c := c) (qs := qs)
  rw [hslots] at heq hreefer
  have hserved : allLinks.filter (((s.reportTaken r).reportApplied e n k c qs).isServed n change) = served :=
    List.filter_congr fun l _ => State.isServed_reportApplied hrec change l
  obtain ⟨-, hcountTwo, hcountFifteen⟩ := State.reportApplied_counts (s := s) (r := r) (e := e) (n := n) (k := k) (c := c) (qs := qs)
  have happlied := State.reportApplied_offers (s := s) (r := r) (e := e) (n := n) (k := k) (c := c) (qs := qs)
  generalize (s.reportTaken r).reportApplied e n k c qs = w at heq hreefer hserved hcountTwo hcountFifteen happlied
  generalize hdigest : s.reportDigest e n c qs after = d
  have hd : s.reportDigest e n c qs (look (s.reportAccepted r e n k c qs).reefer.slots n) = d := hdigest
  rw [hd] at heq hreefer
  obtain ⟨hoffers, hcounts, htwo, -⟩ := State.offerDigests_offers w n d change
  rw [hserved] at hoffers hcounts
  refine ⟨?_, ?_, ?_⟩
  · rw [heq]
    exact (((happlied.offerEach served (.digest d)).trans hoffers).trans (.judge _)).1
  · rw [hreefer]
    exact hcounts.left hcountFifteen
  · rw [hreefer]
    exact htwo.trans hcountTwo

/-! ### The slots behind an accepted report -/

theorem lastReading_none {p : PlugNo} (h : ∀ q ∈ qs, q.plug ≠ p) : lastReading qs p = none :=
  List.find?_eq_none.mpr fun q hq => by simpa using h q (List.mem_reverse.mp hq)

theorem Slot.occupied_heardIn (x : Slot) : (x.heardIn k).occupied = x.occupied := by
  unfold Slot.heardIn Slot.silenced
  split
  · rfl
  · dsimp only
    split <;> rfl

theorem Slot.Like.plugState {x y : Slot} (h : x.Like y) : y.plugState = x.plugState := by
  rw [h]

/-- What a report that names no reading for a plug leaves of its slot. -/
theorem Slot.Like.unread {x y : Slot} (h : x.Like y) : y.dose = x.dose ∧ y.setpoint = x.setpoint ∧ y.plugState = x.plugState ∧
    y.grade = x.grade := by
  rw [h]
  exact ⟨rfl, rfl, rfl, rfl⟩

theorem State.reportAccepted_own (hrec : s.rackRec n = some k) (p : PlugNo) :
    (((s.slot n p).heardIn k).reported s.settings.params s.clock.sec (lastReading qs p)).Like
      ((s.reportAccepted r e n k c qs).slot n p) := by
  have hlike := State.readingsApplied_like (qs := qs) hrec n p
  rwa [if_pos rfl, ← (State.reportAccepted_grades (r := r) (e := e) (c := c) (qs := qs) hrec).slot] at hlike

theorem State.reportAccepted_others (hrec : s.rackRec n = some k) {m : RackNo} (hm : m ≠ n) (p : PlugNo) :
    (s.slot m p).Like ((s.reportAccepted r e n k c qs).slot m p) := by
  have hlike := State.readingsApplied_like (qs := qs) hrec m p
  rwa [if_neg hm, ← (State.reportAccepted_grades (r := r) (e := e) (c := c) (qs := qs) hrec).slot] at hlike

end

/-- A reading's part of a report (R146, R167). -/
theorem State.applyReading_judged (v : State) (n : RackNo) (q : Reading) :
    (q.plugState ≠ .empty → ∃ w : State, v.applyReading n q = w.regrade n q.plug true ∧
      w.slot n q.plug = (if (v.slot n q.plug).occupied then v.slot n q.plug else { Slot.clear with occupied := true }).afterReading
        v.settings.params v.clock.sec q ∧
      (∀ (m : RackNo) (p : PlugNo), (m, p) ≠ (n, q.plug) → w.slot m p = v.slot m p) ∧
      w.reefer.alarms = v.reefer.alarms ∧ w.reefer.racks = v.reefer.racks ∧ w.reefer.interest = v.reefer.interest ∧
      v.KeepsAllBut w [.reefer]) := fun hempty =>
  ⟨_, State.applyReading_read q hempty, State.readingWritten_written v n q⟩

/-- Settles O19. -/
theorem rackReportsAreJudgedByTheirCounter : Obligations.RackReportsAreJudgedByTheirCounter := by
  unfold Obligations.RackReportsAreJudgedByTheirCounter
  refine ⟨fun v n q => ⟨State.applyReading_free, State.applyReading_releases, State.applyReading_judged v n q⟩, ?_⟩
  intro r s a e n k bytes hasks hread hlookup hkind hrack hrec u
  have hexec := exec_deliver_report hasks hread hlookup hkind hrack
  refine ⟨fun hbad => ?_, fun c qs hreport => ⟨fun hsame => ?_, fun l hlast hstale => ?_, fun hnew => ?_⟩⟩
  · rw [hexec, State.takeReport_malformed hbad]
    rfl
  · rw [hexec, State.takeReport_judged hreport hrec, hsame, judgeReport_same]
    rfl
  · rw [hexec, State.takeReport_judged hreport hrec, hlast, judgeReport_stale hstale]
    rfl
  · rw [State.takeReport_judged hreport hrec, judgeReport_accepted hnew] at hexec
    obtain ⟨hdeliveries, hfifteen, htwo⟩ := State.reportAccepted_digests (r := r) (e := e) (c := c) (qs := qs) hrec
    have hown := State.reportAccepted_own (r := r) (e := e) (c := c) (qs := qs) hrec
    have hothers := fun m hm => State.reportAccepted_others (r := r) (e := e) (c := c) (qs := qs) hrec (m := m) hm
    have hgrades := (State.reportAccepted_grades (r := r) (e := e) (c := c) (qs := qs) hrec).1
    have hentry := State.entry_reportAccepted (s := s) (r := r) (e := e) (n := n) (k := k) (c := c) (qs := qs)
    have hrecord := State.rackRec_reportAccepted (r := r) (e := e) (c := c) (qs := qs) hrec
    have hkeeps := State.reportAccepted_keepsAllBut (s := s) (r := r) (e := e) (n := n) (k := k) (c := c) (qs := qs)
    change exec (.deliver r.ref.link) s = .next ((s.reportAccepted r e n k c qs).reply r.ref .ok (.dispositions [.rack])) at hexec
    generalize s.reportAccepted r e n k c qs = t at *
    simp only [gradesOf, Prod.mk.injEq] at hgrades
    refine ⟨t, hexec, (hentry e).trans (if_pos rfl), fun f hf => (hentry f).trans (if_neg hf), (hrecord n).trans (if_pos rfl),
      fun m hm => (hrecord m).trans (if_neg hm), fun p hnone hquiet x hx => ?_, fun p q hlast => ?_, fun p => ?_,
      fun m p hm => hothers m hm p, hgrades, ?_, htwo, hkeeps⟩
    · have hunread := hown p
      rw [lastReading_none hnone, Slot.heardIn, if_pos hquiet, ← hx] at hunread
      exact hunread.unread
    · have hread := hown p
      rw [hlast] at hread
      obtain ⟨hocc, hplug⟩ := Slot.readWith_written ((s.slot n p).heardIn k) s.settings.params s.clock.sec q
      rw [Slot.occupied_heardIn] at hplug
      rw [hread.occupied, hread.plugState]
      exact ⟨hocc, hplug⟩
    · have hread := hown p
      intro x y
      convert hread using 1
      simp only [y]
      cases lastReading qs p <;> rfl
    · intro before after change covers served
      have hserved : allLinks.filter (fun l => (s.link l).up &&
          (s.entry k.entry).yard.any (fun y => (look s.reefer.interest l).yards.getLsbD y.val) &&
          wantsDigest (look s.reefer.interest l).mode s.pool.paused (changing before after)) = served := by
        refine List.filter_congr fun l _ => congrArg (covers l && ·) ?_
        cases (look s.reefer.interest l).mode with
        | noInterest => rfl
        | changes => rfl
        | all => exact Bool.or_comm _ _
      rw [hserved] at hdeliveries hfifteen
      exact ⟨hdeliveries, hfifteen⟩

end Sys2Proof.Machine
end

section
/-! PROOFS. The POLLs that a warm restart queues (R109, R151, R157). -/

namespace Sys2Proof.Machine

section
variable {s u v : State} {n : RackNo} {k : RackRec} {e : EntryNo}

/-! ### One rack at a warm restart -/

theorem State.setPoll_eq (hrec : s.rackRec n = some k) (p : PollState) : s.setPoll n p = s.setRackRec n (some { k with poll := p }) := by
  unfold State.setPoll
  rw [hrec]

theorem State.queuePoll_reefer (s : State) (n : RackNo) (e : EntryNo) : (s.queuePoll n e).1.reefer = s.reefer := by
  simp

theorem State.queuePoll_unqueued (h : s.hasQueues e = false) : s.queuePoll n e = (s, false) := by
  unfold State.queuePoll
  rw [h]
  rfl

/-- A POLL asked for, and the answer recorded. -/
def State.polled (s : State) (n : RackNo) (k : RackRec) : State :=
  let q := s.queuePoll n k.entry
  (q.1.bumpReef (if q.2 then 13 else 14)).setRackRec n (some { k with poll := if q.2 then .queued else .notQueued })

theorem State.askPoll_eq (hrec : s.rackRec n = some k) : s.askPoll n = s.polled n k := by
  have hkept : ∀ i : Fin 25, ((s.queuePoll n k.entry).1.bumpReef i).rackRec n = some k := fun i =>
    (State.rackRec_of_reefer (s.queuePoll_reefer n k.entry) n).trans hrec
  unfold State.askPoll State.polled
  rw [hrec]
  dsimp only
  split
  · rw [State.setPoll_eq (hkept 13)]
  · rw [State.setPoll_eq (hkept 14)]

/-- The rack's record, with no POLL. -/
def State.unpolled (s : State) (n : RackNo) (k : RackRec) : State := s.setRackRec n (some { k with poll := .noPoll })

theorem State.restartRack_none (hrec : s.rackRec n = none) : s.restartRack n = s := by
  unfold State.restartRack
  rw [hrec]
  rfl

theorem State.restartRack_some (hrec : s.rackRec n = some k) : s.restartRack n = match k.silence with
    | .silent => (s.unpolled n k).polled n { k with poll := .noPoll }
    | .dark => s.unpolled n k
    | .notSilent => s := by
  unfold State.restartRack
  rw [hrec]
  obtain ⟨entry, silence, poll, accepted, last⟩ := k
  cases silence with
  | notSilent => rfl
  | dark => exact State.setPoll_eq hrec .noPoll
  | silent =>
    dsimp only [Option.map_some]
    rw [State.setPoll_eq hrec]
    exact State.askPoll_eq ((State.rackRec_setRackRec s n n _).trans (if_pos rfl))

theorem State.restartRack_quiet (hrec : s.rackRec n = some k) (hs : k.silence = .notSilent) : s.restartRack n = s := by
  rw [State.restartRack_some hrec, hs]

theorem State.restartRack_dark (hrec : s.rackRec n = some k) (hs : k.silence = .dark) : s.restartRack n = s.unpolled n k := by
  rw [State.restartRack_some hrec, hs]

theorem State.restartRack_silent (hrec : s.rackRec n = some k) (hs : k.silence = .silent) : s.restartRack n =
    (s.unpolled n k).polled n { k with poll := .noPoll } := by
  rw [State.restartRack_some hrec]
  split
  · rfl
  · next h => exact absurd (hs.symm.trans h) (by decide)
  · next h => exact absurd (hs.symm.trans h) (by decide)

/-! ### A POLL's frame -/

theorem State.blocks_pollFrame (s : State) (n : RackNo) (e : EntryNo) : (s.pollFrame n e).blocks = 1 := by
  simp [Frame.blocks, State.pollFrame, pollPayload, out1, outFlag, be32, blocksOf]

/-- A frame is a POLL queued at a warm restart for a rack that is silent. -/
def State.PollOf (s : State) (f : Frame) : Prop := f.blocks = 1 ∧ f.origin = none ∧ f.cls = .bulk ∧ f.attempts = 0 ∧ f.accept = s.clock.ms ∧
  ∃ (n : RackNo) (k : RackRec), s.rackRec n = some k ∧ k.silence = .silent ∧ k.entry = f.terminal

/-! ### The racks in turn -/

/-- What is left of a rack's record: its POLL, as the rack's silence calls for. -/
def State.RackPolled (s t : State) (n : RackNo) (k : RackRec) : Prop := ∃ p : PollState, t.rackRec n = some { k with poll := p } ∧
  (k.silence = .notSilent → p = k.poll) ∧ (k.silence = .dark → p = .noPoll) ∧
  (k.silence = .silent → p ≠ .noPoll ∧ (p = .queued → ∃ f ∈ t.downlink.waiting, f.terminal = k.entry) ∧
    (s.hasQueues k.entry = false → p = .notQueued))

theorem State.RackPolled.of_quiet {t : State} (hs : k.silence = .notSilent) (ht : t.rackRec n = some k) : s.RackPolled t n k :=
  ⟨k.poll, ht, fun _ => rfl, fun h => absurd (hs.symm.trans h) (by decide), fun h => absurd (hs.symm.trans h) (by decide)⟩

theorem State.RackPolled.of_dark {t : State} (hs : k.silence = .dark) (ht : t.rackRec n = some { k with poll := .noPoll }) :
    s.RackPolled t n k :=
  ⟨.noPoll, ht, fun h => absurd (hs.symm.trans h) (by decide), fun _ => rfl, fun h => absurd (hs.symm.trans h) (by decide)⟩

theorem State.RackPolled.of_queued {t : State} (hs : k.silence = .silent) (ht : t.rackRec n = some { k with poll := .queued })
    (hqueues : s.hasQueues k.entry = true) (hframe : ∃ f ∈ t.downlink.waiting, f.terminal = k.entry) : s.RackPolled t n k :=
  ⟨.queued, ht, fun h => absurd (hs.symm.trans h) (by decide), fun h => absurd (hs.symm.trans h) (by decide),
    fun _ => ⟨by decide, fun _ => hframe, fun hno => absurd (hqueues.symm.trans hno) (by decide)⟩⟩

theorem State.RackPolled.of_notQueued {t : State} (hs : k.silence = .silent) (ht : t.rackRec n = some { k with poll := .notQueued }) :
    s.RackPolled t n k :=
  ⟨.notQueued, ht, fun h => absurd (hs.symm.trans h) (by decide), fun h => absurd (hs.symm.trans h) (by decide),
    fun _ => ⟨by decide, fun h => absurd h (by decide), fun _ => rfl⟩⟩

/-- What a warm restart's POLLs make of a state, some racks done. -/
structure State.Polls (s t : State) (done : List RackNo) : Prop where
  kept : s.KeepsAllBut t [.pool, .downlink, .reefer]
  frames : ∀ f ∈ t.downlink.waiting, s.PollOf f
  balance : t.pool.free + framesBlocks t.downlink.waiting = s.pool.free
  few : t.downlink.waiting.length ≤ done.length
  quiet : t.pool.paused = s.pool.paused ∧ t.pool.nextRepeat = s.pool.nextRepeat ∧ t.pool.repeatsSent = s.pool.repeatsSent ∧
    t.pool.queues = s.pool.queues ∧ t.pool.dropped = s.pool.dropped
  numbers : t.downlink.nextBurst = s.downlink.nextBurst ∧ t.downlink.rotation = s.downlink.rotation
  slots : gradesOf t.reefer = gradesOf s.reefer ∧ t.reefer.interest = s.reefer.interest
  polled : ∀ n ∈ done, ∀ k : RackRec, s.rackRec n = some k → s.RackPolled t n k
  others : ∀ n, n ∉ done → t.rackRec n = s.rackRec n

theorem State.Polls.start (hempty : s.downlink.waiting = []) : s.Polls s [] where
  kept := .refl _ _
  frames := by simp [hempty]
  balance := by simp [hempty, framesBlocks]
  few := by simp [hempty]
  quiet := ⟨rfl, rfl, rfl, rfl, rfl⟩
  numbers := ⟨rfl, rfl⟩
  slots := ⟨rfl, rfl⟩
  polled := fun n hn => absurd hn List.not_mem_nil
  others := fun _ _ => rfl

theorem State.RackPolled.later {t w : State} (h : s.RackPolled t n k) (hrec : w.rackRec n = t.rackRec n)
    (hwaits : ∀ f ∈ t.downlink.waiting, f ∈ w.downlink.waiting) : s.RackPolled w n k := by
  obtain ⟨p, hp, hquiet, hdark, hsilent⟩ := h
  refine ⟨p, hrec.trans hp, hquiet, hdark, fun hs => ?_⟩
  obtain ⟨hne, hqueued, hnone⟩ := hsilent hs
  exact ⟨hne, fun hq => (hqueued hq).imp fun f hf => ⟨hwaits f hf.1, hf.2⟩, hnone⟩

/-- A rack for which no POLL is queued: its record and the pool's counts alone may change. -/
theorem State.Polls.record {t w : State} {done : List RackNo} (h : s.Polls t done) (hn : n ∉ done)
    (hkept : t.KeepsAllBut w [.pool, .reefer]) (hpool : w.pool = { t.pool with counters := w.pool.counters })
    (hslots : gradesOf w.reefer = gradesOf t.reefer ∧ w.reefer.interest = t.reefer.interest)
    (hothers : ∀ m, m ≠ n → w.rackRec m = t.rackRec m)
    (hpolled : ∀ k : RackRec, s.rackRec n = some k → s.RackPolled w n k) : s.Polls w (n :: done) := by
  have hdown : w.downlink = t.downlink := hkept .downlink (by decide)
  refine ⟨h.kept.step hkept (by decide), ?_, ?_, ?_, ?_, ?_, ⟨hslots.1.trans h.slots.1, hslots.2.trans h.slots.2⟩, fun m hm k hk => ?_,
    fun m hm => ?_⟩
  · rw [hdown]
    exact h.frames
  · rw [hdown, hpool]
    exact h.balance
  · rw [hdown]
    exact h.few.trans (Nat.le_succ _)
  · rw [hpool]
    exact h.quiet
  · rw [hdown]
    exact h.numbers
  · rcases List.mem_cons.mp hm with rfl | hd
    · exact hpolled k hk
    · exact (h.polled m hd k hk).later (hothers m fun he => hn (he ▸ hd)) (by rw [hdown]; exact fun _ hf => hf)
  · obtain ⟨hne, hd⟩ := not_or.mp (mt List.mem_cons.mpr hm)
    exact (hothers m hne).trans (h.others m hd)

/-- A rack's POLL that is queued. -/
theorem State.Polls.queued {t w : State} {done : List RackNo} (h : s.Polls t done) (hn : n ∉ done) (hrec : s.rackRec n = some k)
    (hsilent : k.silence = .silent) (hqueues : s.hasQueues k.entry = true) (hroom : 1 ≤ t.pool.free)
    (hkept : t.KeepsAllBut w [.pool, .downlink, .reefer])
    (hpool : w.pool = { t.pool with free := t.pool.free - 1, counters := w.pool.counters })
    (hdown : w.downlink.waiting = t.downlink.waiting ++ [t.pollFrame n k.entry] ∧
      w.downlink.nextBurst = t.downlink.nextBurst ∧ w.downlink.rotation = t.downlink.rotation)
    (hslots : gradesOf w.reefer = gradesOf t.reefer ∧ w.reefer.interest = t.reefer.interest)
    (hothers : ∀ m, w.rackRec m = if m = n then some { k with poll := .queued } else t.rackRec m) : s.Polls w (n :: done) := by
  obtain ⟨hwaits, hburst, hrotation⟩ := hdown
  have hblocks := t.blocks_pollFrame n k.entry
  have hclock : t.clock = s.clock := h.kept .clock (by decide)
  have hin : t.pollFrame n k.entry ∈ w.downlink.waiting := by
    rw [hwaits]
    exact List.mem_append_right _ List.mem_cons_self
  refine ⟨(h.kept.trans hkept).mono (by decide), fun f hf => ?_, ?_, ?_, ?_, ⟨hburst.trans h.numbers.1, hrotation.trans h.numbers.2⟩,
    ⟨hslots.1.trans h.slots.1, hslots.2.trans h.slots.2⟩, fun m hm x hx => ?_, fun m hm => ?_⟩
  · rw [hwaits] at hf
    rcases List.mem_append.mp hf with hold | hnew
    · exact h.frames f hold
    · rw [List.mem_singleton.mp hnew]
      exact ⟨hblocks, rfl, rfl, rfl, congrArg Clock.ms hclock, n, k, hrec, hsilent, rfl⟩
  · have hbalance := h.balance
    have hone : framesBlocks [t.pollFrame n k.entry] = 1 := by rw [framesBlocks, List.map_singleton, List.sum_singleton, hblocks]
    rw [hwaits, hpool, framesBlocks_append, hone]
    dsimp only
    omega
  · rw [hwaits, List.length_append]
    exact Nat.succ_le_succ h.few
  · rw [hpool]
    exact h.quiet
  · rcases List.mem_cons.mp hm with rfl | hd
    · obtain rfl : k = x := Option.some.inj (hrec.symm.trans hx)
      exact .of_queued hsilent ((hothers m).trans (if_pos rfl)) hqueues ⟨_, hin, rfl⟩
    · refine (h.polled m hd x hx).later ((hothers m).trans (if_neg (ne_of_mem_of_not_mem hd hn))) fun f hf => ?_
      rw [hwaits]
      exact List.mem_append_left _ hf
  · obtain ⟨hne, hd⟩ := not_or.mp (mt List.mem_cons.mpr hm)
    exact ((hothers m).trans (if_neg hne)).trans (h.others m hd)

theorem State.rackRec_polled {t : State} (m : RackNo) : (t.polled n k).rackRec m = if m = n then
    some { k with poll := if (t.queuePoll n k.entry).2 then .queued else .notQueued } else t.rackRec m := by
  unfold State.polled
  dsimp only
  rw [State.rackRec_setRackRec]
  exact if_congr Iff.rfl rfl (State.rackRec_of_reefer (t.queuePoll_reefer n k.entry) m)

theorem State.unpolled_keepsAllBut {t : State} : t.KeepsAllBut (t.unpolled n k) [.reefer] := fun p hp => by
  cases p <;> simp_all [Part.same, State.unpolled]

/-- What recording a POLL's answer writes. -/
theorem State.recorded_keeps (b : State) (i : Fin 25) (x : Option RackRec) :
    b.KeepsAllBut ((b.bumpReef i).setRackRec n x) [.reefer] ∧
    gradesOf ((b.bumpReef i).setRackRec n x).reefer = gradesOf b.reefer ∧
    ((b.bumpReef i).setRackRec n x).reefer.interest = b.reefer.interest :=
  ⟨fun p hp => by cases p <;> simp_all [Part.same], rfl, rfl⟩

/-- A POLL that is asked for is not queued, the pool's counts alone moving. -/
theorem State.polled_unqueued {a b : State} (hb : b = a ∨ b = a.bumpPool 4) (hq : a.queuePoll n k.entry = (b, false)) :
    a.KeepsAllBut (a.polled n k) [.pool, .reefer] ∧ (a.polled n k).pool = { a.pool with counters := (a.polled n k).pool.counters } ∧
    gradesOf (a.polled n k).reefer = gradesOf a.reefer ∧ (a.polled n k).reefer.interest = a.reefer.interest ∧
    ∀ m, (a.polled n k).rackRec m = if m = n then some { k with poll := .notQueued } else a.rackRec m := by
  have hpoll := State.rackRec_polled (t := a) (n := n) (k := k)
  have hresult : a.polled n k = (b.bumpReef 14).setRackRec n (some { k with poll := .notQueued }) := by
    unfold State.polled
    rw [hq]
    rfl
  have hkept : a.KeepsAllBut b [.pool] ∧ b.pool = { a.pool with counters := b.pool.counters } ∧ b.reefer = a.reefer := by
    rcases hb with rfl | rfl
    · exact ⟨.refl _ _, rfl, rfl⟩
    · exact ⟨fun p hp => by cases p <;> simp_all [Part.same], rfl, rfl⟩
  obtain ⟨hkeeps, hpool, hreefer⟩ := hkept
  obtain ⟨hrecorded, hgrades, hinterest⟩ := State.recorded_keeps (n := n) b 14 (some { k with poll := .notQueued })
  rw [hq] at hpoll
  refine ⟨?_, ?_, ?_, ?_, hpoll⟩
  · rw [hresult]
    exact (hkeeps.mono (by decide)).step hrecorded (by decide)
  · rw [hresult]
    exact hpool
  · rw [hresult, hgrades, hreefer]
  · rw [hresult, hinterest, hreefer]

/-- A POLL that is queued. -/
theorem State.polled_queued {a : State}
    (hq : a.queuePoll n k.entry = (((a.queueFrame (a.pollFrame n k.entry)).bumpPool 0).bumpDown 1, true)) :
    a.KeepsAllBut (a.polled n k) [.pool, .downlink, .reefer] ∧
    (a.polled n k).pool = { a.pool with free := a.pool.free - 1, counters := (a.polled n k).pool.counters } ∧
    ((a.polled n k).downlink.waiting = a.downlink.waiting ++ [a.pollFrame n k.entry] ∧
      (a.polled n k).downlink.nextBurst = a.downlink.nextBurst ∧ (a.polled n k).downlink.rotation = a.downlink.rotation) ∧
    (gradesOf (a.polled n k).reefer = gradesOf a.reefer ∧ (a.polled n k).reefer.interest = a.reefer.interest) ∧
    ∀ m, (a.polled n k).rackRec m = if m = n then some { k with poll := .queued } else a.rackRec m := by
  have hpoll := State.rackRec_polled (t := a) (n := n) (k := k)
  have hresult : a.polled n k = ((((a.queueFrame (a.pollFrame n k.entry)).bumpPool 0).bumpDown 1).bumpReef 13).setRackRec n
      (some { k with poll := .queued }) := by
    unfold State.polled
    rw [hq]
    rfl
  have hcranes : (a.queueFrame (a.pollFrame n k.entry)).cranes = a.cranes :=
    a.queueFrame_cranes (f := a.pollFrame n k.entry) (by decide : FrameClass.bulk ≠ .safety)
  have hpool : (a.queueFrame (a.pollFrame n k.entry)).pool = { a.pool with free := a.pool.free - 1 } := by
    rw [State.pool_queueFrame, State.blocks_pollFrame]
  have hdown := a.queueFrame_downlink (a.pollFrame n k.entry)
  have hreefer : (a.queueFrame (a.pollFrame n k.entry)).reefer = a.reefer := by simp
  rw [hq] at hpoll
  refine ⟨?_, ?_, ?_, ?_, hpoll⟩
  · rw [hresult]
    intro p hp
    cases p <;> simp_all [Part.same]
  · rw [hresult]
    have hcounted : ∀ (b : State) (x : Option RackRec), b.pool = { a.pool with free := a.pool.free - 1 } →
        ((((b.bumpPool 0).bumpDown 1).bumpReef 13).setRackRec n x).pool = { a.pool with
          free := a.pool.free - 1, counters := ((((b.bumpPool 0).bumpDown 1).bumpReef 13).setRackRec n x).pool.counters } :=
      fun b x hb => by
        change ({ b.pool with counters := bump b.pool.counters 0 } : Pool) =
          { a.pool with free := a.pool.free - 1, counters := bump b.pool.counters 0 }
        rw [hb]
    exact hcounted _ _ hpool
  · rw [hresult]
    change (a.queueFrame (a.pollFrame n k.entry)).downlink.waiting = _ ∧
      (a.queueFrame (a.pollFrame n k.entry)).downlink.nextBurst = _ ∧ (a.queueFrame (a.pollFrame n k.entry)).downlink.rotation = _
    rw [hdown]
    exact ⟨rfl, rfl, rfl⟩
  · rw [hresult]
    change gradesOf (a.queueFrame (a.pollFrame n k.entry)).reefer = _ ∧ (a.queueFrame (a.pollFrame n k.entry)).reefer.interest = _
    rw [hreefer]
    exact ⟨rfl, rfl⟩

/-- A silent rack of a warm restart. -/
theorem State.Polls.restartRack_silent {t : State} {done : List RackNo} (h : s.Polls t done) (hn : n ∉ done)
    (hrec : s.rackRec n = some k) (hs : k.silence = .silent) :
    s.Polls ((t.unpolled n k).polled n { k with poll := .noPoll }) (n :: done) := by
  have hkeeps := State.unpolled_keepsAllBut (n := n) (k := k) (t := t)
  have hothers : ∀ m, m ≠ n → (t.unpolled n k).rackRec m = t.rackRec m := fun m hm =>
    (State.rackRec_setRackRec _ _ _ _).trans (if_neg hm)
  have hrecord : ∀ (w : State) (p : PollState), (∀ m, w.rackRec m =
      if m = n then some { k with poll := p } else (t.unpolled n k).rackRec m) →
      ∀ m, w.rackRec m = if m = n then some { k with poll := p } else t.rackRec m := fun w p hw m => by
    rw [hw]
    split
    · rfl
    · next hm => exact hothers m hm
  have hunqueued : ∀ b : State, (b = t.unpolled n k ∨ b = (t.unpolled n k).bumpPool 4) →
      (t.unpolled n k).queuePoll n k.entry = (b, false) →
      s.Polls ((t.unpolled n k).polled n { k with poll := .noPoll }) (n :: done) := fun b hb hq => by
    obtain ⟨hkept, hpool, hgrades, hinterest, hrecs⟩ := State.polled_unqueued (k := { k with poll := .noPoll }) hb hq
    have hrecs' := hrecord _ .notQueued hrecs
    refine h.record hn ((hkeeps.mono (by decide)).trans hkept) hpool ⟨hgrades, hinterest⟩
      (fun m hm => (hrecs' m).trans (if_neg hm)) fun x hx => ?_
    obtain rfl : k = x := Option.some.inj (hrec.symm.trans hx)
    exact .of_notQueued hs ((hrecs' n).trans (if_pos rfl))
  rcases (t.unpolled n k).queuePoll_cases n k.entry with hq | hq | ⟨hroom, hq⟩
  · exact hunqueued _ (.inl rfl) hq
  · exact hunqueued _ (.inr rfl) hq
  · obtain ⟨hkept, hpool, hdown, hgrades, hrecs⟩ := State.polled_queued (k := { k with poll := .noPoll }) hq
    have hqueues : s.hasQueues k.entry = true := by
      by_contra hno
      have hregistry : (t.unpolled n k).registry = s.registry := (hkeeps .registry (by decide)).trans (h.kept .registry (by decide))
      have hsame : (t.unpolled n k).hasQueues k.entry = s.hasQueues k.entry := by
        simp only [State.hasQueues, State.withdrawing, State.entry, hregistry]
      rw [State.queuePoll_unqueued (hsame.trans (Bool.not_eq_true _ ▸ hno))] at hq
      exact Bool.noConfusion (congrArg Prod.snd hq)
    rw [State.blocks_pollFrame] at hroom
    exact h.queued hn hrec hs hqueues hroom ((hkeeps.mono (by decide)).trans hkept) hpool hdown hgrades (hrecord _ .queued hrecs)

/-- One more rack of a warm restart. -/
theorem State.Polls.restartRack {t : State} {done : List RackNo} (h : s.Polls t done) (hn : n ∉ done) :
    s.Polls (t.restartRack n) (n :: done) := by
  have hrecs : t.rackRec n = s.rackRec n := h.others n hn
  cases hrec : s.rackRec n with
  | none =>
    rw [State.restartRack_none (hrecs.trans hrec)]
    exact h.record hn (.refl _ _) rfl ⟨rfl, rfl⟩ (fun _ _ => rfl) fun k hk => by rw [hrec] at hk; cases hk
  | some k =>
    have hk := hrecs.trans hrec
    have hsame : ∀ x, s.rackRec n = some x → x = k := fun x hx => Option.some.inj (hx.symm.trans hrec)
    cases hs : k.silence with
    | notSilent =>
      rw [State.restartRack_quiet hk hs]
      refine h.record hn (.refl _ _) rfl ⟨rfl, rfl⟩ (fun _ _ => rfl) fun x hx => ?_
      rw [hsame x hx]
      exact .of_quiet hs hk
    | dark =>
      rw [State.restartRack_dark hk hs]
      refine h.record hn (fun p hp => by cases p <;> simp_all [Part.same, State.unpolled]) rfl ⟨rfl, rfl⟩
        (fun m hm => (State.rackRec_setRackRec _ _ _ _).trans (if_neg hm)) fun x hx => ?_
      rw [hsame x hx]
      exact .of_dark hs ((State.rackRec_setRackRec _ _ _ _).trans (if_pos rfl))
    | silent =>
      rw [State.restartRack_silent hk hs]
      exact h.restartRack_silent hn hrec hs

/-- The racks of a list in turn. -/
theorem State.Polls.restartRacks {t : State} (ns : List RackNo) {done : List RackNo} (h : s.Polls t done) (hnodup : ns.Nodup)
    (hnew : ∀ n ∈ ns, n ∉ done) : s.Polls (ns.foldl State.restartRack t) (ns.reverse ++ done) := by
  induction ns generalizing t done with
  | nil => exact h
  | cons n ns ih =>
    obtain ⟨hn, hrest⟩ := List.nodup_cons.mp hnodup
    rw [List.foldl_cons, List.reverse_cons, List.append_assoc]
    refine ih (h.restartRack (hnew n List.mem_cons_self)) hrest fun m hm hmem => ?_
    rcases List.mem_cons.mp hmem with rfl | hd
    · exact hn hm
    · exact hnew m (List.mem_cons_of_mem _ hm) hd

end

end Sys2Proof.Machine
end

section
/-! PROOFS. A warm restart's parts of the links, the registry and the beam controller (R16, R33, R89, R126). -/

namespace Sys2Proof.Machine

/-! ### Steps that each write one place -/

/-- Over a list without repeats each place is written once, by its own step. -/
theorem foldl_writes {α β γ : Type} [DecidableEq β] {f : α → β → α} {view : α → β → γ} {g : β → γ → γ}
    (hf : ∀ (a : α) (b i : β), view (f a b) i = if i = b then g b (view a b) else view a i) {bs : List β} (hnodup : bs.Nodup) (a : α)
    (i : β) : view (bs.foldl f a) i = if i ∈ bs then g i (view a i) else view a i := by
  induction bs generalizing a with
  | nil => rfl
  | cons b bs ih =>
    obtain ⟨hb, hbs⟩ := List.nodup_cons.mp hnodup
    rw [List.foldl_cons, ih hbs, hf]
    by_cases hi : i = b
    · subst hi
      rw [if_neg hb, if_pos rfl, if_pos List.mem_cons_self]
    · simp [hi]

section
variable {s : State} {r : ReqRef}

/-! ### Links (R16) -/

theorem State.link_restartLinks (l : LinkNo) :
    (s.restartLinks r).link l = (s.link l).restarted (if l = r.link then some r.serial else none) := by
  have hfold := foldl_writes (view := State.link) (g := fun l k => k.restarted (if l = r.link then some r.serial else none))
    (f := fun s l => s.onLink l (fun k => k.restarted (if l = r.link then some r.serial else none)))
    (fun u b i => State.link_onLink u b i _) (List.nodup_finRange 4) { s with handed := [] } l
  rw [if_pos (List.mem_finRange l)] at hfold
  exact hfold

/-- The requests of a window that a warm restart keeps: the RESTART itself, and the one whose reply is being sent. -/
theorem Link.restarted_window (k : Link) (l : LinkNo) (r : ReqRef) :
    (k.restarted (if l = r.link then some r.serial else none)).window =
      k.window.filter (fun w => decide (l = r.link ∧ w.2 = r.serial) || some w.2 == k.sendingSerial) := by
  refine List.filter_congr fun w _ => congrArg (· || some w.2 == k.sendingSerial) ?_
  by_cases hl : l = r.link <;> simp [hl, Bool.beq_eq_decide_eq]

theorem Link.restarted_idle (k : Link) (keep : Option Nat) (h : k.sending = false ∨ k.outQ = []) :
    k.sendingSerial = none ∧ (k.restarted keep).refusal = none ∧ (k.restarted keep).outQ = [] := by
  rcases h with h | h
  · simp [Link.sendingSerial, Link.restarted, Link.sendingBusy, h]
  · cases hs : k.sending <;> simp [Link.sendingSerial, Link.restarted, Link.sendingBusy, h, hs]

theorem Link.restarted_eq (k : Link) (keep : Option Nat) : k.restarted keep = { k with
    window := (k.restarted keep).window, refusal := (k.restarted keep).refusal, outQ := (k.restarted keep).outQ, lost := 0 } := rfl

/-- A link that sends nothing, or a notice, or a reply, at a warm restart. -/
theorem Link.restarted_cases (k : Link) (l : LinkNo) (r : ReqRef) :
    let own := fun w : Byte × Nat => decide (l = r.link ∧ w.2 = r.serial)
    let t := k.restarted (if l = r.link then some r.serial else none)
    (k.sending = false ∨ k.outQ = [] → t = { k with window := k.window.filter own, refusal := none, outQ := [], lost := 0 }) ∧
    (∀ (n : Notice) (x : Nat) (q : List Msg), k.sending = true → k.outQ = .notice n x :: q →
      t = { k with window := k.window.filter own, refusal := none, outQ := [.notice n x], lost := 0 }) ∧
    (∀ (p : Reply) (q : List Msg), k.sending = true → k.outQ = .reply p :: q →
      t = { k with
        window := k.window.filter (fun w => own w || p.serial == some w.2)
        refusal := if p.serial = none then k.refusal else none
        outQ := [.reply p], lost := 0 }) := by
  intro own t
  have hwindow := k.restarted_window l r
  have hquiet : k.sendingSerial = none → t.window = k.window.filter own := fun hnone => by
    rw [hwindow, hnone]
    exact List.filter_congr fun w _ => by simp [own]
  have ht : t = { k with window := t.window, refusal := t.refusal, outQ := t.outQ, lost := 0 } := rfl
  refine ⟨fun h => ?_, fun n x q hs hq => ?_, fun p q hs hq => ?_⟩
  · obtain ⟨hnone, hrefusal, hout⟩ := k.restarted_idle (if l = r.link then some r.serial else none) h
    rw [ht, hquiet hnone, hrefusal, hout]
  · have hnone : k.sendingSerial = none := by simp [Link.sendingSerial, hs, hq]
    have hrefusal : t.refusal = none := by simp [t, Link.restarted, Link.sendingBusy, hs, hq]
    have hout : t.outQ = [.notice n x] := by simp [t, Link.restarted, hs, hq]
    rw [ht, hquiet hnone, hrefusal, hout]
  · have hserial : k.sendingSerial = p.serial := by simp [Link.sendingSerial, hs, hq]
    have hrefusal : t.refusal = if p.serial = none then k.refusal else none := by
      simp [t, Link.restarted, Link.sendingBusy, hs, hq]
    have hout : t.outQ = [.reply p] := by simp [t, Link.restarted, hs, hq]
    have hkept : t.window = k.window.filter (fun w => own w || p.serial == some w.2) := by
      rw [hwindow, hserial]
      exact List.filter_congr fun w _ => congrArg (own w || ·) Bool.beq_comm
    rw [ht, hkept, hrefusal, hout]

/-! ### The registry (R33) -/

theorem State.entry_restartRegistry (e : EntryNo) :
    s.restartRegistry.entry e = (s.entry e).restarted s.clock.ms s.clock.sec := by
  simp [State.entry, State.restartRegistry, look, State.now, State.nowSec]

/-! ### Heads and beams (R89) -/

/-- The beam controller cleared, before the heads' PROBEs are placed. -/
def State.beamsCleared (s : State) : State := { s with beamCtl := {
  heads := s.beamCtl.heads.map Head.restarted, beams := s.beamCtl.beams.map Beam.restarted, waitList := [] } }

/-- A READY head's PROBE. -/
def State.probeReady (s : State) (h : HeadNo) : State := if (s.head h).state = .ready then s.pushCmd h .probe else s

theorem State.restartBeams_eq : s.restartBeams = allHeads.foldl State.probeReady s.beamsCleared := rfl

/-- A head once its PROBE is placed. -/
def Head.probed (x : Head) (now : Time) : Head :=
  if x.state = .ready then Head.next { x with queue := x.queue ++ [.probe] } now else x

theorem State.head_probeReady (h i : HeadNo) : (s.probeReady h).head i = if i = h then (s.head h).probed s.clock.ms else s.head i := by
  unfold State.probeReady Head.probed
  split
  · rw [State.head_of_beamCtl (s.pushCmd_beamCtl h .probe), State.head_setHead]
  · split
    · next hi => rw [hi]
    · rfl

theorem State.probeReady_keepsAllBut (h : HeadNo) : s.KeepsAllBut (s.probeReady h) [.coverage, .beamCtl] :=
  State.ite_keepsAllBut (s.pushCmd_keepsAllBut h _) (.refl _ _)

theorem State.head_restartBeams (h : HeadNo) : s.restartBeams.head h = (s.head h).restarted.probed s.clock.ms := by
  have hclock : ∀ (u : State) (b : HeadNo), u.clock = s.clock → (u.probeReady b).clock = s.clock := fun u b hu =>
    (State.probeReady_keepsAllBut b .clock (by decide)).trans hu
  have hcleared : s.beamsCleared.head h = (s.head h).restarted := by simp [State.head, State.beamsCleared, look]
  obtain ⟨u, hu, hbefore, hafter⟩ := foldl_at (f := State.probeReady) (P := fun u : State => u.clock = s.clock)
    (R := fun u v : State => v.head h = u.head h) (c := h) (fun _ => rfl) (fun h g => g.trans h) hclock
    (fun u b _ hb => (State.head_probeReady b h).trans (if_neg (Ne.symm hb))) (List.nodup_finRange 12) (List.mem_finRange h)
    (s := s.beamsCleared) rfl
  rw [State.restartBeams_eq, allHeads, hafter, State.head_probeReady, if_pos rfl, hbefore, hcleared, hu]

theorem State.beam_restartBeams (b : BeamNo) : s.restartBeams.beam b = (s.beam b).restarted := by
  have hpush : ∀ (u : State) (h : HeadNo), (u.probeReady h).beamCtl.beams = u.beamCtl.beams := fun u h => by
    unfold State.probeReady
    split
    · rw [State.pushCmd_beamCtl]
      rfl
    · rfl
  rw [State.beam, State.restartBeams_eq,
    foldl_keeps (fun u : State => u.beamCtl.beams) State.probeReady hpush allHeads s.beamsCleared]
  simp [State.beamsCleared, State.beam, look]

theorem State.waitList_restartBeams : s.restartBeams.beamCtl.waitList = [] := by
  have hpush : ∀ (u : State) (h : HeadNo), (u.probeReady h).beamCtl.waitList = u.beamCtl.waitList := fun u h => by
    unfold State.probeReady
    split
    · rw [State.pushCmd_beamCtl]
      rfl
    · rfl
  rw [State.restartBeams_eq, foldl_keeps (fun u : State => u.beamCtl.waitList) State.probeReady hpush allHeads s.beamsCleared]
  rfl

/-- Nothing but PROBEs stands in the queues of READY heads. -/
def State.ProbesOnly (s : State) : Prop := ∀ h : HeadNo, (s.head h).state = .ready → ∀ c ∈ (s.head h).queue, c = .probe

theorem State.sendNext_coverage {h : HeadNo} (hprobes : ∀ c ∈ (s.head h).queue, c = .probe) : (s.sendNext h).coverage = s.coverage := by
  unfold State.sendNext
  dsimp only
  split
  · next c rest _ hq =>
    rw [hq] at hprobes
    obtain rfl : c = .probe := hprobes c List.mem_cons_self
    rfl
  · rfl

theorem State.ProbesOnly.probeReady (hs : s.ProbesOnly) (h : HeadNo) :
    (s.probeReady h).ProbesOnly ∧ (s.probeReady h).coverage = s.coverage := by
  constructor
  · intro i hready c hc
    rw [State.head_probeReady] at hready hc
    by_cases hi : i = h
    · subst hi
      rw [if_pos rfl, Head.probed] at hready hc
      by_cases hstate : (s.head i).state = .ready
      · rw [if_pos hstate] at hc
        have hqueue : ∀ d ∈ (s.head i).queue ++ [.probe], d = .probe := fun d hd =>
          (List.mem_append.mp hd).elim (hs i hstate d) List.mem_singleton.mp
        unfold Head.next at hc
        split at hc
        · next d rest _ hq =>
          refine hqueue c ?_
          have hq' : (s.head i).queue ++ [.probe] = d :: rest := hq
          rw [hq']
          exact List.mem_cons_of_mem _ hc
        · exact hqueue c hc
      · rw [if_neg hstate] at hready
        exact absurd hready hstate
    · rw [if_neg hi] at hready hc
      exact hs i hready c hc
  · unfold State.probeReady
    split
    · next hready =>
      have hqueue : ∀ c ∈ ((s.setHead h { s.head h with queue := (s.head h).queue ++ [.probe] }).head h).queue, c = .probe := by
        rw [State.head_setHead_self]
        exact fun c hc => (List.mem_append.mp hc).elim (hs h hready c) List.mem_singleton.mp
      rw [State.pushCmd, State.sendNext_coverage hqueue]
      rfl
    · rfl

theorem State.restartBeams_coverage : s.restartBeams.coverage = s.coverage := by
  have hcleared : s.beamsCleared.ProbesOnly := fun h hready c hc => by
    have hhead : s.beamsCleared.head h = (s.head h).restarted := by simp [State.head, State.beamsCleared, look]
    rw [hhead, Head.state_restarted] at hready
    rw [hhead, Head.restarted, hready] at hc
    cases hc
  have hfold : ∀ (hs : List HeadNo) (u : State), u.ProbesOnly → (hs.foldl State.probeReady u).coverage = u.coverage := by
    intro hs
    induction hs with
    | nil => exact fun _ _ => rfl
    | cons h hs ih =>
      intro u hu
      obtain ⟨hprobes, hcoverage⟩ := hu.probeReady h
      exact (ih _ hprobes).trans hcoverage
  exact hfold _ _ hcleared

end

end Sys2Proof.Machine
end

section
/-! PROOFS. RESTART clears the traffic and keeps the rest (O51: R16, R33, R89, R104, R126, R140, R157, R176). -/

namespace Sys2Proof.Machine

section
variable {s : State} {r : ReqRef}

/-! ### The units cleared, before the racks' POLLs -/

/-- The parts of the downlink queue block, of the pool and of the crane unit. -/
def State.trafficCleared (s : State) : State := ((s.restartDownlink).restartPool).restartCranes

theorem State.head_trafficCleared (h : HeadNo) : s.trafficCleared.head h = s.head h := rfl

theorem State.beam_trafficCleared (b : BeamNo) : s.trafficCleared.beam b = { s.beam b with burst := none } := by
  have hdown : s.restartDownlink.beam b = { s.beam b with burst := none } := by
    rw [State.restartDownlink, State.beam_map_beams]
    rfl
  exact hdown

theorem State.waitList_trafficCleared : s.trafficCleared.beamCtl.waitList = s.beamCtl.waitList := rfl

/-- Every unit's part of a warm restart but the reefer unit's. -/
def State.restartCleared (s : State) (r : ReqRef) : State := (((s.restartLinks r).restartRegistry).restartBeams).trafficCleared

theorem State.restartUnits_eq : s.restartUnits r = (s.restartCleared r).restartReefer.judge := rfl

theorem State.restartCleared_behind {t : State} (ht : t = (s.restartLinks r).restartRegistry) :
    t.restartBeams.KeepsAllBut (s.restartCleared r) [.beamCtl, .downlink, .pool, .cranes] := by
  subst ht
  exact (((State.restartDownlink_keepsAllBut _).mono (by decide)).step (State.restartPool_keepsAllBut _) (by decide)).step
    (State.restartCranes_keepsAllBut _) (by decide)

theorem State.link_restartCleared (l : LinkNo) :
    (s.restartCleared r).link l = (s.link l).restarted (if l = r.link then some r.serial else none) := by
  have hlinks : (s.restartCleared r).links = (s.restartLinks r).links := (State.restartCleared_behind rfl .links (by decide)).trans
    ((State.restartBeams_keepsAllBut _ .links (by decide)).trans (State.restartRegistry_keepsAllBut _ .links (by decide)))
  rw [State.link, hlinks]
  exact State.link_restartLinks l

theorem State.registry_restartCleared : (s.restartCleared r).registry = s.restartRegistry.registry := by
  have hlinks : (s.restartLinks r).registry = s.registry := State.restartLinks_keepsAllBut s r .registry (by decide)
  have hclock : (s.restartLinks r).clock = s.clock := State.restartLinks_keepsAllBut s r .clock (by decide)
  rw [State.restartCleared_behind rfl .registry (by decide), State.restartBeams_keepsAllBut _ .registry (by decide)]
  simp only [State.restartRegistry, hlinks, State.now, State.nowSec, hclock]

theorem State.restartCleared_coverage : (s.restartCleared r).coverage = s.coverage :=
  (State.restartCleared_behind rfl .coverage (by decide)).trans (State.restartBeams_coverage.trans
    (((State.restartRegistry_keepsAllBut _) .coverage (by decide)).trans (State.restartLinks_keepsAllBut s r .coverage (by decide))))

theorem State.restartCleared_keepsAllBut :
    s.KeepsAllBut (s.restartCleared r) [.links, .handed, .registry, .coverage, .beamCtl, .downlink, .pool, .cranes] :=
  ((((s.restartLinks_keepsAllBut r).mono (by decide)).step (State.restartRegistry_keepsAllBut _) (by decide)).step
    (State.restartBeams_keepsAllBut _) (by decide)).step (State.restartCleared_behind rfl) (by decide)

theorem State.restartLinks_before : ((s.restartLinks r).restartRegistry).beamCtl = s.beamCtl ∧
    ((s.restartLinks r).restartRegistry).clock = s.clock := by
  have hkept : s.KeepsAllBut (s.restartLinks r).restartRegistry [.links, .handed, .registry] :=
    ((s.restartLinks_keepsAllBut r).mono (by decide)).step (State.restartRegistry_keepsAllBut _) (by decide)
  exact ⟨hkept .beamCtl (by decide), hkept .clock (by decide)⟩

theorem State.head_restartCleared (h : HeadNo) : (s.restartCleared r).head h = (s.head h).restarted.probed s.clock.ms := by
  obtain ⟨hbeams, hclock⟩ := State.restartLinks_before (s := s) (r := r)
  have hhead := State.head_restartBeams (s := (s.restartLinks r).restartRegistry) h
  rw [State.head_of_beamCtl hbeams, hclock] at hhead
  rw [State.restartCleared, State.head_trafficCleared, hhead]

theorem State.beam_restartCleared (b : BeamNo) : (s.restartCleared r).beam b = { (s.beam b).restarted with burst := none } := by
  obtain ⟨hbeams, -⟩ := State.restartLinks_before (s := s) (r := r)
  have hbeam := State.beam_restartBeams (s := (s.restartLinks r).restartRegistry) b
  rw [State.beam_of_beamCtl hbeams] at hbeam
  rw [State.restartCleared, State.beam_trafficCleared, hbeam]

theorem State.waitList_restartCleared : (s.restartCleared r).beamCtl.waitList = [] := by
  rw [State.restartCleared, State.waitList_trafficCleared]
  exact State.waitList_restartBeams

theorem State.restartCleared_downlink : (s.restartCleared r).downlink = { s.downlink with waiting := [] } := by
  have hdown : ((s.restartLinks r).restartRegistry).restartBeams.downlink = s.downlink :=
    (State.restartBeams_keepsAllBut _ .downlink (by decide)).trans (((State.restartRegistry_keepsAllBut _) .downlink (by decide)).trans
      (State.restartLinks_keepsAllBut s r .downlink (by decide)))
  rw [← hdown]
  rfl

theorem State.restartCleared_pool : (s.restartCleared r).pool = { s.pool with
    free := 4096, paused := false, repeatsSent := 0, nextRepeat := none, queues := Vector.replicate 4 []
    dropped := Vector.replicate 4 0 } := by
  have hpool : (((s.restartLinks r).restartRegistry).restartBeams).restartDownlink.pool = s.pool :=
    (State.restartDownlink_keepsAllBut _ .pool (by decide)).trans ((State.restartBeams_keepsAllBut _ .pool (by decide)).trans
      (((State.restartRegistry_keepsAllBut _) .pool (by decide)).trans (State.restartLinks_keepsAllBut s r .pool (by decide))))
  rw [← hpool]
  rfl

theorem State.restartCleared_cranes : (s.restartCleared r).cranes = { s.cranes with
    records := s.cranes.records.map (Option.map (fun k => { k with watch := none, reported := [] })) } := by
  have hcranes : ((((s.restartLinks r).restartRegistry).restartBeams).restartDownlink).restartPool.cranes = s.cranes :=
    (State.restartPool_keepsAllBut _ .cranes (by decide)).trans ((State.restartDownlink_keepsAllBut _ .cranes (by decide)).trans
      ((State.restartBeams_keepsAllBut _ .cranes (by decide)).trans (((State.restartRegistry_keepsAllBut _) .cranes (by decide)).trans
        (State.restartLinks_keepsAllBut s r .cranes (by decide)))))
  rw [← hcranes]
  rfl

/-! ### The POLLs, and the pool's comparison -/

theorem State.polls_restartReefer : (s.restartCleared r).Polls (s.restartCleared r).restartReefer (allRacks.reverse ++ []) :=
  (State.Polls.start (by rw [State.restartCleared_downlink])).restartRacks allRacks (List.nodup_finRange 240)
    fun _ _ => List.not_mem_nil

theorem framesBlocks_of_ones {fs : List Frame} (h : ∀ f ∈ fs, f.blocks = 1) : framesBlocks fs = fs.length := by
  rw [framesBlocks, List.map_congr_left h, List.map_const', List.sum_replicate, smul_eq_mul, mul_one]

/-- A pool that is not paused and stands at its pause mark or above makes nothing of a comparison. -/
theorem State.judge_calm (hpaused : s.pool.paused = false) (hfree : s.param pPauseMark ≤ s.pool.free) : s.judge = s := by
  unfold State.judge
  rw [hpaused, if_neg, if_neg]
  · simp
  · simpa using hfree

theorem State.paramsInRange.pauseMark_le (h : s.paramsInRange) : s.param pPauseMark ≤ 2048 := (h pPauseMark).2

/-- With the parameters in range the POLLs never bring the pool to its pause mark. -/
theorem State.restartUnits_calm (hrange : s.paramsInRange) : s.restartUnits r = (s.restartCleared r).restartReefer := by
  have hpolls := State.polls_restartReefer (s := s) (r := r)
  obtain ⟨hpaused, -⟩ := hpolls.quiet
  have hblocks := framesBlocks_of_ones fun f hf => (hpolls.frames f hf).1
  have hfew := hpolls.few
  have hbalance := hpolls.balance
  have hsettings : (s.restartCleared r).restartReefer.settings = s.settings := (hpolls.kept .settings (by decide)).trans
    (State.restartCleared_keepsAllBut .settings (by decide))
  have hmark : (s.restartCleared r).restartReefer.param pPauseMark ≤ 2048 := by
    rw [State.param, hsettings]
    exact hrange.pauseMark_le
  rw [List.append_nil, List.length_reverse, allRacks, List.length_finRange] at hfew
  rw [State.restartCleared_pool] at hpaused hbalance
  have hfree : 2048 ≤ (s.restartCleared r).restartReefer.pool.free := by
    dsimp only at hbalance
    omega
  rw [State.restartUnits_eq]
  exact State.judge_calm hpaused (Nat.le_trans hmark hfree)

end

end Sys2Proof.Machine
end

section
/-! PROOFS. RESTART and RESTART_ANSWER (O51: R176). -/

namespace Sys2Proof.Machine

section
variable {s : State} {r : Request}

/-- A warm restart begun: its request held, and counted. -/
def State.restartBegun (s : State) (r : Request) : State :=
  State.bumpSet { s.taken r with settings := { (s.taken r).settings with restart := some r.ref } } 9

/-- The state behind RESTART. -/
def State.restarted (s : State) (r : Request) : State := (s.restartBegun r).restartUnits r.ref

theorem exec_restart (hasks : s.Asks .restart r) (hbody : r.body = []) : exec (.restart r.ref.link) s =
    .next (if s.settings.restart.isSome then ((s.taken r).bumpSet 10).answer r.ref .busy else s.restarted r) :=
  exec_asks_reading (c := .restart) (v := ()) (f := fun u (_ : Unit) =>
    if u.settings.restart.isSome then (u.bumpSet 10).answer r.ref .busy
    else State.restartUnits (State.bumpSet { u with settings := { u.settings with restart := some r.ref } } 9) r.ref)
    hasks (fun _ => rfl) (by rw [hbody]; rfl)

theorem State.restartBegun_settings : (s.restartBegun r).settings =
    { s.settings with restart := some r.ref, counters := bump s.settings.counters 9 } := rfl

theorem State.restartBegun_keepsAllBut : (s.taken r).KeepsAllBut (s.restartBegun r) [.settings] := fun p hp => by
  cases p <;> simp_all [Part.same, State.restartBegun]

/-- The state of the units cleared, as a restart's request finds it. -/
def State.unitsCleared (s : State) (r : Request) : State := (s.restartBegun r).restartCleared r.ref

theorem State.restarted_eq : s.restarted r = (s.unitsCleared r).restartReefer.judge := State.restartUnits_eq

theorem State.restarted_polls : (s.unitsCleared r).Polls (s.unitsCleared r).restartReefer (allRacks.reverse ++ []) :=
  State.polls_restartReefer

/-- What the POLLs and the pool's comparison leave as the clearing made it. -/
theorem State.unitsCleared_behind : (s.unitsCleared r).KeepsAllBut (s.restarted r) [.links, .pool, .downlink, .reefer] := by
  rw [State.restarted_eq]
  exact (State.restarted_polls.kept.mono (by decide)).step (State.judge_keepsAllBut _) (by decide)

theorem State.restarted_keepsAllBut : (s.taken r).KeepsAllBut (s.restarted r)
    [.links, .handed, .registry, .beamCtl, .pool, .downlink, .cranes, .reefer, .settings] := by
  have hcleared : (s.taken r).KeepsAllBut (s.unitsCleared r)
      [.links, .handed, .registry, .beamCtl, .pool, .downlink, .cranes, .reefer, .settings] := fun p hp => by
    by_cases hcov : p = .coverage
    · subst hcov
      exact State.restartCleared_coverage
    · exact ((State.restartBegun_keepsAllBut.mono (by decide)).trans (State.restartCleared_keepsAllBut.mono
        (qs := [.links, .handed, .registry, .coverage, .beamCtl, .pool, .downlink, .cranes, .reefer, .settings]) (by decide))) p
        (by cases p <;> simp_all)
  exact hcleared.step State.unitsCleared_behind (by decide)

/-! ### The settings and the links -/

theorem State.restarted_settings : (s.restarted r).settings =
    { s.settings with restart := some r.ref, counters := bump s.settings.counters 9 } :=
  (State.settings_restartUnits _ _).trans State.restartBegun_settings

theorem State.restarted_calm (hrange : s.paramsInRange) : s.restarted r = (s.unitsCleared r).restartReefer :=
  State.restartUnits_calm (s := s.restartBegun r) hrange

theorem State.link_restarted (hrange : s.paramsInRange) (l : LinkNo) : (s.restarted r).link l =
    (s.link l).restarted (if l = r.ref.link then some r.ref.serial else none) := by
  have hlinks : (s.restarted r).links = (s.unitsCleared r).links := by
    rw [State.restarted_calm hrange]
    exact State.restarted_polls.kept .links (by decide)
  rw [State.link, hlinks]
  exact State.link_restartCleared l

/-! ### The registry, the heads and the beams -/

theorem State.registry_restarted : (s.restarted r).registry = { s.registry with
    entries := s.registry.entries.map (fun x => x.restarted s.clock.ms s.clock.sec) } := by
  rw [State.unitsCleared_behind .registry (by decide)]
  exact State.registry_restartCleared

theorem State.entry_restarted (e : EntryNo) : (s.restarted r).entry e = (s.entry e).restarted s.clock.ms s.clock.sec := by
  rw [State.entry, State.registry_restarted]
  simp [State.entry, look]

theorem State.beam_restarted (b : BeamNo) : (s.restarted r).beam b = { (s.beam b).restarted with burst := none } := by
  rw [State.beam_of_beamCtl (State.unitsCleared_behind .beamCtl (by decide))]
  exact State.beam_restartCleared b

theorem State.head_restarted (h : HeadNo) : (s.restarted r).head h = (s.head h).restarted.probed s.clock.ms := by
  rw [State.head_of_beamCtl (State.unitsCleared_behind .beamCtl (by decide))]
  exact State.head_restartCleared h

theorem State.waitList_restarted : (s.restarted r).beamCtl.waitList = [] := by
  rw [State.unitsCleared_behind .beamCtl (by decide)]
  exact State.waitList_restartCleared

theorem Beam.restarted_beams (x : Beam) : (x.state = .down → x.restarted.state = .down) ∧
    (x.state ≠ .down → ({ x.restarted with burst := none } : Beam) =
      { state := .idle, seg := none, holders := LinkSet.none, awaiting := [], oneShot := false, burst := none
        releaseDeferred := false, closePending := none }) :=
  ⟨fun h => by rw [Beam.restarted, if_pos h, h], fun h => by rw [Beam.restarted, if_neg h]; rfl⟩

theorem Head.restarted_heads (x : Head) (now : Time) :
    (x.state = .offline → x.restarted.probed now = x) ∧
    (x.state = .fault → x.restarted.probed now = { x with queue := [], retryAt := none }) ∧
    (x.state = .ready → (x.restarted.probed now).state = .ready ∧ (x.restarted.probed now).survey = .due ∧
      (x.restarted.probed now).restartProbe = true ∧ (x.restarted.probed now).retryAt = none ∧
      (x.outstanding = none → (x.restarted.probed now).queue = [] ∧ (x.restarted.probed now).outstanding =
        some { cmd := .probe, number := x.nextNumber, sentAt := now, leftToFinish := false }) ∧
      (∀ o : Outstanding, x.outstanding = some o → (x.restarted.probed now).queue = [.probe] ∧
        (x.restarted.probed now).outstanding = some { o with leftToFinish := true })) := by
  refine ⟨fun h => ?_, fun h => ?_, fun h => ?_⟩
  · have hsame : x.restarted = x := by rw [Head.restarted, h]
    rw [hsame, Head.probed, if_neg (by rw [h]; decide)]
  · have hsame : x.restarted = { x with queue := [], retryAt := none } := by rw [Head.restarted, h]
    rw [hsame, Head.probed, if_neg (by dsimp only; rw [h]; decide)]
  · have hsame : x.restarted = { x with
        queue := [], retryAt := none, survey := .due, restartProbe := true
        outstanding := x.outstanding.map (fun o => { o with leftToFinish := true }) } := by rw [Head.restarted, h]
    have hready : x.restarted.state = .ready := (Head.state_restarted x).trans h
    rw [Head.probed, if_pos hready]
    cases hout : x.outstanding with
    | none => simp [Head.next, hsame, hout, h]
    | some o => simp [Head.next, hsame, hout, h]

/-! ### The pool, the downlink, the cranes and the racks -/

theorem State.unitsCleared_pool : (s.unitsCleared r).pool = { s.pool with
    free := 4096, paused := false, repeatsSent := 0, nextRepeat := none, queues := Vector.replicate 4 []
    dropped := Vector.replicate 4 0 } := State.restartCleared_pool

theorem State.restarted_deliveries (l : LinkNo) : look (s.restarted r).pool.queues l = [] ∧ look (s.restarted r).pool.dropped l = 0 := by
  obtain ⟨-, -, -, hqueues, hdropped⟩ := State.restarted_polls (s := s) (r := r).quiet
  obtain ⟨gqueues, -, gdropped, -⟩ := (s.unitsCleared r).restartReefer.judge_pool_keeps
  rw [State.restarted_eq, gqueues, gdropped, hqueues, hdropped]
  rw [State.unitsCleared_pool]
  simp [look]

theorem State.restarted_quiet (hrange : s.paramsInRange) : (s.restarted r).pool.paused = false ∧
    (s.restarted r).pool.nextRepeat = none ∧ (s.restarted r).pool.repeatsSent = 0 := by
  obtain ⟨hpaused, hrepeat, hsent, -⟩ := State.restarted_polls (s := s) (r := r).quiet
  rw [State.restarted_calm hrange, hpaused, hrepeat, hsent]
  rw [State.unitsCleared_pool]
  exact ⟨rfl, rfl, rfl⟩

theorem State.restarted_downlink : (s.restarted r).downlink = (s.unitsCleared r).restartReefer.downlink := by
  rw [State.restarted_eq]
  exact (State.judge_frame _).2.2.2.2.2.2.1

theorem State.restarted_balance : (s.restarted r).pool.free + framesBlocks (s.restarted r).downlink.waiting = 4096 := by
  have hbalance := State.restarted_polls (s := s) (r := r).balance
  obtain ⟨-, hfree, -⟩ := (s.unitsCleared r).restartReefer.judge_pool_keeps
  rw [State.unitsCleared_pool] at hbalance
  rw [State.restarted_downlink, State.restarted_eq, hfree]
  exact hbalance

theorem State.rackRec_unitsCleared (n : RackNo) : (s.unitsCleared r).rackRec n = s.rackRec n := by
  have hreefer : (s.unitsCleared r).reefer = s.reefer := State.restartCleared_keepsAllBut (s := s.restartBegun r) .reefer (by decide)
  exact State.rackRec_of_reefer hreefer n

theorem State.hasQueues_unitsCleared (e : EntryNo) : (s.unitsCleared r).hasQueues e = s.hasQueues e := by
  have hentry : ∀ f, (s.unitsCleared r).entry f = (s.entry f).restarted s.clock.ms s.clock.sec := fun f => by
    rw [State.entry, State.unitsCleared, State.registry_restartCleared]
    exact State.entry_restartRegistry (s := s.restartBegun r) f
  simp only [State.hasQueues, State.withdrawing, hentry]
  rfl

/-- The frames that wait are the POLLs that silent racks were queued. -/
theorem State.restarted_frames : ∀ f ∈ (s.restarted r).downlink.waiting, f.origin = none ∧ f.cls = .bulk ∧ f.attempts = 0 ∧
    f.accept = s.clock.ms ∧ ∃ (n : RackNo) (k : RackRec), s.rackRec n = some k ∧ k.silence = .silent ∧ k.entry = f.terminal := by
  rw [State.restarted_downlink]
  intro f hf
  obtain ⟨-, horigin, hcls, hattempts, haccept, n, k, hrec, hsilent, hentry⟩ := State.restarted_polls.frames f hf
  have hclock : (s.unitsCleared r).clock = s.clock := State.restartCleared_keepsAllBut (s := s.restartBegun r) .clock (by decide)
  rw [State.rackRec_unitsCleared] at hrec
  exact ⟨horigin, hcls, hattempts, by rw [haccept, hclock], n, k, hrec, hsilent, hentry⟩

theorem State.restarted_numbers : (s.restarted r).downlink.nextBurst = s.downlink.nextBurst ∧
    (s.restarted r).downlink.rotation = s.downlink.rotation := by
  obtain ⟨hburst, hrotation⟩ := State.restarted_polls (s := s) (r := r).numbers
  have hdown : (s.unitsCleared r).downlink = { s.downlink with waiting := [] } := State.restartCleared_downlink
  rw [hdown] at hburst hrotation
  rw [State.restarted_downlink]
  exact ⟨hburst, hrotation⟩

theorem State.restarted_cranes : (s.restarted r).cranes = { s.cranes with
    records := s.cranes.records.map (Option.map (fun k => { k with watch := none, reported := [] })) } :=
  (State.unitsCleared_behind .cranes (by decide)).trans State.restartCleared_cranes

theorem State.restarted_reefer : (s.restarted r).reefer = (s.unitsCleared r).restartReefer.reefer := by
  rw [State.restarted_eq]
  exact (State.judge_frame _).2.2.2.2.2.2.2.2.1

theorem State.restarted_rack {n : RackNo} {k : RackRec} (hrec : s.rackRec n = some k) : s.RackPolled (s.restarted r) n k := by
  have hmem : n ∈ allRacks.reverse ++ [] := List.mem_append_left _ (List.mem_reverse.mpr (List.mem_finRange n))
  have hrec' : (s.unitsCleared r).rackRec n = some k := (State.rackRec_unitsCleared n).trans hrec
  obtain ⟨p, hp, hquiet, hdark, hsilent⟩ := State.restarted_polls (s := s) (r := r).polled n hmem k hrec'
  rw [State.hasQueues_unitsCleared, ← State.restarted_downlink] at hsilent
  exact ⟨p, (State.rackRec_of_reefer State.restarted_reefer n).trans hp, hquiet, hdark, hsilent⟩

theorem State.restarted_slots : (s.restarted r).reefer.slots = s.reefer.slots ∧ (s.restarted r).reefer.alarms = s.reefer.alarms ∧
    (s.restarted r).reefer.interest = s.reefer.interest := by
  obtain ⟨hgrades, hinterest⟩ := State.restarted_polls (s := s) (r := r).slots
  have hreefer : (s.unitsCleared r).reefer = s.reefer := State.restartCleared_keepsAllBut (s := s.restartBegun r) .reefer (by decide)
  rw [hreefer] at hgrades hinterest
  simp only [gradesOf, Prod.mk.injEq] at hgrades
  obtain ⟨hslots, halarms⟩ := hgrades
  rw [State.restarted_reefer]
  exact ⟨hslots, halarms, hinterest⟩

/-! ### RESTART_ANSWER -/

theorem State.answerRestart_links (q : ReqRef) : (s.answerRestart q).link q.link =
      (s.link q.link).reply q .ok (.times s.clock.ms s.clock.sec) ∧
    ∀ l : LinkNo, l ≠ q.link → (s.answerRestart q).link l =
      (s.link l).raise (.restarted s.clock.ms s.clock.sec s.settings.source q.link) := by
  have hreply : ∀ l, (s.reply q .ok (.times s.clock.ms s.clock.sec)).link l =
      if l = q.link then (s.link q.link).reply q .ok (.times s.clock.ms s.clock.sec) else s.link l := fun l =>
    State.link_onLink s q.link l _
  have hraise := fun l => (s.reply q .ok (.times s.clock.ms s.clock.sec)).raiseWhere_link (fun l _ => l != q.link)
    (.restarted s.clock.ms s.clock.sec s.settings.source q.link) l
  have hlink : ∀ l, (s.answerRestart q).link l = ((s.reply q .ok (.times s.clock.ms s.clock.sec)).raiseWhere
      (fun l _ => l != q.link) (.restarted s.clock.ms s.clock.sec s.settings.source q.link)).link l := fun l => by
    unfold State.answerRestart
    simp only [State.now, State.nowSec, State.reply_frame]
    rfl
  refine ⟨?_, fun l hl => ?_⟩
  · rw [hlink, hraise, hreply, if_pos rfl]
    simp
  · rw [hlink, hraise, hreply, if_neg hl]
    simp [hl]

theorem State.answerRestart_settings (q : ReqRef) : (s.answerRestart q).settings = { s.settings with restart := none } := by
  simp [State.answerRestart]

theorem State.answerRestart_keepsAllBut (q : ReqRef) : s.KeepsAllBut (s.answerRestart q) [.links, .settings] := fun p hp => by
  cases p <;> simp_all [Part.same, State.answerRestart]

end

/-- Settles O51. -/
theorem restartClearsTrafficAndKeepsTheRest : Obligations.RestartClearsTrafficAndKeepsTheRest := by
  unfold Obligations.RestartClearsTrafficAndKeepsTheRest
  refine ⟨fun r s hasks hbody hbusy => ?_, fun r s hasks hbody hfree => ?_, fun s hnone => ?_, fun s q hsome => ?_⟩
  · rw [exec_restart hasks hbody, if_pos (Option.isSome_iff_ne_none.mpr hbusy)]
  · refine ⟨s.restarted r, ?_, State.restarted_settings, State.handed_restartUnits _ _, fun hrange l => ?_, fun e => ?_, ?_, ?_, ?_, ?_,
      ?_, State.waitList_restarted, fun b => ?_, fun h => ?_, State.restarted_deliveries, State.restarted_quiet, State.restarted_balance,
      State.restarted_frames, State.restarted_numbers.1, State.restarted_numbers.2, fun c => ?_, ?_, fun n k => State.restarted_rack,
      State.restarted_slots.1, State.restarted_slots.2.1, State.restarted_slots.2.2, State.restarted_keepsAllBut⟩
    · rw [exec_restart hasks hbody, if_neg (by simp [hfree])]
    · intro k own
      rw [State.link_restarted hrange]
      exact k.restarted_cases l r.ref
    · exact State.entry_restarted e
    · rw [State.registry_restarted]
    · rw [State.registry_restarted]
    · rw [State.registry_restarted]
    · rw [State.registry_restarted]
    · rw [State.registry_restarted]
    · obtain ⟨hdown, hup⟩ := (s.beam b).restarted_beams
      rw [State.beam_restarted]
      exact ⟨rfl, hdown, hup⟩
    · rw [State.head_restarted]
      exact (s.head h).restarted_heads s.clock.ms
    · rw [State.craneRec, State.restarted_cranes]
      simp [State.craneRec, look]
    · rw [State.restarted_cranes]
  · simp only [exec, execRestartAnswer, hnone]
  · refine ⟨s.answerRestart q, ?_, State.answerRestart_settings q, (State.answerRestart_links q).1, (State.answerRestart_links q).2,
      State.answerRestart_keepsAllBut q⟩
    simp only [exec, execRestartAnswer, hsome]

end Sys2Proof.Machine
end

section
/-! PROOFS. What a copy of the settings gives once its fields are corrected (O6: R173, R174, R184). -/

namespace Sys2Proof.Machine

section
variable {bs : List Byte}

/-! ### Numbers and links -/

theorem wordAt_toNat (bs : List Byte) (i : Nat) : (wordAt bs i).toNat =
    (((byteAt bs i).toNat * 256 + (byteAt bs (i + 1)).toNat) * 256 + (byteAt bs (i + 2)).toNat) * 256 + (byteAt bs (i + 3)).toNat := by
  have happend : ∀ {n m : Nat} (x : BitVec n) (y : BitVec m), (x ++ y).toNat = x.toNat * 2 ^ m + y.toNat := fun x y => by
    rw [BitVec.toNat_append, ← Nat.shiftLeft_add_eq_or_of_lt y.isLt, Nat.shiftLeft_eq]
  simp only [wordAt, word, happend]
  ring

theorem loadLink_ax (l : LinkNo) : (loadLink bs l).1.1.val =
    if (byteAt bs (8 + 2 * l.val)).toNat < 16 then (byteAt bs (8 + 2 * l.val)).toNat else 0 := by
  unfold loadLink
  dsimp only
  split <;> rfl

theorem loadLink_corrected (l : LinkNo) : (loadLink bs l).2 =
    (if decide (16 ≤ (byteAt bs (8 + 2 * l.val)).toNat) then 1 else 0) +
      (if decide (8 ≤ (byteAt bs (9 + 2 * l.val)).toNat) then 1 else 0) := by
  have hnot : ∀ a n : Nat, (if a < n then 0 else 1) = if decide (n ≤ a) then 1 else 0 := fun a n => by
    by_cases h : a < n
    · rw [if_pos h, if_neg (by simpa using h)]
    · rw [if_neg h, if_pos (by simpa using h)]
  unfold loadLink
  dsimp only
  rw [hnot, hnot]

theorem links_corrected : ((Vector.ofFn (loadLink bs)).toList.map Prod.snd).sum =
    (allLinks.filter (fun l => 16 ≤ (byteAt bs (8 + 2 * l.val)).toNat)).length +
      (allLinks.filter (fun l => 8 ≤ (byteAt bs (9 + 2 * l.val)).toNat)).length := by
  rw [← sum_map_ite_one, ← sum_map_ite_one, ← List.sum_map_add, Vector.toList_ofFn, List.map_ofFn, List.ofFn_eq_map]
  exact congrArg List.sum (List.map_congr_left fun l _ => loadLink_corrected l)

/-! ### Heads -/

/-- The reach window that a copy's row states. -/
def statedReach (bs : List Byte) (h : HeadNo) : Reach :=
  { first := (byteAt bs (17 + 3 * h.val)).toNat, len := (byteAt bs (18 + 3 * h.val)).toNat }

theorem loadHead_eq (h : HeadNo) : loadHead bs h =
    if (byteAt bs (16 + 3 * h.val)).toNat = 1 ∧ reachOk (statedReach bs h) = true then (some (statedReach bs h), 0)
    else (none, if decide ((byteAt bs (16 + 3 * h.val)).toNat ≠ 0 ∧
      ¬((byteAt bs (16 + 3 * h.val)).toNat = 1 ∧ reachOk (statedReach bs h) = true)) then 1 else 0) := by
  have hone : byteAt bs (16 + 3 * h.val) = 1 ↔ (byteAt bs (16 + 3 * h.val)).toNat = 1 := BitVec.toNat_inj.symm
  have hzero : byteAt bs (16 + 3 * h.val) = 0 ↔ (byteAt bs (16 + 3 * h.val)).toNat = 0 := BitVec.toNat_inj.symm
  unfold loadHead
  simp only [hone, hzero]
  by_cases h0 : (byteAt bs (16 + 3 * h.val)).toNat = 0
  · simp [h0]
  · by_cases h1 : (byteAt bs (16 + 3 * h.val)).toNat = 1 ∧ reachOk (statedReach bs h) = true
    · rw [if_neg h0, if_pos h1]
      exact if_pos h1
    · rw [if_neg h0, if_neg h1, if_pos (decide_eq_true ⟨h0, h1⟩)]
      exact if_neg h1

theorem heads_corrected : ((Vector.ofFn (loadHead bs)).toList.map Prod.snd).sum =
    (allHeads.filter (fun h => (byteAt bs (16 + 3 * h.val)).toNat ≠ 0 ∧
      ¬((byteAt bs (16 + 3 * h.val)).toNat = 1 ∧ reachOk (statedReach bs h) = true))).length := by
  rw [← sum_map_ite_one, Vector.toList_ofFn, List.map_ofFn, List.ofFn_eq_map]
  refine congrArg List.sum (List.map_congr_left fun h _ => ?_)
  rw [Function.comp_apply, loadHead_eq]
  split
  · next hgood => rw [if_neg (by simp [hgood])]
  · rfl

/-! ### Marks -/

variable {heads : Vector (Option Reach) 12} {x y : Byte}

theorem loadMark_some {h : HeadNo} {g : SegNo} : loadMark heads x y = some (h, g) ↔
    (x.toNat = h.val ∧ y.toNat = g.val) ∧ (look heads h).any (fun w => w.has g) = true := by
  unfold loadMark
  constructor
  · intro hsome
    dsimp only at hsome
    split_ifs at hsome with hh hg hany
    cases hsome
    exact ⟨⟨rfl, rfl⟩, hany⟩
  · rintro ⟨⟨hx, hy⟩, hany⟩
    have hh : (⟨x.toNat, hx ▸ h.isLt⟩ : HeadNo) = h := Fin.ext hx
    have hg : (⟨y.toNat, hy ▸ g.isLt⟩ : SegNo) = g := Fin.ext hy
    rw [dif_pos (hx ▸ h.isLt), dif_pos (hy ▸ g.isLt)]
    dsimp only
    rw [hh, hg, if_pos hany]

theorem loadMark_none : loadMark heads x y = none ↔ ∀ (h : HeadNo) (g : SegNo), x.toNat = h.val ∧ y.toNat = g.val →
    (look heads h).any (fun w => w.has g) = false := by
  rw [Option.eq_none_iff_forall_ne_some, Prod.forall]
  refine forall_congr' fun h => forall_congr' fun g => ?_
  rw [Ne, loadMark_some, not_and, Bool.not_eq_true]

theorem marks_corrected : ((loadMarks bs heads).filter Option.isNone).length =
    ((List.range (byteAt bs 128).toNat).filter (fun i => ∀ (h : HeadNo) (g : SegNo),
      (byteAt bs (129 + 2 * i)).toNat = h.val ∧ (byteAt bs (130 + 2 * i)).toNat = g.val →
      (look heads h).any (fun w => w.has g) = false)).length := by
  rw [loadMarks, List.filter_map, List.length_map]
  refine congrArg List.length (List.filter_congr fun i _ => ?_)
  rw [Function.comp_apply, Bool.eq_iff_iff, Option.isNone_iff_eq_none, loadMark_none, decide_eq_true_iff]

theorem contains_loadMarks {h : HeadNo} {g : SegNo} (hany : (look heads h).any (fun w => w.has g) = true) :
    ((loadMarks bs heads).filterMap id).contains (h, g) = true ↔ ∃ i : Nat, i < (byteAt bs 128).toNat ∧
      (byteAt bs (129 + 2 * i)).toNat = h.val ∧ (byteAt bs (130 + 2 * i)).toNat = g.val := by
  rw [List.contains_iff_mem, List.mem_filterMap]
  simp only [loadMarks, List.mem_map, List.mem_range, id]
  constructor
  · rintro ⟨_, ⟨i, hi, rfl⟩, hsome⟩
    exact ⟨i, hi, (loadMark_some.mp hsome).1⟩
  · rintro ⟨i, hi, hnames⟩
    exact ⟨_, ⟨i, hi, rfl⟩, loadMark_some.mpr ⟨hnames, hany⟩⟩

/-! ### Parameters -/

/-- The value that a copy states for a parameter. -/
def statedParam (bs : List Byte) (i : Fin 19) : Nat := (wordAt bs (52 + 4 * i.val)).toNat

/-- One parameter of a copy, clamped against those already corrected. -/
def loadParam (bs : List Byte) (acc : Vector Nat 19 × Nat) (i : Fin 19) : Vector Nat 19 × Nat :=
  (put acc.1 i (inRange acc.1 i (statedParam bs i)), acc.2 + if inRange acc.1 i (statedParam bs i) ≠ statedParam bs i then 1 else 0)

theorem loadParams_eq : loadParams bs = (List.finRange 19).foldl (loadParam bs) (paramDefaults, 0) := by
  unfold loadParams
  congr 1
  funext acc i
  have hclamped := clampParam_clamped acc.1 i (statedParam bs i)
  rw [loadParam, ← clampParam_value acc.1 i (statedParam bs i)] at *
  refine Prod.ext rfl (congrArg (acc.2 + ·) ?_)
  exact if_congr (hclamped.trans ne_comm) rfl rfl

theorem paramRange_congr {ps qs : Vector Nat 19} {i : Fin 19} (hlower : ∀ j, j < i → look qs j = look ps j) :
    paramRange qs i = paramRange ps i := by
  by_cases h8 : i = 8
  · subst h8
    exact congrArg (fun n => (n + 64, 3072)) (hlower pPauseMark (by decide))
  by_cases h17 : i = 17
  · subst h17
    exact congrArg (fun n => (n + 10, 500000)) (hlower pDoseWarn (by decide))
  · revert h8 h17
    fin_cases i <;> simp [paramRange]

theorem inRange_congr {ps qs : Vector Nat 19} {i : Fin 19} (hlower : ∀ j, j < i → look qs j = look ps j) (v : Nat) :
    inRange qs i v = inRange ps i v := by
  rw [inRange, paramRange_congr hlower, inRange]

/-- The parameters taken in ascending number: each stands within its range, judged against those that a load leaves. -/
theorem loadParam_fold (is : List (Fin 19)) (hsorted : is.Pairwise (· < ·)) (acc : Vector Nat 19 × Nat) :
    let t := is.foldl (loadParam bs) acc
    (∀ i ∈ is, look t.1 i = inRange t.1 i (statedParam bs i)) ∧ (∀ i, i ∉ is → look t.1 i = look acc.1 i) ∧
      t.2 = acc.2 + (is.filter (fun i => look t.1 i ≠ statedParam bs i)).length := by
  induction is generalizing acc with
  | nil => exact ⟨fun i hi => absurd hi List.not_mem_nil, fun _ _ => rfl, rfl⟩
  | cons i is ih =>
    obtain ⟨hfirst, hrest⟩ := List.pairwise_cons.mp hsorted
    obtain ⟨hheld, hother, hcount⟩ := ih hrest (loadParam bs acc i)
    rw [List.foldl_cons]
    generalize is.foldl (loadParam bs) (loadParam bs acc i) = t at *
    have hnot : i ∉ is := fun hmem => absurd (hfirst i hmem) (lt_irrefl i)
    have hbelow : ∀ j, j < i → look t.1 j = look acc.1 j := fun j hj => by
      rw [hother j fun hmem => absurd (hj.trans (hfirst j hmem)) (lt_irrefl j)]
      exact look_put_ne _ _ hj.ne
    have hown : look t.1 i = inRange acc.1 i (statedParam bs i) := (hother i hnot).trans (look_put_self _ _ _)
    refine ⟨fun j hj => ?_, fun j hj => ?_, ?_⟩
    · rcases List.mem_cons.mp hj with rfl | hj
      · rw [hown, inRange_congr hbelow]
      · exact hheld j hj
    · obtain ⟨hne, hmem⟩ := not_or.mp (mt List.mem_cons.mpr hj)
      exact (hother j hmem).trans (look_put_ne _ _ hne)
    · rw [hcount, List.filter_cons, loadParam, ← hown]
      by_cases hsame : look t.1 i = statedParam bs i
      · rw [if_neg (not_not.mpr hsame), if_neg (by simpa using hsame)]
        rfl
      · rw [if_pos hsame, if_pos (by simpa using hsame), List.length_cons]
        omega

theorem inRange_le {ps : Vector Nat 19} {i : Fin 19} {v : Nat} (h : (paramRange ps i).1 ≤ (paramRange ps i).2) :
    inRange ps i v = max (paramRange ps i).1 (min (paramRange ps i).2 v) := by
  unfold inRange
  split_ifs <;> omega

/-- Every range is one: the marks and thresholds that the two dependent ranges begin above are bounded themselves. -/
theorem paramRange_le {ps : Vector Nat 19} (hpause : look ps pPauseMark ≤ 3008) (hwarn : look ps pDoseWarn ≤ 499990) (i : Fin 19) :
    (paramRange ps i).1 ≤ (paramRange ps i).2 := by
  by_cases h8 : i = 8
  · subst h8
    change look ps pPauseMark + 64 ≤ 3072
    omega
  by_cases h17 : i = 17
  · subst h17
    change look ps pDoseWarn + 10 ≤ 500000
    omega
  · revert h8 h17
    fin_cases i <;> simp [paramRange]

theorem loadParams_param (i : Fin 19) : look (loadParams bs).1 i =
    max (paramRange (loadParams bs).1 i).1 (min (paramRange (loadParams bs).1 i).2 (statedParam bs i)) := by
  obtain ⟨hheld, -, -⟩ := loadParam_fold (bs := bs) (List.finRange 19) (List.pairwise_lt_finRange 19) (paramDefaults, 0)
  rw [← loadParams_eq] at hheld
  generalize (loadParams bs).1 = ps at *
  have hpause : look ps pPauseMark ≤ 3008 := by
    have hrange : paramRange ps pPauseMark = (64, 2048) := rfl
    rw [hheld pPauseMark (List.mem_finRange _), inRange_le (by simp [hrange]), hrange]
    omega
  have hwarn : look ps pDoseWarn ≤ 499990 := by
    have hrange : paramRange ps pDoseWarn = (10, 100000) := rfl
    rw [hheld pDoseWarn (List.mem_finRange _), inRange_le (by simp [hrange]), hrange]
    omega
  rw [← inRange_le (paramRange_le hpause hwarn i)]
  exact hheld i (List.mem_finRange i)

theorem loadParams_clamped : (loadParams bs).2 =
    ((List.finRange 19).filter (fun i => look (loadParams bs).1 i ≠ statedParam bs i)).length := by
  obtain ⟨-, -, hcount⟩ := loadParam_fold (bs := bs) (List.finRange 19) (List.pairwise_lt_finRange 19) (paramDefaults, 0)
  rw [← loadParams_eq] at hcount
  exact hcount.trans (Nat.zero_add _)

end

end Sys2Proof.Machine
end

section
/-! PROOFS. SETTINGS_LOAD_END: the state that each unit starts from (O6: R50, R51, R67, R68, R79, R173). -/

namespace Sys2Proof.Machine

section
variable (s : State) (d : Load)

/-- The state in which a load leaves the units. -/
def State.firstLoad (s : State) (d : Load) : State := ((s.handOut d).firstChoice).firstSweeps

theorem State.firstLoad_sweeps : (s.handOut d).firstChoice.KeepsAllBut (s.firstLoad d) [.coverage, .beamCtl] :=
  State.firstSweeps_keepsAllBut _

theorem State.firstLoad_keepsAllBut : s.KeepsAllBut (s.firstLoad d) [.links, .coverage, .beamCtl, .settings] := by
  have hchosen : s.KeepsAllBut (s.handOut d).firstChoice [.links, .coverage, .beamCtl, .settings] := fun p hp => by
    cases p <;> simp_all [Part.same, State.firstChoice, State.handOut]
  exact hchosen.step (State.firstLoad_sweeps s d) (by decide)

theorem State.firstLoad_settings : (s.firstLoad d).settings = { s.settings with
    loaded := true, source := d.source, newest := d.newest, params := d.params
    counters := bumpBy (bumpBy (bump s.settings.counters (if d.source = .image then 0 else 1)) 2 d.rejected) 3 d.corrected } := by
  have hsettings : (s.firstLoad d).settings = (s.handOut d).firstChoice.settings :=
    State.firstLoad_sweeps s d .settings (by decide)
  rw [hsettings]
  rfl

theorem State.firstLoad_counter_rejected : look (s.firstLoad d).settings.counters 2 =
    min (look s.settings.counters 2 + d.rejected) 65535 := by
  have hsource : (2 : Fin 11) ≠ if d.source = .image then 0 else 1 := by split <;> decide
  rw [State.firstLoad_settings, look_bumpBy_ne _ _ (by decide), look_bumpBy_self, look_bump_ne _ hsource]

theorem State.firstLoad_counter_corrected : look (s.firstLoad d).settings.counters 3 =
    min (look s.settings.counters 3 + d.corrected) 65535 := by
  have hsource : (3 : Fin 11) ≠ if d.source = .image then 0 else 1 := by split <;> decide
  rw [State.firstLoad_settings, look_bumpBy_self, look_bumpBy_ne _ _ (by decide), look_bump_ne _ hsource]

theorem State.firstLoad_counter_source (k : Fin 11) (hk : k = 0 ∨ k = 1) : look (s.firstLoad d).settings.counters k =
    look (bump s.settings.counters (if d.source = .image then 0 else 1)) k := by
  rw [State.firstLoad_settings, look_bumpBy_ne _ _ (by rcases hk with rfl | rfl <;> decide),
    look_bumpBy_ne _ _ (by rcases hk with rfl | rfl <;> decide)]

theorem State.firstLoad_link (l : LinkNo) : (s.firstLoad d).link l =
    { s.link l with ax := (look d.links l).1, rights := (look d.links l).2 } := by
  have hlinks : (s.firstLoad d).links = (s.handOut d).firstChoice.links := State.firstLoad_sweeps s d .links (by decide)
  simp [State.link, hlinks, State.firstChoice, State.handOut, look]

/-! ### The cells -/

theorem State.firstLoad_reach : (s.firstLoad d).coverage.reach = d.heads := by
  unfold State.firstLoad
  exact State.reach_firstLoad s d

theorem State.mem_reachSegs_firstLoad (h : HeadNo) (g : SegNo) : g ∈ (s.firstLoad d).reachSegs h ↔
    (look d.heads h).any (fun w => w.has g) = true := by
  unfold State.reachSegs
  rw [State.firstLoad_reach]
  cases look d.heads h <;> simp [allSegs]

theorem State.cell_trySweep (h i : HeadNo) (g : SegNo) : (s.trySweep h).cell i g = s.cell i g :=
  congrArg (fun x : Vector (Vector (Option Cell) 64) 12 × Vector SegRec 64 × Vector (Option Reach) 12 × (HeadNo → HeadState) =>
    look (look x.1 i) g) (State.cover_trySweep s h)

theorem State.firstLoad_cell (h : HeadNo) (g : SegNo) : (s.firstLoad d).cell h g =
    if (look d.heads h).any (fun w => w.has g) then
      some { state := if d.marks.contains (h, g) then .marked else .weak, q := 128, recovery := 0, sweep := none }
    else none := by
  have hsweeps : (s.firstLoad d).cell h g = (s.handOut d).firstChoice.cell h g :=
    foldl_keeps (fun u : State => u.cell h g) (fun u i => u.trySweep i) (fun u i => u.cell_trySweep i h g) _ _
  have hcell : (s.handOut d).cell h g = look (look (buildCells d.heads d.marks) h) g := rfl
  rw [hsweeps, State.cell_firstChoice, hcell]
  simp [buildCells, look]

theorem State.firstLoad_cell_none (h : HeadNo) (g : SegNo) : (s.firstLoad d).cell h g = none ↔
    (look d.heads h).any (fun w => w.has g) = false := by
  rw [State.firstLoad_cell]
  cases (look d.heads h).any fun w => w.has g <;> simp

/-! ### Heads and beams -/

/-- A head as the load leaves it: a configured one has its first sweep outstanding. -/
def startedHead (configured : Bool) (now : Time) : Head :=
  if configured then (loadedHead true now).sending .sweep now else loadedHead false now

/-- A beam as the load leaves it. -/
def startedBeam (configured : Bool) : Beam := if configured then { Beam.reset with state := .surveying } else Beam.reset

/-- A head handed its settings, with its beams, sweeps if it is configured. -/
theorem State.trySweep_loaded {u : State} {h : HeadNo} {configured : Bool} (hhead : u.head h = loadedHead configured u.clock.ms)
    (hbeam : ∀ v, u.beam (beamOf h v) = loadedBeam configured) :
    (u.trySweep h).head h = startedHead configured u.clock.ms ∧ ∀ v, (u.trySweep h).beam (beamOf h v) = startedBeam configured := by
  cases configured
  · have hnot : u.trySweep h = u := State.trySweep_busy (v := .a) (by rw [hbeam]; decide)
    rw [hnot]
    exact ⟨hhead, hbeam⟩
  · have hmay : u.sweepMay h = true := by
      rw [State.sweepMay_iff, hhead, hbeam, hbeam]
      exact ⟨rfl, SurveyStatus.noConfusion, rfl, rfl, rfl, rfl, rfl, rfl⟩
    rw [State.trySweep_of_may hmay]
    refine ⟨?_, fun v => ?_⟩
    · rw [State.head_bumpCov, State.head_setHead_self, hhead]
      rfl
    · rw [State.beam_bumpCov, State.beam_setHead, State.surveyBeams_beam, hbeam]
      rfl

theorem State.firstLoad_started (h : HeadNo) : (s.firstLoad d).head h = startedHead (look d.heads h).isSome s.clock.ms ∧
    ∀ v, (s.firstLoad d).beam (beamOf h v) = startedBeam (look d.heads h).isSome := by
  obtain ⟨u, hclock, ⟨hhead, hbeam⟩, hhead', hbeam'⟩ := foldl_at (f := fun u i => u.trySweep i)
    (P := fun u : State => u.clock = s.clock)
    (R := fun u v : State => v.head h = u.head h ∧ ∀ x, v.beam (beamOf h x) = u.beam (beamOf h x)) (c := h)
    (fun u => ⟨rfl, fun _ => rfl⟩) (fun huv hvw => ⟨hvw.1.trans huv.1, fun x => (hvw.2 x).trans (huv.2 x)⟩)
    (fun u i hu => (State.trySweep_keepsAllBut .clock (by decide)).trans hu)
    (fun u i _ hi => ⟨State.trySweep_head_other hi.symm, fun x => State.trySweep_beam_other (by rw [headOf_beamOf]; exact hi.symm)⟩)
    (List.nodup_finRange 12) (List.mem_finRange h) (s := (s.handOut d).firstChoice) rfl
  have hloaded : u.head h = loadedHead (look d.heads h).isSome u.clock.ms := by
    rw [hhead, State.head_firstChoice, hclock]
    simp [State.handOut, State.head, State.now, look]
  have hidle : ∀ v, u.beam (beamOf h v) = loadedBeam (look d.heads h).isSome := fun v => by
    rw [hbeam, State.beam, State.beamCtl_firstChoice]
    have hof := headOf_beamOf h v
    generalize beamOf h v = b at hof ⊢
    subst hof
    simp [State.handOut, look]
  obtain ⟨hsent, hsurveying⟩ := State.trySweep_loaded hloaded hidle
  rw [hclock] at hsent
  exact ⟨hhead'.trans hsent, fun v => (hbeam' v).trans (hsurveying v)⟩

theorem State.firstLoad_beam (c : BeamNo) : (s.firstLoad d).beam c = startedBeam (look d.heads (headOf c)).isSome := by
  have hown := (State.firstLoad_started s d (headOf c)).2 (sideOf c)
  rwa [beamOf_sideOf] at hown

end

end Sys2Proof.Machine
end

section
/-! PROOFS. The settings that a load chooses, and what it does with them (O6: R173, R184). -/

namespace Sys2Proof.Machine

/-! ### Which copy is taken -/

section
variable {m : Memory} {readA readB : Bool}

theorem chooseSettings_defaults (ha : (readA && copySound (Memory.area m .a)) = false)
    (hb : (readB && copySound (Memory.area m .b)) = false) : chooseSettings m readA readB = loadDefaults := by
  unfold chooseSettings
  dsimp only
  rw [ha, hb]

theorem chooseSettings_a (ha : (readA && copySound (Memory.area m .a)) = true)
    (hb : (readB && copySound (Memory.area m .b)) = false ∨
      newer (wordAt (Memory.area m .b) 4) (wordAt (Memory.area m .a) 4) = false) :
    chooseSettings m readA readB = loadCopy (Memory.area m .a) .a
      (if (readB && copySound (Memory.area m .b)) = true then 0 else 1) := by
  unfold chooseSettings
  dsimp only
  rw [ha]
  cases hgood : readB && copySound (Memory.area m .b)
  · rfl
  · have hold := hb.resolve_left (by rw [hgood]; decide)
    rw [hold]
    rfl

theorem chooseSettings_b (hb : (readB && copySound (Memory.area m .b)) = true)
    (ha : (readA && copySound (Memory.area m .a)) = false ∨
      newer (wordAt (Memory.area m .b) 4) (wordAt (Memory.area m .a) 4) = true) :
    chooseSettings m readA readB = loadCopy (Memory.area m .b) .b
      (if (readA && copySound (Memory.area m .a)) = true then 0 else 1) := by
  unfold chooseSettings
  dsimp only
  rw [hb]
  cases hgood : readA && copySound (Memory.area m .a)
  · rfl
  · have hnew := ha.resolve_left (by rw [hgood]; decide)
    rw [hnew]
    rfl

end

/-! ### A copy's parts -/

theorem reachOk_iff (w : Reach) : reachOk w = true ↔ 1 ≤ w.len ∧ w.len ≤ 16 ∧ w.first + w.len ≤ 64 := by
  simp only [reachOk, Bool.and_eq_true, decide_eq_true_eq, and_assoc]

section
variable (bs : List Byte) (area : Area) (rejected : Nat)

theorem loadCopy_link (l : LinkNo) : look (loadCopy bs area rejected).links l = (loadLink bs l).1 := by
  simp [loadCopy, look]

theorem loadCopy_head (h : HeadNo) : look (loadCopy bs area rejected).heads h =
    if (byteAt bs (16 + 3 * h.val)).toNat = 1 ∧ reachOk (statedReach bs h) = true then some (statedReach bs h) else none := by
  have hhead : look (loadCopy bs area rejected).heads h = (loadHead bs h).1 := by simp [loadCopy, look]
  rw [hhead, loadHead_eq]
  split <;> rfl

theorem loadCopy_corrected : (loadCopy bs area rejected).corrected =
    ((Vector.ofFn (loadLink bs)).toList.map Prod.snd).sum + ((Vector.ofFn (loadHead bs)).toList.map Prod.snd).sum +
      (loadParams bs).2 + ((loadMarks bs (loadCopy bs area rejected).heads).filter Option.isNone).length := rfl

theorem loadCopy_params : (loadCopy bs area rejected).params = (loadParams bs).1 := rfl

theorem loadCopy_marks : (loadCopy bs area rejected).marks =
    (loadMarks bs (loadCopy bs area rejected).heads).filterMap id := rfl

end

theorem loadDefaults_link (l : LinkNo) : (look loadDefaults.links l).1.val = l.val + 1 ∧
    (look loadDefaults.links l).2 = { traffic := true, command := true, admin := true } := by
  fin_cases l <;> exact ⟨rfl, rfl⟩

/-! ### What is the same for every load -/

section
variable (s : State) (d : Load)

theorem State.firstLoad_head (h : HeadNo) : ((s.firstLoad d).head h).survey = .due ∧
    ((s.firstLoad d).head h).reference = s.clock.ms ∧
    ((s.firstLoad d).head h).state = (if (look d.heads h).isSome then .ready else .offline) ∧
    ((s.firstLoad d).head h).outstanding = (if (look d.heads h).isSome then
      some { cmd := .sweep, number := 0, sentAt := s.clock.ms, leftToFinish := false } else none) := by
  rw [(State.firstLoad_started s d h).1]
  cases (look d.heads h).isSome <;> exact ⟨rfl, rfl, rfl, rfl⟩

theorem State.firstLoad_beam_idle (c : BeamNo) :
    ((s.firstLoad d).beam c).state = (if (look d.heads (headOf c)).isSome then .surveying else .down) ∧
      ((s.firstLoad d).beam c).holders = LinkSet.none ∧ ((s.firstLoad d).beam c).burst = none := by
  rw [State.firstLoad_beam]
  cases (look d.heads (headOf c)).isSome <;> exact ⟨rfl, rfl, rfl⟩

theorem State.firstLoad_cells (h : HeadNo) (g : SegNo) :
    (((s.firstLoad d).cell h g).isSome = true ↔ g ∈ (s.firstLoad d).reachSegs h) ∧
      ∀ x : Cell, (s.firstLoad d).cell h g = some x →
        x.q = 128 ∧ x.recovery = 0 ∧ x.sweep = none ∧ (x.state = .weak ∨ x.state = .marked) := by
  rw [State.mem_reachSegs_firstLoad, State.firstLoad_cell]
  refine ⟨by split <;> simp_all, fun x hx => ?_⟩
  split at hx
  · cases hx
    refine ⟨rfl, rfl, rfl, ?_⟩
    cases d.marks.contains (h, g)
    · exact .inl rfl
    · exact .inr rfl
  · cases hx

/-- A cell is MARKED where the load names it. -/
theorem State.firstLoad_marked {h : HeadNo} {g : SegNo} {x : Cell} (hx : (s.firstLoad d).cell h g = some x) :
    (x.state = .marked ↔ d.marks.contains (h, g) = true) ∧ (look d.heads h).any (fun w => w.has g) = true := by
  rw [State.firstLoad_cell] at hx
  split at hx
  · next hany =>
    cases hx
    refine ⟨?_, hany⟩
    cases d.marks.contains (h, g) <;> simp
  · cases hx

theorem State.firstLoad_chosen (g : SegNo) : (s.firstLoad d).segRec g = (s.firstLoad d).chosen g := by
  have hfollows := State.follows_firstLoad s d
  rw [← State.firstLoad] at hfollows
  exact hfollows.2 g

theorem State.firstLoad_defaults :
    let t := s.firstLoad loadDefaults
    t.settings.source = .defaults ∧ t.settings.newest = none ∧ t.settings.params = paramDefaults ∧
    (∀ l : LinkNo, (t.link l).ax.val = l.val + 1 ∧ (t.link l).rights = { traffic := true, command := true, admin := true }) ∧
    (∀ h : HeadNo, look t.coverage.reach h = none) ∧
    look t.settings.counters 1 = satInc (look s.settings.counters 1) ∧
    look t.settings.counters 2 = min (look s.settings.counters 2 + 2) 65535 := by
  dsimp only
  rw [State.firstLoad_reach, State.firstLoad_counter_source s _ 1 (.inr rfl), State.firstLoad_counter_rejected,
    State.firstLoad_settings]
  refine ⟨rfl, rfl, rfl, fun l => ?_, fun h => look_replicate _ _, look_bump_self _ _, rfl⟩
  rw [State.firstLoad_link]
  exact loadDefaults_link l

theorem State.firstLoad_source : (s.firstLoad d).settings.source = d.source :=
  congrArg Settings.source (State.firstLoad_settings s d)

theorem State.firstLoad_params : (s.firstLoad d).settings.params = d.params :=
  congrArg Settings.params (State.firstLoad_settings s d)

theorem State.firstLoad_newest : (s.firstLoad d).settings.newest = d.newest :=
  congrArg Settings.newest (State.firstLoad_settings s d)

/-- What a copy leaves in the settings, the links, the reach windows and the cells. -/
theorem State.firstLoad_copy (bs : List Byte) (area : Area) (n : Nat) :
    let t := s.firstLoad (loadCopy bs area n)
    t.settings.source = .image ∧ t.settings.params = (loadParams bs).1 ∧
    (look t.settings.counters 0 = satInc (look s.settings.counters 0) ∧
      look t.settings.counters 1 = look s.settings.counters 1 ∧
      look t.settings.counters 2 = min (look s.settings.counters 2 + n) 65535 ∧
      look t.settings.counters 3 = min (look s.settings.counters 3 +
        (allLinks.filter (fun l => 16 ≤ (byteAt bs (8 + 2 * l.val)).toNat)).length +
        (allLinks.filter (fun l => 8 ≤ (byteAt bs (9 + 2 * l.val)).toNat)).length +
        (allHeads.filter (fun h => (byteAt bs (16 + 3 * h.val)).toNat ≠ 0 ∧
          ¬((byteAt bs (16 + 3 * h.val)).toNat = 1 ∧ reachOk (statedReach bs h) = true))).length +
        ((List.finRange 19).filter (fun i => look (loadParams bs).1 i ≠ statedParam bs i)).length +
        ((loadMarks bs (loadCopy bs area n).heads).filter Option.isNone).length) 65535) ∧
    (∀ l : LinkNo, (t.link l).ax.val =
        (if (byteAt bs (8 + 2 * l.val)).toNat < 16 then (byteAt bs (8 + 2 * l.val)).toNat else 0) ∧
      (t.link l).rights = rightsOf (byteAt bs (9 + 2 * l.val))) ∧
    (∀ h : HeadNo, look t.coverage.reach h =
      if (byteAt bs (16 + 3 * h.val)).toNat = 1 ∧ reachOk (statedReach bs h) = true then some (statedReach bs h) else none) ∧
    (∀ (h : HeadNo) (g : SegNo), t.cell h g = none ↔
      (look (loadCopy bs area n).heads h).any (fun w => w.has g) = false) ∧
    (∀ (h : HeadNo) (g : SegNo) (c : Cell), t.cell h g = some c → (c.state = .marked ↔
      ∃ i : Nat, i < (byteAt bs 128).toNat ∧
        (byteAt bs (129 + 2 * i)).toNat = h.val ∧ (byteAt bs (130 + 2 * i)).toNat = g.val)) := by
  have himage : (if (loadCopy bs area n).source = .image then 0 else 1 : Fin 11) = 0 := if_pos rfl
  refine ⟨State.firstLoad_source s _, (State.firstLoad_params s _).trans (loadCopy_params bs area n),
    ⟨?_, ?_, State.firstLoad_counter_rejected s _, ?_⟩, fun l => ?_, fun h => ?_, State.firstLoad_cell_none s _,
    fun h g c hc => ?_⟩
  · rw [State.firstLoad_counter_source s _ 0 (.inl rfl), himage, look_bump_self]
  · rw [State.firstLoad_counter_source s _ 1 (.inr rfl), himage, look_bump_ne _ (by decide)]
  · rw [State.firstLoad_counter_corrected, loadCopy_corrected, links_corrected, heads_corrected, loadParams_clamped]
    simp only [Nat.add_assoc]
  · rw [State.firstLoad_link, loadCopy_link]
    exact ⟨loadLink_ax l, rfl⟩
  · rw [State.firstLoad_reach, loadCopy_head]
  · obtain ⟨hmarked, hany⟩ := State.firstLoad_marked s _ hc
    rw [hmarked, loadCopy_marks, contains_loadMarks hany]

end

theorem exec_settingsLoadEnd_first {a b : Bool} {s : State} (hloaded : s.settings.loaded = false) :
    exec (.settingsLoadEnd a b) s =
      .next (s.firstLoad (chooseSettings s.settings.mem (a && !s.settings.cutOffA) (b && !s.settings.cutOffB))) := by
  change Host.Outcome.next (if s.settings.loaded then s else s.firstLoad _) = _
  rw [hloaded]
  rfl

/-- Settles O6: the copies are judged by what is sound and newer; each field's correction is counted in its own part. -/
theorem settingsLoadStartsEveryUnit : Obligations.SettingsLoadStartsEveryUnit := by
  unfold Obligations.SettingsLoadStartsEveryUnit
  intro fromCopy
  have hcopy : ∀ (bs : List Byte) (area : Area) (n : Nat) (s : State), fromCopy bs n s (s.firstLoad (loadCopy bs area n)) := by
    intro bs area n s
    obtain ⟨hsource, hparams, hcounters, hlink, hreach, hnone, hmarked⟩ := s.firstLoad_copy bs area n
    generalize s.firstLoad (loadCopy bs area n) = t at *
    have hbyte : ∀ i, bs.getD i 0 = byteAt bs i := fun _ => rfl
    have hfit : ∀ h : HeadNo, decide (1 ≤ (byteAt bs (18 + 3 * h.val)).toNat ∧ (byteAt bs (18 + 3 * h.val)).toNat ≤ 16 ∧
        (byteAt bs (17 + 3 * h.val)).toNat + (byteAt bs (18 + 3 * h.val)).toNat ≤ 64) = reachOk (statedReach bs h) := fun h =>
      Bool.eq_iff_iff.mpr (decide_eq_true_iff.trans (reachOk_iff (statedReach bs h)).symm)
    have hstated : ∀ i : Fin 19, (((byteAt bs (52 + 4 * i.val)).toNat * 256 + (byteAt bs (52 + 4 * i.val + 1)).toNat) * 256 +
        (byteAt bs (52 + 4 * i.val + 2)).toNat) * 256 + (byteAt bs (52 + 4 * i.val + 3)).toNat = statedParam bs i :=
      fun i => (wordAt_toNat bs _).symm
    obtain ⟨himage, hdefaults, hrejected, hcorrected⟩ := hcounters
    dsimp only [fromCopy]
    simp only [hbyte, hfit, hstated]
    refine ⟨hsource, himage, hdefaults, hrejected, ?_, hlink, hreach, hmarked, fun i => ?_⟩
    · rw [hcorrected, marks_corrected]
      simp only [State.param, hparams, hnone]
    · rw [State.param, hparams]
      exact loadParams_param i
  refine ⟨rfl, fun a b s => ⟨fun hloaded => ?_, fun hloaded => ?_⟩⟩
  · change Host.Outcome.next (if s.settings.loaded then s else _) = _
    rw [hloaded]
    rfl
  intro bytesA bytesB goodA goodB newerB
  refine ⟨_, exec_settingsLoadEnd_first hloaded, ?_⟩
  have hdefaults := chooseSettings_defaults (m := s.settings.mem) (readA := a && !s.settings.cutOffA)
    (readB := b && !s.settings.cutOffB)
  have ha := chooseSettings_a (m := s.settings.mem) (readA := a && !s.settings.cutOffA) (readB := b && !s.settings.cutOffB)
  have hb := chooseSettings_b (m := s.settings.mem) (readA := a && !s.settings.cutOffA) (readB := b && !s.settings.cutOffB)
  generalize chooseSettings s.settings.mem (a && !s.settings.cutOffA) (b && !s.settings.cutOffB) = d at *
  refine ⟨congrArg Settings.loaded (s.firstLoad_settings d), fun hnotA hnotB => ?_, fun hgood hother => ?_,
    fun hgood hother => ?_, fun h => ?_, fun c => ?_, s.firstLoad_cells d, s.firstLoad_chosen d, fun l => ?_,
    s.firstLoad_keepsAllBut d⟩
  · obtain rfl := hdefaults hnotA hnotB
    exact s.firstLoad_defaults
  · obtain rfl := ha hgood hother
    exact ⟨s.firstLoad_newest _, hcopy _ _ _ s⟩
  · obtain rfl := hb hgood hother
    exact ⟨s.firstLoad_newest _, hcopy _ _ _ s⟩
  · rw [State.firstLoad_reach]
    exact s.firstLoad_head d h
  · rw [State.firstLoad_reach]
    exact s.firstLoad_beam_idle d c
  · rw [State.firstLoad_link]

end Sys2Proof.Machine
end

section
/-! PROOFS. LINK_DOWN: what a link's own frames and bursts give back, for the waiting frames and the pool (O9: R88, R119, R124,
R125). -/

namespace Sys2Proof.Machine

/-! ### Frames without their originator -/

section
variable (f : Frame) (l : LinkNo) (now : Time)

theorem settle_notSent_fst : (settle now f .notSent).1 = f := by
  unfold settle comeBack
  dsimp only
  (repeat' split) <;> rfl

theorem Frame.forget_cases : f.forget l = f ∨ f.forget l = { f with origin := none } := by
  unfold Frame.forget
  split
  · exact .inr rfl
  · exact .inl rfl

/-- What becomes of a frame does not hang on its originator. -/
theorem settle_forget : settle now (f.forget l) .notSent =
    ((settle now f .notSent).1.forget l, (settle now f .notSent).2) := by
  refine Prod.ext (by rw [settle_notSent_fst, settle_notSent_fst]) ?_
  rcases f.forget_cases l with h | h
  · rw [h]
  · rw [h]
    unfold settle comeBack Frame.late
    dsimp only
    (repeat' split) <;> rfl

theorem Frame.blocks_forget : (f.forget l).blocks = f.blocks := by
  rcases f.forget_cases l with h | h <;> rw [h]
  rfl

theorem Frame.origin_forget {f : Frame} {l : LinkNo} {o : Origin} (ho : (f.forget l).origin = some o) : o.link ≠ l := by
  unfold Frame.forget at ho
  split at ho
  · cases ho
  · next hany =>
    rintro rfl
    simp [ho] at hany

/-- At another link, a frame's result is as if nothing had been forgotten. -/
theorem resultsAt_forget {l m : LinkNo} (hm : m ≠ l) (f : Frame) (x : FrameFate) :
    resultsAt m [(f.forget l, x)] = resultsAt m [(f, x)] := by
  unfold Frame.forget
  split
  · next hany =>
    obtain ⟨o, ho, hlink⟩ := (Option.any_eq_true ..).mp hany
    have hne : o.link ≠ m := fun h => hm (h ▸ by simpa using hlink)
    simp [resultsAt, ho, hne]
  · rfl

end

/-- A settled frame without its originator. -/
def forgetSettled (l : LinkNo) (p : Frame × Settled) : Frame × Settled := (p.1.forget l, p.2)

section
variable {l m : LinkNo} {fs : List (Frame × Settled)}

theorem comingBack_forget : comingBack (fs.map (forgetSettled l)) =
    (fs.filter (fun p => p.2 == .returned)).map (fun p => p.1.forget l) := by
  unfold comingBack
  rw [List.filter_map, List.map_map]
  rfl

theorem goingOut_forget : goingOut (fs.map (forgetSettled l)) = (goingOut fs).map (fun f => f.forget l) := by
  unfold goingOut
  rw [List.filter_map, List.map_map, List.map_map]
  rfl

theorem resultsAt_told_forget (hm : m ≠ l) : resultsAt m (toldOf (fs.map (forgetSettled l))) = resultsAt m (toldOf fs) := by
  induction fs with
  | nil => rfl
  | cons p fs ih =>
    have hcons : ∀ (q : Frame × Settled) (qs : List (Frame × Settled)),
        resultsAt m (toldOf (q :: qs)) = resultsAt m (toldOf [q]) ++ resultsAt m (toldOf qs) := fun q qs => by
      rw [toldOf_cons, resultsAt_append]
    have hone : resultsAt m (toldOf [forgetSettled l p]) = resultsAt m (toldOf [p]) := by
      have hcls : (p.1.forget l).cls = p.1.cls := by rcases p.1.forget_cases l with h | h <;> rw [h]
      obtain ⟨f, x⟩ := p
      cases x with
      | orphan | returned => rfl
      | excess | expired => exact resultsAt_forget hm f _
      | delivered =>
        change (f.forget l).cls = f.cls at hcls
        by_cases hbulk : f.cls = .bulk
        · simp [toldOf, forgetSettled, hcls, hbulk]
        · simpa [toldOf, forgetSettled, hcls, hbulk] using resultsAt_forget hm f _
    rw [List.map_cons, hcons, hone, ih, ← hcons]

end

/-! ### A beam's burst and the link that owns it -/

section
variable {x y : Beam} {l : LinkNo} {now : Time}

/-- The frames of a link's burst that return to the waiting frames. -/
def Beam.givenBack (x : Beam) (l : LinkNo) (now : Time) : List Frame := if x.ownedBy l then comingBack (x.returned now) else []

/-- The frames of a link's burst that are freed. -/
def Beam.givenUp (x : Beam) (l : LinkNo) (now : Time) : List Frame := if x.ownedBy l then goingOut (x.returned now) else []

theorem Beam.ownedBy_congr (h : x.burst = y.burst) : x.ownedBy l = y.ownedBy l := by rw [Beam.ownedBy, h, Beam.ownedBy]

theorem Beam.returned_congr (h : x.burst = y.burst) : x.returned now = y.returned now := by
  rw [Beam.returned, Beam.frames, h, Beam.returned, Beam.frames]

theorem Beam.givenBack_congr (h : x.burst = y.burst) : x.givenBack l now = y.givenBack l now := by
  rw [Beam.givenBack, Beam.ownedBy_congr h, Beam.returned_congr h, Beam.givenBack]

theorem Beam.givenUp_congr (h : x.burst = y.burst) : x.givenUp l now = y.givenUp l now := by
  rw [Beam.givenUp, Beam.ownedBy_congr h, Beam.returned_congr h, Beam.givenUp]

theorem Beam.returned_forget : (x.forget l).returned now = (x.returned now).map (forgetSettled l) := by
  unfold Beam.returned Beam.frames Beam.forget
  cases x.burst with
  | none => rfl
  | some u =>
    change (u.frames.map fun f => f.forget l).map (fun f => settle now f .notSent) = _
    rw [List.map_map, List.map_map]
    exact List.map_congr_left fun f _ => settle_forget f l now

theorem Beam.ownedBy_forget : (x.forget l).ownedBy l = x.ownedBy l := by
  unfold Beam.ownedBy Beam.forget
  cases x.burst <;> rfl

end

/-! ### The bursts of a link, returned in turn -/

section
variable {s : State} {b : BeamNo} {l : LinkNo}

theorem State.returnOwned_not (hnot : (s.beam b).ownedBy l = false) : s.returnOwned b l = s := by
  unfold State.returnOwned
  split
  · rfl
  · next u hu => exact if_neg fun howner => by simp [Beam.ownedBy, hu, howner] at hnot

theorem State.returnOwned_owned (howned : (s.beam b).ownedBy l = true) : ∃ u : Burst, (s.beam b).burst = some u ∧ u.owner = l ∧
    s.returnOwned b l = (s.forcedReturn b u).burstEnded b l := by
  obtain ⟨u, hu, howner⟩ := (Beam.ownedBy_iff _ _).mp howned
  refine ⟨u, hu, howner, ?_⟩
  unfold State.returnOwned
  rw [hu]
  exact if_pos howner

/-- One beam's part: its frames ahead of those that wait, the blocks of the others free, the return counted. -/
theorem State.returnOwned_gives (s : State) (b : BeamNo) (l : LinkNo) :
    (s.returnOwned b l).downlink.waiting = (s.beam b).givenBack l s.clock.ms ++ s.downlink.waiting ∧
    (s.returnOwned b l).pool = { s.pool with free := s.pool.free + framesBlocks ((s.beam b).givenUp l s.clock.ms) } ∧
    Counts s.downlink.counters (s.returnOwned b l).downlink.counters 9 (if (s.beam b).ownedBy l then 1 else 0) ∧
    (s.returnOwned b l).burstAt = Function.update s.burstAt b (if (s.beam b).ownedBy l then none else s.burstAt b) := by
  cases howned : (s.beam b).ownedBy l with
  | false =>
    rw [State.returnOwned_not howned, Beam.givenBack, howned, Beam.givenUp, howned]
    exact ⟨rfl, rfl, Counts.zero rfl, (Function.update_eq_self b s.burstAt).symm⟩
  | true =>
    obtain ⟨u, hu, -, hreturned⟩ := State.returnOwned_owned howned
    have hended := (s.forcedReturn b u).burstEnded_keepsAllBut (b := b) (l := l)
    have hdownlink : (s.returnOwned b l).downlink = (s.forcedReturn b u).downlink := by
      rw [hreturned]
      exact hended .downlink (by decide)
    have hpool : (s.returnOwned b l).pool = (s.forcedReturn b u).pool := by
      rw [hreturned]
      exact hended .pool (by decide)
    rw [hdownlink, hpool, State.waiting_forcedReturn, State.pool_forcedReturn, Beam.givenBack, howned, Beam.givenUp, howned,
      Beam.returned_some hu, hreturned, State.burstAt_burstEnded]
    refine ⟨rfl, rfl, Counts.forcedReturn, ?_⟩
    exact (State.burstAt_of_beamCtl (State.bumpDown_frame _ _).2.2.2.2.2.2.1).trans (s.burstAt_settleBurst b u _)

theorem State.returnOwned_keepsAllBut (s : State) (b : BeamNo) (l : LinkNo) :
    s.KeepsAllBut (s.returnOwned b l) [.links, .coverage, .beamCtl, .pool, .downlink, .cranes] := by
  cases howned : (s.beam b).ownedBy l with
  | false =>
    rw [State.returnOwned_not howned]
    exact .refl _ _
  | true =>
    obtain ⟨u, -, -, hreturned⟩ := State.returnOwned_owned howned
    rw [hreturned]
    exact (State.forcedReturn_keepsAllBut.mono (by decide)).step State.burstEnded_keepsAllBut (by decide)

/-- The beams in turn: the last one's frames stand first. -/
theorem State.foldl_returnOwned_gives (l : LinkNo) (bs : List BeamNo) (hnodup : bs.Nodup) (s : State) :
    let t := bs.foldl (fun s b => s.returnOwned b l) s
    t.downlink.waiting = bs.reverse.flatMap (fun b => (s.beam b).givenBack l s.clock.ms) ++ s.downlink.waiting ∧
    t.pool = { s.pool with free := s.pool.free + framesBlocks (bs.flatMap (fun b => (s.beam b).givenUp l s.clock.ms)) } ∧
    Counts s.downlink.counters t.downlink.counters 9 (bs.filter (fun b => (s.beam b).ownedBy l)).length ∧
    (∀ b, t.burstAt b = if b ∈ bs ∧ (s.beam b).ownedBy l = true then none else s.burstAt b) := by
  induction bs generalizing s with
  | nil => exact ⟨rfl, rfl, Counts.zero rfl, fun b => by simp⟩
  | cons b bs ih =>
    obtain ⟨hnot, hnodup⟩ := List.nodup_cons.mp hnodup
    obtain ⟨hwaiting, hpool, hcounts, hbursts⟩ := s.returnOwned_gives b l
    obtain ⟨hwaits, hpools, hcounted, hleft⟩ := ih hnodup (s.returnOwned b l)
    have hclock : (s.returnOwned b l).clock = s.clock := s.returnOwned_keepsAllBut b l .clock (by decide)
    have hburst : ∀ c, c ≠ b → ((s.returnOwned b l).beam c).burst = (s.beam c).burst := fun c hc => by
      have hc' := congrFun hbursts c
      rwa [Function.update_of_ne hc] at hc'
    have hmember : ∀ c ∈ bs, ((s.returnOwned b l).beam c).burst = (s.beam c).burst := fun c hc =>
      hburst c fun h => hnot (h ▸ hc)
    rw [List.foldl_cons]
    refine ⟨?_, ?_, ?_, fun c => ?_⟩
    · have hback : bs.reverse.flatMap (fun c => ((s.returnOwned b l).beam c).givenBack l s.clock.ms) =
          bs.reverse.flatMap (fun c => (s.beam c).givenBack l s.clock.ms) :=
        List.flatMap_congr fun c hc => Beam.givenBack_congr (hmember c (List.mem_reverse.mp hc))
      rw [hwaits, hclock, hback, hwaiting, List.reverse_cons, List.flatMap_append, List.flatMap_singleton, List.append_assoc]
    · have hup : bs.flatMap (fun c => ((s.returnOwned b l).beam c).givenUp l s.clock.ms) =
          bs.flatMap (fun c => (s.beam c).givenUp l s.clock.ms) :=
        List.flatMap_congr fun c hc => Beam.givenUp_congr (hmember c hc)
      rw [hpools, hclock, hup, hpool, List.flatMap_cons, framesBlocks_append, Nat.add_assoc]
    · have hfilter : bs.filter (fun c => ((s.returnOwned b l).beam c).ownedBy l) = bs.filter (fun c => (s.beam c).ownedBy l) :=
        List.filter_congr fun c hc => Beam.ownedBy_congr (hmember c hc)
      rw [hfilter] at hcounted
      have htotal := hcounts.trans hcounted
      rw [List.filter_cons]
      cases howned : (s.beam b).ownedBy l with
      | false => simpa [howned] using htotal
      | true => simpa [howned, Nat.add_comm] using htotal
    · rw [hleft]
      by_cases hc : c = b
      · subst hc
        rw [hbursts, Function.update_self]
        simp [hnot]
      · rw [Beam.ownedBy_congr (hburst c hc), hbursts, Function.update_of_ne hc]
        simp [hc]

end

end Sys2Proof.Machine
end

section
/-! PROOFS. LINK_DOWN: a link that has left the beams and the wait list is not put back (O9: R88). -/

namespace Sys2Proof.Machine

/-- A beam without a link: no holder, no awaiting request of it. -/
def Beam.FreeOf (x : Beam) (l : LinkNo) : Prop := look x.holders l = false ∧ ∀ q ∈ x.awaiting, q.ref.link ≠ l

/-- Neither a beam nor the wait list names a link. -/
structure State.FreeOf (s : State) (l : LinkNo) : Prop where
  beam : ∀ b : BeamNo, (s.beam b).FreeOf l
  waits : ∀ w ∈ s.beamCtl.waitList, w.req.ref.link ≠ l

section
variable {x : Beam} {l : LinkNo}

theorem Beam.FreeOf.of_same {y : Beam} (hx : x.FreeOf l) (hholders : y.holders = x.holders) (hawaiting : y.awaiting = x.awaiting) :
    y.FreeOf l := by
  rw [Beam.FreeOf, hholders, hawaiting]
  exact hx

theorem Beam.FreeOf.of_none {y : Beam} (hholders : y.holders = LinkSet.none) (hawaiting : y.awaiting = []) : y.FreeOf l := by
  rw [Beam.FreeOf, hholders, hawaiting]
  exact ⟨look_replicate _ _, fun q hq => absurd hq List.not_mem_nil⟩

theorem Beam.freeOf_without (x : Beam) (l : LinkNo) : (x.without l).FreeOf l :=
  ⟨look_put_self _ _ _, fun q hq => by simpa using (List.mem_filter.mp hq).2⟩

theorem Beam.FreeOf.joined (hx : x.FreeOf l) {r : OpenReq} (hr : r.ref.link ≠ l) : (x.joined r).FreeOf l := by
  refine ⟨(look_put_ne _ _ hr.symm).trans hx.1, fun q hq => ?_⟩
  change q ∈ (if x.state = .opened then x.awaiting else x.awaiting ++ [r]) at hq
  split at hq
  · exact hx.2 q hq
  · rcases List.mem_append.mp hq with hq | hq
    · exact hx.2 q hq
    · rwa [List.mem_singleton.mp hq]

theorem Beam.FreeOf.joinedAll {ws : List WaitEntry} (hx : x.FreeOf l) (hws : ∀ w ∈ ws, w.req.ref.link ≠ l) :
    (x.joinedAll ws).FreeOf l := by
  induction ws generalizing x with
  | nil => exact hx
  | cons w ws ih =>
    exact ih (hx.joined (hws w List.mem_cons_self)) fun v hv => hws v (List.mem_cons_of_mem w hv)

theorem Beam.freeOf_steered (x : Beam) {r : OpenReq} (hr : r.ref.link ≠ l) (g : SegNo) (oneShot : Bool) :
    (x.steered r g oneShot).FreeOf l := by
  refine ⟨?_, fun q hq => by rwa [List.mem_singleton.mp hq]⟩
  rw [Bool.eq_false_iff, Ne, Beam.steered, LinkSet.look_only]
  exact fun h => hr h.symm

end

section
variable {s t : State} {b : BeamNo} {l : LinkNo}

theorem State.FreeOf.of_beamCtl (hs : s.FreeOf l) (h : t.beamCtl = s.beamCtl) : t.FreeOf l :=
  ⟨fun b => by rw [State.beam_of_beamCtl h]; exact hs.beam b, by rw [h]; exact hs.waits⟩

theorem State.FreeOf.setBeam (hs : s.FreeOf l) {y : Beam} (hy : y.FreeOf l) : (s.setBeam b y).FreeOf l := by
  refine ⟨fun c => ?_, hs.waits⟩
  rw [State.beam_setBeam]
  split
  · exact hy
  · exact hs.beam c

theorem State.FreeOf.setHead (hs : s.FreeOf l) (h : HeadNo) (x : Head) : (s.setHead h x).FreeOf l :=
  ⟨fun c => by rw [State.beam_setHead]; exact hs.beam c, hs.waits⟩

theorem State.FreeOf.pushCmd (hs : s.FreeOf l) (h : HeadNo) (c : HeadCmd) : (s.pushCmd h c).FreeOf l :=
  (hs.setHead h _).of_beamCtl (s.pushCmd_beamCtl h c)

theorem State.FreeOf.setWaitList (hs : s.FreeOf l) {ws : List WaitEntry} (hws : ∀ w ∈ ws, w ∈ s.beamCtl.waitList) :
    (s.setWaitList ws).FreeOf l := ⟨hs.beam, fun w hw => hs.waits w (hws w hw)⟩

theorem State.FreeOf.trySweep (hs : s.FreeOf l) (h : HeadNo) : (s.trySweep h).FreeOf l := by
  by_cases hmay : s.sweepMay h = true
  · rw [State.trySweep_of_may hmay]
    have hsame : ∀ c, ({ s.beam c with state := .surveying } : Beam).FreeOf l := fun c => (hs.beam c).of_same rfl rfl
    have hfirst := hs.setBeam (b := beamOf h .a) (hsame (beamOf h .a))
    have hsurvey : (s.surveyBeams h).FreeOf l := hfirst.setBeam ((hfirst.beam (beamOf h .b)).of_same rfl rfl)
    exact (hsurvey.setHead h _).of_beamCtl rfl
  · rwa [State.trySweep_of_not hmay]

theorem State.FreeOf.joinWaiting (hs : s.FreeOf l) (g : SegNo) : (s.joinWaiting b g).FreeOf l := by
  refine State.FreeOf.of_beamCtl ?_ State.joinWaiting_beamCtl
  exact (hs.setWaitList fun w hw => List.mem_of_mem_filter hw).setBeam
    ((hs.beam b).joinedAll fun w hw => hs.waits w (List.mem_of_mem_filter hw))

theorem State.FreeOf.serveIdle (hs : s.FreeOf l) (b : BeamNo) : (s.serveIdle b).FreeOf l := by
  rcases s.serveIdle_cases b with hsame | ⟨hmay, before, after, w, hlist, hbefore, hw⟩
  · rwa [hsame]
  · have hmem : ∀ v ∈ before ++ after, v ∈ s.beamCtl.waitList := fun v hv => by
      rw [hlist]
      exact (List.sublist_cons_self w after).append_left before |>.subset hv
    have hlink : w.req.ref.link ≠ l := hs.waits w (by rw [hlist]; exact List.mem_append_right _ List.mem_cons_self)
    have hsteer : ((s.setWaitList (before ++ after)).steer b w.req w.seg w.oneShot).FreeOf l := by
      rw [State.steer_eq]
      exact ((hs.setWaitList hmem).setBeam (Beam.freeOf_steered _ hlink _ _)).pushCmd _ _
    rw [State.serveIdle_some hmay hlist hbefore hw]
    split
    · exact hsteer
    · exact hsteer.joinWaiting w.seg

theorem State.FreeOf.closeBeam (hs : s.FreeOf l) (b : BeamNo) (o : Option LossReason) : (s.closeBeam b o).FreeOf l := by
  have hcleared : ∀ st, ((s.beam b).cleared st).FreeOf l := fun st => .of_none rfl rfl
  unfold State.closeBeam
  dsimp only
  split
  · exact (((hs.setHead _ _).setBeam (hcleared _)).trySweep _).serveIdle b
  · split
    · have htold : (match o with
          | some v => s.raiseLost b v
          | none => s).FreeOf l := by
        cases o with
        | none => exact hs
        | some v => exact hs.of_beamCtl (State.raiseLost_frame _ _ _).2.2.2.2.1
      exact (htold.setBeam (.of_none rfl rfl)).pushCmd _ _
    · exact hs

theorem State.FreeOf.burstEnded (hs : s.FreeOf l) (b : BeamNo) (m : LinkNo) : (s.burstEnded b m).FreeOf l := by
  have hafter : ((s.beam b).afterBurst m).FreeOf l := by
    refine ⟨?_, (hs.beam b).2⟩
    change look ((s.beam b).holdersAfter m) l = false
    unfold Beam.holdersAfter
    split
    · rw [look_put]
      split
      · rfl
      · exact (hs.beam b).1
    · exact (hs.beam b).1
  have hset := hs.setBeam (b := b) hafter
  rw [State.burstEnded_eq]
  split
  · exact hset.closeBeam b _
  · split
    · exact hset.closeBeam b none
    · exact hset

theorem State.FreeOf.returnOwned (hs : s.FreeOf l) (b : BeamNo) (m : LinkNo) : (s.returnOwned b m).FreeOf l := by
  cases howned : (s.beam b).ownedBy m with
  | false => rwa [State.returnOwned_not howned]
  | true =>
    obtain ⟨u, -, -, hreturned⟩ := State.returnOwned_owned howned
    rw [hreturned]
    refine State.FreeOf.burstEnded (State.FreeOf.of_beamCtl ?_ ((State.bumpDown_frame _ _).2.2.2.2.2.2.1)) b m
    have hburst : ({ s.beam b with burst := none } : Beam).FreeOf l := (hs.beam b).of_same rfl rfl
    exact (hs.setBeam hburst).of_beamCtl (s.settleBurst_beamCtl b u _)

theorem State.FreeOf.closeIfEmpty (hs : s.FreeOf l) (b : BeamNo) : (s.closeIfEmpty b).FreeOf l := by
  unfold State.closeIfEmpty
  dsimp only
  split
  · exact hs.closeBeam b none
  · exact hs

theorem State.FreeOf.foldl {β : Type} {f : State → β → State} (hf : ∀ (u : State) (b : β), u.FreeOf l → (f u b).FreeOf l)
    (bs : List β) (hs : s.FreeOf l) : (bs.foldl f s).FreeOf l := by
  induction bs generalizing s with
  | nil => exact hs
  | cons b bs ih => exact ih (hf s b hs)

end

end Sys2Proof.Machine
end

section
/-! PROOFS. LINK_DOWN: what the other beams' actions leave of a beam (O9: R78, R79, R88). -/

namespace Sys2Proof.Machine

/-- No head has a command waiting behind nothing (R70). -/
def State.HeadsSend (s : State) : Prop := ∀ h : HeadNo, (s.head h).outstanding = none → (s.head h).queue = []

/-- A beam as others act: it may only go from IDLE to SURVEYING with its neighbour; its STEER and its RELEASE stay where they are,
and nothing joins the wait list. -/
structure State.Bystands (s t : State) (b : BeamNo) : Prop where
  beam : t.beam b = s.beam b ∨ ((s.beam b).state = .idle ∧ t.beam b = { s.beam b with state := .surveying })
  queued : (t.head (headOf b)).steerQueued (sideOf b) = (s.head (headOf b)).steerQueued (sideOf b)
  sends : (s.head (headOf b)).Sends (.release (sideOf b)) → (t.head (headOf b)).Sends (.release (sideOf b))
  waits : ∀ w ∈ t.beamCtl.waitList, w ∈ s.beamCtl.waitList

section
variable {s t u : State} {b c : BeamNo}

theorem State.Bystands.refl (s : State) (b : BeamNo) : s.Bystands s b := ⟨.inl rfl, rfl, id, fun _ => id⟩

theorem State.Bystands.trans (h : s.Bystands t b) (g : t.Bystands u b) : s.Bystands u b := by
  refine ⟨?_, g.queued.trans h.queued, fun hs => g.sends (h.sends hs), fun w hw => h.waits w (g.waits w hw)⟩
  rcases h.beam with hbeam | ⟨hidle, hbeam⟩
  · rcases g.beam with hafter | ⟨hidle, hafter⟩
    · exact .inl (hafter.trans hbeam)
    · rw [hbeam] at hidle hafter
      exact .inr ⟨hidle, hafter⟩
  · rcases g.beam with hafter | ⟨hno, -⟩
    · exact .inr ⟨hidle, hafter.trans hbeam⟩
    · rw [hbeam] at hno
      cases hno

theorem State.Bystands.of_beamCtl (h : t.beamCtl = s.beamCtl) : s.Bystands t b := by
  have hhead := State.head_of_beamCtl h (headOf b)
  exact ⟨.inl (State.beam_of_beamCtl h b), by rw [hhead], by rw [hhead]; exact id, by rw [h]; exact fun _ => id⟩

theorem State.Bystands.of_beam (hbeam : t.beam b = s.beam b) (hhead : t.head (headOf b) = s.head (headOf b))
    (hwaits : ∀ w ∈ t.beamCtl.waitList, w ∈ s.beamCtl.waitList) : s.Bystands t b :=
  ⟨.inl hbeam, by rw [hhead], by rw [hhead]; exact id, hwaits⟩

/-- A beam that is not IDLE stays as it is. -/
theorem State.Bystands.same (h : s.Bystands t b) (hnot : (s.beam b).state ≠ .idle) : t.beam b = s.beam b :=
  h.beam.resolve_right fun hidle => hnot hidle.1

theorem State.Bystands.setBeam (s : State) (hc : b ≠ c) (y : Beam) : s.Bystands (s.setBeam c y) b :=
  .of_beam (by rw [State.beam_setBeam, if_neg hc]) (State.head_setBeam _ _ _ _) fun _ => id

/-! ### Heads' lines -/

theorem sideOf_ne (hc : c ≠ b) (hhead : headOf c = headOf b) : sideOf c ≠ sideOf b := fun hside => hc (by
  rw [← beamOf_sideOf c, ← beamOf_sideOf b, hhead, hside])

/-- Another command that joins a queue leaves a beam's STEER where it is. -/
theorem Head.steerQueued_pushed {x : Head} {sd : Side} {cmd : HeadCmd} (hsends : x.outstanding = none → x.queue = [])
    (hcmd : ∀ g, cmd ≠ .steer sd g) (now : Time) :
    (Head.next { x with queue := x.queue ++ [cmd] } now).steerQueued sd = x.steerQueued sd := by
  have hone : Head.steerQueued { x with queue := [cmd] } sd = false := by
    cases cmd with
    | steer v g =>
      have hv : v ≠ sd := fun h => hcmd g (h ▸ rfl)
      simp [Head.steerQueued, hv]
    | _ => rfl
  have happend : Head.steerQueued { x with queue := x.queue ++ [cmd] } sd =
      (x.steerQueued sd || Head.steerQueued { x with queue := [cmd] } sd) := List.any_append
  by_cases hout : x.outstanding = none
  · simp [Head.next, hout, hsends hout, Head.steerQueued]
  · have hnext : Head.next { x with queue := x.queue ++ [cmd] } now = { x with queue := x.queue ++ [cmd] } :=
      (Head.next_took x cmd now).1 hout
    rw [hnext, happend, hone, Bool.or_false]

theorem State.Bystands.pushCmd (hs : s.HeadsSend) {h : HeadNo} {cmd : HeadCmd}
    (hcmd : h = headOf b → ∀ g, cmd ≠ .steer (sideOf b) g) : s.Bystands (s.pushCmd h cmd) b := by
  refine ⟨.inl (State.beam_pushCmd _ _ _ _), ?_, ?_, fun w hw => by rwa [State.waitList_pushCmd] at hw⟩
  · rw [State.head_pushCmd]
    split
    · next hi =>
      subst hi
      exact Head.steerQueued_pushed (hs _) (hcmd rfl) _
    · rfl
  · rw [State.head_pushCmd]
    split
    · next hi =>
      subst hi
      exact fun hsent => Head.Sends.pushed (.inl hsent) _
    · exact id

theorem Head.steerQueued_dropSteer {x : Head} {sd v : Side} (hv : v ≠ sd) : (x.dropSteer v).steerQueued sd = x.steerQueued sd := by
  unfold Head.steerQueued Head.dropSteer
  rw [List.any_filter]
  refine congrArg (x.queue.any ·) (funext fun cmd => ?_)
  cases cmd with
  | steer w g =>
    by_cases hw : w = sd
    · simp [hw, hv.symm]
    · simp [hw]
  | _ => simp

theorem Head.Sends.dropSteer {x : Head} {sd v : Side} (h : x.Sends (.release sd)) : (x.dropSteer v).Sends (.release sd) := by
  rcases h with hmem | hout
  · exact .inl (List.mem_filter.mpr ⟨hmem, rfl⟩)
  · exact .inr hout

theorem State.HeadsSend.of_head (hs : s.HeadsSend) (h : ∀ i, t.head i = s.head i) : t.HeadsSend := fun i => by
  rw [h]
  exact hs i

theorem State.HeadsSend.steerDropped (hs : s.HeadsSend) (c : BeamNo) : (s.steerDropped c).HeadsSend := fun i => by
  rw [State.steerDropped_head]
  split
  · intro hout
    rw [Head.dropSteer, hs _ hout]
    rfl
  · exact hs i

theorem State.HeadsSend.trySweep (hs : s.HeadsSend) (h : HeadNo) : (s.trySweep h).HeadsSend := fun i => by
  by_cases hi : i = h
  · subst hi
    rw [State.trySweep_queue]
    by_cases hmay : s.sweepMay i = true
    · rw [State.trySweep_of_may hmay, State.head_bumpCov, State.head_setHead_self]
      exact fun hout => by cases hout
    · rw [State.trySweep_of_not hmay]
      exact hs i
  · rw [State.trySweep_head_other hi]
    exact hs i

/-! ### The actions of another beam -/

theorem State.Bystands.toClosing (hs : s.HeadsSend) (hc : b ≠ c) : s.Bystands (s.toClosing c) b := by
  unfold State.toClosing
  refine (State.Bystands.setBeam s hc _).trans (State.Bystands.pushCmd (hs.of_head fun i => State.head_setBeam _ _ _ _) ?_)
  exact fun _ _ => HeadCmd.noConfusion

theorem State.Bystands.steerDropped (hc : b ≠ c) : s.Bystands (s.steerDropped c) b := by
  refine ⟨.inl ?_, ?_, ?_, fun _ => id⟩
  · rw [State.steerDropped_beam, if_neg hc]
  · rw [State.steerDropped_head]
    split
    · next hhead => rw [hhead, Head.steerQueued_dropSteer (sideOf_ne hc.symm hhead.symm)]
    · rfl
  · rw [State.steerDropped_head]
    split
    · next hhead =>
      rw [hhead]
      exact Head.Sends.dropSteer
    · exact id

theorem State.Bystands.trySweep (s : State) (h : HeadNo) (b : BeamNo) : s.Bystands (s.trySweep h) b := by
  by_cases hmay : s.sweepMay h = true
  · by_cases hb : headOf b = h
    · subst hb
      obtain ⟨-, -, ha, hb, hout, hqueue, -⟩ := State.sweepMay_iff.mp hmay
      refine ⟨?_, ?_, fun hsent => ?_, by rw [State.trySweep_waitList]; exact fun _ => id⟩
      · have hidle : (s.beam (beamOf (headOf b) (sideOf b))).state = .idle := by
          cases sideOf b
          · exact ha
          · exact hb
        have hbeam := s.trySweep_beam (headOf b) (sideOf b)
        rw [beamOf_sideOf] at hidle hbeam
        exact hbeam.imp id fun h => ⟨hidle, h⟩
      · rw [Head.steerQueued, State.trySweep_queue, Head.steerQueued]
      · rcases hsent with hmem | ⟨o, ho, -⟩
        · rw [hqueue] at hmem
          cases hmem
        · rw [hout] at ho
          cases ho
    · exact .of_beam (State.trySweep_beam_other hb) (State.trySweep_head_other hb)
        (by rw [State.trySweep_waitList]; exact fun _ => id)
  · rw [State.trySweep_of_not hmay]
    exact .refl s b

theorem State.Bystands.serveIdle (hs : s.HeadsSend) (hc : b ≠ c) : s.Bystands (s.serveIdle c) b := by
  rcases s.serveIdle_cases c with hsame | ⟨hmay, before, after, w, hlist, hbefore, hw⟩
  · rw [hsame]
    exact .refl s b
  · have hwaits : s.Bystands (s.setWaitList (before ++ after)) b := .of_beam rfl rfl fun v hv => by
      rw [hlist]
      exact (List.sublist_cons_self w after).append_left before |>.subset hv
    have hsteer : s.Bystands ((s.setWaitList (before ++ after)).steer c w.req w.seg w.oneShot) b := by
      rw [State.steer_eq]
      refine (hwaits.trans (State.Bystands.setBeam _ hc _)).trans (State.Bystands.pushCmd ?_ fun hhead g hcmd => ?_)
      · exact hs.of_head fun i => State.head_setBeam _ _ _ _
      injection hcmd with hside
      exact sideOf_ne hc.symm hhead hside
    rw [State.serveIdle_some hmay hlist hbefore hw]
    split
    · exact hsteer
    · refine hsteer.trans (State.Bystands.trans ?_ (.of_beamCtl State.joinWaiting_beamCtl))
      generalize (s.setWaitList (before ++ after)).steer c w.req w.seg w.oneShot = v
      have hfewer : v.Bystands (v.setWaitList (v.beamCtl.waitList.filter (fun e => !e.joins w.seg))) b :=
        .of_beam rfl rfl fun e he => List.mem_of_mem_filter he
      exact hfewer.trans (State.Bystands.setBeam _ hc _)

theorem State.Bystands.becameIdle (hs : s.HeadsSend) (hc : b ≠ c) : s.Bystands (s.becameIdle c) b :=
  (State.Bystands.trySweep s _ b).trans (State.Bystands.serveIdle (hs.trySweep _) hc)

/-- What a beam that a link has left without holders does. -/
theorem State.closeIfEmpty_empty (hheld : (s.beam b).heldState) (hnone : ∀ m : LinkNo, look (s.beam b).holders m = false) :
    s.closeIfEmpty b = s.closeBeam b none := by
  unfold State.closeIfEmpty
  dsimp only
  exact if_pos ⟨hheld.symm, (LinkSet.isNone_iff _).mpr hnone⟩

theorem State.closeIfEmpty_not (hnot : ¬((s.beam b).heldState ∧ ∀ m : LinkNo, look (s.beam b).holders m = false)) :
    s.closeIfEmpty b = s := by
  unfold State.closeIfEmpty
  dsimp only
  exact if_neg fun h => hnot ⟨h.1.symm, (LinkSet.isNone_iff _).mp h.2⟩

theorem State.Bystands.closeIfEmpty (hs : s.HeadsSend) (hc : b ≠ c) : s.Bystands (s.closeIfEmpty c) b := by
  by_cases hempty : (s.beam c).heldState ∧ ∀ m : LinkNo, look (s.beam c).holders m = false
  · rw [State.closeIfEmpty_empty hempty.1 hempty.2]
    rcases hempty.1 with hsteer | hopen
    · cases hqueued : (s.head (headOf c)).steerQueued (sideOf c) with
      | true =>
        rw [State.closeBeam_queued hsteer hqueued]
        exact (State.Bystands.steerDropped hc).trans (.becameIdle (hs.steerDropped c) hc)
      | false =>
        rw [State.closeBeam_sent (.inr ⟨hsteer, hqueued⟩)]
        exact .toClosing hs hc
    · rw [State.closeBeam_sent (.inl hopen)]
      exact .toClosing hs hc
  · rw [State.closeIfEmpty_not hempty]
    exact .refl s b

theorem State.Bystands.burstEnded (hs : s.HeadsSend) (hopen : (s.beam c).state = .opened) (hc : b ≠ c) (l : LinkNo) :
    s.Bystands (s.burstEnded c l) b := by
  have hset := State.Bystands.setBeam s hc ((s.beam c).afterBurst l)
  have hsend : (s.setBeam c ((s.beam c).afterBurst l)).HeadsSend := hs.of_head fun i => State.head_setBeam _ _ _ _
  rw [State.burstEnded_opened hopen]
  split
  · cases (s.beam c).closePending with
    | none => exact hset.trans (.toClosing hsend hc)
    | some r =>
      have hlost := (State.raiseLost_frame (s.setBeam c ((s.beam c).afterBurst l)) c r).2.2.2.2.1
      exact (hset.trans (.of_beamCtl hlost)).trans (.toClosing (hsend.of_head fun i => State.head_of_beamCtl hlost i) hc)
  · exact hset

theorem State.forcedReturn_beamCtl (s : State) (c : BeamNo) (v : Burst) : (s.forcedReturn c v).beamCtl =
    (s.setBeam c { s.beam c with burst := none }).beamCtl :=
  (State.bumpDown_frame _ _).2.2.2.2.2.2.1.trans (s.settleBurst_beamCtl c v _)

theorem State.Bystands.returnOwned (hs : s.HeadsSend) {l : LinkNo} (hburst : ∀ v ∈ (s.beam c).burst, (s.beam c).state = .opened)
    (hc : b ≠ c) : s.Bystands (s.returnOwned c l) b := by
  cases howned : (s.beam c).ownedBy l with
  | false =>
    rw [State.returnOwned_not howned]
    exact .refl s b
  | true =>
    obtain ⟨v, hv, -, hreturned⟩ := State.returnOwned_owned howned
    have hforced := s.forcedReturn_beamCtl c v
    have hself : (s.forcedReturn c v).beam c = { s.beam c with burst := none } := by
      rw [State.beam_of_beamCtl hforced, State.beam_setBeam_self]
    rw [hreturned]
    refine ((State.Bystands.setBeam s hc _).trans (.of_beamCtl hforced)).trans (.burstEnded ?_ ?_ hc l)
    · exact hs.of_head fun i => State.head_of_beamCtl hforced i
    · rw [hself]
      exact hburst v hv

end

end Sys2Proof.Machine
end

section
/-! PROOFS. LINK_DOWN: what a beam does as a link leaves it (O9: R77, R78, R88, R124). -/

namespace Sys2Proof.Machine

/-! ### Its own burst returned -/

theorem Head.Took.sends {x y : Head} {c : HeadCmd} {now : Time} (h : x.Took y c now) (hsends : x.outstanding = none → x.queue = []) :
    y.Sends c := by
  by_cases hout : x.outstanding = none
  · obtain ⟨-, ho⟩ := h.2 hout (hsends hout)
    exact .inr ⟨_, ho, rfl⟩
  · rw [h.1 hout]
    exact .inl (List.mem_append_right _ List.mem_cons_self)

/-- A beam once a link's burst on it has been returned and the beam has acted. -/
def Beam.handedIn (x : Beam) (l : LinkNo) : Beam :=
  if x.ownedBy l then if x.closesAfter l then Beam.closing x.seg else { x.afterBurst l with burst := none } else x

section
variable {s : State} {b : BeamNo} {l : LinkNo}

theorem Beam.handedIn_not_idle {x : Beam} (hx : x.state ≠ .idle) : (x.handedIn l).state ≠ .idle := by
  unfold Beam.handedIn
  split
  · split
    · exact BeamState.noConfusion
    · exact hx
  · exact hx

theorem State.returnOwned_own (hburst : ∀ v ∈ (s.beam b).burst, (s.beam b).state = .opened) :
    (s.returnOwned b l).beam b = (s.beam b).handedIn l ∧
    ((s.beam b).ownedBy l = true → (s.beam b).closesAfter l = true → s.HeadsSend →
      ((s.returnOwned b l).head (headOf b)).Sends (.release (sideOf b))) ∧
    ((s.beam b).ownedBy l = false → s.returnOwned b l = s) ∧
    ∀ w ∈ (s.returnOwned b l).beamCtl.waitList, w ∈ s.beamCtl.waitList := by
  cases howned : (s.beam b).ownedBy l with
  | false =>
    rw [State.returnOwned_not howned, Beam.handedIn, howned]
    exact ⟨rfl, fun h => absurd h Bool.false_ne_true, fun _ => rfl, fun _ => id⟩
  | true =>
    obtain ⟨v, hv, -, hreturned⟩ := State.returnOwned_owned howned
    have hforced := s.forcedReturn_beamCtl b v
    have hself : (s.forcedReturn b v).beam b = { s.beam b with burst := none } := by
      rw [State.beam_of_beamCtl hforced, State.beam_setBeam_self]
    have hhead : ∀ i, (s.forcedReturn b v).head i = s.head i := fun i =>
      (State.head_of_beamCtl hforced i).trans (State.head_setBeam _ _ _ _)
    have hcloses : ((s.forcedReturn b v).beam b).closesAfter l = (s.beam b).closesAfter l := by rw [hself]; rfl
    obtain ⟨hclosed, hstays, -, hwaits⟩ := State.burstEnded_acts (s := s.forcedReturn b v) (b := b) (l := l)
      (by rw [hself]; exact hburst v hv) (by rw [hself])
    rw [hcloses] at hclosed hstays
    rw [hreturned, hwaits, hforced, Beam.handedIn, howned, if_pos rfl]
    refine ⟨?_, fun _ hacts hsends => ?_, fun h => absurd h.symm Bool.false_ne_true, fun _ => id⟩
    · cases hacts : (s.beam b).closesAfter l with
      | true => rw [(hclosed hacts).1, hself, if_pos rfl]
      | false =>
        rw [(hstays hacts).1, hself]
        rfl
    · refine (hclosed hacts).2.sends ?_
      rw [hhead]
      exact hsends _

end

/-! ### A beam left without holders -/

/-- A beam that is free again. -/
def Beam.Freed (x : Beam) : Prop :=
  (x.state = .idle ∨ x.state = .surveying) ∧ x.seg = none ∧ x.holders = LinkSet.none ∧ x.awaiting = []

/-- A beam that serves one of these entries. -/
def Beam.Serves (x : Beam) (ws : List WaitEntry) : Prop :=
  x.state = .steering ∧ ∃ w ∈ ws, x.seg = some w.seg ∧ x.awaiting.head? = some w.req

section
variable {s t : State} {b : BeamNo}

theorem State.Bystands.freed (h : s.Bystands t b) {ws : List WaitEntry} (hs : (s.beam b).Freed ∨ (s.beam b).Serves ws) :
    (t.beam b).Freed ∨ (t.beam b).Serves ws := by
  rcases h.beam with hbeam | ⟨hidle, hbeam⟩
  · rwa [hbeam]
  · rw [hbeam]
    rcases hs with ⟨-, hseg, hholders, hawaiting⟩ | ⟨hsteer, -⟩
    · exact .inl ⟨.inr rfl, hseg, hholders, hawaiting⟩
    · rw [hidle] at hsteer
      cases hsteer

/-- A beam freed before its STEER was sent: free, or serving the wait list. -/
theorem State.becameIdle_freed (hfree : (s.beam b).Freed) :
    ((s.becameIdle b).beam b).Freed ∨ ((s.becameIdle b).beam b).Serves s.beamCtl.waitList := by
  have hswept := (State.Bystands.trySweep s (headOf b) b).freed (ws := s.beamCtl.waitList) (.inl hfree)
  have hlist' : (s.trySweep (headOf b)).beamCtl.waitList = s.beamCtl.waitList := State.trySweep_waitList _ _
  unfold State.becameIdle
  rcases (s.trySweep (headOf b)).serveIdle_cases b with hsame | ⟨hmay, before, after, w, hlist, hbefore, hw⟩
  · rwa [hsame]
  · obtain ⟨hbeam, -⟩ := State.serveIdle_serves hmay hlist hbefore hw
    right
    rw [hbeam]
    refine ⟨rfl, w, ?_, rfl, rfl⟩
    rw [← hlist', hlist]
    exact List.mem_append_right _ List.mem_cons_self

theorem State.closeIfEmpty_unsent (hsteer : (s.beam b).state = .steering)
    (hnone : ∀ m : LinkNo, look (s.beam b).holders m = false) (hqueued : (s.head (headOf b)).steerQueued (sideOf b) = true) :
    ((s.closeIfEmpty b).beam b).Freed ∨ ((s.closeIfEmpty b).beam b).Serves s.beamCtl.waitList := by
  rw [State.closeIfEmpty_empty (.inl hsteer) hnone, State.closeBeam_queued hsteer hqueued]
  have hfree : ((s.steerDropped b).beam b).Freed := by
    rw [State.steerDropped_beam, if_pos rfl]
    exact ⟨.inl rfl, rfl, rfl, rfl⟩
  exact State.becameIdle_freed hfree

theorem State.closeIfEmpty_sent (hheld : (s.beam b).heldState) (hnone : ∀ m : LinkNo, look (s.beam b).holders m = false)
    (hsent : ¬((s.beam b).state = .steering ∧ (s.head (headOf b)).steerQueued (sideOf b) = true))
    (hburst : (s.beam b).burst = none) (hsends : s.HeadsSend) :
    (s.closeIfEmpty b).beam b = Beam.closing (s.beam b).seg ∧
      ((s.closeIfEmpty b).head (headOf b)).Sends (.release (sideOf b)) := by
  have hstate : (s.beam b).state = .opened ∨
      ((s.beam b).state = .steering ∧ (s.head (headOf b)).steerQueued (sideOf b) = false) :=
    hheld.symm.imp_right fun hsteer => ⟨hsteer, by simpa [hsteer] using hsent⟩
  rw [State.closeIfEmpty_empty hheld hnone, State.closeBeam_sent hstate, State.beam_toClosing hburst, if_pos rfl]
  exact ⟨rfl, State.toClosing_took.sends (hsends _)⟩

end

/-! ### All beams in turn -/

section
variable {s : State} {up : LinkNo → Bool} {l : LinkNo}

/-- The machine as a link's bursts are being returned: a burst without its holder is that link's. -/
def State.Departs (s : State) (up : LinkNo → Bool) (l : LinkNo) : Prop :=
  ∃ lost : BeamNo → LinkNo → Prop, (∀ b m, lost b m → m = l) ∧ s.Held up lost (fun _ => True)

theorem State.Departs.returnOwned (hs : s.Departs up l) (b : BeamNo) : (s.returnOwned b l).Departs up l := by
  obtain ⟨lost, hlost, hheld⟩ := hs
  exact ⟨_, fun c m h => hlost c m h.1, hheld.returnOwned (hlost b)⟩

theorem State.Held.headsSend {lost : BeamNo → LinkNo → Prop} {empty : BeamNo → Prop} (hs : s.Held up lost empty) : s.HeadsSend :=
  fun h => (hs.head h).sends

theorem State.Departs.opened (hs : s.Departs up l) (b : BeamNo) : ∀ v ∈ (s.beam b).burst, (s.beam b).state = .opened := by
  obtain ⟨_, -, hheld⟩ := hs
  exact fun v hv => ((hheld.beam b).burst v hv).1

theorem State.Departs.headsSend (hs : s.Departs up l) : s.HeadsSend := by
  obtain ⟨_, -, hheld⟩ := hs
  exact hheld.headsSend

/-- The bursts returned: the beam has handed in its own, and the others have left it alone. -/
theorem State.Departs.foldl_returnOwned (hs : s.Departs up l) {b : BeamNo} (hidle : (s.beam b).state ≠ .idle) :
    let t := allBeams.foldl (fun s b => s.returnOwned b l) s
    t.beam b = (s.beam b).handedIn l ∧
    ((s.beam b).ownedBy l = true → (s.beam b).closesAfter l = true → (t.head (headOf b)).Sends (.release (sideOf b))) ∧
    ((s.beam b).ownedBy l = false →
      (t.head (headOf b)).steerQueued (sideOf b) = (s.head (headOf b)).steerQueued (sideOf b)) ∧
    ∀ w ∈ t.beamCtl.waitList, w ∈ s.beamCtl.waitList := by
  obtain ⟨u, hu, hbefore, hafter⟩ := foldl_at (f := fun s b => s.returnOwned b l) (P := fun u : State => u.Departs up l)
    (R := fun u v : State => u.Bystands v b) (c := b) (bs := allBeams) (fun u => .refl u b) State.Bystands.trans (fun _ c hu => hu.returnOwned c)
    (fun u c hu hc => .returnOwned hu.headsSend (hu.opened c) hc.symm) (List.nodup_finRange 24) (mem_allBeams b) hs
  have hsame := hbefore.same hidle
  obtain ⟨hbeam, hsends, hnot, hwaits⟩ := State.returnOwned_own (l := l) (hu.opened b)
  have hacted : (u.returnOwned b l).beam b = (s.beam b).handedIn l := by rw [hbeam, hsame]
  have hstays : ((u.returnOwned b l).beam b).state ≠ .idle := by
    rw [hacted]
    exact Beam.handedIn_not_idle hidle
  rw [hsame] at hsends hnot
  refine ⟨(hafter.same hstays).trans hacted, fun howned hcloses => hafter.sends (hsends howned hcloses hu.headsSend),
    fun hfree => ?_, ?_⟩
  · have hqueued := hafter.queued
    rw [hnot hfree] at hqueued
    exact hqueued.trans hbefore.queued
  · intro w hw
    have hlater : w ∈ (u.returnOwned b l).beamCtl.waitList := hafter.waits w hw
    exact hbefore.waits w (hwaits w hlater)

/-- The machine as empty beams are being closed. -/
def State.Empties (s : State) (up : LinkNo → Bool) : Prop := ∃ empty : BeamNo → Prop, s.Held up (fun _ _ => False) empty

theorem State.Empties.closeIfEmpty (hs : s.Empties up) (b : BeamNo) : (s.closeIfEmpty b).Empties up := by
  obtain ⟨empty, hheld⟩ := hs
  exact ⟨_, hheld.closeIfEmpty b⟩

theorem State.Departs.empties (hs : s.Departs up l) : (allBeams.foldl (fun s b => s.returnOwned b l) s).Empties up := by
  obtain ⟨lost, hlost, hheld⟩ := hs
  exact ⟨_, (hheld.foldl_returnOwned l allBeams hlost).mono (lost' := fun _ _ => False)
    (fun b _ h => absurd (mem_allBeams b) h.2) fun _ => id⟩

theorem State.Empties.headsSend (hs : s.Empties up) : s.HeadsSend := by
  obtain ⟨_, hheld⟩ := hs
  exact hheld.headsSend

theorem State.Empties.burst_none (hs : s.Empties up) {b : BeamNo} (hnone : ∀ m : LinkNo, look (s.beam b).holders m = false) :
    (s.beam b).burst = none := by
  obtain ⟨_, hheld⟩ := hs
  refine Option.eq_none_iff_forall_ne_some.mpr fun v hv => ?_
  have howns := ((hheld.beam b).burst v hv).2.resolve_right id
  rw [hnone] at howns
  cases howns

/-- Every beam but one has been looked at before it, or is looked at behind it. -/
theorem State.Empties.foldl_closeIfEmpty (hs : s.Empties up) (b : BeamNo) : ∃ u : State, u.Empties up ∧ s.Bystands u b ∧
    (u.closeIfEmpty b).Bystands (allBeams.foldl (fun s b => s.closeIfEmpty b) s) b :=
  foldl_at (f := fun s b => s.closeIfEmpty b) (P := fun u : State => u.Empties up) (R := fun u v : State => u.Bystands v b) (c := b) (bs := allBeams)
    (fun u => .refl u b) State.Bystands.trans (fun _ c hu => hu.closeIfEmpty c)
    (fun _ _ hu hc => .closeIfEmpty hu.headsSend hc.symm) (List.nodup_finRange 24) (mem_allBeams b) hs

section
variable {b : BeamNo} (hs : s.Empties up)
include hs

theorem State.Empties.stays (hidle : (s.beam b).state ≠ .idle)
    (hnot : ¬((s.beam b).heldState ∧ ∀ m : LinkNo, look (s.beam b).holders m = false)) :
    (allBeams.foldl (fun s b => s.closeIfEmpty b) s).beam b = s.beam b ∧
    ((s.head (headOf b)).Sends (.release (sideOf b)) →
      ((allBeams.foldl (fun s b => s.closeIfEmpty b) s).head (headOf b)).Sends (.release (sideOf b))) := by
  obtain ⟨u, -, hbefore, hafter⟩ := hs.foldl_closeIfEmpty b
  have hsame := hbefore.same hidle
  rw [State.closeIfEmpty_not (by rwa [hsame])] at hafter
  exact ⟨(hafter.same (by rwa [hsame])).trans hsame, fun hsent => hafter.sends (hbefore.sends hsent)⟩

theorem State.Empties.closes (hheld : (s.beam b).heldState) (hnone : ∀ m : LinkNo, look (s.beam b).holders m = false)
    (hsent : ¬((s.beam b).state = .steering ∧ (s.head (headOf b)).steerQueued (sideOf b) = true)) :
    (allBeams.foldl (fun s b => s.closeIfEmpty b) s).beam b = Beam.closing (s.beam b).seg ∧
    ((allBeams.foldl (fun s b => s.closeIfEmpty b) s).head (headOf b)).Sends (.release (sideOf b)) := by
  obtain ⟨u, hu, hbefore, hafter⟩ := hs.foldl_closeIfEmpty b
  have hidle : (s.beam b).state ≠ .idle := by rcases hheld with h | h <;> rw [h] <;> exact BeamState.noConfusion
  have hsame := hbefore.same hidle
  obtain ⟨hclosed, hsends⟩ := State.closeIfEmpty_sent (s := u) (b := b) (by rwa [hsame]) (by rwa [hsame])
    (by rwa [hsame, hbefore.queued]) (hu.burst_none (by rwa [hsame])) hu.headsSend
  rw [hsame] at hclosed
  refine ⟨(hafter.same ?_).trans hclosed, hafter.sends hsends⟩
  rw [hclosed]
  exact BeamState.noConfusion

theorem State.Empties.frees (hsteer : (s.beam b).state = .steering) (hnone : ∀ m : LinkNo, look (s.beam b).holders m = false)
    (hqueued : (s.head (headOf b)).steerQueued (sideOf b) = true) :
    ((allBeams.foldl (fun s b => s.closeIfEmpty b) s).beam b).Freed ∨
      ((allBeams.foldl (fun s b => s.closeIfEmpty b) s).beam b).Serves s.beamCtl.waitList := by
  obtain ⟨u, -, hbefore, hafter⟩ := hs.foldl_closeIfEmpty b
  have hsame := hbefore.same (by rw [hsteer]; exact BeamState.noConfusion)
  refine (hafter.freed (State.closeIfEmpty_unsent (by rwa [hsame]) (by rwa [hsame]) (by rwa [hbefore.queued]))).imp_right ?_
  rintro ⟨hstate, w, hw, hrest⟩
  exact ⟨hstate, w, hbefore.waits w hw, hrest⟩

end

end

end Sys2Proof.Machine
end

section
/-! PROOFS. LINK_DOWN: what the other links are told, and what the crane unit keeps (O9: R88, R110, R135, R140). -/

namespace Sys2Proof.Machine

/-! ### Notices -/

section
variable {s t : State} {b c : BeamNo} {l m : LinkNo}

/-- What a link is told as a beam hands in the burst of another: the results of its frames, and BEAM_LOST where the beam closes. -/
def Beam.departTells (x : Beam) (b : BeamNo) (l : LinkNo) (now : Time) (m : LinkNo) : List Notice :=
  if x.ownedBy l then resultsAt m (toldOf (x.returned now)) ++ x.lostAfter b l m else []

theorem State.Tells.returnOwned (hburst : ∀ v ∈ (s.beam b).burst, (s.beam b).state = .opened) :
    s.Tells (s.returnOwned b l) ((s.beam b).departTells b l s.clock.ms) := by
  cases howned : (s.beam b).ownedBy l with
  | false =>
    rw [State.returnOwned_not howned]
    exact (State.Tells.of_links rfl).congr fun m => by rw [Beam.departTells, howned]; rfl
  | true =>
    obtain ⟨v, hv, -, hreturned⟩ := State.returnOwned_owned howned
    have hself : (s.forcedReturn b v).beam b = { s.beam b with burst := none } := by
      rw [State.beam_of_beamCtl (s.forcedReturn_beamCtl b v), State.beam_setBeam_self]
    have hended := State.Tells.burstEnded (s := s.forcedReturn b v) (b := b) (l := l) (by rw [hself]; exact hburst v hv)
    rw [hreturned]
    refine (State.Tells.forcedReturn.trans hended).congr fun m => ?_
    rw [hself, Beam.departTells, howned, Beam.returned_some hv]
    rfl

/-- Bystanding changes nothing of what a beam will tell. -/
theorem State.Bystands.departTells (h : s.Bystands t c) (now : Time) :
    (t.beam c).departTells c l now = (s.beam c).departTells c l now := by
  rcases h.beam with hbeam | ⟨-, hbeam⟩ <;> rw [hbeam]
  rfl

variable {up : LinkNo → Bool}

/-- The beams in turn tell one behind the other. -/
theorem State.Departs.foldl_tells (bs : List BeamNo) (hnodup : bs.Nodup) (hs : s.Departs up l) :
    s.Tells (bs.foldl (fun s b => s.returnOwned b l) s) (fun m => bs.flatMap (fun b => (s.beam b).departTells b l s.clock.ms m)) := by
  induction bs generalizing s with
  | nil => exact State.Tells.of_links rfl
  | cons b bs ih =>
    obtain ⟨hnot, hnodup⟩ := List.nodup_cons.mp hnodup
    have hclock : (s.returnOwned b l).clock = s.clock := s.returnOwned_keepsAllBut b l .clock (by decide)
    refine ((State.Tells.returnOwned (hs.opened b)).trans (ih hnodup (hs.returnOwned b))).congr fun m => ?_
    rw [List.flatMap_cons, hclock]
    refine congrArg (_ ++ ·) (List.flatMap_congr fun c hc => ?_)
    have hne : c ≠ b := fun h => hnot (h ▸ hc)
    rw [(State.Bystands.returnOwned hs.headsSend (hs.opened b) hne).departTells]

theorem State.closeIfEmpty_links (s : State) (b : BeamNo) : (s.closeIfEmpty b).links = s.links := by
  unfold State.closeIfEmpty
  dsimp only
  split
  · exact State.closeBeam_quiet s b
  · rfl

/-! ### A link that is DOWN -/

/-- A link that is DOWN is told nothing: whatever else a change tells leaves it as it is. -/
def State.SparesDown (s t : State) (l : LinkNo) : Prop := (s.link l).up = false → t.link l = s.link l

theorem State.SparesDown.trans {u : State} (h : s.SparesDown t l) (g : t.SparesDown u l) : s.SparesDown u l := fun hdown => by
  rw [g (by rw [h hdown]; exact hdown), h hdown]

theorem State.SparesDown.of_links (h : t.links = s.links) : s.SparesDown t l := fun _ => by rw [State.link, h, State.link]

theorem State.SparesDown.of_tells {ns : LinkNo → List Notice} (h : s.Tells t ns) : s.SparesDown t l := fun hdown => by
  rw [h l, Link.raiseAll_down hdown]

theorem State.SparesDown.closeBeam (s : State) (b : BeamNo) (o : Option LossReason) : s.SparesDown (s.closeBeam b o) l := by
  unfold State.closeBeam
  dsimp only
  split
  · exact .of_links (State.becameIdle_quiet _ b)
  · split
    · have hpush : ∀ (u : State) (y : Beam), u.SparesDown ((u.setBeam b y).pushCmd (headOf b) (.release (sideOf b))) l := fun u y =>
        .of_links ((State.pushCmd_keepsAllBut _ _ _ .links (by decide)).trans rfl)
      cases o with
      | none => exact hpush s _
      | some v => exact (State.SparesDown.of_tells (State.Tells.raiseLost s b v)).trans (hpush _ _)
    · exact .of_links rfl

theorem State.SparesDown.returnOwned (s : State) (b : BeamNo) : s.SparesDown (s.returnOwned b m) l := by
  cases howned : (s.beam b).ownedBy m with
  | false =>
    rw [State.returnOwned_not howned]
    exact .of_links rfl
  | true =>
    obtain ⟨v, -, -, hreturned⟩ := State.returnOwned_owned howned
    have hset : (s.forcedReturn b v).SparesDown
        ((s.forcedReturn b v).setBeam b (((s.forcedReturn b v).beam b).afterBurst m)) l := .of_links rfl
    rw [hreturned, State.burstEnded_eq]
    refine (State.SparesDown.of_tells (State.Tells.forcedReturn (s := s) (b := b) (u := v))).trans ?_
    split
    · exact hset.trans (.closeBeam _ _ _)
    · split
      · exact hset.trans (.closeBeam _ _ _)
      · exact hset

theorem State.SparesDown.foldl {β : Type} {f : State → β → State} (hf : ∀ (u : State) (b : β), u.SparesDown (f u b) l)
    (bs : List β) (s : State) : s.SparesDown (bs.foldl f s) l := by
  induction bs generalizing s with
  | nil => exact .of_links rfl
  | cons b bs ih => exact (hf s b).trans (ih _)

end

/-! ### The crane records -/

section
variable {s t u : State}

/-- A crane record in which only the watch and the stall-reported set have moved. -/
def CraneRec.watched (k : CraneRec) (w : Option (FrameId × Time)) (ids : List FrameId) : CraneRec :=
  { k with watch := w, reported := ids }

/-- The crane records are as they were, but for watches and stall-reported sets. -/
def State.CranesWatch (s t : State) : Prop := ∀ c : CraneNo, ∃ f : CraneRec → CraneRec,
  (∀ k, f k = k.watched (f k).watch (f k).reported) ∧ t.craneRec c = (s.craneRec c).map f

theorem State.CranesWatch.of_cranes (h : t.cranes = s.cranes) : s.CranesWatch t := fun c =>
  ⟨id, fun _ => rfl, by rw [State.craneRec, h, Option.map_id, id, State.craneRec]⟩

theorem State.CranesWatch.trans (h : s.CranesWatch t) (g : t.CranesWatch u) : s.CranesWatch u := fun c => by
  obtain ⟨f, hf, ht⟩ := h c
  obtain ⟨f', hf', hu⟩ := g c
  refine ⟨f' ∘ f, fun k => ?_, by rw [hu, ht, Option.map_map]⟩
  have hover : ∀ w ids, (f k).watched w ids = k.watched w ids := fun w ids => by
    rw [hf k]
    rfl
  exact (hf' (f k)).trans (hover _ _)

theorem State.CranesWatch.of_map {f : CraneRec → CraneRec} (hf : ∀ k, f k = k.watched (f k).watch (f k).reported)
    (h : t.cranes.records = s.cranes.records.map (Option.map f)) : s.CranesWatch t := fun c =>
  ⟨f, hf, by simp [State.craneRec, h, look]⟩

theorem State.CranesWatch.foldl {β : Type} {f : State → β → State} (hf : ∀ (u : State) (b : β), u.CranesWatch (f u b))
    (bs : List β) (s : State) : s.CranesWatch (bs.foldl f s) := by
  induction bs generalizing s with
  | nil => exact .of_cranes rfl
  | cons b bs ih => exact (hf s b).trans (ih _)

theorem State.CranesWatch.reportFronts (s : State) (w : List Frame) : s.CranesWatch (s.reportFronts w) := by
  refine .of_map (fun k => ?_) rfl
  unfold CraneRec.seeFront
  split <;> rfl

theorem State.CranesWatch.frameEnded (s : State) (f : Frame) : s.CranesWatch (s.frameEnded f) := by
  unfold State.frameEnded
  split
  · refine .of_map (fun k => ?_) rfl
    split <;> rfl
  · exact .of_cranes rfl

theorem State.CranesWatch.noteSettled (s : State) (p : Frame × Settled) : s.CranesWatch (s.noteSettled p) := by
  have hresult : ∀ (u : State) (f : Frame) (x : FrameFate), u.CranesWatch (u.frameResult f x) := fun u f x => by
    unfold State.frameResult
    split <;> exact .of_cranes rfl
  have hended : ∀ (f : Frame) (x : FrameFate) (k : Fin 21), s.CranesWatch (((s.frameResult f x).frameEnded f).bumpDown k) :=
    fun f x k => ((hresult s f x).trans (.frameEnded _ f)).trans (.of_cranes rfl)
  obtain ⟨f, x⟩ := p
  cases x with
  | orphan | returned => exact .of_cranes rfl
  | excess | expired => exact hended f _ _
  | delivered =>
    refine State.CranesWatch.trans ?_ (.frameEnded _ f)
    dsimp only
    split
    · exact .of_cranes rfl
    · exact hresult s f _

theorem State.CranesWatch.settleBurst (s : State) (b : BeamNo) (v : Burst) (o : Nat → FrameOutcome) :
    s.CranesWatch (s.settleBurst b v o) := by
  have hcleared : s.CranesWatch (s.burstCleared b v o) := .of_cranes rfl
  have hnoted : (s.burstCleared b v o).CranesWatch (s.burstNoted b v o) := .foldl State.CranesWatch.noteSettled _ _
  rw [State.settleBurst_eq]
  refine (hcleared.trans hnoted).trans ?_
  generalize s.burstNoted b v o = u
  have hcounted : u.CranesWatch (((u.bumpDownBy 11 (v.count o .sentOk)).bumpDownBy 12 (v.count o .sentFailed)).bumpDownBy 13
    (v.count o .notSent)) := .of_cranes rfl
  exact hcounted.trans (.reportFronts _ _)

theorem State.CranesWatch.forcedReturn (s : State) (b : BeamNo) (v : Burst) : s.CranesWatch (s.forcedReturn b v) := by
  unfold State.forcedReturn
  exact (State.CranesWatch.settleBurst s b v _).trans (.of_cranes rfl)

theorem State.CranesWatch.returnOwned (s : State) (b : BeamNo) (l : LinkNo) : s.CranesWatch (s.returnOwned b l) := by
  cases howned : (s.beam b).ownedBy l with
  | false =>
    rw [State.returnOwned_not howned]
    exact .of_cranes rfl
  | true =>
    obtain ⟨v, -, -, hreturned⟩ := State.returnOwned_owned howned
    rw [hreturned]
    exact (State.CranesWatch.forcedReturn s b v).trans (.of_cranes (State.burstEnded_keepsAllBut .cranes (by decide)))

end

end Sys2Proof.Machine
end

section
/-! PROOFS. LINK_DOWN: the beams of the machine that the link has left (O9: R77, R78, R88). -/

namespace Sys2Proof.Machine

/-! ### The change in three parts -/

/-- The link DOWN and off every unit's records, before its bursts are returned. -/
def State.departed (s : State) (l : LinkNo) : State :=
  let s := s.onLink l Link.goDown
  let s := { s with handed := s.handed.filter (fun r => r.ref.link != l) }
  let s := (s.emptyDeliveries l).forgetOrigin l
  let s := s.setWaitList (s.beamCtl.waitList.filter (fun w => w.req.ref.link != l))
  { s with beamCtl := { s.beamCtl with beams := s.beamCtl.beams.map (fun x => x.without l) } }

/-- Its bursts returned. -/
def State.handedIn (s : State) (l : LinkNo) : State := allBeams.foldl (fun s b => s.returnOwned b l) (s.departed l)

/-- The beams that it left without holders closed. -/
def State.vacated (s : State) (l : LinkNo) : State := allBeams.foldl (fun s b => s.closeIfEmpty b) (s.handedIn l)

section
variable (s : State) (l : LinkNo)

theorem State.tearDown_eq : s.tearDown l =
    ((((s.vacated l).invalidateOwn l).clearInterest l).endSubscriptions l).judge := rfl

theorem State.departed_link (m : LinkNo) : (s.departed l).link m = if m = l then (s.link l).goDown else s.link m :=
  State.link_onLink s l m Link.goDown

theorem State.departed_beam (b : BeamNo) : (s.departed l).beam b = ((s.beam b).forget l).without l := by
  simp [State.departed, State.beam, State.forgetOrigin, State.emptyDeliveries, State.onLink, State.setWaitList, State.setWaiting, look]

theorem State.departed_head (h : HeadNo) : (s.departed l).head h = s.head h := rfl

theorem State.departed_waitList : (s.departed l).beamCtl.waitList = s.beamCtl.waitList.filter (fun w => w.req.ref.link != l) := rfl

theorem State.departed_waiting : (s.departed l).downlink.waiting = s.downlink.waiting.map (fun f => f.forget l) := rfl

theorem State.departed_pool : (s.departed l).pool = { s.pool with
    queues := put s.pool.queues l [], free := s.pool.free + deliveriesBlocks (look s.pool.queues l)
    dropped := put s.pool.dropped l 0 } := rfl

theorem State.departed_keepsAllBut : s.KeepsAllBut (s.departed l) [.links, .handed, .beamCtl, .pool, .downlink] := fun p hp => by
  cases p <;> simp_all [Part.same, State.departed, State.forgetOrigin, State.emptyDeliveries, State.onLink, State.setWaitList,
    State.setWaiting]

theorem State.departed_freeOf : (s.departed l).FreeOf l := by
  refine ⟨fun b => ?_, fun w hw => ?_⟩
  · rw [State.departed_beam]
    exact Beam.freeOf_without _ l
  · rw [State.departed_waitList] at hw
    simpa using (List.mem_filter.mp hw).2

theorem State.vacated_freeOf : (s.vacated l).FreeOf l :=
  State.FreeOf.foldl (fun _ b hu => hu.closeIfEmpty b) _
    (State.FreeOf.foldl (fun _ b hu => hu.returnOwned b l) _ (s.departed_freeOf l))

theorem State.handedIn_keepsAllBut : (s.departed l).KeepsAllBut (s.handedIn l)
    [.links, .coverage, .beamCtl, .pool, .downlink, .cranes] :=
  State.foldl_keepsAllBut (fun u b => u.returnOwned_keepsAllBut b l) _ _

theorem State.vacated_keepsAllBut : (s.handedIn l).KeepsAllBut (s.vacated l) [.coverage, .beamCtl] :=
  State.foldl_keepsAllBut (fun u b p hp => by
    by_cases hlinks : p = .links
    · subst hlinks
      exact u.closeIfEmpty_links b
    · revert hp hlinks
      cases p <;> simp_all [Part.same]) _ _

end

/-! ### A beam that the link has left -/

/-- A beam that closes as a link leaves it: nobody holds it, or its burst goes and it was to close then. -/
def Beam.closesFor (x : Beam) (l : LinkNo) : Prop :=
  (∀ m : LinkNo, look (put x.holders l false) m = false) ∨ (x.ownedBy l = true ∧ (x.closePending ≠ none ∨ x.oneShot = true))

section
variable {x : Beam} {l : LinkNo}

/-- A beam without the link and its frames' originator. -/
def Beam.deserted (x : Beam) (l : LinkNo) : Beam := (x.forget l).without l

theorem put_put_same {α : Type} {n : Nat} (v : Vector α n) (i : Fin n) (a : α) : put (put v i a) i a = put v i a := by
  simp [put]

theorem Beam.deserted_ownedBy : (x.deserted l).ownedBy l = x.ownedBy l := Beam.ownedBy_forget (x := x)

theorem Beam.deserted_holdersAfter : (x.deserted l).holdersAfter l = put x.holders l false := by
  unfold Beam.holdersAfter
  split
  · exact put_put_same _ _ _
  · rfl

theorem Beam.deserted_closesAfter : (x.deserted l).closesAfter l = true ↔
    x.closePending ≠ none ∨ x.oneShot = true ∨ ∀ m : LinkNo, look (put x.holders l false) m = false := by
  have hall : ∀ m : LinkNo, m ∈ allLinks := by decide
  rw [Beam.closesAfter, Beam.deserted_holdersAfter, Bool.or_eq_true, Bool.or_eq_true, Option.isSome_iff_ne_none, or_assoc]
  refine or_congr Iff.rfl (or_congr Iff.rfl ?_)
  simp [hall]

theorem Beam.closesFor_owned (howned : x.ownedBy l = true) : x.closesFor l ↔ (x.deserted l).closesAfter l = true := by
  rw [Beam.closesFor, Beam.deserted_closesAfter]
  tauto

theorem Beam.closesFor_other (hfree : x.ownedBy l = false) : x.closesFor l ↔
    ∀ m : LinkNo, look (x.deserted l).holders m = false := by
  rw [Beam.closesFor, hfree]
  exact or_iff_left fun h => Bool.false_ne_true h.1

/-- The beam that keeps its other holders. -/
def Beam.abandoned (x : Beam) (l : LinkNo) : Beam := { x with
  holders := put x.holders l false
  awaiting := x.awaiting.filter (fun q => q.ref.link != l)
  burst := if x.ownedBy l then none else x.burst.map (fun u => { u with frames := u.frames.map (fun f => f.forget l) })
  releaseDeferred := if x.ownedBy l then false else x.releaseDeferred }

theorem Beam.handedIn_deserted (hnot : ¬x.closesFor l) : (x.deserted l).handedIn l = x.abandoned l := by
  unfold Beam.handedIn Beam.abandoned
  rw [Beam.deserted_ownedBy]
  cases howned : x.ownedBy l with
  | false => rfl
  | true =>
    rw [Beam.closesFor_owned howned] at hnot
    rw [if_pos rfl, if_neg hnot, Beam.afterBurst, Beam.deserted_holdersAfter]
    rfl

end

section
variable {s : State} {up : LinkNo → Bool} {l : LinkNo} {b : BeamNo}

theorem State.Held.departs (hs : s.HeldBy up) : (s.departed l).Departs (downOf up l) l := by
  have hbefore : (State.emptyDeliveries { s.onLink l Link.goDown with
      handed := (s.onLink l Link.goDown).handed.filter (fun r => r.ref.link != l) } l).HeldBy up := hs.of_beamCtl (by simp)
  have hforgot := hbefore.mapBursts (t := (State.emptyDeliveries { s.onLink l Link.goDown with
      handed := (s.onLink l Link.goDown).handed.filter (fun r => r.ref.link != l) } l).forgetOrigin l)
    (g := fun u => { u with frames := u.frames.map (fun f => f.forget l) }) (fun _ => rfl)
    (fun b => State.beam_map_beams _ _ b) rfl rfl
  refine ⟨_, fun _ _ => id, hforgot.without l (t := s.departed l) (fun b => ?_) (fun _ => rfl) rfl⟩
  exact State.beam_map_beams (State.setWaitList _ _) _ b

variable (hs : s.HeldBy up) (hheld : (s.beam b).heldState)
include hs hheld

/-- The beam once the bursts are in: what the others did has not touched it. -/
theorem State.handedIn_beam : (s.handedIn l).beam b = ((s.beam b).deserted l).handedIn l ∧
    ((s.beam b).ownedBy l = true → (s.beam b).closesFor l → ((s.handedIn l).head (headOf b)).Sends (.release (sideOf b))) ∧
    ((s.beam b).ownedBy l = false →
      ((s.handedIn l).head (headOf b)).steerQueued (sideOf b) = (s.head (headOf b)).steerQueued (sideOf b)) ∧
    ∀ w ∈ (s.handedIn l).beamCtl.waitList, w ∈ s.beamCtl.waitList ∧ w.req.ref.link ≠ l := by
  have hbeam : (s.departed l).beam b = (s.beam b).deserted l := s.departed_beam l b
  have hidle : ((s.departed l).beam b).state ≠ .idle := by
    rw [hbeam]
    change (s.beam b).state ≠ .idle
    rcases hheld with h | h <;> rw [h] <;> exact BeamState.noConfusion
  obtain ⟨hself, hsends, hqueued, hwaits⟩ := (hs.departs (l := l)).foldl_returnOwned hidle
  rw [hbeam] at hself hsends hqueued
  rw [Beam.deserted_ownedBy] at hsends hqueued
  refine ⟨hself, fun howned hcloses => hsends howned ((Beam.closesFor_owned howned).mp hcloses), hqueued, fun w hw => ?_⟩
  rw [State.handedIn] at hw
  have hmem := hwaits w hw
  rw [State.departed_waitList] at hmem
  exact (List.mem_filter.mp hmem).imp id fun h => by simpa using h

/-- Its STEER still waits in its head's queue. -/
def State.steerWaits (s : State) (b : BeamNo) : Prop :=
  (s.beam b).state = .steering ∧ (s.head (headOf b)).steerQueued (sideOf b) = true

omit hheld in
/-- A burst is on an OPEN beam alone. -/
theorem State.not_owned_of_steering (hsteer : (s.beam b).state = .steering) : (s.beam b).ownedBy l = false := by
  rw [Bool.eq_false_iff, Ne, Beam.ownedBy_iff]
  rintro ⟨v, hv, -⟩
  have hopen := ((hs.beam b).burst v hv).1
  rw [hsteer] at hopen
  cases hopen

theorem State.vacated_closing (hcloses : (s.beam b).closesFor l) (hsent : ¬s.steerWaits b) :
    (s.vacated l).beam b = Beam.closing (s.beam b).seg ∧ ((s.vacated l).head (headOf b)).Sends (.release (sideOf b)) := by
  obtain ⟨hself, hsends, hqueued, -⟩ := State.handedIn_beam (l := l) hs hheld
  have hempties : (s.handedIn l).Empties (downOf up l) := hs.departs.empties
  cases howned : (s.beam b).ownedBy l with
  | true =>
    have hclosing : (s.handedIn l).beam b = Beam.closing (s.beam b).seg := by
      rw [hself, Beam.handedIn, Beam.deserted_ownedBy, if_pos howned, if_pos ((Beam.closesFor_owned howned).mp hcloses)]
      rfl
    obtain ⟨hsame, hkept⟩ := hempties.stays (b := b) (by rw [hclosing]; exact BeamState.noConfusion)
      (by rw [hclosing]; rintro ⟨h | h, -⟩ <;> cases h)
    exact ⟨hsame.trans hclosing, hkept (hsends howned hcloses)⟩
  | false =>
    have hdeserted : (s.handedIn l).beam b = (s.beam b).deserted l := by
      rw [hself, Beam.handedIn, Beam.deserted_ownedBy, howned]
      rfl
    have hclosed := hempties.closes (b := b) (by rw [hdeserted]; exact hheld)
      (by rw [hdeserted]; exact (Beam.closesFor_other howned).mp hcloses)
      (by rw [hdeserted, hqueued howned]; exact hsent)
    rw [hdeserted] at hclosed
    exact hclosed

theorem State.vacated_freed (hcloses : (s.beam b).closesFor l) (hwaits : s.steerWaits b) :
    ((s.vacated l).beam b).Freed ∨
      ((s.vacated l).beam b).Serves (s.beamCtl.waitList.filter (fun w => w.req.ref.link != l)) := by
  obtain ⟨hself, -, hqueued, hlist⟩ := State.handedIn_beam (l := l) hs hheld
  have howned := State.not_owned_of_steering (l := l) hs hwaits.1
  have hempties : (s.handedIn l).Empties (downOf up l) := hs.departs.empties
  have hdeserted : (s.handedIn l).beam b = (s.beam b).deserted l := by
    rw [hself, Beam.handedIn, Beam.deserted_ownedBy, howned]
    rfl
  refine (hempties.frees (b := b) (by rw [hdeserted]; exact hwaits.1)
    (by rw [hdeserted]; exact (Beam.closesFor_other howned).mp hcloses) ((hqueued howned).trans hwaits.2)).imp_right ?_
  rintro ⟨hsteer, w, hw, hserves⟩
  obtain ⟨hmem, hlink⟩ := hlist w hw
  exact ⟨hsteer, w, List.mem_filter.mpr ⟨hmem, by simpa using hlink⟩, hserves⟩

theorem State.vacated_stays (hnot : ¬(s.beam b).closesFor l) : (s.vacated l).beam b = (s.beam b).abandoned l := by
  obtain ⟨hself, -, -, -⟩ := State.handedIn_beam (l := l) hs hheld
  have hempties : (s.handedIn l).Empties (downOf up l) := hs.departs.empties
  rw [Beam.handedIn_deserted hnot] at hself
  obtain ⟨hsame, -⟩ := hempties.stays (b := b)
    (by rw [hself]; rcases hheld with h | h <;> exact fun hidle => by rw [Beam.abandoned, h] at hidle; cases hidle)
    (by rw [hself]; exact fun h => hnot (.inl h.2))
  exact hsame.trans hself

end

end Sys2Proof.Machine
end

section
/-! PROOFS. LINK_DOWN: the machine behind it, unit by unit (O9: R3, R15, R47, R88, R103, R125, R140, R153). -/

namespace Sys2Proof.Machine

section
variable (s : State) (l : LinkNo)

/-! ### What follows the beams' part -/

theorem State.tearDown_behind : (s.vacated l).KeepsAllBut (s.tearDown l) [.links, .access, .pool, .cranes, .reefer] := by
  rw [State.tearDown_eq]
  generalize s.vacated l = v
  have hunits : v.KeepsAllBut (((v.invalidateOwn l).clearInterest l).endSubscriptions l) [.links, .access, .pool, .cranes, .reefer] :=
    fun p hp => by cases p <;> simp_all [Part.same, State.invalidateOwn, State.clearInterest, State.endSubscriptions]
  exact hunits.step (State.judge_keepsAllBut _) (by decide)

theorem State.vacated_behind : s.KeepsAllBut (s.vacated l) [.links, .handed, .coverage, .beamCtl, .pool, .downlink, .cranes] :=
  (((s.departed_keepsAllBut l).mono (by decide)).step (s.handedIn_keepsAllBut l) (by decide)).step (s.vacated_keepsAllBut l)
    (by decide)

theorem State.tearDown_keepsAllBut : s.KeepsAllBut (s.tearDown l)
    [.links, .handed, .access, .coverage, .beamCtl, .pool, .downlink, .cranes, .reefer] :=
  ((s.vacated_behind l).mono (by decide)).step (s.tearDown_behind l) (by decide)

theorem State.tearDown_handed : (s.tearDown l).handed = s.handed.filter (fun r => r.ref.link != l) := s.handed_tearDown l

theorem State.tearDown_reefer : (s.tearDown l).reefer =
    { s.reefer with interest := put s.reefer.interest l Interest.empty } := by
  have hreefer : (s.vacated l).reefer = s.reefer := s.vacated_behind l .reefer (by decide)
  rw [State.tearDown_eq]
  generalize s.vacated l = v at *
  have hjudge := State.judge_keepsAllBut (((v.invalidateOwn l).clearInterest l).endSubscriptions l) .reefer (by decide)
  rw [← hreefer]
  exact hjudge

theorem State.tearDown_access : (s.tearDown l).access = (s.invalidateOwn l).access := by
  have haccess : (s.vacated l).access = s.access := s.vacated_behind l .access (by decide)
  rw [State.tearDown_eq]
  generalize s.vacated l = v at *
  have hjudge := State.judge_keepsAllBut (((v.invalidateOwn l).clearInterest l).endSubscriptions l) .access (by decide)
  have hown : (v.invalidateOwn l).access = (s.invalidateOwn l).access := by rw [State.invalidateOwn, haccess, State.invalidateOwn]
  exact hjudge.trans hown

theorem State.tearDown_own (i : Fin 128) : look (look (s.tearDown l).access.own l) i =
    if (look (look s.access.own l) i).valid then { AccessEntry.reset with seq := (look (look s.access.own l) i).seq + 1 }
    else look (look s.access.own l) i := by
  have hmap : ∀ f : AccessEntry → AccessEntry, look (look (put s.access.own l ((look s.access.own l).map f)) l) i =
      f (look (look s.access.own l) i) := fun f => by simp [look, put]
  rw [State.tearDown_access]
  exact hmap fun x => if x.valid then x.revoked else x

theorem State.tearDown_own_other {m : LinkNo} (hm : m ≠ l) : look (s.tearDown l).access.own m = look s.access.own m := by
  rw [State.tearDown_access, State.invalidateOwn]
  exact look_put_ne _ _ hm

theorem State.tearDown_common : (s.tearDown l).access.common = s.access.common := by
  rw [State.tearDown_access]
  rfl

/-- The subscriptions end; only watches and stall-reported sets move besides. -/
theorem State.tearDown_craneRec (c : CraneNo) : (s.tearDown l).craneRec c = (s.craneRec c).map (fun k => { k with
    subs := put k.subs l false
    watch := (((s.tearDown l).craneRec c).bind CraneRec.watch)
    reported := ((((s.tearDown l).craneRec c).map CraneRec.reported).getD []) }) := by
  have hwatch : s.CranesWatch (s.vacated l) :=
    (State.CranesWatch.of_cranes (s.departed_keepsAllBut l .cranes (by decide))).trans
      ((State.CranesWatch.foldl (fun u b => .returnOwned u b l) allBeams (s.departed l)).trans
        (.of_cranes (s.vacated_keepsAllBut l .cranes (by decide))))
  have hended : (s.tearDown l).craneRec c = ((s.vacated l).craneRec c).map (fun k => { k with subs := put k.subs l false }) := by
    rw [State.tearDown_eq]
    generalize s.vacated l = v
    have hjudge := State.judge_keepsAllBut (((v.invalidateOwn l).clearInterest l).endSubscriptions l) .cranes (by decide)
    rw [State.craneRec, hjudge]
    simp [State.endSubscriptions, State.clearInterest, State.invalidateOwn, State.craneRec, look]
  obtain ⟨f, hf, hrec⟩ := hwatch c
  rw [hended, hrec]
  cases hk : s.craneRec c with
  | none => rfl
  | some k =>
    have hfk := hf k
    simp only [Option.map_some, Option.bind_some, Option.getD_some]
    rw [hfk]
    rfl

/-! ### The link, the wait list and the beams -/

theorem State.tearDown_links (m : LinkNo) : ∃ pool : List Notice, (∀ n ∈ pool, n.ofPool = true) ∧
    (s.tearDown l).link m = ((s.handedIn l).link m).raiseAll pool := by
  have hlinks : (s.vacated l).links = (s.handedIn l).links := s.vacated_keepsAllBut l .links (by decide)
  rw [State.tearDown_eq]
  obtain ⟨pool, hpool, hjudge⟩ := (((((s.vacated l).invalidateOwn l).clearInterest l).endSubscriptions l)).judge_link m
  refine ⟨pool, hpool, hjudge.trans (congrArg (fun k : Link => k.raiseAll pool) ?_)⟩
  rw [State.link, State.link, ← hlinks]
  generalize s.vacated l = v
  rfl

/-- The link's own record is what its going DOWN left: nobody tells it anything. -/
theorem State.tearDown_link : (s.tearDown l).link l = (s.link l).goDown := by
  obtain ⟨pool, -, hlink⟩ := s.tearDown_links l l
  have hgone : (s.departed l).link l = (s.link l).goDown := (s.departed_link l l).trans (if_pos rfl)
  have hspared : (s.handedIn l).link l = (s.departed l).link l :=
    State.SparesDown.foldl (fun u b => .returnOwned u b) allBeams (s.departed l) (by rw [hgone]; rfl)
  rw [hlink, hspared, hgone, Link.raiseAll_down rfl]

theorem State.tearDown_beamCtl : (s.tearDown l).beamCtl = (s.vacated l).beamCtl := s.tearDown_behind l .beamCtl (by decide)

theorem State.tearDown_freeOf : (s.tearDown l).FreeOf l := (s.vacated_freeOf l).of_beamCtl (s.tearDown_beamCtl l)

/-! ### Frames and blocks -/

theorem State.departed_burst (b : BeamNo) : ((s.departed l).beam b).burst = ((s.beam b).forget l).burst := by
  rw [State.departed_beam]
  rfl

theorem State.departed_ownedBy (b : BeamNo) : ((s.departed l).beam b).ownedBy l = (s.beam b).ownedBy l := by
  rw [Beam.ownedBy_congr (s.departed_burst l b), Beam.ownedBy_forget]

theorem State.departed_returned (b : BeamNo) (now : Time) : ((s.departed l).beam b).returned now =
    ((s.beam b).returned now).map (forgetSettled l) := by
  rw [Beam.returned_congr (s.departed_burst l b), Beam.returned_forget]

theorem State.departed_givenBack (b : BeamNo) (now : Time) : ((s.departed l).beam b).givenBack l now = if (s.beam b).ownedBy l then
    (((s.beam b).returned now).filter (fun p => p.2 == .returned)).map (fun p => p.1.forget l) else [] := by
  rw [Beam.givenBack, s.departed_ownedBy, s.departed_returned, comingBack_forget]

theorem State.departed_givenUp (b : BeamNo) (now : Time) :
    ((s.departed l).beam b).givenUp l now = ((s.beam b).givenUp l now).map (fun f => f.forget l) := by
  rw [Beam.givenUp, s.departed_ownedBy, s.departed_returned, goingOut_forget, Beam.givenUp]
  split <;> rfl

theorem State.tearDown_gives :
    (s.tearDown l).downlink.waiting = allBeams.reverse.flatMap (fun b => if (s.beam b).ownedBy l then
      (((s.beam b).returned s.clock.ms).filter (fun p => p.2 == .returned)).map (fun p => p.1.forget l) else []) ++
      s.downlink.waiting.map (fun f => f.forget l) ∧
    (s.tearDown l).pool.free = s.pool.free + deliveriesBlocks (look s.pool.queues l) +
      framesBlocks (allBeams.flatMap (fun b => (s.beam b).givenUp l s.clock.ms)) ∧
    (s.tearDown l).pool.queues = put s.pool.queues l [] ∧ (s.tearDown l).pool.dropped = put s.pool.dropped l 0 ∧
    Counts s.downlink.counters (s.tearDown l).downlink.counters 9 (allBeams.filter (fun b => (s.beam b).ownedBy l)).length ∧
    (∀ b, (s.tearDown l).burstAt b = if (s.beam b).ownedBy l then none else ((s.beam b).forget l).burst) := by
  obtain ⟨hwaiting, hpool, hcounts, hbursts⟩ := (s.departed l).foldl_returnOwned_gives l allBeams (List.nodup_finRange 24)
  rw [← State.handedIn] at hwaiting hpool hcounts hbursts
  have hclock : (s.departed l).clock = s.clock := s.departed_keepsAllBut l .clock (by decide)
  have hdownlink : (s.tearDown l).downlink = (s.handedIn l).downlink :=
    (s.tearDown_behind l .downlink (by decide)).trans (s.vacated_keepsAllBut l .downlink (by decide))
  have hpools : (s.vacated l).pool = (s.handedIn l).pool := s.vacated_keepsAllBut l .pool (by decide)
  have hjudged : (s.tearDown l).pool.queues = (s.handedIn l).pool.queues ∧ (s.tearDown l).pool.free = (s.handedIn l).pool.free ∧
      (s.tearDown l).pool.dropped = (s.handedIn l).pool.dropped := by
    rw [← hpools, State.tearDown_eq]
    generalize s.vacated l = v
    obtain ⟨hqueues, hfree, hdropped, -⟩ := (((v.invalidateOwn l).clearInterest l).endSubscriptions l).judge_pool_keeps
    exact ⟨hqueues, hfree, hdropped⟩
  obtain ⟨hqueues, hfree, hdropped⟩ := hjudged
  have hleft : ∀ b, (s.tearDown l).burstAt b = (s.handedIn l).burstAt b := fun b => by
    have hsame : (s.vacated l).burstAt = (s.handedIn l).burstAt := foldl_burstAt (fun u b => u.burstAt_closeIfEmpty b) _ _
    rw [State.burstAt_of_beamCtl (s.tearDown_beamCtl l), hsame]
  have hup : framesBlocks (allBeams.flatMap (fun b => ((s.departed l).beam b).givenUp l s.clock.ms)) =
      framesBlocks (allBeams.flatMap (fun b => (s.beam b).givenUp l s.clock.ms)) := by
    rw [framesBlocks_flatMap, framesBlocks_flatMap]
    refine congrArg List.sum (List.map_congr_left fun b _ => ?_)
    rw [s.departed_givenUp, framesBlocks_map fun f => f.blocks_forget l]
  refine ⟨?_, ?_, ?_, ?_, ?_, fun b => ?_⟩
  · rw [hdownlink, hwaiting, hclock, s.departed_waiting]
    exact congrArg (· ++ _) (List.flatMap_congr fun b _ => s.departed_givenBack l b _)
  · rw [hfree, hpool, hclock, hup]
    rfl
  · rw [hqueues, hpool]
    rfl
  · rw [hdropped, hpool]
    rfl
  · rw [hdownlink]
    have hfilter : allBeams.filter (fun b => ((s.departed l).beam b).ownedBy l) = allBeams.filter (fun b => (s.beam b).ownedBy l) :=
      List.filter_congr fun b _ => s.departed_ownedBy l b
    rw [← hfilter]
    exact hcounts.left rfl
  · rw [hleft, hbursts, s.departed_ownedBy]
    simp only [mem_allBeams, true_and]
    exact if_congr Iff.rfl rfl (s.departed_burst l b)

end

end Sys2Proof.Machine
end

section
/-! PROOFS. LINK_DOWN (O9: R3, R15, R47, R78, R88, R103, R124, R125, R140, R153). -/

namespace Sys2Proof.Machine

section
variable {s : State} {l m : LinkNo}

theorem execLinkDown_stays {receiving : Bool} (h : (s.link l).up = false ∨ receiving = true ∨
    elapsed s.clock.ms (s.link l).lastValid < 20) : exec (.linkDown l receiving) s = .next s := by
  change Host.Outcome.next (if (s.link l).up && !receiving && decide (20 ≤ elapsed s.clock.ms (s.link l).lastValid) then
    s.tearDown l else s) = _
  refine congrArg Host.Outcome.next (if_neg fun hgoes => ?_)
  simp only [Bool.and_eq_true, Bool.not_eq_true', decide_eq_true_eq] at hgoes
  obtain ⟨⟨hup, hnot⟩, hlong⟩ := hgoes
  rcases h with hdown | hreceiving | hshort
  · rw [hdown] at hup
    cases hup
  · rw [hreceiving] at hnot
    cases hnot
  · omega

theorem execLinkDown_goes (hup : (s.link l).up = true) (hlong : 20 ≤ elapsed s.clock.ms (s.link l).lastValid) :
    exec (.linkDown l false) s = .next (s.tearDown l) := by
  change Host.Outcome.next (if (s.link l).up && !false && decide (20 ≤ elapsed s.clock.ms (s.link l).lastValid) then
    s.tearDown l else s) = _
  refine congrArg Host.Outcome.next (if_pos ?_)
  rw [hup, decide_eq_true hlong]
  rfl

/-- BEAM_LOST as the link's burst is handed in: the pending reason, at the holders that are left. -/
def Beam.pendingLost (x : Beam) (b : BeamNo) (l m : LinkNo) : List Notice :=
  match x.closePending with
  | some r => if look (put x.holders l false) m then [.beamLost b x.seg r] else []
  | none => []

theorem Beam.deserted_lostAfter (x : Beam) (b : BeamNo) : (x.deserted l).lostAfter b l m = x.pendingLost b l m := by
  rw [Beam.lostAfter, Beam.deserted_holdersAfter]
  rfl

theorem State.departed_tells (b : BeamNo) (now : Time) (hm : m ≠ l) : ((s.departed l).beam b).departTells b l now m =
    if (s.beam b).ownedBy l then resultsAt m (toldOf ((s.beam b).returned now)) ++ (s.beam b).pendingLost b l m else [] := by
  have hlost : ((s.departed l).beam b).lostAfter b l m = (s.beam b).pendingLost b l m := by
    rw [State.departed_beam]
    exact Beam.deserted_lostAfter _ b
  rw [Beam.departTells, s.departed_ownedBy, s.departed_returned, resultsAt_told_forget hm, hlost]

/-- What the other links are told: the frames' results and the beams lost, in ascending beam number, and the pool's own behind. -/
theorem State.tearDown_tells (hs : s.beamsHeld) (hm : m ≠ l) : ∃ pool : List Notice, (∀ n ∈ pool, n.ofPool = true) ∧
    (s.tearDown l).link m = (s.link m).raiseAll (allBeams.flatMap (fun b => if (s.beam b).ownedBy l then
      resultsAt m (toldOf ((s.beam b).returned s.clock.ms)) ++ (s.beam b).pendingLost b l m else []) ++ pool) := by
  obtain ⟨hheld, -⟩ := s.beamsHeld_iff.mp hs
  obtain ⟨pool, hpool, hlink⟩ := s.tearDown_links l m
  have hclock : (s.departed l).clock = s.clock := s.departed_keepsAllBut l .clock (by decide)
  have htells := (hheld.departs (l := l)).foldl_tells allBeams (List.nodup_finRange 24) m
  rw [← State.handedIn, hclock, s.departed_link, if_neg hm] at htells
  refine ⟨pool, hpool, ?_⟩
  rw [hlink, htells, Link.raiseAll_append]
  refine congrArg (fun ns => ((s.link m).raiseAll ns).raiseAll pool) (List.flatMap_congr fun b _ => ?_)
  exact State.departed_tells b _ hm

theorem parts_of_coverOf {c d : Coverage} {x y : BeamCtl} (h : coverOf c x = coverOf d y) :
    c.cells = d.cells ∧ c.segs = d.segs ∧ c.reach = d.reach := by
  simp only [coverOf, Prod.mk.injEq] at h
  obtain ⟨hcells, hsegs, hreach, -⟩ := h
  exact ⟨hcells, hsegs, hreach⟩

/-- No frame left, waiting or in a burst, is the link's. -/
theorem State.tearDown_origins : (∀ f ∈ (s.tearDown l).downlink.waiting, ∀ o : Origin, f.origin = some o → o.link ≠ l) ∧
    ∀ (b : BeamNo) (u : Burst), ((s.tearDown l).beam b).burst = some u →
      u.owner ≠ l ∧ ∀ f ∈ u.frames, ∀ o : Origin, f.origin = some o → o.link ≠ l := by
  obtain ⟨hwaiting, -, -, -, -, hbursts⟩ := s.tearDown_gives l
  refine ⟨fun f hf o ho => ?_, fun b u hu => ?_⟩
  · have hforgot : ∃ g : Frame, f = g.forget l := by
      rw [hwaiting] at hf
      rcases List.mem_append.mp hf with hf | hf
      · obtain ⟨b, -, hf⟩ := List.mem_flatMap.mp hf
        split at hf
        · obtain ⟨p, -, hp⟩ := List.mem_map.mp hf
          exact ⟨p.1, hp.symm⟩
        · cases hf
      · obtain ⟨g, -, hg⟩ := List.mem_map.mp hf
        exact ⟨g, hg.symm⟩
    obtain ⟨g, rfl⟩ := hforgot
    exact Frame.origin_forget ho
  · have hburst := hbursts b
    rw [State.burstAt, hu] at hburst
    cases howned : (s.beam b).ownedBy l with
    | true =>
      rw [howned] at hburst
      cases hburst
    | false =>
      rw [howned, if_neg Bool.false_ne_true, Beam.forget] at hburst
      obtain ⟨v, hv, rfl⟩ := Option.map_eq_some_iff.mp hburst.symm
      refine ⟨fun howner => ?_, fun f hf o ho => ?_⟩
      · simp only [Beam.ownedBy, hv, Option.any_some, beq_eq_false_iff_ne] at howned
        exact howned howner
      · obtain ⟨g, -, rfl⟩ := List.mem_map.mp hf
        exact Frame.origin_forget ho

end

/-- Settles O9: the link's record first, then each unit's part; the bursts it owned are handed in before any empty beam closes, so
each beam's fate is fixed by its own record and its head's queue. -/
theorem linkDownTearsDownEveryUnit : Obligations.LinkDownTearsDownEveryUnit := by
  unfold Obligations.LinkDownTearsDownEveryUnit
  intro l receiving s
  refine ⟨execLinkDown_stays, fun hup hnot hlong => ?_⟩
  subst hnot
  intro ownedBy forget back gone left lost closes unsent
  obtain ⟨hwaiting, hfree, hqueues, hdropped, hcounts, -⟩ := s.tearDown_gives l
  obtain ⟨horigins, hbursts⟩ := State.tearDown_origins (s := s) (l := l)
  have hfreeOf := s.tearDown_freeOf l
  have hlink := s.tearDown_link l
  have hdowns : look ((s.tearDown l).link l).counters 11 = satInc (look (s.link l).counters 11) := by
    rw [hlink]
    exact look_bump_self _ _
  have hkept := s.tearDown_keepsAllBut l
  obtain ⟨hcells, hsegs, hreach⟩ := parts_of_coverOf (State.cover_tearDown s l)
  have hbeams : ∀ b, (s.tearDown l).beam b = (s.vacated l).beam b := State.beam_of_beamCtl (s.tearDown_beamCtl l)
  have hheads : ∀ h, (s.tearDown l).head h = (s.vacated l).head h := State.head_of_beamCtl (s.tearDown_beamCtl l)
  have hheld : s.beamsHeld → s.HeldBy (upOf s.links) := fun hs => (s.beamsHeld_iff.mp hs).1
  refine ⟨s.tearDown l, execLinkDown_goes hup hlong, hwaiting, hfree, hcounts, fun hs => ⟨fun m hm => ?_,
    fun b hb hcloses hsent => ?_, fun b hb hcloses hwaits => ?_, fun b hb hstays => ?_⟩, hcells, hsegs, hreach,
    s.tearDown_reefer l, s.tearDown_craneRec l,
    congrArg Link.up hlink, congrArg Link.window hlink, congrArg Link.refusal hlink, congrArg Link.outQ hlink,
    congrArg Link.lost hlink, (congrArg Link.ax hlink).trans rfl, (congrArg Link.rights hlink).trans rfl, hdowns,
    s.tearDown_handed l, ?_, ?_, fun m hm => ?_, hfreeOf.waits, fun b => ?_, horigins, s.tearDown_own l,
    s.tearDown_common l, fun m hm => s.tearDown_own_other l hm, hkept⟩
  · obtain ⟨pool, hpool, htold⟩ := State.tearDown_tells (l := l) hs hm
    refine ⟨pool, hpool, htold.trans (congrArg (fun ns => (s.link m).raiseAll (ns ++ pool)) (List.flatMap_congr fun b _ => ?_))⟩
    rfl
  · rw [hbeams, hheads]
    exact State.vacated_closing (hheld hs) hb hcloses hsent
  · rw [hbeams]
    rcases State.vacated_freed (hheld hs) hb hcloses hwaits with hfreed | ⟨hsteer, w, hw, hseg, hfirst⟩
    · exact .inl hfreed
    · obtain ⟨hmem, hother⟩ := List.mem_filter.mp hw
      exact .inr ⟨hsteer, w, hmem, by simpa using hother, hseg, hfirst⟩
  · rw [hbeams]
    exact State.vacated_stays (hheld hs) hb hstays
  · rw [hqueues, look_put_self]
  · rw [hdropped, look_put_self]
  · rw [hqueues, hdropped, look_put_ne _ _ hm, look_put_ne _ _ hm]
    exact ⟨rfl, rfl⟩
  · exact ⟨(hfreeOf.beam b).1, (hfreeOf.beam b).2, hbursts b⟩

end Sys2Proof.Machine
end

section
/-! PROOFS. Links that keep their bounds, whatever is placed at them (O52: R1, R5, R7, R8, R9). -/

namespace Sys2Proof.Machine

/-! ### A link's bounds -/

/-- A link's bounds but for its line. -/
structure Link.Fits (k : Link) : Prop where
  few : k.window.length ≤ 8
  tags : (k.window.map Prod.fst).Nodup
  serials : (k.window.map Prod.snd).Nodup
  issued : ∀ w ∈ k.window, w.2 < k.nextSerial
  refused : ∀ t, k.refusal = some t → t ∉ k.window.map Prod.fst
  once : k.replies.Nodup
  asked : ∀ n : Nat, some n ∈ k.replies → n ∈ k.window.map Prod.snd
  full : none ∈ k.replies → k.refusal ≠ none
  notices : k.noticeCount ≤ 55
  down : k.up = false → k.window = [] ∧ k.refusal = none ∧ k.outQ = []

/-- A link's bounds. -/
structure Link.Bounded (k : Link) : Prop extends k.Fits where
  sends : k.sending = true → k.outQ ≠ []
  busy : k.up = true → k.outQ ≠ [] → k.sending = true

section
variable {k : Link}

theorem Link.length_outQ (k : Link) : k.outQ.length = k.replies.length + k.noticeCount := by
  unfold Link.replies Link.noticeCount
  induction k.outQ with
  | nil => rfl
  | cons m q ih =>
    cases m with
    | reply p => simpa [Msg.isNotice, Nat.add_right_comm] using ih
    | notice n x =>
      simp only [List.filterMap_cons, List.filter_cons, Msg.isNotice, List.length_cons, if_true]
      omega

/-- The replies answer requests of the window, each once, and the refusal place. -/
theorem Link.Fits.length_replies (h : k.Fits) : k.replies.length ≤ 9 := by
  have hsub : k.replies ⊆ none :: (k.window.map Prod.snd).map some := fun x hx => by
    cases x with
    | none => exact List.mem_cons_self
    | some n => exact List.mem_cons_of_mem _ (List.mem_map_of_mem (h.asked n hx))
  have hlength := (h.once.subperm hsub).length_le
  have hfew := h.few
  simp only [List.length_cons, List.length_map] at hlength
  omega

theorem Link.sound_iff (k : Link) : k.sound ↔ k.Bounded := by
  constructor
  · rintro ⟨hfew, htags, hserials, hissued, hrefused, honce, hasked, hfull, -, hnotices, -, hdown, hsends, hbusy⟩
    exact ⟨⟨hfew, htags, hserials, hissued, hrefused, honce, hasked, hfull, hnotices, hdown⟩, hsends, hbusy⟩
  · intro h
    have hreplies := h.length_replies
    have hnotices := h.notices
    exact ⟨h.few, h.tags, h.serials, h.issued, h.refused, h.once, h.asked, h.full, hreplies, hnotices,
      by rw [k.length_outQ]; omega, h.down, h.sends, h.busy⟩

/-! ### The line -/

theorem Link.beginSend_queue (k : Link) : k.beginSend.replies = k.replies ∧ k.beginSend.noticeCount = k.noticeCount ∧
    (k.beginSend.outQ = [] ↔ k.outQ = []) ∧ (k.up = true → k.outQ ≠ [] → k.beginSend.sending = true) ∧
    (k.beginSend.sending = true → k.sending = true ∨ k.outQ ≠ []) := by
  by_cases hidle : k.up = true ∧ k.sending = false
  · obtain ⟨hup, hidle⟩ := hidle
    cases hq : k.outQ with
    | nil =>
      rw [Link.beginSend_of_quiet (.inr (.inr hq)), hq]
      exact ⟨rfl, rfl, Iff.rfl, fun _ h => absurd rfl h, fun h => .inl h⟩
    | cons m q =>
      cases m with
      | reply p =>
        rw [Link.beginSend_reply hup hidle hq]
        exact ⟨rfl, rfl, by simp [hq], fun _ _ => rfl, fun _ => .inr (by simp)⟩
      | notice n x =>
        rw [Link.beginSend_notice hup hidle hq]
        exact ⟨by simp [Link.replies, hq], by simp [Link.noticeCount, hq, List.filter_cons, Msg.isNotice], by simp, fun _ _ => rfl,
          fun _ => .inr (by simp)⟩
  · have hquiet : k.beginSend = k := by
      refine Link.beginSend_of_quiet ?_
      by_cases hup : k.up = true
      · exact .inr (.inl (by simpa using not_and.mp hidle hup))
      · exact .inl (by simpa using hup)
    rw [hquiet]
    refine ⟨rfl, rfl, Iff.rfl, fun hup _ => ?_, .inl⟩
    simpa using not_and.mp hidle hup

theorem Link.Fits.beginSend (h : k.Fits) (hsends : k.sending = true → k.outQ ≠ []) : k.beginSend.Bounded := by
  obtain ⟨hreplies, hnotices, hempty, hbusy, hsending⟩ := k.beginSend_queue
  obtain ⟨-, -, hup, hwindow, hrefusal, hserial, -⟩ := k.beginSend_keeps
  constructor
  · constructor
    · rw [hwindow]; exact h.few
    · rw [hwindow]; exact h.tags
    · rw [hwindow]; exact h.serials
    · rw [hwindow, hserial]; exact h.issued
    · rw [hwindow, hrefusal]; exact h.refused
    · rw [hreplies]; exact h.once
    · rw [hreplies, hwindow]; exact h.asked
    · rw [hreplies, hrefusal]; exact h.full
    · rw [hnotices]; exact h.notices
    · rw [hwindow, hrefusal, hup, hempty]; exact h.down
  · intro hs hq
    rw [hempty] at hq
    exact (hsending hs).elim (fun hs => hsends hs hq) fun hne => hne hq
  · rw [hup]
    exact fun hup hq => hbusy hup fun hnil => hq (hempty.mpr hnil)

/-! ### What joins the queue -/

theorem Link.place_queue (k : Link) (m : Msg) : (k.place m).replies = k.replies ++ (match m with
      | .reply p => [p.serial]
      | .notice _ _ => []) ∧
    (k.place m).noticeCount = k.noticeCount + (if m.isNotice then 1 else 0) := by
  obtain ⟨hreplies, hnotices, -⟩ := Link.beginSend_queue { k with outQ := k.outQ ++ [m] }
  rw [Link.place, hreplies, hnotices]
  cases m <;> simp [Link.replies, Link.noticeCount, List.filter_cons, Msg.isNotice]

theorem Link.Bounded.raise (h : k.Bounded) (n : Notice) : (k.raise n).Bounded := by
  by_cases hup : k.up = true
  · by_cases hroom : k.noticeCount < 55
    · rw [Link.raise_placed hup hroom]
      refine Link.Fits.beginSend ?_ (fun _ => by simp)
      have hreplies : Link.replies { k with outQ := k.outQ ++ [.notice n 0] } = k.replies := by simp [Link.replies]
      have hnotices : Link.noticeCount { k with outQ := k.outQ ++ [.notice n 0] } = k.noticeCount + 1 := by
        simp [Link.noticeCount, List.filter_cons, Msg.isNotice]
      exact ⟨h.few, h.tags, h.serials, h.issued, h.refused, by rw [hreplies]; exact h.once, by rw [hreplies]; exact h.asked,
        by rw [hreplies]; exact h.full, by rw [hnotices]; exact hroom, fun hdown => by rw [hup] at hdown; cases hdown⟩
    · rw [Link.raise_lost hup (Nat.not_lt.mp hroom)]
      exact ⟨⟨h.few, h.tags, h.serials, h.issued, h.refused, h.once, h.asked, h.full, h.notices, h.down⟩, h.sends, h.busy⟩
  · rw [Link.raise_down (by simpa using hup)]
    exact h

theorem Link.replies_raise (k : Link) (n : Notice) : (k.raise n).replies = k.replies := by
  unfold Link.raise
  split
  · rfl
  · split
    · rw [(k.place_queue _).1, List.append_nil]
    · rfl

/-- A reply that is placed: to a request of the window, or to the refusal place's. -/
theorem Link.Bounded.place_reply (h : k.Bounded) {p : Reply} (hup : k.up = true) (hnew : p.serial ∉ k.replies)
    (hasked : ∀ n, p.serial = some n → n ∈ k.window.map Prod.snd) (hfull : p.serial = none → k.refusal ≠ none) :
    (k.place (.reply p)).Bounded := by
  refine Link.Fits.beginSend ?_ (fun _ => by simp)
  have hreplies : Link.replies { k with outQ := k.outQ ++ [.reply p] } = k.replies ++ [p.serial] := by simp [Link.replies]
  have hnotices : Link.noticeCount { k with outQ := k.outQ ++ [.reply p] } = k.noticeCount := by
    simp [Link.noticeCount, Msg.isNotice]
  refine ⟨h.few, h.tags, h.serials, h.issued, h.refused, ?_, fun n hn => ?_, fun hn => ?_, by rw [hnotices]; exact h.notices,
    fun hdown => by rw [hup] at hdown; cases hdown⟩
  · rw [hreplies]
    exact List.nodup_append.mpr ⟨h.once, List.nodup_singleton _, fun a ha b hb hab => by
      rw [hab, List.mem_singleton.mp hb] at ha
      exact hnew ha⟩
  · rw [hreplies, List.mem_append, List.mem_singleton] at hn
    exact hn.elim (h.asked n) fun hn => hasked n hn.symm
  · rw [hreplies, List.mem_append, List.mem_singleton] at hn
    exact hn.elim h.full fun hn => hfull hn.symm

theorem Link.holds_iff (k : Link) (n : Nat) : k.holds n = true ↔ n ∈ k.window.map Prod.snd := by
  simp [Link.holds]

theorem Link.Bounded.reply (h : k.Bounded) {r : ReqRef} (hnew : some r.serial ∉ k.replies) (st : Status) (b : ReplyBody) :
    (k.reply r st b).Bounded := by
  cases hholds : k.holds r.serial with
  | true =>
    have hmem := (k.holds_iff _).mp hholds
    have hup : k.up = true := by
      cases hup : k.up with
      | true => rfl
      | false =>
        rw [(h.down hup).1] at hmem
        cases hmem
    rw [Link.reply_of_holds hholds]
    exact h.place_reply hup hnew (fun n hn => by cases hn; exact hmem) fun hn => by cases hn
  | false =>
    rw [Link.reply_of_not_holds hholds]
    exact ⟨⟨h.few, h.tags, h.serials, h.issued, h.refused, h.once, h.asked, h.full, h.notices, h.down⟩, h.sends, h.busy⟩

theorem Link.mem_replies_reply {k : Link} {r : ReqRef} {st : Status} {b : ReplyBody} {x : Option Nat}
    (hx : x ∈ (k.reply r st b).replies) : x ∈ k.replies ∨ x = some r.serial := by
  unfold Link.reply at hx
  split at hx
  · rw [(k.place_queue _).1, List.mem_append, List.mem_singleton] at hx
    exact hx
  · exact .inl hx

end

/-! ### Requests yet to be answered -/

/-- A request's identity. -/
def ReqRef.ident (r : ReqRef) : LinkNo × Nat := (r.link, r.serial)

/-- The links keep their bounds, and these requests can each be answered once. -/
structure Answerable (ks : Vector Link 4) (rs : List ReqRef) : Prop where
  bounded : ∀ l : LinkNo, (look ks l).Bounded
  distinct : (rs.map ReqRef.ident).Nodup
  unanswered : ∀ r ∈ rs, r.serial < (look ks r.link).nextSerial ∧ some r.serial ∉ (look ks r.link).replies

theorem State.linksSound_iff (s : State) : s.linksSound ↔ Answerable s.links s.owed := by
  constructor
  · rintro ⟨hsound, hdistinct, hopen⟩
    exact ⟨fun l => (Link.sound_iff _).mp (hsound l), hdistinct, hopen⟩
  · rintro ⟨hbounded, hdistinct, hopen⟩
    exact ⟨fun l => (Link.sound_iff _).mpr (hbounded l), hdistinct, hopen⟩

section
variable {s : State} {ks : Vector Link 4} {rs qs : List ReqRef}

/-- Fewer requests are as answerable. -/
theorem Answerable.fewer (h : Answerable ks rs) (hq : List.Subperm qs rs) : Answerable ks qs := by
  obtain ⟨xs, hperm, hsub⟩ := hq
  refine ⟨h.bounded, ?_, fun r hr => h.unanswered r (hsub.subset (hperm.symm.subset hr))⟩
  exact ((hperm.map ReqRef.ident).nodup_iff).mp (h.distinct.sublist (hsub.map _))

theorem Answerable.perm (h : Answerable ks rs) (hq : qs.Perm rs) : Answerable ks qs := h.fewer hq.subperm

/-- One link's record changes, and answers no more than it did. -/
theorem Answerable.onLink_at (h : Answerable s.links rs) {l : LinkNo} {f : Link → Link} (hbounded : (f (s.link l)).Bounded)
    (hserial : (s.link l).nextSerial ≤ (f (s.link l)).nextSerial) (hreplies : ∀ x ∈ (f (s.link l)).replies, x ∈ (s.link l).replies) :
    Answerable (s.onLink l f).links rs := by
  have hlink : ∀ m, look (s.onLink l f).links m = if m = l then f (s.link l) else look s.links m := fun m =>
    State.link_onLink s l m f
  refine ⟨fun m => ?_, h.distinct, fun r hr => ?_⟩
  · rw [hlink]
    split
    · exact hbounded
    · exact h.bounded m
  · obtain ⟨hissued, hopen⟩ := h.unanswered r hr
    rw [hlink]
    split
    · next hm =>
      rw [hm] at hissued hopen
      exact ⟨lt_of_lt_of_le hissued hserial, fun hmem => hopen (hreplies _ hmem)⟩
    · exact ⟨hissued, hopen⟩

theorem Answerable.onLink (h : Answerable s.links rs) {l : LinkNo} {f : Link → Link}
    (hf : ∀ k : Link, k.Bounded → (f k).Bounded ∧ k.nextSerial ≤ (f k).nextSerial ∧ ∀ x ∈ (f k).replies, x ∈ k.replies) :
    Answerable (s.onLink l f).links rs := by
  obtain ⟨hbounded, hserial, hreplies⟩ := hf _ (h.bounded l)
  exact h.onLink_at hbounded hserial hreplies

/-- A request is answered: it is not yet to be answered any more. -/
theorem Answerable.reply {r : ReqRef} (h : Answerable s.links (r :: rs)) (st : Status) (b : ReplyBody) :
    Answerable (s.reply r st b).links rs := by
  have hlink : ∀ m, look (s.reply r st b).links m = if m = r.link then (look s.links r.link).reply r st b else look s.links m :=
    fun m => State.link_onLink s r.link m _
  obtain ⟨-, hnew⟩ := h.unanswered r List.mem_cons_self
  obtain ⟨hnot, hdistinct⟩ := List.nodup_cons.mp h.distinct
  refine ⟨fun m => ?_, hdistinct, fun q hq => ?_⟩
  · rw [hlink]
    split
    · exact (h.bounded r.link).reply hnew st b
    · exact h.bounded m
  · obtain ⟨hissued, hopen⟩ := h.unanswered q (List.mem_cons_of_mem r hq)
    rw [hlink]
    split
    · next hm =>
      rw [hm] at hissued hopen
      rw [(Link.reply_keeps _ r st b).2.2.2.2.2]
      refine ⟨hissued, fun hmem => ?_⟩
      rcases Link.mem_replies_reply hmem with hmem | hsame
      · exact hopen hmem
      · have hident : q.ident = r.ident := Prod.ext hm (Option.some.inj hsame)
        exact hnot (hident ▸ List.mem_map_of_mem hq)
    · exact ⟨hissued, hopen⟩

end

end Sys2Proof.Machine
end

section
/-! PROOFS. The requests that the beam controller has yet to answer, and what each change makes of them (O52: R7, R73 to R78). -/

namespace Sys2Proof.Machine

/-- The requests that a beam has yet to answer. -/
def Beam.due (x : Beam) : List ReqRef := x.awaiting.map OpenReq.ref

/-- The requests that the wait list has yet to answer. -/
def waitDue (ws : List WaitEntry) : List ReqRef := ws.map (fun w => w.req.ref)

/-- The requests that the beam controller has yet to answer. -/
def BeamCtl.due (c : BeamCtl) : List ReqRef := allBeams.flatMap (fun b => (look c.beams b).due) ++ waitDue c.waitList

/-- The links keep their bounds, and can answer the beam controller's requests and these. -/
def Owes (ks : Vector Link 4) (c : BeamCtl) (rs : List ReqRef) : Prop := Answerable ks (c.due ++ rs)

/-- The requests that the other units have yet to answer. -/
def State.dueElsewhere (s : State) : List ReqRef :=
  s.handed.map Request.ref ++ (s.settings.store.map StoreJob.ref).toList ++ s.settings.restart.toList

theorem State.linksSound_iff_owes (s : State) : s.linksSound ↔ Owes s.links s.beamCtl s.dueElsewhere := by
  have hperm : s.owed.Perm (s.beamCtl.due ++ s.dueElsewhere) := by
    have hmove : ∀ h a w t r : List ReqRef, (h ++ a ++ w ++ t ++ r).Perm ((a ++ w) ++ (h ++ t ++ r)) := fun h a w t r => by
      rw [List.append_assoc h a w, List.append_assoc _ t r, List.append_assoc h t r, ← List.append_assoc (a ++ w) h]
      exact List.perm_append_comm.append_right (t ++ r)
    exact hmove _ _ _ _ _
  rw [State.linksSound_iff]
  exact ⟨fun h => h.perm hperm.symm, fun h => h.perm hperm⟩

section
variable {s : State} {ks : Vector Link 4} {c : BeamCtl} {rs qs xs ys : List ReqRef} {b : BeamNo}

theorem Owes.fewer (h : Owes ks c rs) (hq : List.Subperm qs rs) : Owes ks c qs := by
  obtain ⟨zs, hperm, hsub⟩ := hq
  exact Answerable.fewer h ⟨c.due ++ zs, hperm.append_left _, hsub.append_left _⟩

theorem Owes.perm (h : Owes ks c rs) (hq : qs.Perm rs) : Owes ks c qs := h.fewer hq.subperm

/-- What the rest of the beam controller owes, one beam apart. -/
def BeamCtl.dueBut (c : BeamCtl) (b : BeamNo) : List ReqRef :=
  (allBeams.erase b).flatMap (fun d => (look c.beams d).due) ++ waitDue c.waitList

theorem BeamCtl.due_perm (c : BeamCtl) (b : BeamNo) : c.due.Perm ((look c.beams b).due ++ c.dueBut b) := by
  have hbeams : allBeams.Perm (b :: allBeams.erase b) := List.perm_cons_erase (mem_allBeams b)
  unfold BeamCtl.due BeamCtl.dueBut
  rw [← List.append_assoc]
  exact (hbeams.flatMap_right _).append_right _

theorem State.dueBut_setBeam (s : State) (b : BeamNo) (y : Beam) : (s.setBeam b y).beamCtl.dueBut b = s.beamCtl.dueBut b := by
  unfold BeamCtl.dueBut
  refine congrArg (· ++ _) (List.flatMap_congr fun d hd => ?_)
  have hne : d ≠ b := fun h => by
    subst h
    exact ((List.nodup_finRange 24).mem_erase_iff.mp hd).1 rfl
  exact congrArg Beam.due ((State.beam_setBeam s b d y).trans (if_neg hne))

/-- A beam's record changes: what it is rid of is due elsewhere, what it takes on is not. -/
theorem Owes.setBeam {y : Beam} (h : Owes ks s.beamCtl xs) (hp : List.Subperm (y.due ++ ys) ((s.beam b).due ++ xs)) :
    Owes ks (s.setBeam b y).beamCtl ys := by
  have hself : look (s.setBeam b y).beamCtl.beams b = y := State.beam_setBeam_self s b y
  have hbefore : Answerable ks (((s.beam b).due ++ xs) ++ s.beamCtl.dueBut b) := by
    refine Answerable.perm h ?_
    have hsplit := (s.beamCtl.due_perm b).append_right xs
    rw [List.append_assoc] at hsplit ⊢
    exact ((List.perm_append_comm (l₁ := xs) (l₂ := s.beamCtl.dueBut b)).append_left _).trans hsplit.symm
  have hafter : Answerable ks ((y.due ++ ys) ++ s.beamCtl.dueBut b) := by
    obtain ⟨zs, hperm, hsub⟩ := hp
    exact hbefore.fewer ⟨zs ++ _, hperm.append_right _, hsub.append_right _⟩
  refine Answerable.perm hafter ?_
  have hsplit := ((s.setBeam b y).beamCtl.due_perm b).append_right ys
  rw [hself, State.dueBut_setBeam, List.append_assoc] at hsplit
  refine hsplit.trans ?_
  rw [List.append_assoc]
  exact (List.perm_append_comm).append_left _

theorem Owes.setWaitList {ws : List WaitEntry} (h : Owes ks s.beamCtl xs)
    (hp : List.Subperm (waitDue ws ++ ys) (waitDue s.beamCtl.waitList ++ xs)) : Owes ks (s.setWaitList ws).beamCtl ys := by
  have hbefore : Answerable ks (allBeams.flatMap (fun b => (s.beam b).due) ++ (waitDue s.beamCtl.waitList ++ xs)) := by
    rw [← List.append_assoc]
    exact h
  have hafter : Answerable ks (allBeams.flatMap (fun b => (s.beam b).due) ++ (waitDue ws ++ ys)) := by
    obtain ⟨zs, hperm, hsub⟩ := hp
    exact hbefore.fewer ⟨_ ++ zs, hperm.append_left _, hsub.append_left _⟩
  rw [← List.append_assoc] at hafter
  exact hafter

/-- A record that awaits what it did. -/
theorem Owes.setBeam_same {y : Beam} (h : Owes ks s.beamCtl rs) (hy : y.awaiting = (s.beam b).awaiting) :
    Owes ks (s.setBeam b y).beamCtl rs := h.setBeam (by rw [Beam.due, hy, ← Beam.due])

/-- A record that awaits nothing. -/
theorem Owes.setBeam_free {y : Beam} (h : Owes ks s.beamCtl rs) (hy : y.awaiting = []) : Owes ks (s.setBeam b y).beamCtl rs :=
  h.setBeam (by
    rw [Beam.due, hy]
    exact (List.sublist_append_right _ _).subperm)

/-- A record rid of what it awaited, which is now due elsewhere. -/
theorem Owes.setBeam_rid {y : Beam} (h : Owes ks s.beamCtl rs) (hy : y.awaiting = []) :
    Owes ks (s.setBeam b y).beamCtl ((s.beam b).due ++ rs) :=
  h.setBeam (by rw [Beam.due, hy]; exact List.Subperm.refl _)

/-- A controller that awaits what another does. -/
theorem Owes.of_due {d : BeamCtl} (h : Owes ks c rs) (hd : d.due = c.due) : Owes ks d rs := by
  rw [Owes, hd]
  exact h

theorem BeamCtl.due_congr {c d : BeamCtl} (hbeams : d.beams = c.beams) (hwaits : d.waitList = c.waitList) : d.due = c.due := by
  rw [BeamCtl.due, hbeams, hwaits, ← BeamCtl.due]

@[simp] theorem owes_setHead (s : State) (h : HeadNo) (x : Head) : Owes ks (s.setHead h x).beamCtl rs ↔ Owes ks s.beamCtl rs := Iff.rfl

@[simp] theorem owes_sendNext (s : State) (h : HeadNo) : Owes ks (s.sendNext h).beamCtl rs ↔ Owes ks s.beamCtl rs := by
  have hdue : (s.sendNext h).beamCtl.due = s.beamCtl.due := by
    unfold State.sendNext
    dsimp only
    (repeat' split) <;> rfl
  rw [Owes, hdue, Owes]

@[simp] theorem owes_pushCmd (s : State) (h : HeadNo) (c : HeadCmd) :
    Owes ks (s.pushCmd h c).beamCtl rs ↔ Owes ks s.beamCtl rs := by
  rw [Owes, BeamCtl.due_congr (State.beams_pushCmd _ _ _) (State.waitList_pushCmd _ _ _), Owes]

/-! ### Replies -/

theorem Owes.reply {r : ReqRef} (h : Owes s.links c (r :: rs)) (st : Status) (b : ReplyBody) :
    Owes (s.reply r st b).links c rs :=
  Answerable.reply (Answerable.perm h List.perm_middle.symm) st b

theorem Owes.answer {r : ReqRef} (h : Owes s.links c (r :: rs)) (st : Status) : Owes (s.answer r st).links c rs := h.reply st .empty

/-- Requests answered in turn. -/
theorem Owes.foldl_reply {β : Type} {ref : β → ReqRef} {f : State → β → State}
    (hf : ∀ (u : State) (x : β) (ts : List ReqRef), Owes u.links c (ref x :: ts) → Owes (f u x).links c ts) (bs : List β)
    (h : Owes s.links c (bs.map ref ++ rs)) : Owes (bs.foldl f s).links c rs := by
  induction bs generalizing s with
  | nil => exact h
  | cons x bs ih => exact ih (hf s x _ h)

/-! ### Notices -/

@[simp] theorem State.owes_raise (h : Owes s.links c rs) (l : LinkNo) (n : Notice) : Owes (s.raise l n).links c rs :=
  Answerable.onLink h fun k hk => ⟨hk.raise n, le_of_eq (k.raise_keeps n).2.2.2.2.2.symm, fun x hx => by rwa [k.replies_raise] at hx⟩

@[simp] theorem foldl_owes {β : Type} {f : State → β → State} (h : Owes s.links c rs)
    (hf : ∀ (u : State) (b : β), Owes u.links c rs → Owes (f u b).links c rs) (bs : List β) : Owes (bs.foldl f s).links c rs := by
  induction bs generalizing s with
  | nil => exact h
  | cons b bs ih => exact ih (hf s b h)

@[simp] theorem ite_owes {p : Prop} [Decidable p] {t u : State} (ht : Owes t.links c rs) (hu : Owes u.links c rs) :
    Owes (if p then t else u).links c rs := by
  split
  · exact ht
  · exact hu

@[simp] theorem State.owes_raiseWhere (h : Owes s.links c rs) (p : LinkNo → Link → Bool) (n : Notice) :
    Owes (s.raiseWhere p n).links c rs :=
  foldl_owes h (fun _ l hu => ite_owes (State.owes_raise hu l n) hu) _

@[simp] theorem State.owes_judge (h : Owes s.links c rs) : Owes s.judge.links c rs := by
  unfold State.judge
  (repeat' split) <;> simp [h]

end

end Sys2Proof.Machine
end

section
/-! PROOFS. What only raises notices leaves every request as answerable as it was (O52: R7, R9). -/

namespace Sys2Proof.Machine

section
variable {s : State} {bc : BeamCtl} {rs : List ReqRef}

@[simp] theorem State.owes_offerCopy (h : Owes s.links bc rs) (l : LinkNo) (c : Content) :
    Owes (s.offerCopy l c).links bc rs := by
  unfold State.offerCopy
  dsimp only
  (repeat' split) <;> simp +contextual (maxDischargeDepth := 9) [h]

@[simp] theorem State.owes_frameResult (h : Owes s.links bc rs) (f : Frame) (x : FrameFate) :
    Owes (s.frameResult f x).links bc rs := by
  unfold State.frameResult
  split <;> simp +contextual (maxDischargeDepth := 9) [h]

@[simp] theorem State.owes_dropFrames (h : Owes s.links bc rs) (p : Frame → Bool) (x : FrameFate) (k : Fin 21) :
    Owes (s.dropFrames p x k).links bc rs := by
  unfold State.dropFrames
  simp +contextual (maxDischargeDepth := 9) [h]

@[simp] theorem State.owes_noteSettled (h : Owes s.links bc rs) (p : Frame × Settled) :
    Owes (s.noteSettled p).links bc rs := by
  unfold State.noteSettled
  (repeat' split) <;> simp +contextual (maxDischargeDepth := 9) [h]

@[simp] theorem State.owes_settleBurst (h : Owes s.links bc rs) (b : BeamNo) (u : Burst) (o : Nat → FrameOutcome) :
    Owes (s.settleBurst b u o).links bc rs := by
  unfold State.settleBurst
  simp +contextual (maxDischargeDepth := 9) [h]

@[simp] theorem State.owes_deriveCondition (h : Owes s.links bc rs) (c : CraneNo) :
    Owes (s.deriveCondition c).links bc rs := by
  unfold State.deriveCondition
  dsimp only
  (repeat' split) <;> simp +contextual (maxDischargeDepth := 9) [h]

@[simp] theorem State.owes_raiseAlarm (h : Owes s.links bc rs) (r : RackNo) (p : PlugNo) :
    Owes (s.raiseAlarm r p).links bc rs := by
  unfold State.raiseAlarm
  simp +contextual (maxDischargeDepth := 9) [h]

@[simp] theorem State.owes_applyConsult (h : Owes s.links bc rs) (r : RackNo) (p : PlugNo) (k : Consult) :
    Owes (s.applyConsult r p k).links bc rs := by
  unfold State.applyConsult
  (repeat' split) <;> simp +contextual (maxDischargeDepth := 9) [h]

@[simp] theorem State.owes_regrade (h : Owes s.links bc rs) (r : RackNo) (p : PlugNo) (d : Bool) :
    Owes (s.regrade r p d).links bc rs := by
  unfold State.regrade
  simp +contextual (maxDischargeDepth := 9) [h]

@[simp] theorem State.owes_silencePlug (h : Owes s.links bc rs) (r : RackNo) (v : Silence) (p : PlugNo) :
    Owes (s.silencePlug r v p).links bc rs := by
  unfold State.silencePlug
  dsimp only
  (repeat' split) <;> simp +contextual (maxDischargeDepth := 9) [h]

@[simp] theorem State.owes_setSilence (h : Owes s.links bc rs) (r : RackNo) (v : Silence) :
    Owes (s.setSilence r v).links bc rs := by
  unfold State.setSilence
  split <;> simp +contextual (maxDischargeDepth := 9) [h]

@[simp] theorem State.owes_rackSilent (h : Owes s.links bc rs) (r : RackNo) : Owes (s.rackSilent r).links bc rs := by
  unfold State.rackSilent
  (repeat' split) <;> simp +contextual (maxDischargeDepth := 9) [h]

@[simp] theorem State.owes_reevaluateRack (h : Owes s.links bc rs) (r : RackNo) : Owes (s.reevaluateRack r).links bc rs := by
  unfold State.reevaluateRack
  (repeat' split) <;> simp +contextual (maxDischargeDepth := 9) [h]

@[simp] theorem State.owes_goSilent (h : Owes s.links bc rs) (e : EntryNo) : Owes (s.goSilent e).links bc rs := by
  unfold State.goSilent
  dsimp only
  (repeat' split) <;> simp +contextual (maxDischargeDepth := 9) [h]

@[simp] theorem State.owes_followCrane (h : Owes s.links bc rs) (g : SegNo) (c : CraneNo) :
    Owes (s.followCrane g c).links bc rs := by
  unfold State.followCrane
  (repeat' split) <;> simp +contextual (maxDischargeDepth := 9) [h]

@[simp] theorem State.owes_followRack (h : Owes s.links bc rs) (g : SegNo) (r : RackNo) :
    Owes (s.followRack g r).links bc rs := by
  unfold State.followRack
  (repeat' split) <;> simp +contextual (maxDischargeDepth := 9) [h]

@[simp] theorem State.owes_classChanged (h : Owes s.links bc rs) (g : SegNo) (x y : SegClass) :
    Owes (s.classChanged g x y).links bc rs := by
  rw [State.classChanged_eq]
  simp +contextual (maxDischargeDepth := 9) [h]

@[simp] theorem State.owes_rechoose (h : Owes s.links bc rs) (gs : List SegNo) : Owes (s.rechoose gs).links bc rs := by
  unfold State.rechoose
  simp +contextual (maxDischargeDepth := 9) [h]

@[simp] theorem State.owes_raiseLost (h : Owes s.links bc rs) (b : BeamNo) (r : LossReason) :
    Owes (s.raiseLost b r).links bc rs := by
  unfold State.raiseLost
  dsimp only
  (repeat' split) <;> simp +contextual (maxDischargeDepth := 9) [h]

@[simp] theorem State.owes_forcedReturn (h : Owes s.links bc rs) (b : BeamNo) (u : Burst) :
    Owes (s.forcedReturn b u).links bc rs := by
  unfold State.forcedReturn
  simp +contextual (maxDischargeDepth := 9) [h]

@[simp] theorem State.owes_raiseHeadState (h : Owes s.links bc rs) (i : HeadNo) : Owes (s.raiseHeadState i).links bc rs := by
  unfold State.raiseHeadState
  simp +contextual (maxDischargeDepth := 9) [h]

@[simp] theorem State.owes_copyTelemetry (h : Owes s.links bc rs) (m : LinkSet) (t : TelemetryCopy) :
    Owes (s.copyTelemetry m t).links bc rs := by
  unfold State.copyTelemetry
  simp +contextual (maxDischargeDepth := 9) [h]

@[simp] theorem State.owes_takeTelemetry (h : Owes s.links bc rs) (e : EntryNo) (c : CraneNo) (b : Bool) (f : List Byte) :
    Owes (s.takeTelemetry e c b f).links bc rs := by
  unfold State.takeTelemetry
  dsimp only
  (repeat' split) <;> simp +contextual (maxDischargeDepth := 9) [h]

@[simp] theorem State.owes_expireWatch (h : Owes s.links bc rs) (c : CraneNo) : Owes (s.expireWatch c).links bc rs := by
  unfold State.expireWatch
  (repeat' split) <;> simp +contextual (maxDischargeDepth := 9) [h]

@[simp] theorem State.owes_applyReading (h : Owes s.links bc rs) (r : RackNo) (q : Reading) :
    Owes (s.applyReading r q).links bc rs := by
  unfold State.applyReading
  dsimp only
  (repeat' split) <;> simp +contextual (maxDischargeDepth := 9) [h]

@[simp] theorem State.owes_offerDigests (h : Owes s.links bc rs) (r : RackNo) (d : Digest) (c : Bool) :
    Owes (s.offerDigests r d c).links bc rs := by
  unfold State.offerDigests
  simp +contextual (maxDischargeDepth := 9) [h]

@[simp] theorem State.owes_acceptReport (h : Owes s.links bc rs) (e : EntryNo) (r : RackNo) (k : RackRec) (c : Byte) (q : List Reading) :
    Owes (s.acceptReport e r k c q).links bc rs := by
  unfold State.acceptReport
  dsimp only
  (repeat' split) <;> simp +contextual (maxDischargeDepth := 9) [h]

@[simp] theorem State.owes_takeReport (h : Owes s.links bc rs) (e : EntryNo) (r : RackNo) (f : List Byte) :
    Owes (s.takeReport e r f).links bc rs := by
  unfold State.takeReport
  dsimp only
  (repeat' split) <;> simp +contextual (maxDischargeDepth := 9) [h]

@[simp] theorem State.owes_moveEntry (h : Owes s.links bc rs) (e : EntryNo) (g : SegNo) :
    Owes (s.moveEntry e g).links bc rs := by
  unfold State.moveEntry
  dsimp only
  (repeat' split) <;> simp +contextual (maxDischargeDepth := 9) [h]

@[simp] theorem State.owes_takeUnknown (h : Owes s.links bc rs) (l : LinkNo) (a : Word) :
    Owes (s.takeUnknown l a).links bc rs := by
  unfold State.takeUnknown
  dsimp only
  (repeat' split) <;> simp +contextual (maxDischargeDepth := 9) [h]

@[simp] theorem State.owes_repeatPause (h : Owes s.links bc rs) (t : Time) : Owes (s.repeatPause t).links bc rs := by
  unfold State.repeatPause
  dsimp only
  (repeat' split) <;> simp +contextual (maxDischargeDepth := 9) [h]

@[simp] theorem State.owes_acceptFrame (h : Owes s.links bc rs) (a : AllocKind) (f : Frame) :
    Owes (s.acceptFrame a f).links bc rs := by
  unfold State.acceptFrame
  dsimp only
  (repeat' split) <;> simp +contextual (maxDischargeDepth := 9) [h]

@[simp] theorem State.owes_purgeClass (h : Owes s.links bc rs) (e : EntryNo) (c : FrameClass) (b : Bool) :
    Owes (s.purgeClass e c b).links bc rs := by
  unfold State.purgeClass
  split <;> simp +contextual (maxDischargeDepth := 9) [h]

@[simp] theorem State.owes_purge (h : Owes s.links bc rs) (e : EntryNo) (b : Byte) : Owes (s.purge e b).links bc rs := by
  unfold State.purge
  simp +contextual (maxDischargeDepth := 9) [h]

end

end Sys2Proof.Machine
end

section
/-! PROOFS. The beam controller's operations keep every request answerable once (O52: R7, R73 to R87). -/

namespace Sys2Proof.Machine

/-- The links keep their bounds, and can answer the beam controller's requests and these. -/
abbrev State.OwesFor (s : State) (rs : List ReqRef) : Prop := Owes s.links s.beamCtl rs

section
variable {s t : State} {rs : List ReqRef} {b : BeamNo} {g : SegNo}

theorem State.OwesFor.of_parts (h : s.OwesFor rs) (hlinks : t.links = s.links) (hbeams : t.beamCtl = s.beamCtl) : t.OwesFor rs := by
  rw [State.OwesFor, hlinks, hbeams]
  exact h

theorem State.OwesFor.foldl {β : Type} {f : State → β → State} (hf : ∀ (u : State) (x : β), u.OwesFor rs → (f u x).OwesFor rs)
    (xs : List β) (h : s.OwesFor rs) : (xs.foldl f s).OwesFor rs := by
  induction xs generalizing s with
  | nil => exact h
  | cons x xs ih => exact ih (hf s x h)

theorem State.OwesFor.setBeam_same (h : s.OwesFor rs) {y : Beam} (hy : y.awaiting = (s.beam b).awaiting) :
    (s.setBeam b y).OwesFor rs := Owes.setBeam_same h hy

theorem State.OwesFor.setBeam_free (h : s.OwesFor rs) {y : Beam} (hy : y.awaiting = []) : (s.setBeam b y).OwesFor rs :=
  Owes.setBeam_free h hy

theorem State.OwesFor.setHead (h : s.OwesFor rs) (i : HeadNo) (x : Head) : (s.setHead i x).OwesFor rs := h

theorem State.OwesFor.pushCmd (h : s.OwesFor rs) (i : HeadNo) (c : HeadCmd) : (s.pushCmd i c).OwesFor rs := by
  have hlinks : (s.pushCmd i c).links = s.links := s.pushCmd_keepsAllBut i c .links (by decide)
  rw [State.OwesFor, hlinks, owes_pushCmd]
  exact h

theorem State.OwesFor.bumpCov (h : s.OwesFor rs) (k : Fin 24) : (s.bumpCov k).OwesFor rs := h

theorem State.OwesFor.setCell (h : s.OwesFor rs) (i : HeadNo) (g : SegNo) (c : Cell) : (s.setCell i g c).OwesFor rs := h

theorem State.OwesFor.rechoose (h : s.OwesFor rs) (gs : List SegNo) : (s.rechoose gs).OwesFor rs := by
  have hquiet := State.owes_rechoose h gs
  rwa [← show (s.rechoose gs).beamCtl = s.beamCtl by simp] at hquiet

theorem State.OwesFor.judge (h : s.OwesFor rs) : s.judge.OwesFor rs := by
  have hquiet := State.owes_judge h
  rwa [← show s.judge.beamCtl = s.beamCtl by simp] at hquiet

theorem State.OwesFor.raiseLost (h : s.OwesFor rs) (b : BeamNo) (r : LossReason) : (s.raiseLost b r).OwesFor rs := by
  have hquiet := State.owes_raiseLost h b r
  rwa [← show (s.raiseLost b r).beamCtl = s.beamCtl by simp] at hquiet

theorem State.OwesFor.raiseHeadState (h : s.OwesFor rs) (i : HeadNo) : (s.raiseHeadState i).OwesFor rs := by
  have hquiet := State.owes_raiseHeadState h i
  rwa [← show (s.raiseHeadState i).beamCtl = s.beamCtl by simp] at hquiet

/-! ### Joining, steering and serving (R73, R76) -/

/-- A request that joins a beam is answered, or awaits the beam's answer. -/
theorem State.OwesFor.join {r : OpenReq} (h : s.OwesFor (r.ref :: rs)) (b : BeamNo) (g : SegNo) : (s.join b r g).OwesFor rs := by
  unfold State.join
  dsimp only
  split
  · have hset : (s.setBeam b { s.beam b with holders := put (s.beam b).holders r.ref.link true }).OwesFor (r.ref :: rs) :=
      h.setBeam_same rfl
    exact Owes.reply (s := (s.setBeam b _).bumpCov 19) hset _ _
  · refine Owes.setBeam h ?_
    rw [Beam.due, List.map_append, List.append_assoc]
    exact List.Subperm.refl _

theorem State.OwesFor.foldl_join (ws : List WaitEntry) (h : s.OwesFor (waitDue ws ++ rs)) (b : BeamNo) (g : SegNo) :
    (ws.foldl (fun s w => s.join b w.req g) s).OwesFor rs := by
  induction ws generalizing s with
  | nil => exact h
  | cons w ws ih => exact ih (State.OwesFor.join h b g)

theorem waitDue_filter_perm (p : WaitEntry → Bool) (ws : List WaitEntry) :
    (waitDue (ws.filter (fun w => !p w)) ++ waitDue (ws.filter p)).Perm (waitDue ws) := by
  rw [waitDue, waitDue, ← List.map_append]
  exact ((List.perm_append_comm).trans (List.filter_append_perm p ws)).map _

theorem State.OwesFor.joinWaiting (h : s.OwesFor rs) (b : BeamNo) (g : SegNo) : (s.joinWaiting b g).OwesFor rs := by
  have hlist : (s.setWaitList (s.beamCtl.waitList.filter (fun w => !w.joins g))).OwesFor
      (waitDue (s.beamCtl.waitList.filter (fun w => w.joins g)) ++ rs) := by
    refine Owes.setWaitList h ?_
    rw [← List.append_assoc]
    exact ((waitDue_filter_perm (fun w => w.joins g) s.beamCtl.waitList).append_right rs).subperm
  exact State.OwesFor.foldl_join _ hlist b g

theorem State.OwesFor.steer {r : OpenReq} (h : s.OwesFor (r.ref :: rs)) (b : BeamNo) (g : SegNo) (oneShot : Bool) :
    (s.steer b r g oneShot).OwesFor rs := by
  rw [State.steer_eq]
  have hset : (s.setBeam b ((s.beam b).steered r g oneShot)).OwesFor rs :=
    Owes.setBeam h (List.sublist_append_right _ (r.ref :: rs)).subperm
  exact hset.pushCmd _ _

theorem waitDue_erase_perm {ws : List WaitEntry} {w : WaitEntry} (hw : w ∈ ws) :
    (waitDue (ws.erase w) ++ w.req.ref :: rs).Perm (waitDue ws ++ rs) := by
  have hperm : (waitDue ws).Perm (w.req.ref :: waitDue (ws.erase w)) := (List.perm_cons_erase hw).map _
  exact List.perm_middle.trans (hperm.symm.append_right rs)

/-- An entry leaves the wait list, to be answered or steered. -/
theorem State.OwesFor.unlisted (h : s.OwesFor rs) {w : WaitEntry} (hw : w ∈ s.beamCtl.waitList) :
    (s.setWaitList (s.beamCtl.waitList.erase w)).OwesFor (w.req.ref :: rs) :=
  Owes.setWaitList h (waitDue_erase_perm hw).subperm

theorem State.OwesFor.serveIdle (h : s.OwesFor rs) (b : BeamNo) : (s.serveIdle b).OwesFor rs := by
  unfold State.serveIdle
  dsimp only
  split
  · split
    · exact h
    · next w hfind =>
      have hsteer := (h.unlisted (List.mem_of_find?_eq_some hfind)).steer (b := b) (g := w.seg) (oneShot := w.oneShot)
      split
      · exact hsteer
      · exact hsteer.joinWaiting b w.seg
  · exact h

theorem State.OwesFor.serveOpen (h : s.OwesFor rs) (b : BeamNo) : (s.serveOpen b).OwesFor rs := by
  unfold State.serveOpen
  (repeat' split)
  · exact h.joinWaiting b _
  · exact h
  · exact h

theorem State.OwesFor.trySweep (h : s.OwesFor rs) (i : HeadNo) : (s.trySweep i).OwesFor rs := by
  by_cases hmay : s.sweepMay i = true
  · rw [State.trySweep_of_may hmay]
    have hfirst : (s.setBeam (beamOf i .a) { s.beam (beamOf i .a) with state := .surveying }).OwesFor rs := h.setBeam_same rfl
    have hboth : (s.surveyBeams i).OwesFor rs := State.OwesFor.setBeam_same (b := beamOf i .b) hfirst rfl
    exact (hboth.setHead i _).bumpCov 12
  · rwa [State.trySweep_of_not hmay]

theorem State.OwesFor.becameIdle (h : s.OwesFor rs) (b : BeamNo) : (s.becameIdle b).OwesFor rs := (h.trySweep _).serveIdle b

/-! ### Closing (R77, R78) -/

theorem State.OwesFor.closeBeam (h : s.OwesFor rs) (b : BeamNo) (o : Option LossReason) : (s.closeBeam b o).OwesFor rs := by
  unfold State.closeBeam
  dsimp only
  split
  · exact State.OwesFor.becameIdle (State.OwesFor.setBeam_free (h.setHead _ _) rfl) b
  · split
    · have htold : (match o with
          | some v => s.raiseLost b v
          | none => s).OwesFor rs := by
        cases o with
        | none => exact h
        | some v => exact h.raiseLost b v
      exact (htold.setBeam_free rfl).pushCmd _ _
    · exact h

theorem State.OwesFor.burstEnded (h : s.OwesFor rs) (b : BeamNo) (l : LinkNo) : (s.burstEnded b l).OwesFor rs := by
  have hset : (s.setBeam b ((s.beam b).afterBurst l)).OwesFor rs := h.setBeam_same rfl
  rw [State.burstEnded_eq]
  split
  · exact hset.closeBeam b _
  · split
    · exact hset.closeBeam b none
    · exact hset

theorem State.OwesFor.settleBurst (h : s.OwesFor rs) (b : BeamNo) (u : Burst) (o : Nat → FrameOutcome) :
    (s.settleBurst b u o).OwesFor rs := by
  have hset : (s.setBeam b { s.beam b with burst := none }).OwesFor rs := h.setBeam_same rfl
  rw [State.OwesFor, s.settleBurst_beamCtl b u o]
  exact State.owes_settleBurst (s := s) hset b u o

theorem State.OwesFor.forcedReturn (h : s.OwesFor rs) (b : BeamNo) (u : Burst) : (s.forcedReturn b u).OwesFor rs :=
  (h.settleBurst b u _).of_parts (State.bumpDown_frame _ _).2.1 (State.bumpDown_frame _ _).2.2.2.2.2.2.1

theorem State.OwesFor.endBurst (h : s.OwesFor rs) (b : BeamNo) (u : Burst) (o : Nat → FrameOutcome) : (s.endBurst b u o).OwesFor rs :=
  (h.settleBurst b u o).burstEnded b u.owner

theorem State.OwesFor.returnOwned (h : s.OwesFor rs) (b : BeamNo) (l : LinkNo) : (s.returnOwned b l).OwesFor rs := by
  unfold State.returnOwned
  split
  · exact h
  · split
    · exact (h.forcedReturn b _).burstEnded b l
    · exact h

theorem State.OwesFor.closeIfEmpty (h : s.OwesFor rs) (b : BeamNo) : (s.closeIfEmpty b).OwesFor rs := by
  unfold State.closeIfEmpty
  dsimp only
  split
  · exact h.closeBeam b none
  · exact h

/-! ### Losses and samples (R57, R58, R61, R83) -/

theorem State.OwesFor.loseBeam (h : s.OwesFor rs) (b : BeamNo) (g : SegNo) (r : LossReason) : (s.loseBeam b g r).OwesFor rs := by
  unfold State.loseBeam
  dsimp only
  (repeat' split)
  · exact h
  · exact h.closeBeam b _
  · exact h.setBeam_same rfl
  · exact h.setBeam_same rfl
  · exact h

theorem State.OwesFor.cellLost (h : s.OwesFor rs) (i : HeadNo) (g : SegNo) (r : LossReason) : (s.cellLost i g r).OwesFor rs :=
  (h.loseBeam _ g r).loseBeam _ g r

theorem State.OwesFor.sample (h : s.OwesFor rs) (i : HeadNo) (g : SegNo) (m k : Nat) (ctr : Fin 24) :
    (s.sample i g m k ctr).OwesFor rs := by
  unfold State.sample
  split
  · exact h
  · next c _ =>
    dsimp only
    have hset := (h.setCell i g (c.sampled m k)).bumpCov ctr
    split
    · split
      · exact State.OwesFor.cellLost ((hset.bumpCov 4).rechoose [g]) i g .retired
      · exact hset.rechoose [g]
    · exact h.bumpCov 3

theorem State.OwesFor.burstSample (h : s.OwesFor rs) (b : BeamNo) (o : Option SegNo) (x y : Nat) :
    (s.burstSample b o x y).OwesFor rs := by
  unfold State.burstSample
  (repeat' split)
  · exact h
  · exact h.sample _ _ _ _ _
  · exact h

theorem State.OwesFor.reportBurst (h : s.OwesFor rs) (b : BeamNo) (u : Burst) (o : Nat → FrameOutcome) (k : Fin 21) :
    (s.reportBurst b u o k).OwesFor rs := by
  have hended : ((s.endBurst b u o).bumpDown k).OwesFor rs := h.endBurst b u o
  exact (hended.burstSample b _ _ _).judge

theorem State.OwesFor.expireBurst (h : s.OwesFor rs) (b : BeamNo) : (s.expireBurst b).OwesFor rs := by
  unfold State.expireBurst
  split
  · exact h
  · exact h.endBurst b _ _

/-! ### Head faults and recoveries (R85, R86) -/

theorem State.OwesFor.beamFault (h : s.OwesFor rs) (b : BeamNo) : (s.beamFault b).OwesFor rs := by
  have hlost : (s.faultLost b).OwesFor rs := by
    unfold State.faultLost
    split
    · exact h.raiseLost b _
    · exact h
  have hawaits : ((s.faultLost b).beam b).awaiting = (s.beam b).awaiting := by
    have hkept : (s.faultLost b).beamCtl = s.beamCtl := State.faultLost_keepsAllBut .beamCtl (by decide)
    rw [State.beam_of_beamCtl hkept]
  have hreturned : (s.faultReturned b).OwesFor rs ∧ ((s.faultReturned b).beam b).awaiting = (s.beam b).awaiting := by
    unfold State.faultReturned
    split
    · next u _ =>
      refine ⟨hlost.forcedReturn b u, ?_⟩
      rw [State.beam_of_beamCtl (State.forcedReturn_beamCtl _ b u), State.beam_setBeam_self]
      exact hawaits
    · exact ⟨hlost, hawaits⟩
  obtain ⟨hreturned, hawaiting⟩ := hreturned
  have hrid : ((s.faultReturned b).setBeam b (s.beam b).faulted).OwesFor ((s.beam b).due ++ rs) := by
    have hset := Owes.setBeam_rid (b := b) hreturned (show (s.beam b).faulted.awaiting = [] from rfl)
    rwa [Beam.due, hawaiting, ← Beam.due] at hset
  rw [State.beamFault_eq]
  split
  · have hanswered := Owes.foldl_reply (ref := OpenReq.ref) (f := fun v (q : OpenReq) => v.answer q.ref .headFault)
      (fun _ _ _ hu => hu.answer _) (s.beam b).awaiting hrid
    have hkept := foldl_answer_keepsAllBut (s.beam b).awaiting .headFault ((s.faultReturned b).setBeam b (s.beam b).faulted)
      .beamCtl (by decide)
    rw [State.OwesFor, hkept]
    exact hanswered
  · exact Owes.fewer hrid (List.sublist_append_right _ _).subperm

theorem State.OwesFor.headFault (h : s.OwesFor rs) (i : HeadNo) : (s.headFault i).OwesFor rs := by
  unfold State.headFault
  dsimp only
  have hfault := h.setHead i { s.head i with
    state := .fault, outstanding := none, queue := [], retryAt := none, restartProbe := false, probeAt := some (s.now + 1000) }
  generalize s.setHead i _ = u at hfault ⊢
  have hbeams := (hfault.beamFault (beamOf i .a)).beamFault (beamOf i .b)
  exact ((hbeams.rechoose _).raiseHeadState i).bumpCov 15

/-- The two beams of a head IDLE. -/
theorem State.OwesFor.idled (h : s.OwesFor rs) (i : HeadNo) {u : State}
    (hu : u = s.setBeam (beamOf i .a) { s.beam (beamOf i .a) with state := .idle }) :
    (u.setBeam (beamOf i .b) { u.beam (beamOf i .b) with state := .idle }).OwesFor rs := by
  have hfirst : u.OwesFor rs := by
    rw [hu]
    exact h.setBeam_same rfl
  exact hfirst.setBeam_same rfl

theorem State.OwesFor.recoverHead (h : s.OwesFor rs) (i : HeadNo) : (s.recoverHead i).OwesFor rs := by
  unfold State.recoverHead
  dsimp only
  have hready := h.setHead i { s.head i with state := .ready, probeAt := none, reference := s.now, survey := .due }
  generalize s.setHead i _ = v at hready ⊢
  exact (((hready.idled i rfl).rechoose _).raiseHeadState i).bumpCov 17

theorem State.OwesFor.probed (h : s.OwesFor rs) (i : HeadNo) : (s.probed i).OwesFor rs := by
  unfold State.probed
  split
  · exact h.recoverHead i
  · exact h

end

end Sys2Proof.Machine
end

section
/-! PROOFS. The beam controller's answers and timers keep every request answerable once (O52: R7, R71 to R81). -/

namespace Sys2Proof.Machine

section
variable {s t : State} {rs : List ReqRef} {b : BeamNo} {g : SegNo}

/-! ### The answers of a head (R71, R74, R78, R81, R85) -/

theorem State.OwesFor.endOutstanding (h : s.OwesFor rs) (i : HeadNo) : (s.endOutstanding i).OwesFor rs := by
  rw [State.OwesFor, State.endOutstanding_beamCtl, (State.endOutstanding_frame s i).2.1]
  exact h

theorem State.OwesFor.answered (h : s.OwesFor rs) (i : HeadNo) (o : Outstanding) {f : State → State}
    (hf : ∀ u : State, u.OwesFor rs → (f u).OwesFor rs) : (s.answered i o f).OwesFor rs := by
  have hended := h.endOutstanding i
  unfold State.answered
  dsimp only
  split
  · exact hended.trySweep i
  · exact (hf _ hended).trySweep i

theorem State.OwesFor.answerRunsOut (h : s.OwesFor rs) (i : HeadNo) : (s.answerRunsOut i).OwesFor rs := by
  unfold State.answerRunsOut
  split
  · exact h.endOutstanding i
  · exact h.headFault i

theorem State.OwesFor.released (h : s.OwesFor rs) (b : BeamNo) (refused : Bool) : (s.released b refused).OwesFor rs := by
  have hcounted : (if refused then s.bumpCov 11 else s).OwesFor rs := by
    split
    · exact h
    · exact h
  unfold State.released
  dsimp only
  generalize (if refused then s.bumpCov 11 else s) = u at *
  split
  · have hset : (u.setBeam b { u.beam b with state := .idle, seg := none }).OwesFor rs := hcounted.setBeam_same rfl
    exact hset.becameIdle b
  · exact hcounted

/-- The awaiting requests answered OPENED. -/
theorem State.OwesFor.answerOpened (qs : List OpenReq) (h : s.OwesFor (qs.map OpenReq.ref ++ rs)) (b : BeamNo) (g : SegNo) :
    (s.answerOpened b g qs).OwesFor rs := by
  have hbeams : (s.answerOpened b g qs).beamCtl = s.beamCtl := foldl_keeps State.beamCtl
    (fun (s : State) (q : OpenReq) => s.reply q.ref .ok (.opened b (headOf b) g)) (fun _ _ => rfl) qs s
  rw [State.OwesFor, hbeams]
  exact Owes.foldl_reply (ref := OpenReq.ref) (f := fun (s : State) (q : OpenReq) => s.reply q.ref .ok (.opened b (headOf b) g))
    (fun _ _ _ hu => hu.reply _ _) qs h

theorem State.OwesFor.steered (h : s.OwesFor rs) (b : BeamNo) : (s.steered b).OwesFor rs := by
  unfold State.steered
  dsimp only
  split
  · have hrid : (s.setBeam b { s.beam b with state := .opened, awaiting := [] }).OwesFor ((s.beam b).due ++ rs) :=
      Owes.setBeam_rid h rfl
    generalize s.setBeam b { s.beam b with state := .opened, awaiting := [] } = u at *
    have htold : (match (s.beam b).seg with
        | some g => u.answerOpened b g (s.beam b).awaiting
        | none => u).OwesFor rs := by
      cases (s.beam b).seg with
      | some g => exact hrid.answerOpened _ b g
      | none => exact Owes.fewer hrid (List.sublist_append_right _ _).subperm
    split
    · exact htold.closeBeam b _
    · exact htold.serveOpen b
  · exact h

theorem insertByAge_perm (now : Time) (w : WaitEntry) (ws : List WaitEntry) : (insertByAge now w ws).Perm (w :: ws) := by
  induction ws with
  | nil => exact .refl _
  | cons v vs ih =>
    unfold insertByAge
    split
    · exact .refl _
    · exact (ih.cons v).trans (.swap w v vs)

theorem foldl_insertByAge_perm (now : Time) (ws l : List WaitEntry) :
    (ws.foldl (fun l w => insertByAge now w l) l).Perm (ws ++ l) := by
  induction ws generalizing l with
  | nil => exact .refl _
  | cons w ws ih => exact (ih _).trans (((insertByAge_perm now w l).append_left ws).trans List.perm_middle)

/-- Entries that come back are listed, or answered. -/
theorem State.OwesFor.requeue (ws : List WaitEntry) (h : s.OwesFor (waitDue ws ++ rs)) : (s.requeue ws).OwesFor rs := by
  have hall := foldl_insertByAge_perm s.now (ws.filter (fun w => !s.waitOver w)) s.beamCtl.waitList
  unfold State.requeue
  dsimp only
  generalize (ws.filter (fun w => !s.waitOver w)).foldl (fun l w => insertByAge s.now w l) s.beamCtl.waitList = all at hall ⊢
  have hlist : (s.setWaitList (all.take 16)).OwesFor (waitDue (ws.filter s.waitOver) ++ (waitDue (all.drop 16) ++ rs)) := by
    refine Owes.setWaitList h (List.Perm.subperm ?_)
    have hparts : (waitDue (all.take 16) ++ waitDue (all.drop 16)).Perm
        (waitDue (ws.filter (fun w => !s.waitOver w)) ++ waitDue s.beamCtl.waitList) := by
      rw [waitDue, waitDue, ← List.map_append, List.take_append_drop, waitDue, waitDue, ← List.map_append]
      exact hall.map _
    have hwhole := waitDue_filter_perm s.waitOver ws
    generalize waitDue (all.take 16) = a at *
    generalize waitDue (all.drop 16) = d at *
    generalize waitDue (ws.filter s.waitOver) = o at *
    generalize waitDue (ws.filter (fun w => !s.waitOver w)) = n at *
    generalize waitDue s.beamCtl.waitList = l at *
    calc a ++ (o ++ (d ++ rs))
      _ = (a ++ (o ++ d)) ++ rs := by simp only [List.append_assoc]
      _ |>.Perm ((a ++ (d ++ o)) ++ rs) := ((List.perm_append_comm (l₁ := o)).append_left a).append_right rs
      _ = ((a ++ d) ++ o) ++ rs := by simp only [List.append_assoc]
      _ |>.Perm (((n ++ l) ++ o) ++ rs) := (hparts.append_right o).append_right rs
      _ = (n ++ (l ++ o)) ++ rs := by simp only [List.append_assoc]
      _ |>.Perm ((l ++ (n ++ o)) ++ rs) := by
        refine List.Perm.append_right rs ?_
        rw [← List.append_assoc, ← List.append_assoc]
        exact List.perm_append_comm.append_right o
      _ |>.Perm ((l ++ waitDue ws) ++ rs) := (hwhole.append_left l).append_right rs
      _ = l ++ (waitDue ws ++ rs) := List.append_assoc _ _ _
  have hlate := Owes.foldl_reply (ref := fun w : WaitEntry => w.req.ref)
    (f := fun (s : State) (w : WaitEntry) => s.answer w.req.ref .noBeam) (fun _ _ _ hu => hu.answer _) _ hlist
  have hrest := Owes.foldl_reply (ref := fun w : WaitEntry => w.req.ref)
    (f := fun (s : State) (w : WaitEntry) => (s.bumpCov 21).answer w.req.ref .noBeam)
    (fun (u : State) _ _ hu => Owes.answer (s := u.bumpCov 21) hu _) _ hlate
  have hkept : ∀ u : State, ((all.drop 16).foldl (fun (s : State) (w : WaitEntry) => (s.bumpCov 21).answer w.req.ref .noBeam)
      ((ws.filter s.waitOver).foldl (fun (s : State) (w : WaitEntry) => s.answer w.req.ref .noBeam) u)).beamCtl = u.beamCtl :=
    fun u => (foldl_keeps State.beamCtl (fun (s : State) (w : WaitEntry) => (s.bumpCov 21).answer w.req.ref .noBeam)
      (fun _ _ => rfl) _ _).trans
      (foldl_keeps State.beamCtl (fun (s : State) (w : WaitEntry) => s.answer w.req.ref .noBeam) (fun _ _ => rfl) _ _)
  rw [State.OwesFor, hkept]
  exact hrest

theorem State.OwesFor.applySweep (h : s.OwesFor rs) (i : HeadNo) (ms : List (Option Nat)) : (s.applySweep i ms).OwesFor rs := by
  have hentry : ∀ (u : State) (p : SegNo × Option Nat), u.OwesFor rs → (u.sweepEntry i p.1 p.2).OwesFor rs := fun u p hu => by
    refine hu.of_parts ?_ ?_ <;> unfold State.sweepEntry <;> dsimp only <;> (repeat' split) <;> rfl
  unfold State.applySweep
  exact State.OwesFor.foldl (fun _ _ hu => hu.cellLost i _ _) _ (State.OwesFor.rechoose (State.OwesFor.foldl hentry _ h) _)

theorem State.OwesFor.swept (h : s.OwesFor rs) (i : HeadNo) (ms : List (Option Nat)) : (s.swept i ms).OwesFor rs := by
  have happlied := h.applySweep i ms
  unfold State.swept
  dsimp only
  generalize s.applySweep i ms = u at happlied ⊢
  have hidle := happlied.idled i rfl
  generalize (u.setBeam (beamOf i .a) { u.beam (beamOf i .a) with state := .idle }).setBeam (beamOf i .b) _ = v at hidle ⊢
  exact (((hidle.setHead i _).bumpCov 13).serveIdle _).serveIdle _

/-! ### Surveys and waits (R75, R79) -/

theorem State.OwesFor.overdueBeam (h : s.OwesFor rs) (b : BeamNo) : (s.overdueBeam b).OwesFor rs := by
  unfold State.overdueBeam
  dsimp only
  split
  · have hset : (s.setBeam b { s.beam b with closePending := some ((s.beam b).closePending.getD .survey) }).OwesFor rs :=
      h.setBeam_same rfl
    split
    · exact hset.closeBeam b _
    · exact hset
  · exact h.setBeam_same rfl
  · exact h

theorem State.OwesFor.setSurvey (h : s.OwesFor rs) (i : HeadNo) (v : SurveyStatus) : (s.setSurvey i v).OwesFor rs := h

theorem State.OwesFor.makeOverdue (h : s.OwesFor rs) (i : HeadNo) : (s.makeOverdue i).OwesFor rs :=
  (((h.setSurvey i .overdue).overdueBeam _).overdueBeam _).trySweep i

theorem State.OwesFor.makeDue (h : s.OwesFor rs) (i : HeadNo) : (s.makeDue i).OwesFor rs := (h.setSurvey i .due).trySweep i

theorem State.OwesFor.expireWait (h : s.OwesFor rs) {w : WaitEntry} (hw : w ∈ s.beamCtl.waitList) : (s.expireWait w).OwesFor rs :=
  Owes.answer (s := (s.setWaitList (s.beamCtl.waitList.erase w)).bumpCov 22) (h.unlisted hw) .noBeam

/-! ### Requests (R73, R77) -/

/-- An OPEN is steered, waits, or is answered. -/
theorem State.OwesFor.steerOrWait {q : OpenReq} (h : s.OwesFor (q.ref :: rs)) (g : SegNo) (oneShot : Bool) :
    (s.steerOrWait q g oneShot).OwesFor rs := by
  unfold State.steerOrWait
  split
  · exact h.steer _ g oneShot
  · split
    · have hlist : (s.setWaitList (s.beamCtl.waitList ++ [{ req := q, seg := g, oneShot := oneShot }])).OwesFor rs := by
        refine Owes.setWaitList h ?_
        rw [waitDue, List.map_append, List.append_assoc]
        exact List.Subperm.refl _
      exact hlist.bumpCov 20
    · exact Owes.answer (s := s.bumpCov 21) h _

theorem State.OwesFor.leaveBeam (h : s.OwesFor rs) (b : BeamNo) (l : LinkNo) : (s.leaveBeam b l).OwesFor rs := by
  have hleft : (s.leftBeam b l).OwesFor rs := by
    have hset : (s.setBeam b ((s.beam b).without l)).OwesFor
        (((s.beam b).awaiting.filter (fun q => q.ref.link == l)).map OpenReq.ref ++ rs) := by
      refine Owes.setBeam h (List.Perm.subperm ?_)
      rw [← List.append_assoc]
      refine List.Perm.append_right rs ?_
      rw [Beam.due, Beam.due, ← List.map_append]
      exact ((List.perm_append_comm).trans (List.filter_append_perm (fun q : OpenReq => q.ref.link == l) _)).map _
    rw [State.OwesFor, State.leftBeam_beamCtl]
    exact Owes.foldl_reply (ref := OpenReq.ref) (f := fun (s : State) (q : OpenReq) => s.answer q.ref .noBeam)
      (fun _ _ _ hu => hu.answer _) _ hset
  rw [State.leaveBeam_eq]
  dsimp only
  rw [← State.leftBeam]
  split
  · exact hleft.closeBeam b none
  · exact hleft

theorem State.OwesFor.markCell (h : s.OwesFor rs) (i : HeadNo) (g : SegNo) (c : Cell) : (s.markCell i g c).OwesFor rs := by
  have hmarked := ((h.setCell i g { c with state := .marked, recovery := 0 }).bumpCov 7).rechoose [g]
  unfold State.markCell
  dsimp only
  split
  · exact hmarked.cellLost i g .marked
  · exact hmarked

theorem State.OwesFor.unmarkCell (h : s.OwesFor rs) (i : HeadNo) (g : SegNo) (c : Cell) : (s.unmarkCell i g c).OwesFor rs :=
  ((h.setCell i g _).bumpCov 8).rechoose [g]

/-- A sample leaves a steering beam's requests waiting (R83). -/
theorem State.awaiting_sample (hsteering : (s.beam b).state = .steering) (h : HeadNo) (g : SegNo) (m k : Nat) {ctr : Fin 24}
    (hctr : ctr ≠ 6) : ((s.sample h g m k ctr).beam b).awaiting = (s.beam b).awaiting := by
  have hbefore : (s.sampleFollowed h g m k ctr).beam b = s.beam b := State.beam_of_beamCtl (State.sampleFollowed_beamCtl hctr) b
  by_cases hretires : s.SampleRetires h g m k
  · rw [State.sample_of_retires hretires, State.cellLost_beam, hbefore, Beam.lostTo, hsteering]
    (repeat' split) <;> simp_all
  · rw [State.sample_of_not hretires, hbefore]

theorem State.OwesFor.steerRefused (h : s.OwesFor rs) (b : BeamNo) (g : SegNo) : (s.steerRefused b g).OwesFor rs := by
  have hsampled := h.sample (headOf b) g 0 2 2
  unfold State.steerRefused
  dsimp only
  split
  · next hsteering =>
    have hawaiting := State.awaiting_sample hsteering (headOf b) g 0 2 (ctr := 2) (by decide)
    generalize s.sample (headOf b) g 0 2 2 = u at hsampled hawaiting ⊢
    have hrid : ((u.bumpCov 10).setBeam b { (u.bumpCov 10).beam b with
          state := .idle, seg := none, holders := LinkSet.none, awaiting := [], oneShot := false,
          closePending := none }).OwesFor ((u.beam b).due ++ rs) := Owes.setBeam_rid (s := u.bumpCov 10) hsampled rfl
    have hsame : waitDue ((s.beam b).awaiting.map (fun q => { req := q, seg := g, oneShot := (s.beam b).oneShot })) =
        (u.beam b).due := by
      rw [waitDue, Beam.due, hawaiting, List.map_map]
      rfl
    rw [← hsame] at hrid
    exact (hrid.requeue _).becameIdle b
  · exact hsampled

end

end Sys2Proof.Machine
end

section
/-! PROOFS. What the owners of the requests do without the beam controller answers each request once (O52: R7, R12). -/

namespace Sys2Proof.Machine

section
variable {s : State} {bc : BeamCtl} {rs : List ReqRef} {r : Request}

@[simp] theorem State.owes_reply {q : ReqRef} (h : Owes s.links bc (q :: rs)) (st : Status) (b : ReplyBody) :
    Owes (s.reply q st b).links bc rs := h.reply st b

@[simp] theorem State.owes_answer {q : ReqRef} (h : Owes s.links bc (q :: rs)) (st : Status) : Owes (s.answer q st).links bc rs :=
  h.answer st

/-- A link's record changes, with its window and its queue as they were. -/
theorem Owes.onLink (h : Owes s.links bc rs) {l : LinkNo} {f : Link → Link}
    (hf : ∀ k : Link, k.Bounded → (f k).Bounded ∧ k.nextSerial ≤ (f k).nextSerial ∧ ∀ x ∈ (f k).replies, x ∈ k.replies) :
    Owes (s.onLink l f).links bc rs := Answerable.onLink h hf

@[simp] theorem State.owes_clearGroup (h : Owes s.links bc rs) (g : Nat) : Owes (s.clearGroup g).links bc rs := by
  have hclear : ∀ l : LinkNo, Owes (s.onLink l Link.clearCounters).links bc rs := fun l => h.onLink fun k hk =>
    ⟨⟨⟨hk.few, hk.tags, hk.serials, hk.issued, hk.refused, hk.once, hk.asked, hk.full, hk.notices, hk.down⟩, hk.sends, hk.busy⟩,
      le_rfl, fun x hx => hx⟩
  unfold State.clearGroup
  split
  · exact hclear 0
  · exact hclear 1
  · exact hclear 2
  · exact hclear 3
  all_goals exact h

@[simp] theorem State.owes_takeUplink (h : Owes s.links bc rs) (l : LinkNo) (f : Word × List Byte) :
    Owes (s.takeUplink l f).1.links bc rs := by
  unfold State.takeUplink
  dsimp only
  (repeat' split) <;> simp (maxDischargeDepth := 9) [h]

@[simp] theorem State.owes_takeUplinks (h : Owes s.links bc rs) (l : LinkNo) (fs : List (Word × List Byte)) :
    Owes (s.takeUplinks l fs).1.links bc rs := by
  induction fs generalizing s with
  | nil => exact h
  | cons f fs ih =>
    rw [State.takeUplinks]
    exact ih (State.owes_takeUplink h l f)

@[simp] theorem State.owes_discardTerminal (h : Owes s.links bc rs) (e : EntryNo) : Owes (s.discardTerminal e).links bc rs := by
  unfold State.discardTerminal
  simp (maxDischargeDepth := 9) [h]

@[simp] theorem owes_serveIdentify (h : Owes s.links bc (r.ref :: rs)) : Owes (serveIdentify s r).links bc rs := by
  unfold serveIdentify State.reading
  dsimp only
  (repeat' split) <;> simp (maxDischargeDepth := 9) [h]

@[simp] theorem owes_serveReadTime (h : Owes s.links bc (r.ref :: rs)) : Owes (serveReadTime s r).links bc rs := by
  unfold serveReadTime State.reading
  dsimp only
  (repeat' split) <;> simp (maxDischargeDepth := 9) [h]

@[simp] theorem owes_serveReadCounters (h : Owes s.links bc (r.ref :: rs)) : Owes (serveReadCounters s r).links bc rs := by
  unfold serveReadCounters State.reading
  dsimp only
  (repeat' split) <;> simp (maxDischargeDepth := 9) [h]

@[simp] theorem owes_serveGrant (h : Owes s.links bc (r.ref :: rs)) : Owes (serveGrant s r).links bc rs := by
  unfold serveGrant State.reading
  dsimp only
  (repeat' split) <;> simp (maxDischargeDepth := 9) [h]

@[simp] theorem owes_serveRevoke (h : Owes s.links bc (r.ref :: rs)) : Owes (serveRevoke s r).links bc rs := by
  unfold serveRevoke State.reading
  dsimp only
  (repeat' split) <;> simp (maxDischargeDepth := 9) [h]

@[simp] theorem owes_serveReadEntry (h : Owes s.links bc (r.ref :: rs)) : Owes (serveReadEntry s r).links bc rs := by
  unfold serveReadEntry State.reading
  dsimp only
  (repeat' split) <;> simp (maxDischargeDepth := 9) [h]

@[simp] theorem owes_serveSetInterest (h : Owes s.links bc (r.ref :: rs)) : Owes (serveSetInterest s r).links bc rs := by
  unfold serveSetInterest State.reading
  dsimp only
  (repeat' split) <;> simp (maxDischargeDepth := 9) [h]

@[simp] theorem owes_serveReadAlarms (h : Owes s.links bc (r.ref :: rs)) : Owes (serveReadAlarms s r).links bc rs := by
  unfold serveReadAlarms State.reading
  dsimp only
  (repeat' split) <;> simp (maxDischargeDepth := 9) [h]

@[simp] theorem owes_serveEnroll (h : Owes s.links bc (r.ref :: rs)) : Owes (serveEnroll s r).links bc rs := by
  unfold serveEnroll State.reading
  dsimp only
  (repeat' split) <;> simp (maxDischargeDepth := 9) [h]

@[simp] theorem owes_serveMove (h : Owes s.links bc (r.ref :: rs)) : Owes (serveMove s r).links bc rs := by
  unfold serveMove State.reading
  dsimp only
  (repeat' split) <;> simp (maxDischargeDepth := 9) [h]

@[simp] theorem owes_serveDeliver (h : Owes s.links bc (r.ref :: rs)) : Owes (serveDeliver s r).links bc rs := by
  unfold serveDeliver State.reading
  dsimp only
  (repeat' split) <;> simp (maxDischargeDepth := 9) [h]

@[simp] theorem owes_serveListUnknown (h : Owes s.links bc (r.ref :: rs)) : Owes (serveListUnknown s r).links bc rs := by
  unfold serveListUnknown State.reading
  dsimp only
  (repeat' split) <;> simp (maxDischargeDepth := 9) [h]

@[simp] theorem owes_serveReadCoverage (h : Owes s.links bc (r.ref :: rs)) : Owes (serveReadCoverage s r).links bc rs := by
  unfold serveReadCoverage State.reading
  dsimp only
  (repeat' split) <;> simp (maxDischargeDepth := 9) [h]

@[simp] theorem owes_serveReadBeams (h : Owes s.links bc (r.ref :: rs)) : Owes (serveReadBeams s r).links bc rs := by
  unfold serveReadBeams State.reading
  dsimp only
  (repeat' split) <;> simp (maxDischargeDepth := 9) [h]

@[simp] theorem owes_serveTake (h : Owes s.links bc (r.ref :: rs)) : Owes (serveTake s r).links bc rs := by
  unfold serveTake State.reading
  dsimp only
  (repeat' split) <;> simp (maxDischargeDepth := 9) [h]

@[simp] theorem owes_serveWithdraw (h : Owes s.links bc (r.ref :: rs)) : Owes (serveWithdraw s r).links bc rs := by
  unfold serveWithdraw State.reading
  dsimp only
  (repeat' split) <;> simp (maxDischargeDepth := 9) [h]

@[simp] theorem owes_serveSubscribe (h : Owes s.links bc (r.ref :: rs)) : Owes (serveSubscribe s r).links bc rs := by
  refine State.reading_keeps (P := fun u => Owes u.links bc rs) (by simp [h]) fun q _ => ?_
  refine State.withToken_keeps (P := fun u => Owes u.links bc rs) (by simp [h]) fun e => ?_
  refine State.withCrane_keeps (P := fun u => Owes u.links bc rs) (by simp [h]) fun c k _ => ?_
  dsimp only
  (repeat' split) <;> simp (maxDischargeDepth := 9) [h]

@[simp] theorem owes_serveReadCrane (h : Owes s.links bc (r.ref :: rs)) : Owes (serveReadCrane s r).links bc rs := by
  refine State.reading_keeps (P := fun u => Owes u.links bc rs) (by simp [h]) fun q _ => ?_
  refine State.withToken_keeps (P := fun u => Owes u.links bc rs) (by simp [h]) fun e => ?_
  refine State.withCrane_keeps (P := fun u => Owes u.links bc rs) (by simp [h]) fun c k _ => ?_
  simp (maxDischargeDepth := 9) [h]

@[simp] theorem owes_serveReadRack (h : Owes s.links bc (r.ref :: rs)) : Owes (serveReadRack s r).links bc rs := by
  refine State.reading_keeps (P := fun u => Owes u.links bc rs) (by simp [h]) fun q _ => ?_
  refine State.withToken_keeps (P := fun u => Owes u.links bc rs) (by simp [h]) fun e => ?_
  refine State.withRack_keeps (P := fun u => Owes u.links bc rs) (by simp [h]) fun n k _ => ?_
  (repeat' split) <;> simp (maxDischargeDepth := 9) [h]

@[simp] theorem owes_serveAcknowledge (h : Owes s.links bc (r.ref :: rs)) : Owes (serveAcknowledge s r).links bc rs := by
  refine State.reading_keeps (P := fun u => Owes u.links bc rs) (by simp [h]) fun q _ => ?_
  refine State.withToken_keeps (P := fun u => Owes u.links bc rs) (by simp [h]) fun e => ?_
  refine State.withRack_keeps (P := fun u => Owes u.links bc rs) (by simp [h]) fun n k _ => ?_
  dsimp only
  simp (maxDischargeDepth := 9) [h]

@[simp] theorem owes_serveClearDose (h : Owes s.links bc (r.ref :: rs)) : Owes (serveClearDose s r).links bc rs := by
  refine State.reading_keeps (P := fun u => Owes u.links bc rs) (by simp [h]) fun q _ => ?_
  refine State.withToken_keeps (P := fun u => Owes u.links bc rs) (by simp [h]) fun e => ?_
  refine State.withRack_keeps (P := fun u => Owes u.links bc rs) (by simp [h]) fun n k _ => ?_
  dsimp only
  (repeat' split) <;> simp (maxDischargeDepth := 9) [h]

@[simp] theorem owes_serveReadTerminal (h : Owes s.links bc (r.ref :: rs)) : Owes (serveReadTerminal s r).links bc rs := by
  refine State.reading_keeps (P := fun u => Owes u.links bc rs) (by simp [h]) fun q _ => ?_
  refine State.withToken_keeps (P := fun u => Owes u.links bc rs) (by simp [h]) fun e => ?_
  simp (maxDischargeDepth := 9) [h]

@[simp] theorem owes_servePurgeQueue (h : Owes s.links bc (r.ref :: rs)) : Owes (servePurgeQueue s r).links bc rs := by
  refine State.reading_keeps (P := fun u => Owes u.links bc rs) (by simp [h]) fun q _ => ?_
  refine State.withToken_keeps (P := fun u => Owes u.links bc rs) (by simp [h]) fun e => ?_
  simp (maxDischargeDepth := 9) [h]

@[simp] theorem State.owes_sendTo (h : Owes s.links bc (r.ref :: rs)) (e : EntryNo) (k : Kind) (q : SendReq) :
    Owes (s.sendTo r e k q).links bc rs := by
  unfold State.sendTo
  dsimp only
  (repeat' split) <;> simp (maxDischargeDepth := 9) [h]

@[simp] theorem owes_serveSend (h : Owes s.links bc (r.ref :: rs)) : Owes (serveSend s r).links bc rs := by
  refine State.reading_keeps (P := fun u => Owes u.links bc rs) (by simp [h]) fun q _ => ?_
  refine State.withToken_keeps (P := fun u => Owes u.links bc rs) (by simp [h]) fun e => ?_
  (repeat' split) <;> simp (maxDischargeDepth := 9) [h]

end

end Sys2Proof.Machine
end

section
/-! PROOFS. What the owners of the requests do keeps every request answerable once (O52: R7, R12, R73 to R80, R118 to R120, R174). -/

namespace Sys2Proof.Machine

theorem serveOf_keepsAllBut (code : ReqCode) (l : LinkNo) (s : State) (r : Request) :
    s.KeepsAllBut (serveOf code s r) (writesOf (code.command l)) := by
  cases code with
  | identify => exact serveIdentify_keepsAllBut s r
  | readTime => exact serveReadTime_keepsAllBut s r
  | readCounters => exact serveReadCounters_keepsAllBut s r
  | enroll => exact serveEnroll_keepsAllBut s r
  | withdraw => exact serveWithdraw_keepsAllBut s r
  | move => exact serveMove_keepsAllBut s r
  | readTerminal => exact serveReadTerminal_keepsAllBut s r
  | listUnknown => exact serveListUnknown_keepsAllBut s r
  | grant => exact serveGrant_keepsAllBut s r
  | revoke => exact serveRevoke_keepsAllBut s r
  | readEntry => exact serveReadEntry_keepsAllBut s r
  | readCoverage => exact serveReadCoverage_keepsAllBut s r
  | markCell => exact serveMarkCell_keepsAllBut s r
  | unmarkCell => exact serveUnmarkCell_keepsAllBut s r
  | openBeam => exact serveOpenBeam_keepsAllBut s r
  | release => exact serveRelease_keepsAllBut s r
  | readBeams => exact serveReadBeams_keepsAllBut s r
  | survey => exact serveSurvey_keepsAllBut s r
  | send => exact serveSend_keepsAllBut s r
  | purgeQueue => exact servePurgeQueue_keepsAllBut s r
  | fetch => exact serveFetch_keepsAllBut s r
  | done => exact serveDone_keepsAllBut s r
  | cut => exact serveCut_keepsAllBut s r
  | deliver => exact serveDeliver_keepsAllBut s r
  | take => exact serveTake_keepsAllBut s r
  | subscribe => exact serveSubscribe_keepsAllBut s r
  | readCrane => exact serveReadCrane_keepsAllBut s r
  | setInterest => exact serveSetInterest_keepsAllBut s r
  | readRack => exact serveReadRack_keepsAllBut s r
  | readAlarms => exact serveReadAlarms_keepsAllBut s r
  | acknowledge => exact serveAcknowledge_keepsAllBut s r
  | clearDose => exact serveClearDose_keepsAllBut s r
  | tune => exact serveTune_keepsAllBut s r
  | storeSettings => exact serveStoreSettings_keepsAllBut s r
  | restart => exact serveRestart_keepsAllBut s r

section
variable {s : State} {bc : BeamCtl} {rs : List ReqRef} {r : Request}

/-- What writes no part of the beam controller keeps what it owes. -/
theorem Owes.kept {t : State} (h : Owes t.links s.beamCtl rs) (hbeams : t.beamCtl = s.beamCtl) : t.OwesFor rs := by
  rw [State.OwesFor, hbeams]
  exact h

theorem State.owes_unmarkCell (h : Owes s.links bc rs) (i : HeadNo) (g : SegNo) (c : Cell) :
    Owes (s.unmarkCell i g c).links bc rs := by
  unfold State.unmarkCell
  simp (maxDischargeDepth := 9) [h]

theorem owes_serveUnmarkCell (h : Owes s.links bc (r.ref :: rs)) : Owes (serveUnmarkCell s r).links bc rs := by
  refine State.reading_keeps (P := fun u => Owes u.links bc rs) (by simp [h]) fun q _ => ?_
  split
  · simp [h]
  · refine State.owes_reply ?_ _ _
    split
    · exact State.owes_judge (State.owes_unmarkCell h _ _ _)
    · exact h

/-! ### TUNE (R174) -/

theorem State.OwesFor.recheckAnswers (h : s.OwesFor rs) (sweep : Bool) : (s.recheckAnswers sweep).OwesFor rs :=
  State.OwesFor.foldl (fun u i hu => by
    split
    · exact hu.answerRunsOut i
    · exact hu) _ h

theorem State.OwesFor.recheckSurveys (h : s.OwesFor rs) : s.recheckSurveys.OwesFor rs :=
  State.OwesFor.foldl (fun u i hu => by
    split
    · exact hu.makeOverdue i
    · split
      · exact hu.makeDue i
      · exact hu) _ h

/-- The entries of the wait list are distinct. -/
theorem State.OwesFor.nodup_waitList (h : s.OwesFor rs) : s.beamCtl.waitList.Nodup := by
  have hdistinct := h.distinct
  rw [BeamCtl.due, waitDue, List.append_assoc, List.map_append, List.map_append] at hdistinct
  have hwaits := (List.nodup_append.mp (List.nodup_append.mp hdistinct).2.1).1
  exact (hwaits.of_map _).of_map _

theorem State.OwesFor.foldl_expireWait (ws : List WaitEntry) (h : s.OwesFor rs) (hnodup : ws.Nodup)
    (hlisted : ∀ w ∈ ws, w ∈ s.beamCtl.waitList) : (ws.foldl (fun s w => s.expireWait w) s).OwesFor rs := by
  induction ws generalizing s with
  | nil => exact h
  | cons w ws ih =>
    obtain ⟨hnot, hrest⟩ := List.nodup_cons.mp hnodup
    refine ih (h.expireWait (hlisted w List.mem_cons_self)) hrest fun v hv => ?_
    have hlist : (s.expireWait w).beamCtl.waitList = s.beamCtl.waitList.erase w := rfl
    rw [hlist]
    exact (List.mem_erase_of_ne fun he : v = w => hnot (he ▸ hv)).mpr (hlisted v (List.mem_cons_of_mem w hv))

theorem State.OwesFor.recheckWaits (h : s.OwesFor rs) : s.recheckWaits.OwesFor rs :=
  State.OwesFor.foldl_expireWait _ h (h.nodup_waitList.filter _) fun _ hw => (List.mem_filter.mp hw).1

theorem State.OwesFor.recheckBursts (h : s.OwesFor rs) : s.recheckBursts.OwesFor rs :=
  State.OwesFor.foldl (fun u b hu => by
    split
    · exact hu.expireBurst b
    · exact hu) _ h

theorem State.OwesFor.goSilent (h : s.OwesFor rs) (e : EntryNo) : (s.goSilent e).OwesFor rs :=
  Owes.kept (State.owes_goSilent h e) (by simp)

theorem State.OwesFor.expireWatch (h : s.OwesFor rs) (c : CraneNo) : (s.expireWatch c).OwesFor rs :=
  Owes.kept (State.owes_expireWatch h c) (by simp)

theorem State.OwesFor.recheckSilence (h : s.OwesFor rs) (k : Kind) : (s.recheckSilence k).OwesFor rs :=
  State.OwesFor.foldl (fun u e hu => by
    split
    · exact hu.goSilent e
    · exact hu) _ h

theorem State.OwesFor.recheckStalls (h : s.OwesFor rs) : s.recheckStalls.OwesFor rs :=
  State.OwesFor.foldl (fun u c hu => by
    split
    · exact hu.expireWatch c
    · exact hu) _ h

theorem State.OwesFor.afterTune (h : s.OwesFor rs) (i : Fin 19) : (s.afterTune i).OwesFor rs := by
  unfold State.afterTune
  split
  · exact h.recheckAnswers false
  · exact h.recheckAnswers true
  · exact h.recheckSurveys
  · exact h.recheckWaits
  · exact h.recheckBursts
  · exact h.recheckSilence .crane
  · exact h.recheckStalls
  · exact h.recheckSilence .rack
  · exact h

theorem State.OwesFor.tunePair (h : s.OwesFor rs) (i : Fin 19) (v : Nat) : (s.tunePair i v).OwesFor rs := by
  have hpair : (s.withPair i v).OwesFor rs := h.of_parts (by simp) (by simp)
  rw [State.tunePair_eq]
  split
  · exact (hpair.afterTune i).judge
  · exact hpair.judge

theorem State.OwesFor.serveTune (h : s.OwesFor (r.ref :: rs)) : (serveTune s r).OwesFor rs := by
  refine State.reading_keeps (P := fun u => u.OwesFor rs) (Owes.answer h _) fun ps _ => ?_
  exact Owes.reply (s := (ps.foldl (fun s p => s.tunePair p.1 p.2) s).bumpSet 4)
    (State.OwesFor.foldl (fun _ p hu => hu.tunePair p.1 p.2) _ h) _ _

/-! ### The beam controller's requests (R73 to R80) -/

theorem State.OwesFor.serveMarkCell (h : s.OwesFor (r.ref :: rs)) : (serveMarkCell s r).OwesFor rs := by
  refine State.reading_keeps (P := fun u => u.OwesFor rs) (Owes.answer h _) fun q _ => ?_
  split
  · exact Owes.answer h _
  · next c _ =>
    have hmarked : (if c.state = .marked then s else State.judge (s.markCell q.1 q.2 c)).OwesFor (r.ref :: rs) := by
      split
      · exact h
      · exact (h.markCell _ _ _).judge
    exact Owes.reply hmarked _ _

theorem State.OwesFor.serveOpenBeam (h : s.OwesFor (r.ref :: rs)) : (serveOpenBeam s r).OwesFor rs := by
  refine State.reading_keeps (P := fun u => u.OwesFor rs) (Owes.answer h _) fun q _ => ?_
  dsimp only
  split
  · exact Owes.answer h _
  · split
    · exact State.OwesFor.join h _ _
    · exact State.OwesFor.steerOrWait h _ _

theorem State.OwesFor.serveRelease (h : s.OwesFor (r.ref :: rs)) : (serveRelease s r).OwesFor rs := by
  refine State.reading_keeps (P := fun u => u.OwesFor rs) (Owes.answer h _) fun b _ => ?_
  dsimp only
  split
  · exact Owes.answer h _
  · refine Owes.answer ?_ _
    split
    · exact h.setBeam_same rfl
    · exact h.leaveBeam b _

theorem State.OwesFor.serveSurvey (h : s.OwesFor (r.ref :: rs)) : (serveSurvey s r).OwesFor rs := by
  refine State.reading_keeps (P := fun u => u.OwesFor rs) (Owes.answer h _) fun i _ => ?_
  dsimp only
  split
  · exact Owes.answer h _
  · exact Owes.answer h _
  · have hdue : (if (s.head i).survey = .current then s.makeDue i else s).OwesFor (r.ref :: rs) := by
      split
      · exact h.makeDue i
      · exact h
    exact Owes.reply hdue _ _

/-! ### Bursts (R117 to R120) -/

theorem State.OwesFor.beginBurst (h : s.OwesFor rs) (b : BeamNo) (l : LinkNo) (placed stay : List Frame) :
    (s.beginBurst b l placed stay).OwesFor rs := by
  have hset : (s.setBeam b { s.beam b with
      burst := some { number := look s.downlink.nextBurst b, owner := l, frames := placed, start := s.now } }).OwesFor rs :=
    h.setBeam_same rfl
  exact hset.of_parts (State.beginBurst_keepsAllBut s b l placed stay .links (by decide)) (State.beginBurst_beamCtl s b l placed stay)

theorem State.OwesFor.serveFetch (h : s.OwesFor (r.ref :: rs)) : (serveFetch s r).OwesFor rs := by
  refine State.reading_keeps (P := fun u => u.OwesFor rs) (Owes.answer h _) fun q _ => ?_
  dsimp only
  split
  · exact Owes.answer h _
  · exact Owes.reply (h.beginBurst _ _ _ _) _ _

theorem State.OwesFor.burstReport (h : s.OwesFor (r.ref :: rs)) (b : BeamNo) (n : Byte) (o : Nat → FrameOutcome) (k : Fin 21) :
    (s.burstReport r b n o k).OwesFor rs := by
  have hnone : ((s.bumpDown 10).answer r.ref .noBurst).OwesFor rs := Owes.answer (s := s.bumpDown 10) h _
  unfold State.burstReport
  split
  · exact hnone
  · split
    · exact hnone
    · split
      · exact Owes.answer h _
      · exact Owes.reply (h.reportBurst b _ o k) _ _

/-- What the owner of a request does, but for the two it keeps for later, answers it. -/
theorem State.OwesFor.serveOf (h : s.OwesFor (r.ref :: rs)) {code : ReqCode} (hstore : code ≠ .storeSettings)
    (hrestart : code ≠ .restart) : (serveOf code s r).OwesFor rs := by
  by_cases hpart : Part.beamCtl ∈ writesOf (code.command 0)
  · cases code with
    | markCell => exact h.serveMarkCell
    | openBeam => exact h.serveOpenBeam
    | release => exact h.serveRelease
    | survey => exact h.serveSurvey
    | fetch => exact h.serveFetch
    | done => exact State.reading_keeps (P := fun u => u.OwesFor rs) (Owes.answer h _) fun q _ => h.burstReport _ _ _ _
    | cut => exact State.reading_keeps (P := fun u => u.OwesFor rs) (Owes.answer h _) fun q _ => h.burstReport _ _ _ _
    | tune => exact h.serveTune
    | restart => exact absurd rfl hrestart
    | _ => simp [ReqCode.command, writesOf] at hpart
  · refine Owes.kept (s := s) ?_ (serveOf_keepsAllBut code 0 s r .beamCtl hpart)
    cases code with
    | identify => exact owes_serveIdentify h
    | readTime => exact owes_serveReadTime h
    | readCounters => exact owes_serveReadCounters h
    | enroll => exact owes_serveEnroll h
    | withdraw => exact owes_serveWithdraw h
    | move => exact owes_serveMove h
    | readTerminal => exact owes_serveReadTerminal h
    | listUnknown => exact owes_serveListUnknown h
    | grant => exact owes_serveGrant h
    | revoke => exact owes_serveRevoke h
    | readEntry => exact owes_serveReadEntry h
    | readCoverage => exact owes_serveReadCoverage h
    | unmarkCell => exact owes_serveUnmarkCell h
    | readBeams => exact owes_serveReadBeams h
    | send => exact owes_serveSend h
    | purgeQueue => exact owes_servePurgeQueue h
    | deliver => exact owes_serveDeliver h
    | take => exact owes_serveTake h
    | subscribe => exact owes_serveSubscribe h
    | readCrane => exact owes_serveReadCrane h
    | setInterest => exact owes_serveSetInterest h
    | readRack => exact owes_serveReadRack h
    | readAlarms => exact owes_serveReadAlarms h
    | acknowledge => exact owes_serveAcknowledge h
    | clearDose => exact owes_serveClearDose h
    | storeSettings => exact absurd rfl hstore
    | _ => simp [ReqCode.command, writesOf] at hpart

end

end Sys2Proof.Machine
end

section
/-! PROOFS. The line events and the messages keep the links' bounds (O52: R1 to R9, R16). -/

namespace Sys2Proof.Machine

/-! ### What a line event makes of a link -/

section
variable {k m : Link}

/-- What a link is bound by, and what it answers, is as it was. -/
structure Link.Alike (k m : Link) : Prop where
  up : m.up = k.up
  window : m.window = k.window
  refusal : m.refusal = k.refusal
  outQ : m.outQ = k.outQ
  sending : m.sending = k.sending
  nextSerial : m.nextSerial = k.nextSerial

theorem Link.Alike.replies (h : k.Alike m) : m.replies = k.replies := by rw [Link.replies, h.outQ, Link.replies]

theorem Link.Alike.fits (h : k.Alike m) (hk : k.Fits) : m.Fits := by
  have hnotices : m.noticeCount = k.noticeCount := by rw [Link.noticeCount, h.outQ, Link.noticeCount]
  constructor
  · rw [h.window]; exact hk.few
  · rw [h.window]; exact hk.tags
  · rw [h.window]; exact hk.serials
  · rw [h.window, h.nextSerial]; exact hk.issued
  · rw [h.window, h.refusal]; exact hk.refused
  · rw [h.replies]; exact hk.once
  · rw [h.replies, h.window]; exact hk.asked
  · rw [h.replies, h.refusal]; exact hk.full
  · rw [hnotices]; exact hk.notices
  · rw [h.up, h.window, h.refusal, h.outQ]; exact hk.down

theorem Link.Alike.bounded (h : k.Alike m) (hk : k.Bounded) : m.Bounded := by
  refine ⟨h.fits hk.toFits, ?_, ?_⟩
  · rw [h.sending, h.outQ]; exact hk.sends
  · rw [h.up, h.outQ, h.sending]; exact hk.busy

/-- A link with nothing outstanding and nothing queued. -/
structure Link.Vacant (k : Link) : Prop where
  window : k.window = []
  refusal : k.refusal = none
  outQ : k.outQ = []
  sending : k.sending = false

theorem Link.Vacant.replies (h : k.Vacant) : k.replies = [] := by rw [Link.replies, h.outQ]; rfl

theorem Link.Vacant.bounded (h : k.Vacant) : k.Bounded := by
  have hnotices : k.noticeCount = 0 := by rw [Link.noticeCount, h.outQ]; rfl
  refine ⟨⟨?_, ?_, ?_, ?_, ?_, ?_, ?_, ?_, ?_, fun _ => ⟨h.window, h.refusal, h.outQ⟩⟩, ?_, ?_⟩
  · simp [h.window]
  · simp [h.window]
  · simp [h.window]
  · simp [h.window]
  · simp [h.refusal]
  · simp [h.replies]
  · simp [h.replies]
  · simp [h.replies]
  · simp [hnotices]
  · simp [h.sending]
  · simp [h.outQ]

/-! ### Messages that leave the queue (R5, R8, R16) -/

/-- A link with fewer messages and fewer outstanding requests, each reply still with its place. -/
theorem Link.Fits.shrink (h : k.Fits) (hqueue : m.outQ.Sublist k.outQ) (hup : m.up = k.up) (hserial : m.nextSerial = k.nextSerial)
    (hwindow : m.window.Sublist k.window) (hrefusal : m.refusal = k.refusal ∨ m.refusal = none)
    (hasked : ∀ n, some n ∈ m.replies → n ∈ m.window.map Prod.snd) (hfull : none ∈ m.replies → m.refusal ≠ none) : m.Fits := by
  have hreplies : m.replies.Sublist k.replies := hqueue.filterMap _
  have hnotices : m.noticeCount ≤ k.noticeCount := (hqueue.filter _).length_le
  refine ⟨hwindow.length_le.trans h.few, h.tags.sublist (hwindow.map _), h.serials.sublist (hwindow.map _),
    fun w hw => hserial ▸ h.issued w (hwindow.subset hw), fun t ht hmem => ?_, h.once.sublist hreplies, hasked, hfull,
    hnotices.trans h.notices, fun hdown => ?_⟩
  · rcases hrefusal with hsame | hnone
    · exact h.refused t (hsame ▸ ht) ((hwindow.map _).subset hmem)
    · rw [hnone] at ht
      cases ht
  · obtain ⟨hempty, hplace, hnothing⟩ := h.down (hup ▸ hdown)
    rw [hempty] at hwindow
    rw [hnothing] at hqueue
    refine ⟨List.sublist_nil.mp hwindow, ?_, List.sublist_nil.mp hqueue⟩
    rcases hrefusal with hsame | hnone
    · rw [hsame, hplace]
    · exact hnone

theorem Link.replies_behind_notice {n : Notice} {x : Nat} {q : List Msg} (hk : k.outQ = .notice n x :: q) (hm : m.outQ = q) :
    k.replies = m.replies := by
  rw [Link.replies, Link.replies, hk, hm]
  rfl

theorem Link.replies_behind_reply {p : Reply} {q : List Msg} (hk : k.outQ = .reply p :: q) (hm : m.outQ = q) :
    k.replies = p.serial :: m.replies := by
  rw [Link.replies, Link.replies, hk, hm]
  rfl

/-- The link once its front message has gone, idle. -/
def Link.gone (k : Link) : Link :=
  match k.outQ with
  | [] => k
  | m :: rest =>
    let k := { k with outQ := rest, sending := false, lineOut := m.bytes }
    match m with
    | .notice _ _ => { k with counters := bump k.counters 7 }
    | .reply r =>
      match r.serial with
      | some n => { k with window := k.window.filter (fun w => w.2 != n), counters := bump k.counters 6 }
      | none => { k with refusal := none, counters := bump k.counters 6 }

theorem Link.sent_eq (k : Link) : k.sent = if k.outQ = [] then k else k.gone.beginSend := by
  rw [Link.sent, Link.gone]
  cases k.outQ <;> rfl

theorem Link.Bounded.gone (h : k.Bounded) (hne : k.outQ ≠ []) : k.gone.Fits ∧ k.gone.sending = false ∧
    k.gone.nextSerial = k.nextSerial ∧ ∀ x ∈ k.gone.replies, x ∈ k.replies := by
  cases hq : k.outQ with
  | nil => exact absurd hq hne
  | cons m q =>
    have htail : q.Sublist k.outQ := by
      rw [hq]
      exact List.sublist_cons_self m q
    cases m with
    | notice n x =>
      have hgone : k.gone = { k with
          outQ := q, sending := false, lineOut := (Msg.notice n x).bytes, counters := bump k.counters 7 } := by
        rw [Link.gone, hq]
      have hreplies : k.replies = k.gone.replies := Link.replies_behind_notice hq (by rw [hgone])
      rw [hgone] at hreplies ⊢
      refine ⟨h.toFits.shrink htail rfl rfl (List.Sublist.refl _) (.inl rfl) (fun n hn => ?_) (fun hn => ?_), rfl, rfl,
        fun x hx => ?_⟩
      · rw [← hreplies] at hn
        exact h.asked n hn
      · rw [← hreplies] at hn
        exact h.full hn
      · rw [hreplies]
        exact hx
    | reply p =>
      have hreplies : k.replies = p.serial :: k.gone.replies := Link.replies_behind_reply hq (by
        rw [Link.gone, hq]
        dsimp only
        split <;> rfl)
      obtain ⟨hfirst, -⟩ := List.nodup_cons.mp (hreplies ▸ h.once)
      cases hserial : p.serial with
      | some n =>
        have hgone : k.gone = { k with
            outQ := q, sending := false, lineOut := (Msg.reply p).bytes, window := k.window.filter (fun w => w.2 != n),
            counters := bump k.counters 6 } := by
          rw [Link.gone, hq]
          dsimp only
          rw [hserial]
        rw [hserial] at hreplies hfirst
        rw [hgone] at hreplies hfirst ⊢
        refine ⟨h.toFits.shrink htail rfl rfl List.filter_sublist (.inl rfl) (fun i hi => ?_) (fun hn => ?_), rfl, rfl,
          fun x hx => ?_⟩
        · have hasked := h.asked i (hreplies ▸ List.mem_cons_of_mem _ hi)
          obtain ⟨w, hw, rfl⟩ := List.mem_map.mp hasked
          refine List.mem_map_of_mem (List.mem_filter.mpr ⟨hw, ?_⟩)
          have hother : w.2 ≠ n := fun he => hfirst (he ▸ hi)
          simpa using hother
        · exact h.full (hreplies ▸ List.mem_cons_of_mem _ hn)
        · rw [hreplies]
          exact List.mem_cons_of_mem _ hx
      | none =>
        have hgone : k.gone = { k with
            outQ := q, sending := false, lineOut := (Msg.reply p).bytes, refusal := none, counters := bump k.counters 6 } := by
          rw [Link.gone, hq]
          dsimp only
          rw [hserial]
        rw [hserial] at hreplies hfirst
        rw [hgone] at hreplies hfirst ⊢
        refine ⟨h.toFits.shrink htail rfl rfl (List.Sublist.refl _) (.inr rfl) (fun i hi => ?_) (fun hn => ?_), rfl, rfl,
          fun x hx => ?_⟩
        · exact h.asked i (hreplies ▸ List.mem_cons_of_mem _ hi)
        · exact absurd hn hfirst
        · rw [hreplies]
          exact List.mem_cons_of_mem _ hx

theorem Link.Bounded.sent (h : k.Bounded) :
    k.sent.Bounded ∧ k.nextSerial ≤ k.sent.nextSerial ∧ ∀ x ∈ k.sent.replies, x ∈ k.replies := by
  rw [Link.sent_eq]
  split
  · exact ⟨h, le_rfl, fun x hx => hx⟩
  · next hne =>
    obtain ⟨hfits, hidle, hserial, hreplies⟩ := h.gone hne
    obtain ⟨hsame, -⟩ := k.gone.beginSend_queue
    refine ⟨hfits.beginSend fun hs => (by rw [hidle] at hs; cases hs), ?_, ?_⟩
    · rw [(Link.beginSend_keeps _).2.2.2.2.2.1, hserial]
    · rw [hsame]
      exact hreplies

/-! ### A warm restart (R16) -/

theorem Link.Bounded.restarted (h : k.Bounded) (keep : Option Nat) : (k.restarted keep).Bounded ∧
    ∀ x ∈ (k.restarted keep).replies, x ∈ k.replies := by
  have hqueue : (k.restarted keep).outQ.Sublist k.outQ := by
    unfold Link.restarted
    dsimp only
    split
    · exact List.take_sublist 1 _
    · exact List.nil_sublist _
  have hsub : (k.restarted keep).replies.Sublist k.replies := hqueue.filterMap _
  have hfront : ∀ x ∈ (k.restarted keep).replies, k.sending = true ∧ ∃ p q, k.outQ = .reply p :: q ∧ x = p.serial := by
    intro x hx
    unfold Link.replies Link.restarted at hx
    dsimp only at hx
    split at hx
    · next hs =>
      refine ⟨hs, ?_⟩
      cases hq : k.outQ with
      | nil => simp [hq] at hx
      | cons m q =>
        cases m with
        | notice n y => simp [hq] at hx
        | reply p => exact ⟨p, q, rfl, by simpa [hq] using hx⟩
    · cases hx
  refine ⟨⟨h.toFits.shrink hqueue rfl rfl List.filter_sublist ?_ (fun n hn => ?_) (fun hn => ?_), fun hs hnil => ?_, fun hup hne => ?_⟩,
    hsub.subset⟩
  · unfold Link.restarted
    dsimp only
    split
    · exact .inl rfl
    · exact .inr rfl
  · obtain ⟨hs, p, q, hq, hp⟩ := hfront _ hn
    have hsending : k.sendingSerial = some n := by rw [Link.sendingSerial, hs, hq, hp]
    obtain ⟨w, hw, rfl⟩ := List.mem_map.mp (h.asked n (hsub.subset hn))
    exact List.mem_map_of_mem (List.mem_filter.mpr ⟨hw, by simp [hsending]⟩)
  · obtain ⟨hs, p, q, hq, hp⟩ := hfront _ hn
    have hbusy : k.sendingBusy = true := by simp [Link.sendingBusy, hs, hq, ← hp]
    have hkept : (k.restarted keep).refusal = k.refusal := if_pos hbusy
    rw [hkept]
    exact h.full (hsub.subset hn)
  · have htake : k.outQ.take 1 = [] := (if_pos hs).symm.trans hnil
    exact h.sends hs (by simpa using htake)
  · by_contra hs
    exact hne (if_neg hs)

end

end Sys2Proof.Machine
end

section
/-! PROOFS. Requests taken, handed on, kept for later and given up keep the links' bounds (O52: R3, R5 to R7, R175, R176). -/

namespace Sys2Proof.Machine

/-! ### The beam controller owes less -/

theorem flatMap_sublist {α β : Type} {f g : α → List β} (h : ∀ a, (f a).Sublist (g a)) (xs : List α) :
    (xs.flatMap f).Sublist (xs.flatMap g) := by
  induction xs with
  | nil => exact List.Sublist.refl _
  | cons x xs ih =>
    rw [List.flatMap_cons, List.flatMap_cons]
    exact (h x).append ih

theorem BeamCtl.due_sublist {c d : BeamCtl} (hbeams : ∀ b : BeamNo, (look d.beams b).awaiting.Sublist (look c.beams b).awaiting)
    (hwaits : d.waitList.Sublist c.waitList) : d.due.Sublist c.due :=
  (flatMap_sublist (fun b => (hbeams b).map OpenReq.ref) allBeams).append (hwaits.map _)

/-- Every link's record changes, and answers no more than it did. -/
theorem Answerable.relink {ks js : Vector Link 4} {rs : List ReqRef} (h : Answerable ks rs)
    (hjs : ∀ m : LinkNo, (look js m).Bounded ∧ (look ks m).nextSerial ≤ (look js m).nextSerial ∧
      ∀ x ∈ (look js m).replies, x ∈ (look ks m).replies) : Answerable js rs := by
  refine ⟨fun m => (hjs m).1, h.distinct, fun r hr => ?_⟩
  obtain ⟨hissued, hopen⟩ := h.unanswered r hr
  obtain ⟨-, hserial, hreplies⟩ := hjs r.link
  exact ⟨lt_of_lt_of_le hissued hserial, fun hmem => hopen (hreplies _ hmem)⟩

section
variable {s t : State} {ks : Vector Link 4} {c d : BeamCtl} {bc : BeamCtl} {rs qs : List ReqRef} {r : Request} {l : LinkNo}

theorem Owes.less (h : Owes ks c rs) (hdue : d.due.Sublist c.due) (hrest : qs.Sublist rs) : Owes ks d qs :=
  Answerable.fewer h (hdue.append hrest).subperm

/-- The links' bounds, from what the beam controller and the other units owe. -/
theorem State.OwesFor.linksSound (h : s.OwesFor s.dueElsewhere) : s.linksSound := s.linksSound_iff_owes.mpr h

theorem State.OwesFor.linksSound_of (h : t.OwesFor rs) (hdue : t.dueElsewhere.Perm rs) : t.linksSound :=
  State.OwesFor.linksSound (Owes.perm h hdue)

theorem State.owesFor_dueElsewhere (h : s.linksSound) : s.OwesFor s.dueElsewhere := s.linksSound_iff_owes.mp h

theorem State.dueElsewhere_kept (hhanded : t.handed = s.handed) (hstore : t.settings.store = s.settings.store)
    (hrestart : t.settings.restart = s.settings.restart) : t.dueElsewhere = s.dueElsewhere := by
  rw [State.dueElsewhere, hhanded, hstore, hrestart, State.dueElsewhere]

/-- An event that writes neither what is handed on nor the settings. -/
theorem linksSound_of_footprint {ps : List Part} (hs : s.linksSound) (hparts : s.KeepsAllBut t ps) (hhanded : Part.handed ∉ ps)
    (hsettings : Part.settings ∉ ps) (h : ∀ rs, s.OwesFor rs → t.OwesFor rs) : t.linksSound := by
  have hset : t.settings = s.settings := hparts .settings hsettings
  refine (h _ (State.owesFor_dueElsewhere hs)).linksSound_of (List.Perm.of_eq ?_)
  exact State.dueElsewhere_kept (hparts .handed hhanded) (by rw [hset]) (by rw [hset])

/-! ### Requests taken (R6) -/

theorem State.clearGroup_jobs (s : State) (g : Nat) : (s.clearGroup g).settings.store = s.settings.store ∧
    (s.clearGroup g).settings.restart = s.settings.restart := by
  unfold State.clearGroup
  split <;> exact ⟨rfl, rfl⟩

theorem serveReadCounters_jobs (s : State) (r : Request) : (serveReadCounters s r).settings.store = s.settings.store ∧
    (serveReadCounters s r).settings.restart = s.settings.restart := by
  refine State.reading_keeps (P := fun u => u.settings.store = s.settings.store ∧ u.settings.restart = s.settings.restart)
    ⟨rfl, rfl⟩ fun q _ => ?_
  split
  · exact ⟨rfl, rfl⟩
  · dsimp only [State.reply, State.onLink]
    split
    · exact s.clearGroup_jobs q.1
    · exact ⟨rfl, rfl⟩

theorem serveTune_jobs (s : State) (r : Request) : (serveTune s r).settings.store = s.settings.store ∧
    (serveTune s r).settings.restart = s.settings.restart := by
  refine State.reading_keeps (P := fun u => u.settings.store = s.settings.store ∧ u.settings.restart = s.settings.restart)
    ⟨rfl, rfl⟩ fun ps _ => ?_
  obtain ⟨-, hstore, -, -, hrestart, -⟩ := s.tuned_tunesTo ps
  exact ⟨hstore, hrestart⟩

theorem State.dueElsewhere_serveOf {code : ReqCode} (hstore : code ≠ .storeSettings) (hrestart : code ≠ .restart) (s : State)
    (r : Request) : (serveOf code s r).dueElsewhere = s.dueElsewhere := by
  have hjobs : (serveOf code s r).settings.store = s.settings.store ∧
      (serveOf code s r).settings.restart = s.settings.restart := by
    by_cases hpart : Part.settings ∈ writesOf (code.command 0)
    · cases code with
      | readCounters => exact serveReadCounters_jobs s r
      | tune => exact serveTune_jobs s r
      | storeSettings => exact absurd rfl hstore
      | restart => exact absurd rfl hrestart
      | _ => simp [ReqCode.command, writesOf] at hpart
    · have hset : (serveOf code s r).settings = s.settings := serveOf_keepsAllBut code 0 s r .settings hpart
      rw [hset]
      exact ⟨rfl, rfl⟩
  exact State.dueElsewhere_kept (handed_serveOf hrestart s r) hjobs.1 hjobs.2

/-- The outcome of a store is kept for the write's end (R175). -/
theorem serveStoreSettings_linksSound (h : s.OwesFor (r.ref :: s.dueElsewhere)) : (serveStoreSettings s r).linksSound := by
  refine State.reading_keeps (P := State.linksSound) (State.OwesFor.linksSound (Owes.answer h _)) fun q _ => ?_
  split
  · exact State.OwesFor.linksSound (Owes.answer (s := s.bumpSet 8) h _)
  · next hfree =>
    have hnone : s.settings.store = none := by simpa using hfree
    have hdue : s.dueElsewhere = s.handed.map Request.ref ++ s.settings.restart.toList := by
      rw [State.dueElsewhere, hnone]
      exact congrArg (· ++ _) (List.append_nil _)
    rw [hdue] at h
    have hkept : ∀ j : StoreJob, j.ref = r.ref → State.linksSound { s with settings := { s.settings with store := some j } } :=
      fun j hj => by
        refine State.OwesFor.linksSound_of (rs := r.ref :: (s.handed.map Request.ref ++ s.settings.restart.toList)) h ?_
        have hjob : State.dueElsewhere { s with settings := { s.settings with store := some j } } =
            s.handed.map Request.ref ++ [r.ref] ++ s.settings.restart.toList := by
          rw [← hj]
          rfl
        rw [hjob, List.append_assoc]
        exact List.perm_middle
    exact hkept _ rfl

/-- What the units give up in a warm restart, the links' queues apart. -/
theorem State.OwesFor.restartUnits (h : s.OwesFor rs) (q : ReqRef) : (s.restartUnits q).OwesFor rs := by
  have hlinks : Answerable (s.restartCleared q).links (s.beamCtl.due ++ rs) := Answerable.relink h fun m => by
    have hlink : look (s.restartCleared q).links m = (s.link m).restarted (if m = q.link then some q.serial else none) :=
      State.link_restartCleared m
    obtain ⟨hbounded, hreplies⟩ := (h.bounded m).restarted (if m = q.link then some q.serial else none)
    rw [hlink]
    exact ⟨hbounded, le_rfl, hreplies⟩
  have hdue : (s.restartCleared q).beamCtl.due.Sublist s.beamCtl.due := by
    refine BeamCtl.due_sublist (fun b => ?_) ?_
    · have hbeam : look (s.restartCleared q).beamCtl.beams b = { (s.beam b).restarted with burst := none } :=
        State.beam_restartCleared b
      rw [hbeam]
      show (s.beam b).restarted.awaiting.Sublist (s.beam b).awaiting
      unfold Beam.restarted
      split
      · exact List.Sublist.refl _
      · exact List.nil_sublist _
    · rw [State.waitList_restartCleared]
      exact List.nil_sublist _
  have hcleared : (s.restartCleared q).OwesFor rs := Owes.less (c := s.beamCtl) hlinks hdue (List.Sublist.refl _)
  have hpolled : (s.restartCleared q).restartReefer.OwesFor rs :=
    hcleared.of_parts (State.restartReefer_keepsAllBut _ .links (by decide)) (State.restartReefer_keepsAllBut _ .beamCtl (by decide))
  rw [State.restartUnits_eq]
  exact hpolled.judge

/-- RESTART is kept for the restart's end, and the other requests go (R176). -/
theorem serveRestart_linksSound (h : s.OwesFor (r.ref :: s.dueElsewhere)) : (serveRestart s r).linksSound := by
  refine State.reading_keeps (P := State.linksSound) (State.OwesFor.linksSound (Owes.answer h _)) fun _ _ => ?_
  dsimp only
  split
  · exact State.OwesFor.linksSound (Owes.answer (s := s.bumpSet 10) h _)
  · generalize hu : State.bumpSet { s with settings := { s.settings with restart := some r.ref } } 9 = u
    have hbefore : u.OwesFor (r.ref :: s.dueElsewhere) := by
      rw [← hu]
      exact h
    have hdue : (u.restartUnits r.ref).dueElsewhere = (s.settings.store.map StoreJob.ref).toList ++ [r.ref] := by
      rw [State.dueElsewhere, State.handed_restartUnits, State.settings_restartUnits, ← hu]
      rfl
    have hsub : (u.restartUnits r.ref).dueElsewhere.Subperm (r.ref :: s.dueElsewhere) := by
      rw [hdue, State.dueElsewhere]
      refine List.Subperm.trans (List.perm_append_comm.subperm) ?_
      refine List.Sublist.subperm (List.Sublist.cons_cons _ ?_)
      exact (List.sublist_append_right _ _).trans (List.sublist_append_left _ _)
    exact State.OwesFor.linksSound (Owes.fewer (hbefore.restartUnits r.ref) hsub)

theorem serveOf_linksSound (h : s.OwesFor (r.ref :: s.dueElsewhere)) (code : ReqCode) : (serveOf code s r).linksSound := by
  by_cases hstore : code = .storeSettings
  · subst hstore
    exact serveStoreSettings_linksSound h
  · by_cases hrestart : code = .restart
    · subst hrestart
      exact serveRestart_linksSound h
    · exact (h.serveOf hstore hrestart).linksSound_of (List.Perm.of_eq (State.dueElsewhere_serveOf hstore hrestart s r))

/-- The owner takes a request, and answers it or keeps it. -/
theorem State.taking_linksSound (hs : s.linksSound) (code : ReqCode) (l : LinkNo) :
    (s.taking code l (serveOf code)).linksSound := by
  unfold State.taking
  split
  · exact hs
  · next r hr =>
    split
    · have hmem : r ∈ s.handed := List.mem_of_find?_eq_some hr
      have hperm : (s.handed.map Request.ref).Perm (r.ref :: (s.handed.erase r).map Request.ref) := (List.perm_cons_erase hmem).map _
      have hdue : (r.ref :: (s.taken r).dueElsewhere).Perm s.dueElsewhere := ((hperm.append_right _).append_right _).symm
      have hbefore : Owes s.links s.beamCtl (r.ref :: (s.taken r).dueElsewhere) := Owes.perm (State.owesFor_dueElsewhere hs) hdue
      exact serveOf_linksSound (s := s.taken r) hbefore code
    · exact hs

end

end Sys2Proof.Machine
end

section
/-! PROOFS. The events of the units keep the links' bounds (O52: R22, R28, R58, R71 to R86, R96, R111, R114, R123, R175, R176). -/

namespace Sys2Proof.Machine

section
variable {s t : State} {rs : List ReqRef}

/-- An event that leaves the beam controller as it was. -/
theorem State.OwesFor.quiet (hs : s.OwesFor rs) (hlinks : ∀ bc, Owes s.links bc rs → Owes t.links bc rs)
    (hbeams : t.beamCtl = s.beamCtl) : t.OwesFor rs := Owes.kept (hlinks _ hs) hbeams

/-- Every event of the units' own keeps what the beam controller owes. -/
theorem exec_owesFor {c : Instr} (h : exec c s = .next t) (hhanded : Part.handed ∉ writesOf c) (hsettings : Part.settings ∉ writesOf c)
    (hlink : writesOf c ≠ [.links]) (hs : s.OwesFor rs) : t.OwesFor rs := by
  cases c with
  | stallExpiry a =>
    cases h
    split
    · exact hs.expireWatch a
    · exact hs
  | craneWithdrawal e =>
    exact hs.of_parts (exec_next_keeps h .links (by simp [writesOf])) (exec_next_keeps h .beamCtl (by simp [writesOf]))
  | reeferWithdrawal e =>
    exact hs.of_parts (exec_next_keeps h .links (by simp [writesOf])) (exec_next_keeps h .beamCtl (by simp [writesOf]))
  | downlinkWithdrawal e =>
    cases h
    split
    · have hdiscarded : (s.discardTerminal e).OwesFor rs := by
        have hbeams : (s.discardTerminal e).beamCtl = { s.beamCtl with beams := s.beamCtl.beams.map (fun x => x.orphan e) } := by
          unfold State.discardTerminal
          simp
        have hdue : (s.discardTerminal e).beamCtl.due = s.beamCtl.due := by
          rw [hbeams]
          refine congrArg (· ++ _) (List.flatMap_congr fun b _ => ?_)
          simp [look, Beam.due, Beam.orphan]
        exact Owes.of_due (State.owes_discardTerminal hs e) hdue
      exact State.OwesFor.judge (hdiscarded.of_parts (by simp) (by simp))
    · exact hs
  | silenceExpiry e =>
    cases h
    split
    · exact (hs.goSilent e).judge
    · exact hs
  | steerDone i bs =>
    cases h
    (repeat' split)
    · exact hs.answered i _ fun u hu => hu.steered _
    · exact hs
    · exact hs
  | steerRefused i bs =>
    cases h
    (repeat' split)
    · exact (hs.answered i _ fun u hu => hu.steerRefused _ _).judge
    · exact hs
    · exact hs
  | releaseAnswered i bs =>
    cases h
    (repeat' split)
    · exact hs.answered i _ fun u hu => hu.released _ _
    · exact hs
    · exact hs
  | sweepResult i bs =>
    cases h
    split
    · exact (hs.answered i _ fun u hu => hu.swept i _).judge
    · exact hs
  | sweepRefused i bs =>
    cases h
    (repeat' split)
    · exact hs.answered i _ fun u hu => (hu.setHead i _).bumpCov 14
    · exact hs
    · exact hs
  | probeAnswered i bs =>
    cases h
    (repeat' split)
    · exact (hs.answered i _ fun u hu => hu.probed i).judge
    · exact hs
    · exact hs
  | unmatchedAnswer i bs =>
    exact hs.of_parts (exec_next_keeps h .links (by simp [writesOf])) (exec_next_keeps h .beamCtl (by simp [writesOf]))
  | answerLimitExpiry i =>
    cases h
    split
    · exact (hs.answerRunsOut i).judge
    · exact hs
  | probeTime i =>
    cases h
    (repeat' split)
    · exact ((hs.setHead i _).pushCmd i .probe).bumpCov 16
    · exact hs
    · exact hs
  | sweepRetryTime i =>
    cases h
    (repeat' split)
    · exact (hs.setHead i _).pushCmd i .sweep
    · exact hs
    · exact hs
  | surveyDue i =>
    cases h
    split
    · exact hs.makeDue i
    · exact hs
  | surveyOverdue i =>
    cases h
    split
    · exact hs.makeOverdue i
    · exact hs
  | waitExpiry n =>
    cases h
    split
    · next w hw =>
      split
      · exact hs.expireWait (List.mem_of_getElem? hw)
      · exact hs
    · exact hs
  | pauseRepeat =>
    refine hs.quiet (fun bc hbc => ?_) (exec_next_keeps h .beamCtl (by simp [writesOf]))
    cases h
    (repeat' split)
    · exact State.owes_repeatPause hbc _
    · exact hbc
    · exact hbc
  | deadlineExpiry f =>
    refine hs.quiet (fun bc hbc => ?_) (exec_next_keeps h .beamCtl (by simp [writesOf]))
    cases h
    split
    · exact State.owes_judge (State.owes_dropFrames hbc _ _ _)
    · exact hbc
  | burstLimitExpiry b =>
    cases h
    split
    · exact (hs.expireBurst b).judge
    · exact hs
  | millisecondTick =>
    exact hs.of_parts (exec_next_keeps h .links (by simp [writesOf])) (exec_next_keeps h .beamCtl (by simp [writesOf]))
  | secondTick =>
    exact hs.of_parts (exec_next_keeps h .links (by simp [writesOf])) (exec_next_keeps h .beamCtl (by simp [writesOf]))
  | fillMarkReceived _ _ | fillMarkGap _ | linkUp _ | messageAbandoned _ _ | messageSent _ | lineFramingFault _ =>
    exact absurd rfl hlink
  | _ => simp [writesOf] at hhanded hsettings

end

end Sys2Proof.Machine
end

section
/-! PROOFS. Line events, messages, LINK_DOWN, stores, restarts, loads and pin resets keep the links' bounds (O52: R1 to R9, R173, R175,
R176). -/

namespace Sys2Proof.Machine

/-! ### Line events (R2 to R5) -/

section
variable {k : Link}

theorem Link.Alike.refl (k : Link) : k.Alike k := ⟨rfl, rfl, rfl, rfl, rfl, rfl⟩

/-- A link's record is bound, and answers no more than another one. -/
structure Link.Follows (k m : Link) : Prop where
  bounded : m.Bounded
  serial : k.nextSerial ≤ m.nextSerial
  replies : ∀ x ∈ m.replies, x ∈ k.replies

theorem Link.Alike.follows {m : Link} (h : k.Alike m) (hk : k.Bounded) : k.Follows m :=
  ⟨h.bounded hk, le_of_eq h.nextSerial.symm, fun x hx => by rwa [h.replies] at hx⟩

theorem Link.Vacant.follows {m : Link} (h : m.Vacant) (hserial : m.nextSerial = k.nextSerial) : k.Follows m :=
  ⟨h.bounded, le_of_eq hserial.symm, fun x hx => by rw [h.replies] at hx; cases hx⟩

theorem Link.vacant_comeUp (k : Link) : k.comeUp.Vacant := ⟨rfl, rfl, rfl, rfl⟩

theorem Link.vacant_goDown (k : Link) : k.goDown.Vacant := ⟨rfl, rfl, rfl, rfl⟩

theorem Link.Bounded.follows_sent (h : k.Bounded) : k.Follows (if k.up && k.sending then k.sent else k) := by
  split
  · obtain ⟨hbounded, hserial, hreplies⟩ := h.sent
    exact ⟨hbounded, hserial, hreplies⟩
  · exact (Link.Alike.refl k).follows h

end

section
variable {s t : State} {rs : List ReqRef} {l : LinkNo}

theorem State.OwesFor.onLink (h : s.OwesFor rs) {f : Link → Link} (hf : (s.link l).Bounded → (s.link l).Follows (f (s.link l))) :
    (s.onLink l f).OwesFor rs := by
  obtain ⟨hbounded, hserial, hreplies⟩ := hf (h.bounded l)
  exact Answerable.onLink_at h hbounded hserial hreplies

/-- A line event keeps what the links can answer. -/
theorem exec_lines_owesFor {c : Instr} (h : exec c s = .next t) (hlink : writesOf c = [.links]) (hs : s.OwesFor rs) :
    t.OwesFor rs := by
  cases c with
  | fillMarkReceived l b =>
    cases h
    split
    · exact hs.onLink fun hk => Link.Alike.follows ⟨rfl, rfl, rfl, rfl, rfl, rfl⟩ hk
    · exact hs.onLink fun hk => Link.Alike.follows ⟨rfl, rfl, rfl, rfl, rfl, rfl⟩ hk
  | fillMarkGap gap =>
    cases h
    refine hs.onLink fun hk => ?_
    split
    · exact Link.Alike.follows ⟨rfl, rfl, rfl, rfl, rfl, rfl⟩ hk
    · exact (Link.Alike.refl _).follows hk
  | linkUp l =>
    cases h
    refine hs.onLink fun hk => ?_
    split
    · exact (Link.vacant_comeUp _).follows rfl
    · exact (Link.Alike.refl _).follows hk
  | lineFramingFault l =>
    cases h
    exact hs.onLink fun hk => Link.Alike.follows ⟨rfl, rfl, rfl, rfl, rfl, rfl⟩ hk
  | messageAbandoned l cause =>
    cases h
    exact hs.onLink fun hk => Link.Alike.follows ⟨rfl, rfl, rfl, rfl, rfl, rfl⟩ hk
  | messageSent l =>
    cases h
    exact hs.onLink fun hk => hk.follows_sent
  | _ => simp [writesOf] at hlink

/-! ### Messages (R4 to R7) -/

theorem Link.holdsTag_eq_false {k : Link} {tag : Byte} (h : k.holdsTag tag = false) :
    tag ∉ k.window.map Prod.fst ∧ k.refusal ≠ some tag := by
  obtain ⟨hwindow, hrefusal⟩ := Bool.or_eq_false_iff.mp h
  refine ⟨fun hmem => ?_, by simpa using hrefusal⟩
  obtain ⟨w, hw, hsame⟩ := List.mem_map.mp hmem
  exact absurd hsame (by simpa using List.any_eq_false.mp hwindow w hw)

theorem Link.Bounded.accept {k : Link} (h : k.Bounded) {tag : Byte} (hup : k.up = true) (htag : k.holdsTag tag = false)
    (hroom : k.window.length < 8) : k.Follows (k.accept tag) := by
  obtain ⟨hnew, hplace⟩ := Link.holdsTag_eq_false htag
  have hserial : k.nextSerial ∉ k.window.map Prod.snd := fun hmem => by
    obtain ⟨w, hw, hsame⟩ := List.mem_map.mp hmem
    exact absurd (h.issued w hw) (by omega)
  have hback : ∀ {α : Type} (f : Byte × Nat → α), ((k.accept tag).window.map f) = k.window.map f ++ [f (tag, k.nextSerial)] :=
    fun f => List.map_append
  have hnodup : ∀ {α : Type} {xs : List α} {x : α}, xs.Nodup → x ∉ xs → (xs ++ [x]).Nodup := fun hxs hx =>
    List.nodup_append.mpr ⟨hxs, List.nodup_singleton _, fun a ha b hb hab => by
      rw [hab, List.mem_singleton.mp hb] at ha
      exact hx ha⟩
  refine ⟨⟨⟨?_, ?_, ?_, fun w hw => ?_, fun t ht hmem => ?_, h.once, fun n hn => ?_, h.full, h.notices, fun hdown => ?_⟩, h.sends,
    h.busy⟩, Nat.le_succ _, fun x hx => hx⟩
  · have hlength : (k.accept tag).window.length = k.window.length + 1 := List.length_append
    omega
  · rw [hback]
    exact hnodup h.tags hnew
  · rw [hback]
    exact hnodup h.serials hserial
  · rcases List.mem_append.mp hw with hw | hw
    · exact Nat.lt_succ_of_lt (h.issued w hw)
    · rw [List.mem_singleton.mp hw]
      exact Nat.lt_succ_self _
  · rw [hback] at hmem
    rcases List.mem_append.mp hmem with hmem | hmem
    · exact h.refused t ht hmem
    · rw [List.mem_singleton.mp hmem] at ht
      exact hplace ht
  · rw [hback]
    exact List.mem_append_left _ (h.asked n hn)
  · have hdown : k.up = false := hdown
    rw [hup] at hdown
    cases hdown

/-- A request that no other is yet to be answered under can be answered. -/
theorem Answerable.cons {ks : Vector Link 4} {r : ReqRef} (h : Answerable ks rs) (hissued : r.serial < (look ks r.link).nextSerial)
    (hopen : some r.serial ∉ (look ks r.link).replies) (hnew : ∀ q ∈ rs, q.link = r.link → q.serial ≠ r.serial) :
    Answerable ks (r :: rs) := by
  refine ⟨h.bounded, List.nodup_cons.mpr ⟨fun hmem => ?_, h.distinct⟩, fun q hq => ?_⟩
  · obtain ⟨q, hq, hsame⟩ := List.mem_map.mp hmem
    exact hnew q hq (congrArg Prod.fst hsame) (congrArg Prod.snd hsame)
  · rcases List.mem_cons.mp hq with rfl | hq
    · exact ⟨hissued, hopen⟩
    · exact h.unanswered q hq

/-- A request that has just been accepted can be answered. -/
theorem State.OwesFor.accept {tag : Byte} (h : s.OwesFor rs) (hup : (s.link l).up = true) (htag : (s.link l).holdsTag tag = false)
    (hroom : (s.link l).window.length < 8) :
    (s.onLink l (fun k => k.accept tag)).OwesFor ({ link := l, serial := (s.link l).nextSerial, tag := tag } :: rs) := by
  have hk := h.bounded l
  have hlink : look (s.onLink l (fun k => k.accept tag)).links l = (s.link l).accept tag := State.link_onLink_self s l _
  have haccepted : (s.onLink l (fun k => k.accept tag)).OwesFor rs := h.onLink fun hk => hk.accept hup htag hroom
  refine Answerable.perm (Answerable.cons (r := { link := l, serial := (s.link l).nextSerial, tag := tag }) haccepted ?_ ?_ ?_)
    List.perm_middle
  · rw [hlink]
    exact Nat.lt_succ_self _
  · rw [hlink]
    intro hmem
    obtain ⟨w, hw, hsame⟩ := List.mem_map.mp (hk.asked _ hmem)
    exact absurd (hk.issued w hw) (by rw [hsame]; exact lt_irrefl _)
  · intro q hq hsame
    have hissued := (h.unanswered q hq).1
    rw [hsame] at hissued
    exact Nat.ne_of_lt hissued

/-- What the link unit makes of an accepted request: it is answered, or handed on (R6). -/
theorem State.decodeRequest_linksSound {r : ReqRef} (h : s.OwesFor (r :: s.dueElsewhere)) (q : RawRequest) :
    (s.decodeRequest r q).linksSound := by
  unfold State.decodeRequest
  split
  · exact State.OwesFor.linksSound (Owes.answer h _)
  · split
    · exact State.OwesFor.linksSound (Owes.answer h _)
    · next c _ _ _ =>
      split
      · have hhanded : ∀ p : Request, p.ref = r → State.linksSound { s with handed := s.handed ++ [p] } := fun p hp => by
          refine State.OwesFor.linksSound_of (rs := r :: s.dueElsewhere) h ?_
          have hdue : State.dueElsewhere { s with handed := s.handed ++ [p] } =
              s.handed.map Request.ref ++ (r :: ((s.settings.store.map StoreJob.ref).toList ++ s.settings.restart.toList)) := by
            rw [State.dueElsewhere, List.map_append, ← hp]
            simp
          rw [hdue, State.dueElsewhere, List.append_assoc]
          exact List.perm_middle
        exact hhanded _ rfl
      · have hanswered : (s.answer r .noRight).OwesFor s.dueElsewhere := Owes.answer h _
        exact State.OwesFor.linksSound (State.OwesFor.onLink hanswered fun hk =>
          Link.Alike.follows ⟨rfl, rfl, rfl, rfl, rfl, rfl⟩ hk)

/-- The refusal place is taken by a BUSY reply (R5). -/
theorem Link.Bounded.refuseBusy {k : Link} (h : k.Bounded) {tag : Byte} (hup : k.up = true) (htag : k.holdsTag tag = false)
    (hfree : k.refusal = none) : (k.refuseBusy tag).Bounded ∧ ∀ x ∈ (k.refuseBusy tag).replies, x ∈ k.replies ∨ x = none := by
  obtain ⟨hnew, -⟩ := Link.holdsTag_eq_false htag
  have hnone : none ∉ k.replies := fun hmem => h.full hmem hfree
  have hplace : Link.Bounded { k with refusal := some tag, counters := bump k.counters 3 } := by
    refine ⟨⟨h.few, h.tags, h.serials, h.issued, fun t ht => ?_, h.once, h.asked, fun hn => absurd hn hnone, h.notices,
      fun hdown => ?_⟩, h.sends, h.busy⟩
    · cases ht
      exact hnew
    · have hdown : k.up = false := hdown
      rw [hup] at hdown
      cases hdown
  refine ⟨hplace.place_reply hup hnone (fun n hn => (by cases hn)) (fun _ => Option.some_ne_none tag), fun x hx => ?_⟩
  rw [Link.refuseBusy, (Link.place_queue _ _).1, List.mem_append, List.mem_singleton] at hx
  exact hx

theorem State.OwesFor.refuseBusy {tag : Byte} (h : s.OwesFor rs) (hup : (s.link l).up = true)
    (htag : (s.link l).holdsTag tag = false) (hfree : (s.link l).refusal = none) :
    (s.onLink l (fun k => k.refuseBusy tag)).OwesFor rs := by
  obtain ⟨hbounded, hreplies⟩ := (h.bounded l).refuseBusy hup htag hfree
  have hlink : ∀ m, look (s.onLink l (fun k => k.refuseBusy tag)).links m =
      if m = l then (s.link l).refuseBusy tag else look s.links m := fun m => State.link_onLink s l m _
  refine ⟨fun m => ?_, h.distinct, fun r hr => ?_⟩
  · rw [hlink]
    split
    · exact hbounded
    · exact h.bounded m
  · obtain ⟨hissued, hopen⟩ := h.unanswered r hr
    rw [hlink]
    split
    · next hm =>
      rw [hm] at hissued hopen
      refine ⟨?_, fun hmem => (hreplies _ hmem).elim hopen (by simp)⟩
      rw [Link.refuseBusy, (Link.place_keeps _ _).2.2.2.2.2.1]
      exact hissued
    · exact ⟨hissued, hopen⟩

theorem State.takeRequest_linksSound (hs : s.linksSound) (hup : (s.link l).up = true) (q : RawRequest) :
    (s.takeRequest l q).linksSound := by
  have hcounted : ∀ i : Fin 12, (s.onLink l (fun k => { k with counters := bump k.counters i })).linksSound := fun i =>
    State.OwesFor.linksSound (State.OwesFor.onLink (State.owesFor_dueElsewhere hs) fun hk =>
      Link.Alike.follows ⟨rfl, rfl, rfl, rfl, rfl, rfl⟩ hk)
  have howes := State.owesFor_dueElsewhere hs
  unfold State.takeRequest
  dsimp only
  split
  · exact hcounted 2
  · next htag =>
    have htag : (s.link l).holdsTag q.tag = false := by simpa using htag
    split
    · next hroom => exact State.decodeRequest_linksSound (howes.accept hup htag hroom) q
    · split
      · next hfree => exact State.OwesFor.linksSound (howes.refuseBusy hup htag (by simpa using hfree))
      · exact hcounted 4

theorem exec_messageReceived_linksSound {bytes : List Byte} (h : exec (.messageReceived l bytes) s = .next t) (hs : s.linksSound) :
    t.linksSound := by
  have halike : ∀ {u : State} {f : Link → Link}, u.linksSound → (∀ k : Link, k.Alike (f k)) → (u.onLink l f).linksSound :=
    fun hu hf => State.OwesFor.linksSound (State.OwesFor.onLink (State.owesFor_dueElsewhere hu) fun hk => (hf _).follows hk)
  have hheard : (s.onLink l (fun k => k.hears s.clock.ms)).linksSound := halike hs fun k => ⟨rfl, rfl, rfl, rfl, rfl, rfl⟩
  rw [exec_messageReceived] at h
  cases h
  unfold State.takeMessage
  split
  · exact halike hheard fun k => ⟨rfl, rfl, rfl, rfl, rfl, rfl⟩
  · split
    · next hup => exact State.takeRequest_linksSound hheard hup _
    · exact halike hheard fun k => ⟨rfl, rfl, rfl, rfl, rfl, rfl⟩

/-! ### LINK_DOWN (R3) -/

theorem exec_linkDown_linksSound {receiving : Bool} (h : exec (.linkDown l receiving) s = .next t) (hs : s.linksSound) :
    t.linksSound := by
  have hdeparted : (s.departed l).OwesFor ((s.departed l).dueElsewhere) := by
    have hdown : (s.onLink l Link.goDown).OwesFor s.dueElsewhere :=
      State.OwesFor.onLink (State.owesFor_dueElsewhere hs) fun _ => (Link.vacant_goDown _).follows rfl
    have hdue : (s.departed l).beamCtl.due.Sublist s.beamCtl.due := by
      refine BeamCtl.due_sublist (fun b => ?_) List.filter_sublist
      have hbeam : look (s.departed l).beamCtl.beams b = ((s.beam b).forget l).without l := State.departed_beam s l b
      rw [hbeam]
      exact List.filter_sublist
    have hrest : ((s.departed l).dueElsewhere).Sublist s.dueElsewhere :=
      ((List.filter_sublist.map _).append (List.Sublist.refl _)).append (List.Sublist.refl _)
    exact Owes.less hdown hdue hrest
  have hhanded : (s.handedIn l).OwesFor ((s.departed l).dueElsewhere) := by
    rw [State.handedIn]
    exact State.OwesFor.foldl (fun _ b hu => hu.returnOwned b l) allBeams hdeparted
  have hvacated : (s.vacated l).OwesFor ((s.departed l).dueElsewhere) := by
    rw [State.vacated]
    exact State.OwesFor.foldl (fun _ b hu => hu.closeIfEmpty b) allBeams hhanded
  have htorn : (s.tearDown l).OwesFor ((s.departed l).dueElsewhere) := by
    rw [State.tearDown_eq]
    generalize s.vacated l = u at hvacated ⊢
    have hquiet : (((u.invalidateOwn l).clearInterest l).endSubscriptions l).OwesFor ((s.departed l).dueElsewhere) := hvacated
    exact hquiet.judge
  have hdue : (s.tearDown l).dueElsewhere = (s.departed l).dueElsewhere := by
    have hsettings : (s.tearDown l).settings = s.settings := State.tearDown_keepsAllBut s l .settings (by decide)
    rw [State.dueElsewhere, State.tearDown_handed, hsettings]
    rfl
  cases h
  split
  · exact htorn.linksSound_of (List.Perm.of_eq hdue)
  · exact hs

end

end Sys2Proof.Machine
end

section
/-! PROOFS. Stores, restarts, loads and pin resets keep the links' bounds, and so does every command (O52: R1 to R9, R173, R175,
R176). -/

namespace Sys2Proof.Machine

section
variable {s t : State} {rs : List ReqRef}

/-! ### Stores and restarts (R175, R176) -/

theorem State.endStore_linksSound {j : StoreJob} (hs : s.linksSound) (hstore : s.settings.store = some j) (good : Bool)
    (contents : List Byte) : (s.endStore j good contents).linksSound := by
  have hdue : (j.ref :: (s.handed.map Request.ref ++ s.settings.restart.toList)).Perm s.dueElsewhere := by
    rw [State.dueElsewhere, hstore, List.append_assoc]
    exact List.perm_middle.symm
  have hbefore : s.OwesFor (j.ref :: (s.handed.map Request.ref ++ s.settings.restart.toList)) :=
    Owes.perm (State.owesFor_dueElsewhere hs) hdue
  obtain ⟨-, -, hrestart, -, -, hnone⟩ := s.settings.wrote_rest j contents
  have hended : ∀ (x : Settings) (k : Fin 11) (st : Status) (b : ReplyBody), x.store = none → x.restart = s.settings.restart →
      ((State.bumpSet { s with settings := x } k).reply j.ref st b).linksSound := fun x k st b hidle hsame => by
    have hafter : ((State.bumpSet { s with settings := x } k).reply j.ref st b).OwesFor
        (s.handed.map Request.ref ++ s.settings.restart.toList) :=
      Owes.reply (s := State.bumpSet { s with settings := x } k) hbefore st b
    refine hafter.linksSound_of (List.Perm.of_eq ?_)
    have hrest : ((State.bumpSet { s with settings := x } k).reply j.ref st b).dueElsewhere =
        s.handed.map Request.ref ++ (x.store.map StoreJob.ref).toList ++ x.restart.toList := rfl
    rw [hrest, hidle, hsame]
    exact congrArg (· ++ _) (List.append_nil _)
  cases good with
  | true => exact hended { s.settings.wrote j contents with newest := some (j.area, j.generation) } 6 .ok _ hnone hrestart
  | false => exact hended (s.settings.wrote j contents) 7 .writeFailed .empty hnone hrestart

theorem exec_storeWrite_linksSound {c : Instr} (hs : s.linksSound) (h : exec c s = .next t)
    (hc : (∃ e bs, c = .storeWriteEnd e bs) ∨ ∃ bs, c = .storeWriteTimeout bs) : t.linksSound := by
  rcases hc with ⟨e, bs, rfl⟩ | ⟨bs, rfl⟩
  · cases h
    split
    · next j hj =>
      split
      · exact State.endStore_linksSound hs hj _ bs
      · exact hs
    · exact hs
  · cases h
    split
    · next j hj =>
      split
      · exact State.endStore_linksSound hs hj _ bs
      · exact hs
    · exact hs

theorem exec_restartAnswer_linksSound (hs : s.linksSound) (h : exec .restartAnswer s = .next t) : t.linksSound := by
  cases h
  split
  · next q hq =>
    have hdue : (q :: (s.handed.map Request.ref ++ (s.settings.store.map StoreJob.ref).toList)).Perm s.dueElsewhere := by
      rw [State.dueElsewhere, hq]
      exact (List.perm_append_singleton q _).symm
    have hreplied : (s.reply q .ok (.times s.now s.nowSec)).OwesFor
        (s.handed.map Request.ref ++ (s.settings.store.map StoreJob.ref).toList) :=
      Owes.reply (Owes.perm (State.owesFor_dueElsewhere hs) hdue) _ _
    have hraised := State.owes_raiseWhere hreplied (fun l _ => l != q.link) (.restarted s.now s.nowSec s.settings.source q.link)
    have hkept : s.KeepsAllBut ((s.reply q .ok (.times s.now s.nowSec)).raiseWhere (fun l _ => l != q.link)
        (.restarted s.now s.nowSec s.settings.source q.link)) [.links] := fun p hp => by
      cases p <;> simp_all [Part.same]
    have hafter : (s.answerRestart q).OwesFor (s.handed.map Request.ref ++ (s.settings.store.map StoreJob.ref).toList) :=
      Owes.kept hraised (hkept .beamCtl (by decide))
    refine hafter.linksSound_of (List.Perm.of_eq ?_)
    have hhanded : (s.answerRestart q).handed = s.handed := hkept .handed (by decide)
    have hsettings : (s.answerRestart q).settings = { s.settings with restart := none } :=
      congrArg (fun x : Settings => { x with restart := none }) (hkept .settings (by decide))
    rw [State.dueElsewhere, hhanded, hsettings]
    exact List.append_nil _
  · exact hs

/-! ### Loads and pin resets (R173) -/

theorem State.firstLoad_linksSound (hs : s.linksSound) (d : Load) : (s.firstLoad d).linksSound := by
  have hlinks : Answerable (s.handOut d).links (s.beamCtl.due ++ s.dueElsewhere) :=
    Answerable.relink (State.owesFor_dueElsewhere hs) fun m => by
      have hlink : look (s.handOut d).links m = { s.link m with ax := (look d.links m).1, rights := (look d.links m).2 } := by
        simp [State.handOut, look]
      have halike : (s.link m).Alike (look (s.handOut d).links m) := by
        rw [hlink]
        exact ⟨rfl, rfl, rfl, rfl, rfl, rfl⟩
      obtain ⟨hbounded, hserial, hreplies⟩ := halike.follows ((State.owesFor_dueElsewhere hs).bounded m)
      exact ⟨hbounded, hserial, hreplies⟩
  have hdue : (s.handOut d).beamCtl.due.Sublist s.beamCtl.due := by
    refine BeamCtl.due_sublist (fun b => ?_) (List.Sublist.refl _)
    have hbeam : look (s.handOut d).beamCtl.beams b = loadedBeam (look d.heads (headOf b)).isSome := by
      simp [State.handOut, look]
    rw [hbeam, loadedBeam]
    split <;> exact List.nil_sublist _
  have hhanded : (s.handOut d).firstChoice.OwesFor s.dueElsewhere := Owes.less (c := s.beamCtl) hlinks hdue (List.Sublist.refl _)
  have hswept : (s.firstLoad d).OwesFor s.dueElsewhere := by
    rw [State.firstLoad, State.firstSweeps]
    exact State.OwesFor.foldl (fun _ i hu => hu.trySweep i) allHeads hhanded
  refine hswept.linksSound_of (List.Perm.of_eq (State.dueElsewhere_kept (State.firstLoad_keepsAllBut s d .handed (by decide)) ?_ ?_))
  · rw [State.firstLoad_settings]
  · rw [State.firstLoad_settings]

theorem exec_settingsLoadEnd_linksSound {a b : Bool} (hs : s.linksSound) (h : exec (.settingsLoadEnd a b) s = .next t) :
    t.linksSound := by
  cases h
  split
  · exact hs
  · exact State.firstLoad_linksSound hs _

theorem exec_pinReset_linksSound (h : exec .pinReset s = .next t) : t.linksSound := by
  cases h
  exact State.reset_linksSound

/-- Every command keeps the links' bounds. -/
theorem exec_keeps_linksSound {c : Instr} (h : exec c s = .next t) (hs : s.linksSound) : t.linksSound := by
  rcases hc : requestOf c with _ | ⟨code, l⟩
  · by_cases hline : writesOf c = [.links]
    · exact linksSound_of_footprint hs (exec_next_keeps h) (by rw [hline]; decide) (by rw [hline]; decide) fun rs =>
        exec_lines_owesFor h hline
    · by_cases hown : Part.handed ∉ writesOf c ∧ Part.settings ∉ writesOf c
      · exact linksSound_of_footprint hs (exec_next_keeps h) hown.1 hown.2 fun rs => exec_owesFor h hown.1 hown.2 hline
      · cases c with
        | messageReceived l bytes => exact exec_messageReceived_linksSound h hs
        | linkDown l receiving => exact exec_linkDown_linksSound h hs
        | storeWriteEnd e bs => exact exec_storeWrite_linksSound hs h (.inl ⟨e, bs, rfl⟩)
        | storeWriteTimeout bs => exact exec_storeWrite_linksSound hs h (.inr ⟨bs, rfl⟩)
        | restartAnswer => exact exec_restartAnswer_linksSound hs h
        | settingsLoadEnd a b => exact exec_settingsLoadEnd_linksSound hs h
        | pinReset => exact exec_pinReset_linksSound h
        | _ => simp [writesOf, requestOf] at hown hc
  · obtain rfl : s.taking code l (serveOf code) = t := by simpa [exec_of_requestOf hc] using h
    exact State.taking_linksSound hs code l

end

end Sys2Proof.Machine
end

section
/-! PROOFS. Every command keeps the settings memory's form and the parameters' ranges (O52: R173 to R176, R184). -/

namespace Sys2Proof.Machine

/-! ### Parameters in their ranges (R174) -/

/-- Every parameter lies in its range. -/
def InRanges (ps : Vector Nat 19) : Prop := ∀ i : Fin 19, (paramRange ps i).1 ≤ look ps i ∧ look ps i ≤ (paramRange ps i).2

theorem inRanges_defaults : InRanges paramDefaults := State.reset_paramsInRange

theorem InRanges.pauseMark_le {ps : Vector Nat 19} (h : InRanges ps) : look ps pPauseMark ≤ 2048 := (h pPauseMark).2

theorem InRanges.doseWarn_le {ps : Vector Nat 19} (h : InRanges ps) : look ps pDoseWarn ≤ 100000 := (h pDoseWarn).2

/-- A copy's parameters lie in their ranges. -/
theorem inRanges_loadParams (bs : List Byte) : InRanges (loadParams bs).1 := by
  have hpause : look (loadParams bs).1 pPauseMark ≤ 3008 := by
    have hrange : paramRange (loadParams bs).1 pPauseMark = (64, 2048) := rfl
    rw [loadParams_param, hrange]
    omega
  have hwarn : look (loadParams bs).1 pDoseWarn ≤ 499990 := by
    have hrange : paramRange (loadParams bs).1 pDoseWarn = (10, 100000) := rfl
    rw [loadParams_param, hrange]
    omega
  intro i
  have hrange := paramRange_le hpause hwarn i
  have hvalue := loadParams_param (bs := bs) i
  omega

theorem inRanges_chooseSettings (m : Memory) (a b : Bool) : InRanges (chooseSettings m a b).params := by
  unfold chooseSettings
  dsimp only
  (repeat' split)
  · exact inRanges_loadParams _
  · exact inRanges_loadParams _
  · exact inRanges_loadParams _
  · exact inRanges_loadParams _
  · exact inRanges_defaults

theorem paramRange_fixed (ps qs : Vector Nat 19) {k : Fin 19} (h8 : k ≠ 8) (h17 : k ≠ 17) : paramRange qs k = paramRange ps k := by
  revert h8 h17
  fin_cases k <;> simp [paramRange]

theorem leastBeside_fixed (i : Fin 19) (w : Nat) {k : Fin 19} (h8 : k ≠ 8) (h17 : k ≠ 17) : leastBeside i w k = 0 := by
  simp [leastBeside, h8, h17]

theorem inRange_mem {ps : Vector Nat 19} {i : Fin 19} (h : (paramRange ps i).1 ≤ (paramRange ps i).2) (v : Nat) :
    (paramRange ps i).1 ≤ inRange ps i v ∧ inRange ps i v ≤ (paramRange ps i).2 := by
  rw [inRange_le h]
  omega

/-- A pair keeps every parameter in its range, a dependent one by raising it. -/
theorem InRanges.applyPair {ps : Vector Nat 19} (h : InRanges ps) (i : Fin 19) (v : Nat) :
    InRanges (Machine.applyPair ps i v).1 := by
  obtain ⟨hlow, hhigh⟩ := inRange_mem ((h i).1.trans (h i).2) v
  have hlook := applyPair_look ps i v
  generalize inRange ps i v = w at hlow hhigh hlook
  generalize (Machine.applyPair ps i v).1 = qs at hlook
  have hdependent : ∀ (j k : Fin 19) (gap top : Nat), k ≠ j → leastBeside i w j = 0 →
      (∀ rs : Vector Nat 19, paramRange rs k = (look rs j + gap, top)) → (i = j → w + gap ≤ top ∧ leastBeside i w k = w + gap) →
      (i ≠ j → leastBeside i w k = 0) → (paramRange qs k).1 ≤ look qs k ∧ look qs k ≤ (paramRange qs k).2 := by
    intro j k gap top hne hnone hrange hraised hother
    have hk := h k
    rw [hrange] at hk ⊢
    simp only [hlook, hnone, Nat.max_zero]
    by_cases hj : i = j
    · subst hj
      obtain ⟨htop, hleast⟩ := hraised rfl
      rw [if_pos rfl, if_neg hne, hleast]
      omega
    · rw [if_neg (Ne.symm hj), hother hj]
      by_cases hi : k = i
      · subst hi
        rw [hrange] at hlow hhigh
        rw [if_pos rfl]
        exact ⟨hlow, hhigh⟩
      · rw [if_neg hi, Nat.max_zero]
        exact hk
  intro k
  by_cases h8 : k = 8
  · subst h8
    refine hdependent 7 8 64 3072 (by decide) (leastBeside_fixed i w (by decide) (by decide)) (fun _ => rfl) (fun hi => ?_)
      fun hi => by simp [leastBeside, hi]
    subst hi
    have htop : w ≤ 2048 := hhigh
    exact ⟨by omega, rfl⟩
  · by_cases h17 : k = 17
    · subst h17
      refine hdependent 16 17 10 500000 (by decide) (leastBeside_fixed i w (by decide) (by decide)) (fun _ => rfl) (fun hi => ?_)
        fun hi => by simp [leastBeside, hi]
      subst hi
      have htop : w ≤ 100000 := hhigh
      exact ⟨by omega, rfl⟩
    · rw [paramRange_fixed ps qs h8 h17, hlook k, leastBeside_fixed i w h8 h17, Nat.max_zero]
      split
      · next hi =>
        subst hi
        exact ⟨hlow, hhigh⟩
      · exact h k

theorem State.tuned_paramsInRange {s : State} (hs : s.paramsInRange) (ps : List (Fin 19 × Nat)) : (s.tuned ps).paramsInRange := by
  have hfold : ∀ (v : Vector Nat 19), InRanges v → InRanges (ps.foldl (fun v q => (Machine.applyPair v q.1 q.2).1) v) := by
    induction ps with
    | nil => exact fun v hv => hv
    | cons p ps ih => exact fun v hv => ih _ (hv.applyPair p.1 p.2)
  have hparams := hfold _ hs
  rw [← State.tuned_params] at hparams
  exact hparams

section
variable {s t : State}

/-- What neither the settings memory nor the parameters see. -/
structure Settings.HoldsTo (x y : Settings) : Prop where
  mem : y.mem = x.mem
  params : y.params = x.params

theorem serveReadCounters_holds (s : State) (r : Request) : s.settings.HoldsTo (serveReadCounters s r).settings := by
  have hcleared : ∀ g : Nat, s.settings.HoldsTo (s.clearGroup g).settings := fun g => by
    unfold State.clearGroup
    split <;> exact ⟨rfl, rfl⟩
  refine State.reading_keeps (P := fun u => s.settings.HoldsTo u.settings) ⟨rfl, rfl⟩ fun q _ => ?_
  split
  · exact ⟨rfl, rfl⟩
  · dsimp only [State.reply, State.onLink]
    split
    · exact hcleared q.1
    · exact ⟨rfl, rfl⟩

theorem serveStoreSettings_holds (s : State) (r : Request) : s.settings.HoldsTo (serveStoreSettings s r).settings := by
  refine State.reading_keeps (P := fun u => s.settings.HoldsTo u.settings) ⟨rfl, rfl⟩ fun q _ => ?_
  split
  · exact ⟨rfl, rfl⟩
  · exact ⟨rfl, rfl⟩

theorem serveRestart_holds (s : State) (r : Request) : s.settings.HoldsTo (serveRestart s r).settings := by
  refine State.reading_keeps (P := fun u => s.settings.HoldsTo u.settings) ⟨rfl, rfl⟩ fun _ _ => ?_
  dsimp only
  split
  · exact ⟨rfl, rfl⟩
  · rw [State.settings_restartUnits]
    exact ⟨rfl, rfl⟩

/-- The settings memory keeps its form, and the parameters their ranges. -/
structure Settings.Keeps (x y : Settings) : Prop where
  mem : Memory.wf x.mem = true → Memory.wf y.mem = true
  params : InRanges x.params → InRanges y.params

theorem Settings.HoldsTo.keeps {x y : Settings} (h : x.HoldsTo y) : x.Keeps y :=
  ⟨fun hx => by rwa [h.mem], fun hx => by rwa [h.params]⟩

theorem serveTune_keeps (s : State) (r : Request) : s.settings.Keeps (serveTune s r).settings := by
  refine State.reading_keeps (P := fun u => s.settings.Keeps u.settings) (Settings.HoldsTo.keeps ⟨rfl, rfl⟩) fun ps _ => ?_
  have hmem : (s.tuned ps).settings.mem = s.settings.mem := (s.tuned_tunesTo ps).mem
  have hkeeps : s.settings.Keeps (s.tuned ps).settings :=
    ⟨fun hx => by rwa [hmem], fun hx => State.tuned_paramsInRange hx ps⟩
  exact ⟨hkeeps.mem, hkeeps.params⟩

/-- What the owner of a request does keeps the settings memory's form and the parameters' ranges. -/
theorem serveOf_settings_keep (code : ReqCode) (s : State) (r : Request) : s.settings.Keeps (serveOf code s r).settings := by
  by_cases hpart : Part.settings ∈ writesOf (code.command 0)
  · cases code with
    | readCounters => exact (serveReadCounters_holds s r).keeps
    | tune => exact serveTune_keeps s r
    | storeSettings => exact (serveStoreSettings_holds s r).keeps
    | restart => exact (serveRestart_holds s r).keeps
    | _ => simp [ReqCode.command, writesOf] at hpart
  · rw [serveOf_keepsAllBut code 0 s r .settings hpart]
    exact Settings.HoldsTo.keeps ⟨rfl, rfl⟩

/-- A store writes an area, and no parameter (R175). -/
theorem State.endStore_settings_keep (s : State) (j : StoreJob) (good : Bool) (contents : List Byte) :
    s.settings.Keeps (s.endStore j good contents).settings := by
  have hwrote : s.settings.Keeps (s.settings.wrote j contents) := by
    refine ⟨fun hx => ?_, fun hx => ?_⟩
    · rw [Settings.wrote_mem]
      exact Memory.writeBytes_wf hx _ _
    · rw [(s.settings.wrote_rest j contents).1]
      exact hx
  cases good with
  | true => exact ⟨hwrote.mem, hwrote.params⟩
  | false => exact ⟨hwrote.mem, hwrote.params⟩

/-- Every command keeps the settings memory's form and the parameters' ranges. -/
theorem exec_settings_keep {c : Instr} (h : exec c s = .next t) : s.settings.Keeps t.settings := by
  have hsame : s.settings.Keeps s.settings := Settings.HoldsTo.keeps ⟨rfl, rfl⟩
  rcases hc : requestOf c with _ | ⟨code, l⟩
  · by_cases hpart : Part.settings ∈ writesOf c
    · cases c with
      | storeWriteEnd e bs =>
        cases h
        (repeat' split)
        · exact s.endStore_settings_keep _ _ bs
        · exact hsame
        · exact hsame
      | storeWriteTimeout bs =>
        cases h
        (repeat' split)
        · exact s.endStore_settings_keep _ _ bs
        · exact hsame
        · exact hsame
      | restartAnswer =>
        cases h
        split
        · next q _ =>
          have hraised : ((s.reply q .ok (.times s.now s.nowSec)).raiseWhere (fun l _ => l != q.link)
              (.restarted s.now s.nowSec s.settings.source q.link)).settings = s.settings := by simp
          have hanswered : (s.answerRestart q).settings = { s.settings with restart := none } :=
            congrArg (fun x : Settings => { x with restart := none }) hraised
          rw [hanswered]
          exact Settings.HoldsTo.keeps ⟨rfl, rfl⟩
        · exact hsame
      | settingsLoadEnd a b =>
        cases h
        split
        · exact hsame
        · have hload : ∀ d : Load, InRanges d.params → s.settings.Keeps (s.firstLoad d).settings := fun d hd => by
            rw [State.firstLoad_settings]
            exact ⟨fun hx => hx, fun _ => hd⟩
          exact hload _ (inRanges_chooseSettings _ _ _)
      | pinReset =>
        cases h
        exact ⟨fun hx => hx, fun _ => inRanges_defaults⟩
      | _ => simp [writesOf, requestOf] at hpart hc
    · rw [exec_next_keeps h .settings hpart]
      exact hsame
  · obtain rfl : s.taking code l (serveOf code) = t := by simpa [exec_of_requestOf hc] using h
    unfold State.taking
    (repeat' split)
    · exact hsame
    · next r _ _ => exact serveOf_settings_keep code (s.taken r) r
    · exact hsame

/-- Settles O52: every request that a unit holds stays answerable once until it is answered; a store writes an area whole, and
parameters are written within their ranges. -/
theorem stepsKeepLinksMemoryAndRanges : Obligations.StepsKeepLinksMemoryAndRanges := by
  intro s t h
  have hkept : s.settings.Keeps t.settings := step_keeps (P := fun u => s.settings.Keeps u.settings) (fun _ _ hu => hu)
    (fun _ _ _ hexec hu => ⟨fun hx => (exec_settings_keep hexec).mem (hu.mem hx),
      fun hx => (exec_settings_keep hexec).params (hu.params hx)⟩) (Settings.HoldsTo.keeps ⟨rfl, rfl⟩) h
  exact ⟨fun hs => step_keeps (fun _ _ hu => hu) (fun _ _ _ => exec_keeps_linksSound) hs h, hkept.mem, hkept.params⟩

end

end Sys2Proof.Machine
end
